-- ==== Sys2Proof/Word.lean ====
section
/-! DEFINITION. The word types of the device (00_scope.md R6, R7, R9). -/

namespace Sys2Proof

/-- One byte. -/
abbrev Byte := BitVec 8

/-- One 32-bit register word (every BAR0 register is 32 bits wide, R634). -/
abbrev Word := BitVec 32

/-- A 64-bit value: tide values, addresses, digests, wide brine words. -/
abbrev DWord := BitVec 64

end Sys2Proof
end

