-- ==== Sys2Proof/Syntax.lean ====
section
/-! DEFINITION. The commands of the block: one constructor per row of the opcode table, with its operands.
Operands name what a sender chooses (a register value, a doorbell, a cell on a port) and what the physical world decides
(a failed check, a temperature, a training result). Times are not operands: an event that is the tide reaching a value
happens at that value. -/

namespace Sys2Proof

/-- The 32-byte cell header of R65, field by field. -/
structure CellHdr where
  ctype : Byte
  flags : Byte
  stream : BitVec 16
  frame : BitVec 32
  slot : Byte
  rsv9 : Byte
  epoch : BitVec 16
  tag : BitVec 32
  index : BitVec 32
  source : BitVec 16
  length : BitVec 16
  rsv24 : BitVec 32
  crc : BitVec 32
  deriving DecidableEq, Repr

/-- What a control cell of slot 1 carries (R63, R68, R79 prose, R337, R379, R404). The manual gives the content and no byte
layout, so a control cell is the list of its notices. -/
inductive Notice where
  /-- The landed mark of a stream's transfer, with the reject bit of R379 and, for a reduction, whether the transfer was
  late and whether it was carried (R385). -/
  | landed (stream : BitVec 16) (tag : BitVec 32) (mark : Nat) (reject late carried : Bool)
  /-- A go-back request (R67). -/
  | goBack (stream : BitVec 16) (tag : BitVec 32) (mark : Nat)
  /-- A verdict query for a step (R337). -/
  | query (step : BitVec 32)
  /-- A hold or stop notice of the sender (R63). -/
  | hold (on : Bool)
  deriving DecidableEq, Repr

/-- A cell as it crosses a port: header, 928 payload bytes (R65), and for a control cell its notices. -/
structure Cell where
  hdr : CellHdr
  payload : List Byte
  notices : List Notice
  deriving DecidableEq, Repr

/-- A sync message (R430). -/
structure SyncMsg where
  mtype : Byte
  sub : Byte
  counter : BitVec 16
  operand : BitVec 32
  dst : BitVec 16
  src : BitVec 16
  lo : BitVec 16
  hi : BitVec 16
  deriving DecidableEq, Repr

/-- What the RS decoder finds in one codeword (R492): the symbols it corrected, by logical lane, or that it is
uncorrectable. -/
inductive Codeword where
  | ok (correctedByLane : List Nat)
  | uncorrectable
  deriving DecidableEq, Repr

/-- A line block after deskew, descrambling and RS decoding (R489, R490): the marker bytes of the lanes to which training gave
logical lanes 0 to 7 and of lane 8 as the spare, the three decoder results, the block tag and its two cells; `copyDiff` is what the comparison of R498 counted. -/
structure LineBlock where
  markers : List Byte
  words : List Codeword
  tagFrame : BitVec 16
  tagPair : BitVec 7
  switchReq : BitVec 4
  switchState : BitVec 4
  park : Bool
  cell0 : Cell
  cell1 : Cell
  copyDiff : Nat
  deriving DecidableEq, Repr

/-- What one training of a port finds (R496, R497): receive and transmit lanes that pass, the peer's identity, and the
measured link delay in 1/65536 ns; `ok` is false when a phase other than the lane test fails or overruns. -/
structure TrainResult where
  ok : Bool
  rxPass : BitVec 9
  txPass : BitVec 9
  peerChip : BitVec 16
  peerPort : BitVec 5
  peerDir : BitVec 3
  delay : Nat
  deriving DecidableEq, Repr

/-- What upsets an array instruction (R116 to R120): nothing, a failed column check at a streamed row, or a failed row
check of a group of 128 rows. -/
inductive ArrUpset where
  | none
  | column (row : Nat)
  | group (g : Nat)
  deriving DecidableEq, Repr

/-- What upsets a fabric run (R217, R532): nothing, a datapath or residue fault, a second one in the same run, a plane parity error, an
uncorrectable shadow, or a lane register parity error. -/
inductive FabUpset where
  | none
  | datapath
  | datapathTwice
  | plane
  | fatal
  | lane
  deriving DecidableEq, Repr

/-- What upsets a pass of an update engine (R531): lanes that agree, one mismatch, or a second in the same pass. -/
inductive LaneUpset where
  | none
  | once
  | twice
  deriving DecidableEq, Repr

/-- A rounding-free upset of a solver operation (R309): nothing, one lane parity error, a second one in the same iteration,
a corrected or an uncorrectable store error. -/
inductive SolverUpset where
  | none
  | lane
  | laneTwice
  | corrected
  | fatal
  deriving DecidableEq, Repr

/-- An upset of a SOLVE (R309): nothing, one lane parity error or a corrected store error, after which the solve goes on; or a second lane error of one
iteration or an uncorrectable store error, which comes with `done` iterations complete and ends it. -/
inductive SolveUpset where
  | none
  | lane
  | corrected
  | laneTwice (done : Nat)
  | fatal (done : Nat)
  deriving DecidableEq, Repr

/-- The upset of a solver operation that an upset of a solve is. -/
def SolveUpset.kind : SolveUpset → SolverUpset
  | .none => .none
  | .lane => .lane
  | .corrected => .corrected
  | .laneTwice _ => .laneTwice
  | .fatal _ => .fatal

/-- The iterations complete when the upset ends the solve, if it does. -/
def SolveUpset.endsAt : SolveUpset → Option Nat
  | .laneTwice n | .fatal n => some n
  | _ => Option.none

/-- The context that issues a FAB_LANE (R213), and whether the instruction meets a lane register of wrong parity (R217). -/
structure LaneIssue where
  ctx : Fin 4
  parity : Bool
  deriving DecidableEq, Repr

/-- A turn of the commit of a group (R343): of what is left of it `upTo` steps, or all. -/
structure CommitTurn where
  group : Fin 4096
  upTo : Option Nat
  deriving DecidableEq, Repr

/-- The outcome of one scrubbed line (R518 to R520, R522, R524): clean; corrected, with the die that erred, the place of the row in the stack
(the controller's layout is not visible to software, R509) and whether the row's bank has a spare row left; or uncorrectable. -/
inductive LineOutcome where
  | clean
  | corrected (die channel pseudo bank row : Nat) (spare : Bool)
  | uncorrectable
  deriving DecidableEq, Repr

/-- What the boot chain finds on its way (R573, R574, R587, R542, R538): the checks of the loader copies, of the image set that boots first and of
the one that a fallback restores, by the boot ROM and by the monitor, and of the two board records; the loader's digest and version; and,
where the repair record is rebuilt, the row tests that failed (block, and the row that explains it), and what the scrub pass finds (stack, line). -/
structure BootReport where
  loader0 : Bool
  loader1 : Bool
  romPass : Bool
  monitorPass : Bool
  prevRomPass : Bool
  prevMonitorPass : Bool
  board0 : Bool
  board1 : Bool
  loaderDigest : BitVec 256
  loaderVersion : BitVec 32
  rowTests : List (Fin 64 × Option (Fin 132))
  scrubFinds : List (Fin 24 × Nat × LineOutcome)
  deriving DecidableEq, Repr

/-- A hardware direction of a port's tables. -/
inductive Dir where
  | tx
  | rx
  deriving DecidableEq, Repr

/-- The sensors of R539. -/
inductive Sensor where
  | die (r : Fin 4)
  | hub
  | stack (k : Fin 24)
  deriving DecidableEq, Repr

/-- Who reads a counter (R600). -/
inductive Agent where
  | host
  | core (k : Fin 4)
  deriving DecidableEq, Repr

/-- The I3C common command codes that the target accepts (R633). -/
inductive Ccc where
  | entdaa (address : BitVec 7)
  | setdasa (address : BitVec 7)
  | getstatus
  | rstact (action : Byte)
  deriving DecidableEq, Repr

/-- How a unit of the module reaches a counter address (R418, R638). -/
inductive Source where
  | ring (r : Fin 65536)
  | block (b : Fin 64)
  | other (k : Fin 3)
  | alarm (n : Fin 16)
  deriving DecidableEq, Repr

/-- The commands. `e` is the index of a journal entry (R469), `b` a logical block, `c` a job context, `p` a port, `r` a
region. A block instruction command issues the next instruction of the block program that runs in
context `c` of block `b` (R97, R467). -/
inductive Instr where
  /-- REGISTER_WRITE (R10): the 4-byte write of a BAR0 register. -/
  | registerWrite (a : BitVec 26) (v : Word)
  /-- COLD_RESET (R609). -/
  | coldReset (rep : BootReport)
  /-- POWER_ON (R615). -/
  | powerOn (rep : BootReport)
  /-- PERST_ASSERT (R609). -/
  | perstAssert
  /-- PERST_RELEASE (R615). -/
  | perstRelease (rep : BootReport)
  /-- INPUT_POWER_LOSS (R627). -/
  | inputPowerLoss
  /-- COLD_RESET_REQUEST (R621). -/
  | coldResetRequest
  /-- WARM_RESET_REQUEST (R612). -/
  | warmResetRequest
  /-- PCIE_FUNCTION_LEVEL_RESET (R613). -/
  | pcieFunctionLevelReset
  /-- WARM_RESET (R612). -/
  | warmReset (rep : BootReport)
  /-- REGION_RESET_REQUEST (R614): the bits of region_reset written with 1. -/
  | regionResetRequest (bits : BitVec 4)
  /-- REGION_RESET (R614). -/
  | regionReset (r : Fin 4)
  /-- MAINT_REQUEST (R30). -/
  | maintRequest
  /-- MAINT_MODE_ENTER (R30). -/
  | maintModeEnter
  /-- MAINT_RELEASE (R30). -/
  | maintRelease
  /-- CONTEXT_SWITCH (R18). -/
  | contextSwitch (b : Fin 64) (c : Fin 4)
  /-- BLOCK_ERROR (R22): `executing` is the context whose instruction erred, none for a background check; `unit` the code of
  R545. -/
  | blockError (b : Fin 64) (executing : Option (Fin 4)) (unit : Fin 16)
  /-- REGION_FENCE (R23). -/
  | regionFence (r : Fin 4) (unit : Fin 16)
  /-- JOURNAL_MIRROR_REESTABLISH (R25). -/
  | journalMirrorReestablish
  /-- HUB_FAULT (R25). -/
  | hubFault
  /-- REMOTE_SIGNAL_SEND (R31). -/
  | remoteSignalSend
  /-- FRAME_BOUNDARY (R41). -/
  | frameBoundary
  /-- TID_NOW_LO_READ (R42). -/
  | tidNowLoRead
  /-- SLOT_TRANSMIT (R63): `wrong` says the cell generator formed the cell wrongly (R495). -/
  | slotTransmit (p : Fin 18) (slot : Fin 256) (wrong : Option Cell)
  /-- TIDE_CELL_RECEIVE (R44): the cell and the local tide, with its fraction, of its first line bit. -/
  | tideCellReceive (p : Fin 18) (cell : Cell) (t4 : BitVec 64) (t4frac : BitVec 16)
  /-- EPOCH_FOLLOW (R55). -/
  | epochFollow
  /-- ROOT_ANNOUNCE_TIMEOUT (R47). -/
  | rootAnnounceTimeout
  /-- HOLDOVER_ENTER (R57). -/
  | holdoverEnter
  /-- HOLDOVER_EXPIRY (R57). -/
  | holdoverExpiry
  /-- TIDE_REF_EDGE (R49). -/
  | tideRefEdge
  /-- TIDE_REF_LOSS (R51). -/
  | tideRefLoss
  /-- TIDE_PPS_EDGE (R49). -/
  | tidePpsEdge
  /-- TIDE_PPS_LOSS (R51). -/
  | tidePpsLoss
  /-- EPOCH_ARM (R50). -/
  | epochArm
  /-- ALARM_ARM (R60): the value written to TID_ALARMn_CTL, armed going from 0 to 1. -/
  | alarmArm (n : Fin 16) (v : Word)
  /-- ALARM_FIRE (R60). -/
  | alarmFire (n : Fin 16)
  /-- TIDE_OUT_RISE (R62). -/
  | tideOutRise
  /-- TIDE_OUT_FALL (R62). -/
  | tideOutFall
  /-- LINE_BLOCK_RECEIVE (R489). -/
  | lineBlockReceive (p : Fin 18) (blk : LineBlock)
  /-- DATA_CELL_RECEIVE (R67): the cell, and for a contribution the first element that the sending REDUCE gives (R360), which no header field
  carries. -/
  | dataCellReceive (p : Fin 18) (cell : Cell) (first : BitVec 32)
  /-- CELL_FORWARD (R73): the first cell that waits to leave on port `p`. -/
  | cellForward (p : Fin 18)
  /-- CONTROL_CELL_RECEIVE (R68). -/
  | controlCellReceive (p : Fin 18) (cell : Cell)
  /-- TRANSFER_REQUEUE (R86): the transfer of a stream and tag at the end named. -/
  | transferRequeue (d : Dir) (stream : BitVec 16) (tag : BitVec 32)
  /-- WEB_TABLE (R75). -/
  | webTable (e : Nat)
  /-- WEB_TABLE_CANCEL (R79). -/
  | webTableCancel (e : Nat)
  /-- BANK_SWAP (R80). -/
  | bankSwap (p : Fin 18) (d : Dir)
  /-- STREAM_HOLD (R93). -/
  | streamHold (stream : BitVec 16)
  /-- STREAM_RESUME (R93). -/
  | streamResume (stream : BitVec 16)
  /-- PORT_HOLD_REQUEST (R94). -/
  | portHoldRequest (p : Fin 18) (on : Bool)
  /-- PORT_STOP_REQUEST (R87). -/
  | portStopRequest (p : Fin 18) (on : Bool)
  /-- PORT_TRAINING (R496). -/
  | portTraining (p : Fin 18) (res : TrainResult)
  /-- SPARE_LANE_SWITCH (R500). -/
  | spareLaneSwitch (p : Fin 18)
  /-- PORT_FENCE (R504). -/
  | portFence (p : Fin 18)
  /-- FENCE_REQ (R504). -/
  | fenceReq (p : Fin 18)
  /-- UNFENCE (R506). -/
  | unfence (p : Fin 18)
  /-- RETRAIN (R506). -/
  | retrain (p : Fin 18)
  /-- WAKE_PATTERN_SEND (R502). -/
  | wakePatternSend (p : Fin 18)
  /-- WAKE_PATTERN_DETECT (R502). -/
  | wakePatternDetect (p : Fin 18)
  /-- ARR_STREAM (R97). -/
  | arrStream (b : Fin 64) (c : Fin 4) (upset : ArrUpset)
  /-- INSTRUCTION_REPLAY (R119). -/
  | instructionReplay (b : Fin 64) (upset : ArrUpset)
  /-- ROW_TEST (R120): the physical row that alone explains the discrepancies, if one does. -/
  | rowTest (b : Fin 64) (row : Option (Fin 132))
  /-- BLOCK_REINIT (R108). -/
  | blockReinit (b : Fin 64)
  /-- ARR_ELEM (R115). -/
  | arrElem (b : Fin 64) (c : Fin 4)
  /-- STEP (R121). -/
  | step (b : Fin 64) (c : Fin 4)
  /-- PAN_DRAIN (R143). -/
  | panDrain (b : Fin 64) (c : Fin 4)
  /-- PAN_LOAD (R148). -/
  | panLoad (b : Fin 64) (c : Fin 4)
  /-- PAN_STORE (R148). -/
  | panStore (b : Fin 64) (c : Fin 4)
  /-- PAN_WINDOW_READ (R152): offset in the tile window and length. -/
  | panWindowRead (b : Fin 64) (off : BitVec 21) (len : Nat)
  /-- PAN_WINDOW_WRITE (R154). -/
  | panWindowWrite (b : Fin 64) (off : BitVec 21) (data : List Byte)
  /-- PAN_WINDOW_TIMEOUT (R153): the oldest waiting window access. -/
  | panWindowTimeout (b : Fin 64)
  /-- PAN_DEBUG_REQUEST (R156). -/
  | panDebugRequest (b : Fin 64)
  /-- PAN_DEBUG_ENTER (R156). -/
  | panDebugEnter (b : Fin 64)
  /-- PAN_DEBUG_EXIT (R156). -/
  | panDebugExit (b : Fin 64)
  /-- INJECT_PARITY (R160). -/
  | injectParity (b : Fin 64)
  /-- PAN_DBG_ELEM_WRITE (R162). -/
  | panDbgElemWrite (b : Fin 64) (n : Fin 128) (v : Word)
  /-- FAB_CFG (R201). -/
  | fabCfg (b : Fin 64) (c : Fin 4)
  /-- FAB_RUN (R204). -/
  | fabRun (b : Fin 64) (c : Fin 4) (upset : FabUpset)
  /-- FAB_LANE (R213). -/
  | fabLane (b : Fin 64) (c : LaneIssue)
  /-- PLANE_SCAN (R217): the plane found faulty, if any, and whether its shadow can restore it. -/
  | planeScan (b : Fin 64) (bad : Option (Fin 2)) (restorable : Bool)
  /-- GRM_TAP (R220). -/
  | grmTap (b : Fin 64) (c : Fin 4)
  /-- GRAM_ROW_START (R224): `parity` says a stat-pan word was read with wrong parity or residue. -/
  | gramRowStart (b : Fin 64) (parity : Bool)
  /-- GRM_DRAIN (R229). -/
  | grmDrain (b : Fin 64) (c : Fin 4) (parity : Bool)
  /-- STATS (R237). -/
  | stats (e : Nat) (upset : LaneUpset)
  /-- ROOT (R273). -/
  | root (e : Nat)
  /-- ROOT_ITERATION_END (R256): `differs` says a duplicate's result differs from the primary's (R272). -/
  | rootIterationEnd (e : Nat) (differs : Bool)
  /-- ROOT_DEADLINE (R270). -/
  | rootDeadline (e : Nat)
  /-- SOLVER_LOAD (R282): `f` is the binary point that Merdy sets (R286). -/
  | solverLoad (e : Nat) (f : Nat) (upset : SolverUpset)
  /-- SOLVER_UPDATE (R290): `f` is the binary point that Merdy sets when it rescales (R291). -/
  | solverUpdate (e : Nat) (f : Nat) (upset : SolverUpset)
  /-- SOLVER_SOLVE (R293). -/
  | solverSolve (e : Nat) (upset : SolveUpset)
  /-- SOLVE_DEADLINE (R299): iterations complete when the deadline is reached; none where it comes in setup. -/
  | solveDeadline (e : Nat) (done : Option Nat)
  /-- STRUCTURE_SCRUB (R309). -/
  | structureScrub (r : Fin 4) (upset : SolverUpset)
  /-- GATHER_WIDEN (R318). -/
  | gatherWiden (e : Nat)
  /-- GATHER_START (R319): at the owner, the request of a gather: requester, destination tag, shard area, range, format,
  stream, hold limit and minimum version. -/
  | gatherStart (requester : BitVec 16) (shard : BitVec 48) (first count : BitVec 32) (fmt8 : Bool)
      (stream : BitVec 16) (tag : BitVec 32) (dst : BitVec 48) (hold : Byte) (minVersion : BitVec 64)
  /-- UPDATE (R329). -/
  | update (e : Nat) (upset : LaneUpset)
  /-- NORM_RECORD_LAND (R375): the oldest norm record that a completed BROADCAST receive has handed over; `split` says the two verdict units
  disagree (R533). -/
  | normRecordLand (split : Bool)
  /-- VERDICT_CELL_SEND (R333): for the step whose frame V has begun. -/
  | verdictCellSend (step : BitVec 32)
  /-- VERDICT_CELL_RECEIVE (R334): `crcBad` says the slot-3 cell failed its CRC. -/
  | verdictCellReceive (p : Fin 18) (cell : Cell) (crcBad : Bool)
  /-- VERDICT_MISSING_CELL (R334). -/
  | verdictMissingCell (p : Fin 18) (step : BitVec 32)
  /-- VERDICT_CONFIRM (R336). -/
  | verdictConfirm (step : BitVec 32)
  /-- VERDICT_QUERY_SEND (R337). -/
  | verdictQuerySend (step : BitVec 32)
  /-- VERDICT_QUERY_RECEIVE (R337). -/
  | verdictQueryReceive (p : Fin 18) (step : BitVec 32)
  /-- VERDICT_ANSWER_RECEIVE (R337): the answer cell and the norm record that Merdy reads from the owner's ring (R377). -/
  | verdictAnswerReceive (p : Fin 18) (cell : Cell) (rec : List Byte)
  /-- GROUP_BEGIN (R341). -/
  | groupBegin (e : Nat)
  /-- GROUP_COMMIT (R343). -/
  | groupCommit (e : Nat)
  /-- GROUP_COMMIT_EXECUTE (R343). -/
  | groupCommitExecute (g : CommitTurn)
  /-- GROUP_ABORT (R344). -/
  | groupAbort (e : Nat)
  /-- GROUP_DEADLINE (R347). -/
  | groupDeadline (g : Fin 4096)
  /-- REDUCE_SEND (R383). -/
  | reduceSend (e : Nat)
  /-- NORM_SEND (R374). -/
  | normSend (e : Nat)
  /-- REDUCE_HARVEST (R383). -/
  | reduceHarvest (e : Nat)
  /-- SLUICE_REACHED (R363). -/
  | sluiceReached (win : Fin 6144)
  /-- GRACE_EXPIRY (R364). -/
  | graceExpiry (win : Fin 6144)
  /-- WINDOW_READOUT (R369): cells whose ECC or residue check fails uncorrectably. -/
  | windowReadout (win : Fin 6144) (badCells : List Nat)
  /-- BROADCAST_SEND (R386). -/
  | broadcastSend (e : Nat)
  /-- BROADCAST_RECEIVE (R386). -/
  | broadcastReceive (e : Nat)
  /-- BROADCAST_RELAY (R386): the next landed cell of the stream that waits to be relayed. -/
  | broadcastRelay (stream : BitVec 16)
  /-- OWNER_MAP (R397). -/
  | ownerMap (e : Nat)
  /-- OWNER_MAP_REMOVE (R398). -/
  | ownerMapRemove (e : Nat)
  /-- MAP_ACTIVATE (R398): the oldest map change whose activation tide has come. -/
  | mapActivate
  /-- RING_STEP (R403). -/
  | ringStep (e : Nat)
  /-- RING_STEP_LANDING_OPEN (R404). -/
  | ringStepLandingOpen (e : Nat)
  /-- RING_STEP_DEADLINE (R407). -/
  | ringStepDeadline (e : Nat)
  /-- SIGNAL_ADD (R436). -/
  | signalAdd (e : Nat)
  /-- SIGNAL_SET (R436). -/
  | signalSet (e : Nat)
  /-- SIGNAL_OR (R436). -/
  | signalOr (e : Nat)
  /-- SIGNAL_ANDN (R436). -/
  | signalAndn (e : Nat)
  /-- SAVE (R439). -/
  | save (e : Nat)
  /-- RESTORE (R439). -/
  | restore (e : Nat)
  /-- THAW (R439). -/
  | thaw (e : Nat)
  /-- DUMP (R442). -/
  | dump (e : Nat)
  /-- WAIT_OBSERVE (R437). -/
  | waitObserve (e : Nat)
  /-- WAIT_CLAIM (R437). -/
  | waitClaim (e : Nat)
  /-- WAITER_DEADLINE (R425). -/
  | waiterDeadline (e : Nat)
  /-- SYN_SIGNAL (R435). -/
  | synSignal (b : Fin 64) (c : Fin 4)
  /-- SYN_WAIT (R435). -/
  | synWait (b : Fin 64) (c : Fin 4)
  /-- COUNTER_LOAD (R418): a load of `len` bytes at a byte offset from counter 0. -/
  | counterLoad (off : BitVec 19) (len : Nat) (src : Source)
  /-- COUNTER_STORE_SET (R418): a store at offset 0 of a counter address. -/
  | counterStoreSet (n : BitVec 16) (data : List Byte) (src : Source)
  /-- COUNTER_STORE_ADD (R418): a store at offset 4 of a counter address. -/
  | counterStoreAdd (n : BitVec 16) (data : List Byte) (src : Source)
  /-- COUNTER_OPERATION (R423): the oldest operation that waits at the home of region `r`. -/
  | counterOperation (r : Fin 4)
  /-- WATCH_REGISTER (R420): the oldest registration that waits at the home of region `r`. -/
  | watchRegister (r : Fin 4)
  /-- WATCH_CANCEL (R425): the oldest cancel that waits at the home of region `r`. -/
  | watchCancel (r : Fin 4)
  /-- FIRE_MESSAGE_RECEIVE (R425): the oldest fire message on its way to a waiter of this module. -/
  | fireMessageReceive
  /-- SYNC_CELL_RECEIVE (R431). -/
  | syncCellReceive (p : Fin 18) (cell : Cell)
  /-- SYNC_MESSAGE_FORWARD (R432): the oldest message that waits to be forwarded. -/
  | syncMessageForward
  /-- CTX_RANGE_WRITE (R445). -/
  | ctxRangeWrite (c : Fin 4) (v : Word)
  /-- DESCRIPTOR_DOORBELL (R456): offset within the 16-byte slot and the data written. -/
  | descriptorDoorbell (r : Fin 65536) (off : BitVec 4) (data : List Byte)
  /-- COMPLETION_DOORBELL (R456). -/
  | completionDoorbell (r : Fin 65536) (off : BitVec 4) (data : List Byte)
  /-- DESCRIPTOR_ACCEPT (R469): `fetchOk` is false when a host fetch ends with an error or poison (R460). -/
  | descriptorAccept (r : Fin 65536) (fetchOk : Bool)
  /-- DESCRIPTOR_DISPATCH (R463). -/
  | descriptorDispatch
  /-- COMPLETION_WRITE (R470): the oldest completion that waits to be written; `badTlp` says the endpoint's checker finds its TLP wrongly
  formed (R534). -/
  | completionWrite (badTlp : Bool)
  /-- DESCRIPTOR_RETIRE (R470). -/
  | descriptorRetire (e : Nat)
  /-- JOURNAL_REPLAY (R480). -/
  | journalReplay
  /-- RNG_CFG_WRITE (R454): register word 0 (BASE_LO), 1 (BASE_HI) or 2 (CFG) of a ring table entry. -/
  | rngCfgWrite (r : Fin 65536) (reg : Fin 3) (v : Word)
  /-- RING_ENABLE (R451): RNG_CFG written with enable 1. -/
  | ringEnable (r : Fin 65536) (v : Word)
  /-- RING_DISABLE (R454): RNG_CFG written with enable 0. -/
  | ringDisable (r : Fin 65536) (v : Word)
  /-- RNG_SEQ_WRITE (R454). -/
  | rngSeqWrite (r : Fin 65536) (v : Word)
  /-- REFUSED_CLEAR (R460). -/
  | refusedClear (r : Fin 65536)
  /-- INTERRUPT_MODERATION (R482): the time_us timer of a completion ring runs out. -/
  | interruptModeration (r : Fin 65536)
  /-- MSIX_UNMASK (R448). -/
  | msixUnmask (v : Fin 2048)
  /-- COPY (R465): what the controllers find on its source lines that are not clean (R519, R520), by the line's place in the source;
  `badTlp` says the endpoint's checker finds a TLP of it wrongly formed (R534). -/
  | copy (e : Nat) (upsets : List (Nat × LineOutcome)) (badTlp : Bool)
  /-- STREAM_SEND (R466). -/
  | streamSend (e : Nat)
  /-- STREAM_RECEIVE (R466). -/
  | streamReceive (e : Nat)
  /-- LAUNCH (R467). -/
  | launch (e : Nat)
  /-- NOP (R468). -/
  | nop (e : Nat)
  /-- CONFIG (R589). -/
  | config (e : Nat)
  /-- SNAPSHOT (R605). -/
  | snapshot (e : Nat)
  /-- SNAPSHOT_CAPTURE (R606). -/
  | snapshotCapture (e : Nat)
  /-- CNT_VALUE_LO_READ (R600). -/
  | cntValueLoRead (k : Fin 4096) (who : Agent)
  /-- COUNTER_WRAP (R599): an advance by `n` that carries counter `k` past 2^48 − 1. -/
  | counterWrap (k : Fin 4096) (n : Nat)
  /-- PORT_BW_WINDOW_END (R604). -/
  | portBwWindowEnd
  /-- BAR4_WINDOW_READ (R517): bus offset and length. -/
  | bar4WindowRead (off : BitVec 40) (len : Nat)
  /-- BAR4_WINDOW_WRITE (R517). -/
  | bar4WindowWrite (off : BitVec 40) (data : List Byte)
  /-- BAR0_MISALIGNED_ACCESS (R634): a read (`len` bytes) or write of another size or alignment. -/
  | bar0MisalignedAccess (a : BitVec 26) (len : Nat) (write : Bool)
  /-- PATROL_SCRUB (R523): the controller of stack `k` reads its next line. -/
  | patrolScrub (k : Fin 24) (out : LineOutcome)
  /-- REPAIR_RECORD_WRITE (R536). -/
  | repairRecordWrite
  /-- ERROR_COALESCE_EXPIRY (R546). -/
  | errorCoalesceExpiry
  /-- HUB_ERR_HEAD_WRITE (R546). -/
  | hubErrHeadWrite (v : Word)
  /-- ABFT_SAMPLE_WRITE (R548): the value written to HUB_REDUN_CTL. -/
  | abftSampleWrite (v : Word)
  /-- MONITOR_POWER_SAMPLE (R539): the 1 ms and 20 µs averages in 0.1 W, the voltage in 10 mV, and whether it has been outside
  its limits for 1 ms. -/
  | monitorPowerSample (avg peak : BitVec 16) (volts : BitVec 16) (outFor1ms : Bool)
  /-- MONITOR_TEMPERATURE (R539). -/
  | monitorTemperature (sensor : Sensor) (celsius : Byte)
  /-- CLOCK_FAULT (R539). -/
  | clockFault (r : Fin 4)
  /-- SHUTDOWN_CAUSE_CLEAR (R541). -/
  | shutdownCauseClear
  /-- HEARTBEAT_TIMEOUT (R543). -/
  | heartbeatTimeout
  /-- POWER_GOVERNOR_SAMPLE (R553, R555): the hub's own 1 ms and 20 µs averages of input power, in watts. -/
  | powerGovernorSample (avg peak : BitVec 12)
  /-- PWR_LIMIT_WRITE (R554). -/
  | pwrLimitWrite (v : Word)
  /-- PWR_BRAKE_ASSERT (R555). -/
  | pwrBrakeAssert
  /-- PWR_BRAKE_RELEASE (R555). -/
  | pwrBrakeRelease
  /-- REQUEST_S1 (R560). -/
  | requestS1
  /-- REQUEST_S2 (R560). -/
  | requestS2
  /-- REQUEST_S3 (R560). -/
  | requestS3
  /-- POWER_ENTRY (R561): the entry under way runs to its end; `abort` is refuser 5 or 6 arising before the commit point. -/
  | powerEntry (abort : Option (Fin 2))
  /-- AUTO_IDLE (R567). -/
  | autoIdle
  /-- WAKE (R564): the wake source, code 1 to 5. -/
  | wake (src : Fin 5)
  /-- POWER_EXIT (R561). -/
  | powerExit
  /-- WAKE_HOST_RELEASE (R568). -/
  | wakeHostRelease
  /-- LOW_POWER_PCIE_REQUEST (R565): a read (none) or write (some data) at a BAR offset. -/
  | lowPowerPcieRequest (bar : Fin 5) (off : BitVec 40) (data : Option (List Byte))
  /-- FW_STAGE (R579, R580), and how far its writes go. -/
  | fwStage
  /-- FW_ABORT (R581). -/
  | fwAbort
  /-- HEALTH_CONFIRM (R584). -/
  | healthConfirm (code : Word)
  /-- TRIAL_EXPIRY (R585). -/
  | trialExpiry
  /-- FALLBACK (R585). -/
  | fallback (rep : BootReport)
  /-- ATTEST_START (R595). -/
  | attestStart
  /-- I3C_MAILBOX_READ (R633): the bytes of the private write and the length of the read. -/
  | i3cMailboxRead (offset : List Byte) (len : Nat)
  /-- I3C_CCC (R633). -/
  | i3cCcc (code : Ccc)
  /-- EXTEST (R632): the values preloaded for the pins, or, while it samples, what the board drives on them. -/
  | extest (pins : BitVec 8)
  /-- SAMPLE_PRELOAD (R632): what the board drives on the pins. -/
  | samplePreload (pins : BitVec 8)
  /-- BYPASS (R632): the bit at TDI. -/
  | bypass (tdi : Bool)
  /-- REDUCE_SEND_DEADLINE (R383). -/
  | reduceSendDeadline (e : Nat)
  /-- STATS_DEADLINE (R244). -/
  | statsDeadline (e : Nat)
  /-- HBM_INTERFACE_RETRAINING (R562): controller `k` is due or in progress (`on`), or ends. -/
  | hbmInterfaceRetraining (k : Fin 24) (on : Bool)
  /-- LANE_CDR_LOCK_LOSS (R499). -/
  | laneCdrLockLoss (p : Fin 18) (lane : Fin 9)
  deriving DecidableEq, Repr

end Sys2Proof
end

