-- ==== Sys2Proof/Decode.lean ====
section
/-! DEFINITION. The command that a word spells by the bits of the opcode table. The table gives its rows no bits: the commands of this
block reach it as register writes, doorbells, cells and events, never as words of one encoding, so no word spells a command
(notes/assumptions/11.md). -/

namespace Sys2Proof

/-- The command that a word of `nbits` bits spells, for the rows that give bits: none does. -/
def decodeTableWord (_nbits _w : Nat) : Option Instr := none

end Sys2Proof
end

