-- ==== Sys2Proof/Machine/Float.lean ====
section
/-! DEFINITION. Number formats and rounding (05_numerics.md R163 to R182): exact values, round to nearest even, keyed
stochastic rounding, the narrow float formats, m8 and fp8e4/64 blocks, and the fixed-point formats q32, q64 and sq32. -/

namespace Sys2Proof.Machine

/-- A float format (R163): exponent bits, fraction bits, bias, its largest finite pattern, whether it has infinities,
its canonical NaN, and whether a finite overflow saturates (R166). -/
structure Fmt where
  width : Nat
  ebits : Nat
  fbits : Nat
  bias : Nat
  maxFin : Nat
  hasInf : Bool
  infPat : Nat
  nan : Nat
  saturates : Bool
  deriving DecidableEq, Repr

def Fmt.fp32 : Fmt := ⟨32, 8, 23, 127, 0x7F7FFFFF, true, 0x7F800000, 0x7FC00000, false⟩
def Fmt.bf16 : Fmt := ⟨16, 8, 7, 127, 0x7F7F, true, 0x7F80, 0x7FC0, false⟩
def Fmt.fp16 : Fmt := ⟨16, 5, 10, 15, 0x7BFF, true, 0x7C00, 0x7E00, false⟩
def Fmt.fp8e4 : Fmt := ⟨8, 4, 3, 7, 0x7E, false, 0x7F, 0x7F, true⟩
def Fmt.fp8e5 : Fmt := ⟨8, 5, 2, 15, 0x7B, true, 0x7C, 0x7E, true⟩

/-- Bytes of one element. -/
def Fmt.bytes (f : Fmt) : Nat := f.width / 8

/-- An exact value: a NaN, an infinity, or ±m × 2^e (m = 0 is a signed zero). -/
inductive FVal where
  | nan
  | inf (neg : Bool)
  | fin (neg : Bool) (m : Nat) (e : Int)
  deriving DecidableEq, Repr

/-- The value of a bit pattern (R163, R164: subnormals are kept). -/
def Fmt.decode (f : Fmt) (x : Nat) : FVal :=
  let neg := bitOf x (f.width - 1)
  let mag := x % 2 ^ (f.width - 1)
  let ex := mag / 2 ^ f.fbits
  let fr := mag % 2 ^ f.fbits
  if f.maxFin < mag then (if f.hasInf && mag == f.infPat then .inf neg else .nan)
  else if ex = 0 then .fin neg fr (1 - (f.bias : Int) - f.fbits)
  else .fin neg (2 ^ f.fbits + fr) ((ex : Int) - f.bias - f.fbits)

/-- m × 2^e rounded to a multiple of 2^g, to nearest, ties to even (R175): the multiple, and whether it was inexact. -/
def rneGrid (m : Nat) (e g : Int) : Nat × Bool :=
  if g ≤ e then (m * 2 ^ (e - g).toNat, false)
  else
    let sh := (g - e).toNat
    let q := m / 2 ^ sh
    let r := m % 2 ^ sh
    let half := 2 ^ (sh - 1)
    (if half < r then q + 1 else if r = half then q + q % 2 else q, r ≠ 0)

/-- m × 2^e rounded to a multiple of 2^g by stochastic rounding with SR word `w` (R179 steps 1 to 3). -/
def srGrid (w : Nat) (m : Nat) (e g : Int) : Nat × Bool :=
  if g ≤ e then (m * 2 ^ (e - g).toNat, false)
  else
    let sh := (g - e).toNat
    let q := m / 2 ^ sh
    let r := m % 2 ^ sh
    let d := r * 2 ^ 24 / 2 ^ sh
    (if w / 2 ^ 8 % 2 ^ 24 < d then q + 1 else q, r ≠ 0)

/-- A rounding mode (R175): to nearest even, or stochastic with a given SR word. -/
inductive Mode where
  | rne
  | sr (word : Nat)
  deriving DecidableEq, Repr

/-- Rounding to a grid under a mode. -/
def Mode.grid : Mode → Nat → Int → Int → Nat × Bool
  | .rne => rneGrid
  | .sr w => srGrid w

/-- A rounded result: the pattern, and the flags of R161. -/
structure Rounded where
  bits : Nat
  overflow : Bool
  inexact : Bool
  deriving DecidableEq, Repr

/-- Exponent of the grid on which a non-zero m × 2^e is rounded in format `f`. -/
def Fmt.gridOf (f : Fmt) (m : Nat) (e : Int) : Int :=
  max ((Nat.log2 m : Int) + e - f.fbits) (1 - (f.bias : Int) - f.fbits)

/-- The sign bit of a format. -/
def Fmt.signBit (f : Fmt) (neg : Bool) : Nat := if neg then 2 ^ (f.width - 1) else 0

/-- An infinity in a format (R166: fp8e4 has none and gives its NaN). -/
def Fmt.inf (f : Fmt) (neg : Bool) : Nat := if f.hasInf then f.signBit neg + f.infPat else f.nan

/-- Round an exact value into a format (R166 for what is out of range). -/
def Fmt.round (f : Fmt) (mode : Mode) : FVal → Rounded
  | .nan => ⟨f.nan, false, false⟩
  | .inf neg => ⟨f.inf neg, false, false⟩
  | .fin neg m e =>
    if m = 0 then ⟨f.signBit neg, false, false⟩
    else
      let g := f.gridOf m e
      let (n, inex) := mode.grid m e g
      let mag := (g - (1 - (f.bias : Int) - f.fbits)).toNat * 2 ^ f.fbits + n
      if f.maxFin < mag then
        ⟨if f.saturates then f.signBit neg + f.maxFin else f.inf neg, true, true⟩
      else ⟨f.signBit neg + mag, false, inex⟩

/-- Round to nearest even and keep the pattern. -/
def Fmt.rne (f : Fmt) (v : FVal) : Nat := (f.round .rne v).bits

/-- A conversion between formats, to nearest even (exact when it widens). -/
def Fmt.conv (src dst : Fmt) (x : Nat) : Nat := dst.rne (src.decode x)

/-- Is a value finite? -/
def FVal.isFin : FVal → Bool
  | .fin _ _ _ => true
  | _ => false

def FVal.isNaN : FVal → Bool
  | .nan => true
  | _ => false

/-- Is a finite value zero? -/
def FVal.isZero : FVal → Bool
  | .fin _ 0 _ => true
  | _ => false

/-- The sign of a value (false for a NaN). -/
def FVal.neg : FVal → Bool
  | .nan => false
  | .inf n => n
  | .fin n _ _ => n

/-- Change of sign. -/
def FVal.negate : FVal → FVal
  | .nan => .nan
  | .inf n => .inf (!n)
  | .fin n m e => .fin (!n) m e

def FVal.abs : FVal → FVal
  | .nan => .nan
  | .inf _ => .inf false
  | .fin _ m e => .fin false m e

/-- The signed integer multiple of 2^g that a finite value is, for a g at or below its exponent. -/
def scaledInt (neg : Bool) (m : Nat) (e g : Int) : Int :=
  let a : Int := (m * 2 ^ (e - g).toNat : Nat)
  if neg then -a else a

/-- The value of an integer times 2^g. -/
def FVal.ofInt (i g : Int) : FVal := .fin (decide (i < 0)) i.natAbs g

/-- The exact sum (R165: ∞ − ∞ is NaN; an exact zero sum is +0 unless both addends are −0). -/
def FVal.add : FVal → FVal → FVal
  | .nan, _ => .nan
  | _, .nan => .nan
  | .inf a, .inf b => if a = b then .inf a else .nan
  | .inf a, _ => .inf a
  | _, .inf b => .inf b
  | .fin a m e, .fin b n f =>
    let g := min e f
    let s := scaledInt a m e g + scaledInt b n f g
    if s = 0 then .fin (a && b) 0 g else FVal.ofInt s g

def FVal.sub (x y : FVal) : FVal := x.add y.negate

/-- The exact product (R165: 0 × ∞ is NaN). -/
def FVal.mul : FVal → FVal → FVal
  | .nan, _ => .nan
  | _, .nan => .nan
  | .inf a, .inf b => .inf (xor a b)
  | .inf a, .fin b n _ => if n = 0 then .nan else .inf (xor a b)
  | .fin a m _, .inf b => if m = 0 then .nan else .inf (xor a b)
  | .fin a m e, .fin b n f => .fin (xor a b) (m * n) (e + f)

/-- Multiplication by 2^k, exact. -/
def FVal.scale (k : Int) : FVal → FVal
  | .fin n m e => .fin n m (e + k)
  | v => v

/-- Quotient bits kept before the final rounding: enough for one correct rounding to fp32 with a sticky bit. -/
def divBits : Nat := 64

/-- The quotient with a sticky last bit, so that one rounding to any format of R163 is correct. Division of a finite
non-zero value by zero is an infinity, 0 / 0 and ∞ / ∞ are NaN (IEEE 754, R165, R187). -/
def FVal.div : FVal → FVal → FVal
  | .nan, _ => .nan
  | _, .nan => .nan
  | .inf _, .inf _ => .nan
  | .inf a, .fin b _ _ => .inf (xor a b)
  | .fin a _ _, .inf b => .fin (xor a b) 0 0
  | .fin a m e, .fin b n f =>
    if n = 0 then (if m = 0 then .nan else .inf (xor a b))
    else if m = 0 then .fin (xor a b) 0 0
    else
      let k := divBits + Nat.log2 n
      let num := m * 2 ^ k
      .fin (xor a b) (2 * (num / n) + (if num % n = 0 then 0 else 1)) (e - f - k - 1)

/-- Integer square root by Newton's digit recurrence on `fuel` bits: the largest r with r × r ≤ x among those built bit
by bit from `2 ^ fuel` down. -/
def isqrtBits : Nat → Nat → Nat → Nat
  | 0, _, r => r
  | k + 1, x, r => isqrtBits k x (if (r + 2 ^ k) * (r + 2 ^ k) ≤ x then r + 2 ^ k else r)

/-- The integer square root. -/
def isqrt (x : Nat) : Nat := isqrtBits (Nat.log2 x / 2 + 1) x 0

/-- The square root with a sticky last bit (√−0 = −0; a negative operand gives NaN; IEEE 754). -/
def FVal.sqrt : FVal → FVal
  | .nan => .nan
  | .inf neg => if neg then .nan else .inf false
  | .fin neg m e =>
    if m = 0 then .fin neg 0 e
    else if neg then .nan
    else
      let odd : Nat := if e % 2 = 0 then 0 else 1
      let x := m * 2 ^ (2 * divBits + odd)
      let r := isqrt x
      .fin false (2 * r + (if r * r = x then 0 else 1)) ((e - odd - 2 * divBits) / 2 - 1)

/-- Comparison of two non-NaN values as reals, −0 = +0: x < y. -/
def FVal.lt : FVal → FVal → Bool
  | .nan, _ => false
  | _, .nan => false
  | .inf a, .inf b => a && !b
  | .inf a, .fin _ _ _ => a
  | .fin _ _ _, .inf b => !b
  | .fin a m e, .fin b n f =>
    let g := min e f
    decide (scaledInt a m e g < scaledInt b n f g)

/-- x ≤ y; false when either is NaN. -/
def FVal.le (x y : FVal) : Bool := !x.isNaN && !y.isNaN && !(y.lt x)

/-- IEEE 754-2019 maximum (R115: +0 above −0; a NaN operand gives NaN). -/
def FVal.max (x y : FVal) : FVal :=
  if x.isNaN || y.isNaN then .nan
  else if x.isZero && y.isZero then (if x.neg then y else x)
  else if x.lt y then y else x

/-- IEEE 754-2019 minimum (R115). -/
def FVal.min (x y : FVal) : FVal :=
  if x.isNaN || y.isNaN then .nan
  else if x.isZero && y.isZero then (if x.neg then x else y)
  else if y.lt x then y else x

/-- Fixed-point bits of the function evaluations below. -/
def fnBits : Nat := 192

/-- The product of 2^(2^−k) over the set bits of the `n`-bit fraction `f`, in `fnBits` fixed point; `c` is the current
2^(2^−k). -/
def exp2Loop : Nat → Nat → Nat → Nat → Nat
  | 0, _, _, acc => acc
  | n + 1, f, c, acc =>
    let c' := isqrt (c * 2 ^ fnBits)
    exp2Loop n f c' (if bitOf f n then acc * c' / 2 ^ fnBits else acc)

/-- 2^x, with a sticky last bit (R198: correctly rounded by the one rounding that follows). Arguments beyond the range
of fp32 are taken at its edges. -/
def FVal.exp2 : FVal → FVal
  | .nan => .nan
  | .inf neg => if neg then .fin false 0 0 else .inf false
  | .fin neg m e =>
    let x := FVal.fin neg m e
    if m = 0 then .fin false 1 0
    else if (FVal.fin false 200 0).lt x then .fin false 1 300
    else if x.lt (.fin true 200 0) then .fin false 1 (-300)
    else
      let g : Int := -(fnBits : Int)
      let s := if g ≤ e then scaledInt neg m e g
               else (if neg then -((m / 2 ^ (g - e).toNat : Nat) + 1 : Int) else (m / 2 ^ (g - e).toNat : Nat))
      let i := s / (2 ^ fnBits : Nat)
      let f := (s % (2 ^ fnBits : Nat)).toNat
      if f = 0 && decide (g ≤ e) then .fin false 1 i
      else .fin false (2 * exp2Loop fnBits f (2 * 2 ^ fnBits) (2 ^ fnBits) + 1) (i - fnBits - 1)

/-- The first `n` fraction bits of log2 y, y in [1, 2) in 2 × fnBits fixed point. -/
def log2Loop : Nat → Nat → Nat → Nat
  | 0, _, acc => acc
  | n + 1, y, acc =>
    let y2 := y * y / 2 ^ (2 * fnBits)
    if 2 * 2 ^ (2 * fnBits) ≤ y2 then log2Loop n (y2 / 2) (2 * acc + 1) else log2Loop n y2 (2 * acc)

/-- log2 x, with a sticky last bit (R198). log2 of a zero is −∞ and of a negative value NaN (IEEE 754). -/
def FVal.log2 : FVal → FVal
  | .nan => .nan
  | .inf neg => if neg then .nan else .inf false
  | .fin neg m e =>
    if m = 0 then .inf true
    else if neg then .nan
    else
      let t := Nat.log2 m
      let i := (t : Int) + e
      if m = 2 ^ t then FVal.ofInt i 0
      else
        let y := m * 2 ^ (2 * fnBits) / 2 ^ t
        let f := log2Loop 128 y 0
        FVal.ofInt (2 * (i * (2 ^ 128 : Nat) + f) + 1) (-129)

/-- fp32 operations, each rounded once to nearest even (R176). Operands and results are bit patterns. -/
def f32add (a b : Nat) : Nat := Fmt.fp32.rne ((Fmt.fp32.decode a).add (Fmt.fp32.decode b))
def f32sub (a b : Nat) : Nat := Fmt.fp32.rne ((Fmt.fp32.decode a).sub (Fmt.fp32.decode b))
def f32mul (a b : Nat) : Nat := Fmt.fp32.rne ((Fmt.fp32.decode a).mul (Fmt.fp32.decode b))
def f32div (a b : Nat) : Nat := Fmt.fp32.rne ((Fmt.fp32.decode a).div (Fmt.fp32.decode b))
def f32sqrt (a : Nat) : Nat := Fmt.fp32.rne (Fmt.fp32.decode a).sqrt
def f32neg (a : Nat) : Nat := Fmt.fp32.rne (Fmt.fp32.decode a).negate
def f32lt (a b : Nat) : Bool := (Fmt.fp32.decode a).lt (Fmt.fp32.decode b)
def f32le (a b : Nat) : Bool := (Fmt.fp32.decode a).le (Fmt.fp32.decode b)
def f32finite (a : Nat) : Bool := (Fmt.fp32.decode a).isFin

/-- The fp32 pattern of 1.0, +0, the canonical NaN and +∞. -/
def f32one : Nat := 0x3F800000
def f32nan : Nat := 0x7FC00000
def f32inf : Nat := 0x7F800000

/-- Biased fp32 exponent field of a pattern. -/
def f32exp (a : Nat) : Nat := bitsOf a 23 8

/-! ### The stochastic-rounding generator (R178) -/

/-- mix of R178, on 64-bit words. -/
def mix (a b : DWord) : DWord :=
  let x := a ^^^ (b * 0x9E3779B97F4A7C15)
  let x := (x ^^^ (x >>> 30)) * 0xBF58476D1CE4E5B9
  let x := (x ^^^ (x >>> 27)) * 0x94D049BB133111EB
  x ^^^ (x >>> 31)

/-- The SR word of a key (R177, R178). -/
def srWord (seed : DWord) (step tensor purpose index : Nat) : Nat :=
  let k := mix seed (BitVec.ofNat 64 (step % 2 ^ 32 * 2 ^ 32 + tensor % 2 ^ 24 * 2 ^ 8 + purpose % 2 ^ 8))
  (mix k (BitVec.ofNat 64 index)).toNat / 2 ^ 32

/-! ### Block-scaled formats -/

/-- The exponent byte of an m8 block of exact values (R169 steps 1 to 4; the values come as fp32 patterns). -/
def m8Exp (vs : List Nat) : Nat :=
  if vs.any (fun v => !f32finite v) then 255
  else
    let a := vs.foldl (fun acc v => Nat.max acc (v % 2 ^ 31)) 0
    if a = 0 then 0 else Nat.max 1 (f32exp a)

/-- One m8 code (R169 step 5): v × 2^(133 − X) rounded to an integer under the mode and clamped, as a byte. -/
def m8Code (x : Nat) (mode : Mode) (v : Nat) : Nat :=
  if x = 0 || x = 255 then 0
  else match Fmt.fp32.decode v with
    | .fin neg m e =>
      let n := Nat.min 127 (mode.grid m (e + 133 - x) 0).1
      toBits 8 (if neg then -(n : Int) else n)
    | _ => 0

/-- The fp32 pattern of an m8 element (R168; 0x80 decodes as −127). -/
def m8Decode (x c : Nat) : Nat :=
  if x = 0 then 0 else if x = 255 then f32nan
  else Fmt.fp32.rne (FVal.ofInt (Max.max (sext 8 c) (-127)) ((x : Int) - 133))

/-- The exponent byte of an fp8e4/64 block (R170). -/
def fp8BlockExp (vs : List Nat) : Nat :=
  let a := vs.foldl (fun acc v => Nat.max acc (v % 2 ^ 31)) 0
  (clampInt 1 254 ((f32exp a : Int) - 7)).toNat

/-- One fp8e4/64 code of an fp32 pattern (R170). -/
def fp8BlockCode (x v : Nat) : Nat := Fmt.fp8e4.rne ((Fmt.fp32.decode v).scale (127 - (x : Int)))

/-- The bf16 that the widening gate forms from an fp8e4/64 code (R170, R321). -/
def widenGate (x c : Nat) : Nat :=
  if x = 0 then 0 else Fmt.bf16.rne ((Fmt.fp8e4.decode c).scale ((x : Int) - 127))

/-! ### Fixed-point formats (R171 to R173) -/

/-- A conversion to a brine word of `w` bits on anchor `e`: the code, and the overflow and non-finite indications
(R172, R353). -/
structure Brine where
  code : Int
  overflow : Bool
  nonfinite : Bool
  deriving DecidableEq, Repr

/-- The reserved code of a brine word of width `w`: the non-finite mark (R172). -/
def brineMark (w : Nat) : Int := -(2 ^ (w - 1) : Nat)

def toBrine (w : Nat) (anchor : Int) : FVal → Brine
  | .fin neg m e =>
    let n := (rneGrid m (e + 24 - anchor) 0).1
    let lim := 2 ^ (w - 1) - 1
    let c := Nat.min n lim
    ⟨if neg then -(c : Int) else c, decide (lim < n), false⟩
  | _ => ⟨brineMark w, false, true⟩

/-- The exact value of a brine word; none for the non-finite mark (R171, R172). -/
def fromBrine (w : Nat) (anchor : Int) (code : Int) : FVal :=
  if code = brineMark w then .nan else FVal.ofInt code (anchor - 24)

/-- The largest magnitude of sq32 (R171). -/
def sqLim : Int := 2 ^ 31 - 1

/-- A sq32 code as read: the reserved code decodes as 0x8000_0001 (R173). -/
def sqRead (c : Nat) : Int := Max.max (sext 32 c) (-sqLim)

/-- Saturation of a sum or product to sq32, and whether it saturated (R173). -/
def sqSat (i : Int) : Int × Bool := (clampInt (-sqLim) sqLim i, decide (i < -sqLim ∨ sqLim < i))

/-- An integer times 2^(−sh), rounded to an integer to nearest even. -/
def rneShift (i : Int) (sh : Int) : Int :=
  let n := ((rneGrid i.natAbs (-sh) 0).1 : Int)
  if i < 0 then -n else n

end Sys2Proof.Machine
end

