-- ==== Sys2Proof/Config.lean ====
section
/-! DEFINITION. The values the manual leaves open: opaque constants, so that no proof can lean on what they are
(notes/assumptions/1.md). -/

namespace Sys2Proof

/-- A fresh free value of `w` bits: the manual says that some value results and does not say which. The argument is the
state's counter of free values taken so far. -/
opaque Config.freeValue : (w : Nat) → Nat → BitVec w

/-- What a configuration image computes for one element (R197, R204): the layout of a cell record belongs to the device, so this is
open. Arguments: the image body, the formats (R205) and elements of the row's input streams, the lane operand (R211), the SR key word, the
element's number, and which result: output stream 0 or 1, or 2 for the per-element result of a reduction (R210). The result is a value of the
cell's own format, written as an fp32 pattern: every 16-bit value is one of fp32. -/
opaque Config.fabricElem : List Byte → List (Nat × List Nat) → Nat → Nat → Nat → Nat → BitVec 32

/-- Whether the operations of an image body weigh no more than w per element (R202): it depends on the cell records. -/
opaque Config.imageWeightOk : List Byte → Nat → Bool

/-- A signature with the device key (R593, R595): key material of one chip. Arguments: what is signed, the number of bytes. -/
opaque Config.signature : List Byte → Nat → List Byte

/-- The device identity, 32 bytes (R593), and the device certificate in flash, 5,261 bytes (R595): one chip's own. -/
opaque Config.deviceIdentity : List Byte
opaque Config.certificate : List Byte

/-- How far a staging goes (R580, R596, R597, R620): to its end; until a write to the flash fails (error 7) after so many writes of a sector or a
record; or that far, when a reset or a loss of power is to come. -/
inductive FwEnd where
  | whole
  | fault (writes : Nat)
  | cut (writes : Nat)
  deriving DecidableEq, Repr, Inhabited

/-- How far a staging gets: whether the flash fails or the power goes is open. The argument is the state's counter of free values. -/
opaque Config.stagingEnd : Nat → FwEnd

/-- Whether a tensor is carried in fp8e5 rather than fp8e4 (R191): no register or record holds it. The argument is the tensor ID. -/
opaque Config.carriesE5 : Nat → Bool

end Sys2Proof
end

