-- ==== Sys2Proof/Machine/Regs.lean ====
section
/-! DEFINITION. The BAR0 registers: one address function per register and one field descriptor per field, as the
register tables of the manual give them (offsets from each chapter's Registers section and R635, R636; fields from the
rule named), and the class table by which an offset is found (R634). Reserved fields are not listed: they read 0 and
ignore writes (R12). -/

namespace Sys2Proof.Machine

/-- The access codes of R10. -/
inductive Access where
  | ro | rw | wo | w1c | w1s | rws | lk
  deriving DecidableEq, Repr

/-- One register field: BAR0 offset of its register, lowest bit, width, access code and value after cold reset (R11). -/
structure Fld where
  addr : Nat
  lo : Nat
  width : Nat
  acc : Access
  reset : Nat
  deriving DecidableEq, Repr

/-- A register, or an array of equal registers at fixed strides, with its fields (their addr is 0 here). -/
structure RegClass where
  name : String
  base : Nat
  dims : List (Nat × Nat)
  fields : List Fld
  deriving DecidableEq, Repr

/-- Base of region `n`'s registers (R635). -/
def rgnBase (n : Nat) : Nat := 0x1000000 + n * 0x400000

/-- Base of logical block `b`'s registers (R636). -/
def blkBase (b : Nat) : Nat := 0x1100000 + b / 16 * 0x400000 + b % 16 * 0x10000

/-- Base of port `p`'s registers (R635). -/
def prtBase (p : Nat) : Nat := 0x200000 + p * 0x10000

/-- HUB_MODULE_STATUS (R34). -/
def HUB_MODULE_STATUS : Nat := 0x10
def HUB_MODULE_STATUS_region_fenced : Fld := ⟨HUB_MODULE_STATUS, 0, 4, .ro, 0⟩
def HUB_MODULE_STATUS_region_degraded : Fld := ⟨HUB_MODULE_STATUS, 4, 4, .ro, 0⟩
def HUB_MODULE_STATUS_acceptance_paused : Fld := ⟨HUB_MODULE_STATUS, 8, 1, .ro, 0⟩
def HUB_MODULE_STATUS_maintenance_mode : Fld := ⟨HUB_MODULE_STATUS, 9, 1, .ro, 1⟩
def HUB_MODULE_STATUS_hub_fault : Fld := ⟨HUB_MODULE_STATUS, 10, 1, .ro, 0⟩
def HUB_MODULE_STATUS_safety_veto : Fld := ⟨HUB_MODULE_STATUS, 11, 1, .w1c, 0⟩

/-- HUB_MAINT_CTL (R35). -/
def HUB_MAINT_CTL : Nat := 0x14
def HUB_MAINT_CTL_maint_req : Fld := ⟨HUB_MAINT_CTL, 0, 1, .rw, 0⟩
def HUB_MAINT_CTL_maint_pending : Fld := ⟨HUB_MAINT_CTL, 1, 1, .ro, 0⟩

/-- RGN_STATUS (R36). -/
def RGN_STATUS (n : Nat) : Nat := rgnBase n
def RGN_STATUS_running (n : Nat) : Fld := ⟨(RGN_STATUS n), 0, 1, .ro, 0⟩
def RGN_STATUS_fenced (n : Nat) : Fld := ⟨(RGN_STATUS n), 1, 1, .ro, 0⟩
def RGN_STATUS_degraded (n : Nat) : Fld := ⟨(RGN_STATUS n), 2, 1, .ro, 0⟩
def RGN_STATUS_spare_used (n : Nat) : Fld := ⟨(RGN_STATUS n), 3, 1, .ro, 0⟩
def RGN_STATUS_quarantined_count (n : Nat) : Fld := ⟨(RGN_STATUS n), 4, 4, .ro, 0⟩
def RGN_STATUS_block_error_count (n : Nat) : Fld := ⟨(RGN_STATUS n), 8, 8, .ro, 0⟩

/-- RGN_BLOCK_MAP (R37). -/
def RGN_BLOCK_MAP (n k : Nat) : Nat := rgnBase n + 0x10 + k * 4
def RGN_BLOCK_MAP_phys_0 (n k : Nat) : Fld := ⟨(RGN_BLOCK_MAP n k), 0, 5, .ro, 0⟩
def RGN_BLOCK_MAP_absent_0 (n k : Nat) : Fld := ⟨(RGN_BLOCK_MAP n k), 7, 1, .ro, 0⟩
def RGN_BLOCK_MAP_phys_1 (n k : Nat) : Fld := ⟨(RGN_BLOCK_MAP n k), 8, 5, .ro, 0⟩
def RGN_BLOCK_MAP_absent_1 (n k : Nat) : Fld := ⟨(RGN_BLOCK_MAP n k), 15, 1, .ro, 0⟩
def RGN_BLOCK_MAP_phys_2 (n k : Nat) : Fld := ⟨(RGN_BLOCK_MAP n k), 16, 5, .ro, 0⟩
def RGN_BLOCK_MAP_absent_2 (n k : Nat) : Fld := ⟨(RGN_BLOCK_MAP n k), 23, 1, .ro, 0⟩
def RGN_BLOCK_MAP_phys_3 (n k : Nat) : Fld := ⟨(RGN_BLOCK_MAP n k), 24, 5, .ro, 0⟩
def RGN_BLOCK_MAP_absent_3 (n k : Nat) : Fld := ⟨(RGN_BLOCK_MAP n k), 31, 1, .ro, 0⟩

/-- TID_CTL (R89). -/
def TID_CTL : Nat := 0x100008
def TID_CTL_root_enable : Fld := ⟨TID_CTL, 0, 1, .rw, 0⟩
def TID_CTL_use_ref : Fld := ⟨TID_CTL, 1, 1, .rw, 0⟩
def TID_CTL_use_pps : Fld := ⟨TID_CTL, 2, 1, .rw, 0⟩
def TID_CTL_epoch_arm : Fld := ⟨TID_CTL, 3, 1, .w1s, 0⟩
def TID_CTL_root_priority : Fld := ⟨TID_CTL, 8, 8, .rw, 255⟩

/-- TID_STATUS (R90). -/
def TID_STATUS : Nat := 0x10000C
def TID_STATUS_locked : Fld := ⟨TID_STATUS, 0, 1, .ro, 0⟩
def TID_STATUS_is_root : Fld := ⟨TID_STATUS, 1, 1, .ro, 0⟩
def TID_STATUS_holdover : Fld := ⟨TID_STATUS, 2, 1, .ro, 0⟩
def TID_STATUS_ref_ok : Fld := ⟨TID_STATUS, 3, 1, .ro, 0⟩
def TID_STATUS_pps_ok : Fld := ⟨TID_STATUS, 4, 1, .ro, 0⟩
def TID_STATUS_root_conflict : Fld := ⟨TID_STATUS, 5, 1, .w1c, 0⟩
def TID_STATUS_lock_lost : Fld := ⟨TID_STATUS, 6, 1, .w1c, 0⟩
def TID_STATUS_parent_port : Fld := ⟨TID_STATUS, 7, 5, .ro, 31⟩
def TID_STATUS_root_distance : Fld := ⟨TID_STATUS, 16, 8, .ro, 255⟩
def TID_STATUS_epoch_gen : Fld := ⟨TID_STATUS, 24, 8, .ro, 0⟩

/-- TID_OUT_CTL (R91). -/
def TID_OUT_CTL : Nat := 0x100028
def TID_OUT_CTL_enable : Fld := ⟨TID_OUT_CTL, 0, 1, .rw, 0⟩
def TID_OUT_CTL_width_us : Fld := ⟨TID_OUT_CTL, 8, 8, .rw, 10⟩
def TID_OUT_CTL_period_ms : Fld := ⟨TID_OUT_CTL, 16, 16, .rw, 1000⟩

/-- TID_ALARM_CTL (R92). -/
def TID_ALARM_CTL (n : Nat) : Nat := 0x100108 + n * 0x10
def TID_ALARM_CTL_armed (n : Nat) : Fld := ⟨(TID_ALARM_CTL n), 0, 1, .rw, 0⟩
def TID_ALARM_CTL_fired (n : Nat) : Fld := ⟨(TID_ALARM_CTL n), 1, 1, .w1c, 0⟩
def TID_ALARM_CTL_late (n : Nat) : Fld := ⟨(TID_ALARM_CTL n), 2, 1, .w1c, 0⟩
def TID_ALARM_CTL_act_signal (n : Nat) : Fld := ⟨(TID_ALARM_CTL n), 3, 1, .rw, 0⟩
def TID_ALARM_CTL_act_msix (n : Nat) : Fld := ⟨(TID_ALARM_CTL n), 4, 1, .rw, 0⟩
def TID_ALARM_CTL_act_wake (n : Nat) : Fld := ⟨(TID_ALARM_CTL n), 5, 1, .rw, 0⟩

/-- TID_ALARM_TARGET (R92). -/
def TID_ALARM_TARGET (n : Nat) : Nat := 0x10010C + n * 0x10
def TID_ALARM_TARGET_counter (n : Nat) : Fld := ⟨(TID_ALARM_TARGET n), 0, 16, .rw, 0⟩
def TID_ALARM_TARGET_vector (n : Nat) : Fld := ⟨(TID_ALARM_TARGET n), 16, 11, .rw, 0⟩

/-- WEB_CTL (R93). -/
def WEB_CTL : Nat := 0x101000
def WEB_CTL_lend_idle : Fld := ⟨WEB_CTL, 0, 1, .rw, 0⟩
def WEB_CTL_hold_default : Fld := ⟨WEB_CTL, 8, 8, .rw, 16⟩

/-- WEB_STREAM_CTL (R93). -/
def WEB_STREAM_CTL : Nat := 0x101004
def WEB_STREAM_CTL_stream : Fld := ⟨WEB_STREAM_CTL, 0, 16, .wo, 0⟩
def WEB_STREAM_CTL_hold : Fld := ⟨WEB_STREAM_CTL, 16, 1, .wo, 0⟩

/-- WEB_PORT_CTL (R94). -/
def WEB_PORT_CTL (p : Nat) : Nat := 0x101100 + p * 0x10
def WEB_PORT_CTL_hold_req (p : Nat) : Fld := ⟨(WEB_PORT_CTL p), 0, 1, .rw, 0⟩
def WEB_PORT_CTL_stop_req (p : Nat) : Fld := ⟨(WEB_PORT_CTL p), 1, 1, .rw, 0⟩

/-- WEB_PORT_STATUS (R94). -/
def WEB_PORT_STATUS (p : Nat) : Nat := 0x101104 + p * 0x10
def WEB_PORT_STATUS_control_only (p : Nat) : Fld := ⟨(WEB_PORT_STATUS p), 0, 1, .ro, 1⟩
def WEB_PORT_STATUS_held (p : Nat) : Fld := ⟨(WEB_PORT_STATUS p), 1, 1, .ro, 0⟩
def WEB_PORT_STATUS_stopped (p : Nat) : Fld := ⟨(WEB_PORT_STATUS p), 2, 1, .ro, 0⟩
def WEB_PORT_STATUS_bank_tx (p : Nat) : Fld := ⟨(WEB_PORT_STATUS p), 3, 1, .ro, 0⟩
def WEB_PORT_STATUS_bank_rx (p : Nat) : Fld := ⟨(WEB_PORT_STATUS p), 4, 1, .ro, 0⟩
def WEB_PORT_STATUS_swap_pending (p : Nat) : Fld := ⟨(WEB_PORT_STATUS p), 5, 1, .ro, 0⟩
def WEB_PORT_STATUS_stream_mismatch (p : Nat) : Fld := ⟨(WEB_PORT_STATUS p), 6, 1, .w1c, 0⟩
def WEB_PORT_STATUS_peer_locked (p : Nat) : Fld := ⟨(WEB_PORT_STATUS p), 7, 1, .ro, 0⟩
def WEB_PORT_STATUS_requeue_count (p : Nat) : Fld := ⟨(WEB_PORT_STATUS p), 16, 16, .ro, 0⟩

/-- BLK_LATENCY (R125). -/
def BLK_LATENCY (b : Nat) : Nat := blkBase b + 0x0
def BLK_LATENCY_latency (b : Nat) : Fld := ⟨(BLK_LATENCY b), 0, 9, .ro, 0⟩
def BLK_LATENCY_chk_row (b : Nat) : Fld := ⟨(BLK_LATENCY b), 16, 8, .ro, 0⟩
def BLK_LATENCY_spares_used (b : Nat) : Fld := ⟨(BLK_LATENCY b), 24, 2, .ro, 0⟩

/-- BLK_REPAIR (R125). -/
def BLK_REPAIR (b : Nat) : Nat := blkBase b + 0x4
def BLK_REPAIR_quar_0 (b : Nat) : Fld := ⟨(BLK_REPAIR b), 0, 8, .ro, 0⟩
def BLK_REPAIR_quar_1 (b : Nat) : Fld := ⟨(BLK_REPAIR b), 8, 8, .ro, 0⟩
def BLK_REPAIR_quar_2 (b : Nat) : Fld := ⟨(BLK_REPAIR b), 16, 8, .ro, 0⟩

/-- BLK_ABFT_CTL (R127). -/
def BLK_ABFT_CTL (b : Nat) : Nat := blkBase b + 0x8
def BLK_ABFT_CTL_sample (b : Nat) : Fld := ⟨(BLK_ABFT_CTL b), 0, 1, .rw, 0⟩

/-- BLK_ABFT_STATUS (R127). -/
def BLK_ABFT_STATUS (b : Nat) : Nat := blkBase b + 0xC
def BLK_ABFT_STATUS_mismatch (b : Nat) : Fld := ⟨(BLK_ABFT_STATUS b), 0, 1, .w1c, 0⟩
def BLK_ABFT_STATUS_replayed (b : Nat) : Fld := ⟨(BLK_ABFT_STATUS b), 1, 1, .w1c, 0⟩
def BLK_ABFT_STATUS_row_quarantined (b : Nat) : Fld := ⟨(BLK_ABFT_STATUS b), 2, 1, .w1c, 0⟩
def BLK_ABFT_STATUS_block_error (b : Nat) : Fld := ⟨(BLK_ABFT_STATUS b), 3, 1, .w1c, 0⟩
def BLK_ABFT_STATUS_nonfinite_skip (b : Nat) : Fld := ⟨(BLK_ABFT_STATUS b), 4, 1, .w1c, 0⟩
def BLK_ABFT_STATUS_last_row (b : Nat) : Fld := ⟨(BLK_ABFT_STATUS b), 16, 8, .ro, 255⟩

/-- BLK_ABFT_COUNT (R127). -/
def BLK_ABFT_COUNT (b : Nat) : Nat := blkBase b + 0x10
def BLK_ABFT_COUNT_mismatch_count (b : Nat) : Fld := ⟨(BLK_ABFT_COUNT b), 0, 12, .ro, 0⟩
def BLK_ABFT_COUNT_replay_count (b : Nat) : Fld := ⟨(BLK_ABFT_COUNT b), 12, 12, .ro, 0⟩
def BLK_ABFT_COUNT_nonfinite_skipped (b : Nat) : Fld := ⟨(BLK_ABFT_COUNT b), 24, 8, .ro, 0⟩

/-- BLK_DECKLE_COL_KEEP (R128). -/
def BLK_DECKLE_COL_KEEP (b d i : Nat) : Nat := blkBase b + 0x100 + d * 0x20 + i * 4
def BLK_DECKLE_COL_KEEP_keep (b d i : Nat) : Fld := ⟨(BLK_DECKLE_COL_KEEP b d i), 0, 32, .rw, 4294967295⟩

/-- BLK_DECKLE_RUN (R128). -/
def BLK_DECKLE_RUN (b d i : Nat) : Nat := blkBase b + 0x110 + d * 0x20 + i * 4
def BLK_DECKLE_RUN_start (b d i : Nat) : Fld := ⟨(BLK_DECKLE_RUN b d i), 0, 12, .rw, 0⟩
def BLK_DECKLE_RUN_count (b d i : Nat) : Fld := ⟨(BLK_DECKLE_RUN b d i), 16, 13, .rw, 0⟩

/-- BLK_TIE_CFG (R129). -/
def BLK_TIE_CFG (b t : Nat) : Nat := blkBase b + 0x300 + t * 4
def BLK_TIE_CFG_members (b t : Nat) : Fld := ⟨(BLK_TIE_CFG b t), 0, 12, .rw, 0⟩
def BLK_TIE_CFG_issued (b t : Nat) : Fld := ⟨(BLK_TIE_CFG b t), 16, 12, .ro, 0⟩

/-- PAN_STATUS (R159). -/
def PAN_STATUS (b : Nat) : Nat := blkBase b + 0x400
def PAN_STATUS_in_flight (b : Nat) : Fld := ⟨(PAN_STATUS b), 0, 5, .ro, 0⟩
def PAN_STATUS_window_timeout (b : Nat) : Fld := ⟨(PAN_STATUS b), 5, 1, .w1c, 0⟩
def PAN_STATUS_window_misaligned (b : Nat) : Fld := ⟨(PAN_STATUS b), 6, 1, .w1c, 0⟩
def PAN_STATUS_parity_error (b : Nat) : Fld := ⟨(PAN_STATUS b), 7, 1, .w1c, 0⟩
def PAN_STATUS_parity_count (b : Nat) : Fld := ⟨(PAN_STATUS b), 16, 16, .ro, 0⟩

/-- PAN_WINDOW_COUNT (R159). -/
def PAN_WINDOW_COUNT (b : Nat) : Nat := blkBase b + 0x404
def PAN_WINDOW_COUNT_timeouts (b : Nat) : Fld := ⟨(PAN_WINDOW_COUNT b), 0, 16, .ro, 0⟩
def PAN_WINDOW_COUNT_misaligned (b : Nat) : Fld := ⟨(PAN_WINDOW_COUNT b), 16, 16, .ro, 0⟩

/-- PAN_DBG_CTL (R160). -/
def PAN_DBG_CTL (b : Nat) : Nat := blkBase b + 0x500
def PAN_DBG_CTL_debug (b : Nat) : Fld := ⟨(PAN_DBG_CTL b), 0, 1, .rw, 0⟩
def PAN_DBG_CTL_dbg_active (b : Nat) : Fld := ⟨(PAN_DBG_CTL b), 1, 1, .ro, 0⟩
def PAN_DBG_CTL_inject_parity (b : Nat) : Fld := ⟨(PAN_DBG_CTL b), 2, 1, .w1s, 0⟩

/-- PAN_DBG_ROW (R160). -/
def PAN_DBG_ROW (b : Nat) : Nat := blkBase b + 0x504
def PAN_DBG_ROW_row (b : Nat) : Fld := ⟨(PAN_DBG_ROW b), 0, 12, .rw, 0⟩

/-- PAN_DBG_FLAGS (R161). -/
def PAN_DBG_FLAGS (b : Nat) : Nat := blkBase b + 0x508
def PAN_DBG_FLAGS_nonfinite (b : Nat) : Fld := ⟨(PAN_DBG_FLAGS b), 0, 1, .ro, 0⟩
def PAN_DBG_FLAGS_overflow (b : Nat) : Fld := ⟨(PAN_DBG_FLAGS b), 1, 1, .ro, 0⟩
def PAN_DBG_FLAGS_inexact (b : Nat) : Fld := ⟨(PAN_DBG_FLAGS b), 2, 1, .ro, 0⟩
def PAN_DBG_FLAGS_parity_error (b : Nat) : Fld := ⟨(PAN_DBG_FLAGS b), 3, 1, .w1c, 0⟩
def PAN_DBG_FLAGS_unverified (b : Nat) : Fld := ⟨(PAN_DBG_FLAGS b), 4, 1, .ro, 0⟩
def PAN_DBG_FLAGS_width16 (b : Nat) : Fld := ⟨(PAN_DBG_FLAGS b), 5, 1, .ro, 0⟩

/-- PAN_DBG_RESIDUE (R162). -/
def PAN_DBG_RESIDUE (b : Nat) : Nat := blkBase b + 0x50C
def PAN_DBG_RESIDUE_residue (b : Nat) : Fld := ⟨(PAN_DBG_RESIDUE b), 0, 32, .ro, 0⟩

/-- PAN_DBG_BOUND (R162). -/
def PAN_DBG_BOUND (b : Nat) : Nat := blkBase b + 0x510
def PAN_DBG_BOUND_bound (b : Nat) : Fld := ⟨(PAN_DBG_BOUND b), 0, 32, .ro, 0⟩

/-- PAN_DBG_ELEM (R162). -/
def PAN_DBG_ELEM (b i : Nat) : Nat := blkBase b + 0x600 + i * 4
def PAN_DBG_ELEM_word (b i : Nat) : Fld := ⟨(PAN_DBG_ELEM b i), 0, 32, .rw, 0⟩

/-- PAN_DBG_GUARD (R162). -/
def PAN_DBG_GUARD (b k : Nat) : Nat := blkBase b + 0x800 + k * 4
def PAN_DBG_GUARD_guard (b k : Nat) : Fld := ⟨(PAN_DBG_GUARD b k), 0, 32, .ro, 0⟩

/-- BLK_FAB_STATUS (R219). -/
def BLK_FAB_STATUS (b : Nat) : Nat := blkBase b + 0xA00
def BLK_FAB_STATUS_busy (b : Nat) : Fld := ⟨(BLK_FAB_STATUS b), 0, 1, .ro, 0⟩
def BLK_FAB_STATUS_queued (b : Nat) : Fld := ⟨(BLK_FAB_STATUS b), 1, 3, .ro, 0⟩
def BLK_FAB_STATUS_parity_error (b : Nat) : Fld := ⟨(BLK_FAB_STATUS b), 4, 1, .w1c, 0⟩
def BLK_FAB_STATUS_plane_restored (b : Nat) : Fld := ⟨(BLK_FAB_STATUS b), 5, 1, .w1c, 0⟩
def BLK_FAB_STATUS_replayed (b : Nat) : Fld := ⟨(BLK_FAB_STATUS b), 6, 1, .w1c, 0⟩
def BLK_FAB_STATUS_bad_image (b : Nat) : Fld := ⟨(BLK_FAB_STATUS b), 7, 1, .w1c, 0⟩

/-- BLK_FAB_COUNT (R219). -/
def BLK_FAB_COUNT (b : Nat) : Nat := blkBase b + 0xA04
def BLK_FAB_COUNT_replay_count (b : Nat) : Fld := ⟨(BLK_FAB_COUNT b), 0, 16, .ro, 0⟩
def BLK_FAB_COUNT_parity_count (b : Nat) : Fld := ⟨(BLK_FAB_COUNT b), 16, 16, .ro, 0⟩

/-- BLK_FAB_PLANE (R219). -/
def BLK_FAB_PLANE (b p : Nat) : Nat := blkBase b + 0xA10 + p * 4
def BLK_FAB_PLANE_image_id (b p : Nat) : Fld := ⟨(BLK_FAB_PLANE b p), 0, 16, .ro, 0⟩
def BLK_FAB_PLANE_valid (b p : Nat) : Fld := ⟨(BLK_FAB_PLANE b p), 16, 1, .ro, 0⟩
def BLK_FAB_PLANE_loading (b p : Nat) : Fld := ⟨(BLK_FAB_PLANE b p), 17, 1, .ro, 0⟩

/-- GRM_STATUS (R245). -/
def GRM_STATUS (b : Nat) : Nat := blkBase b + 0xC00
def GRM_STATUS_busy (b : Nat) : Fld := ⟨(GRM_STATUS b), 0, 1, .ro, 0⟩
def GRM_STATUS_tap_armed (b : Nat) : Fld := ⟨(GRM_STATUS b), 1, 1, .ro, 0⟩
def GRM_STATUS_queue_level (b : Nat) : Fld := ⟨(GRM_STATUS b), 2, 6, .ro, 0⟩
def GRM_STATUS_withheld (b : Nat) : Fld := ⟨(GRM_STATUS b), 8, 1, .w1c, 0⟩
def GRM_STATUS_parity_error (b : Nat) : Fld := ⟨(GRM_STATUS b), 9, 1, .w1c, 0⟩
def GRM_STATUS_tap_dropped (b : Nat) : Fld := ⟨(GRM_STATUS b), 10, 1, .w1c, 0⟩

/-- GRM_STALL_COUNT (R245). -/
def GRM_STALL_COUNT (b : Nat) : Nat := blkBase b + 0xC04
def GRM_STALL_COUNT_stall_count (b : Nat) : Fld := ⟨(GRM_STALL_COUNT b), 0, 32, .ro, 0⟩

/-- GRM_EVENT_COUNT (R245). -/
def GRM_EVENT_COUNT (b : Nat) : Nat := blkBase b + 0xC08
def GRM_EVENT_COUNT_dropped_taps (b : Nat) : Fld := ⟨(GRM_EVENT_COUNT b), 0, 16, .ro, 0⟩
def GRM_EVENT_COUNT_parity_count (b : Nat) : Fld := ⟨(GRM_EVENT_COUNT b), 16, 16, .ro, 0⟩

/-- GRM_SLOT (R245). -/
def GRM_SLOT (b i : Nat) : Nat := blkBase b + 0xC40 + i * 4
def GRM_SLOT_samples (b i : Nat) : Fld := ⟨(GRM_SLOT b i), 0, 32, .ro, 0⟩

/-- MFU_STATUS (R279). -/
def MFU_STATUS (b : Nat) : Nat := blkBase b + 0xE00
def MFU_STATUS_busy (b : Nat) : Fld := ⟨(MFU_STATUS b), 0, 1, .ro, 0⟩
def MFU_STATUS_phase (b : Nat) : Fld := ⟨(MFU_STATUS b), 1, 3, .ro, 0⟩
def MFU_STATUS_region_job (b : Nat) : Fld := ⟨(MFU_STATUS b), 4, 1, .ro, 0⟩
def MFU_STATUS_context (b : Nat) : Fld := ⟨(MFU_STATUS b), 5, 2, .ro, 0⟩
def MFU_STATUS_iteration (b : Nat) : Fld := ⟨(MFU_STATUS b), 8, 8, .ro, 0⟩
def MFU_STATUS_cold_start (b : Nat) : Fld := ⟨(MFU_STATUS b), 16, 1, .w1c, 0⟩
def MFU_STATUS_rescaled (b : Nat) : Fld := ⟨(MFU_STATUS b), 17, 1, .w1c, 0⟩
def MFU_STATUS_range_end (b : Nat) : Fld := ⟨(MFU_STATUS b), 18, 1, .w1c, 0⟩
def MFU_STATUS_late (b : Nat) : Fld := ⟨(MFU_STATUS b), 19, 1, .w1c, 0⟩
def MFU_STATUS_dup_mismatch (b : Nat) : Fld := ⟨(MFU_STATUS b), 20, 1, .w1c, 0⟩

/-- MFU_RESIDUAL (R279). -/
def MFU_RESIDUAL (b : Nat) : Nat := blkBase b + 0xE04
def MFU_RESIDUAL_residual (b : Nat) : Fld := ⟨(MFU_RESIDUAL b), 0, 32, .ro, 0⟩

/-- MFU_SIG_LO (R279). -/
def MFU_SIG_LO (b : Nat) : Nat := blkBase b + 0xE08
def MFU_SIG_LO_sig_lo (b : Nat) : Fld := ⟨(MFU_SIG_LO b), 0, 32, .ro, 0⟩

/-- MFU_SIG_HI (R279). -/
def MFU_SIG_HI (b : Nat) : Nat := blkBase b + 0xE0C
def MFU_SIG_HI_sig_hi (b : Nat) : Fld := ⟨(MFU_SIG_HI b), 0, 32, .ro, 0⟩

/-- MFU_COUNT (R279). -/
def MFU_COUNT (b : Nat) : Nat := blkBase b + 0xE10
def MFU_COUNT_jobs (b : Nat) : Fld := ⟨(MFU_COUNT b), 0, 16, .ro, 0⟩
def MFU_COUNT_cold_starts (b : Nat) : Fld := ⟨(MFU_COUNT b), 16, 16, .ro, 0⟩

/-- MFU_EVENT (R279). -/
def MFU_EVENT (b : Nat) : Nat := blkBase b + 0xE14
def MFU_EVENT_rescales (b : Nat) : Fld := ⟨(MFU_EVENT b), 0, 8, .ro, 0⟩
def MFU_EVENT_range_ends (b : Nat) : Fld := ⟨(MFU_EVENT b), 8, 8, .ro, 0⟩
def MFU_EVENT_late_ends (b : Nat) : Fld := ⟨(MFU_EVENT b), 16, 8, .ro, 0⟩
def MFU_EVENT_dup_mismatches (b : Nat) : Fld := ⟨(MFU_EVENT b), 24, 8, .ro, 0⟩

/-- MFU_ITER_COUNT (R279). -/
def MFU_ITER_COUNT (b : Nat) : Nat := blkBase b + 0xE18
def MFU_ITER_COUNT_iterations (b : Nat) : Fld := ⟨(MFU_ITER_COUNT b), 0, 32, .ro, 0⟩

/-- SIS_STATUS (R311). -/
def SIS_STATUS (n : Nat) : Nat := rgnBase n + 0x2000 + 0x0
def SIS_STATUS_busy (n : Nat) : Fld := ⟨(SIS_STATUS n), 0, 1, .ro, 0⟩
def SIS_STATUS_phase (n : Nat) : Fld := ⟨(SIS_STATUS n), 1, 3, .ro, 0⟩
def SIS_STATUS_sys_valid (n : Nat) : Fld := ⟨(SIS_STATUS n), 4, 1, .ro, 0⟩
def SIS_STATUS_method (n : Nat) : Fld := ⟨(SIS_STATUS n), 5, 2, .ro, 0⟩
def SIS_STATUS_range_sat (n : Nat) : Fld := ⟨(SIS_STATUS n), 8, 1, .w1c, 0⟩
def SIS_STATUS_batch_refused (n : Nat) : Fld := ⟨(SIS_STATUS n), 9, 1, .w1c, 0⟩
def SIS_STATUS_breakdown (n : Nat) : Fld := ⟨(SIS_STATUS n), 10, 1, .w1c, 0⟩
def SIS_STATUS_late (n : Nat) : Fld := ⟨(SIS_STATUS n), 11, 1, .w1c, 0⟩
def SIS_STATUS_ecc_corrected (n : Nat) : Fld := ⟨(SIS_STATUS n), 12, 1, .w1c, 0⟩
def SIS_STATUS_ecc_fatal (n : Nat) : Fld := ⟨(SIS_STATUS n), 13, 1, .w1c, 0⟩
def SIS_STATUS_last_reason (n : Nat) : Fld := ⟨(SIS_STATUS n), 16, 8, .ro, 255⟩

/-- SIS_SYSTEM_ID (R311). -/
def SIS_SYSTEM_ID (n : Nat) : Nat := rgnBase n + 0x2000 + 0x4
def SIS_SYSTEM_ID_system_id (n : Nat) : Fld := ⟨(SIS_SYSTEM_ID n), 0, 32, .ro, 0⟩

/-- SIS_ROWS (R311). -/
def SIS_ROWS (n : Nat) : Nat := rgnBase n + 0x2000 + 0x8
def SIS_ROWS_n (n : Nat) : Fld := ⟨(SIS_ROWS n), 0, 23, .ro, 0⟩

/-- SIS_NNZ (R311). -/
def SIS_NNZ (n : Nat) : Nat := rgnBase n + 0x2000 + 0xc
def SIS_NNZ_nnz (n : Nat) : Fld := ⟨(SIS_NNZ n), 0, 24, .ro, 0⟩

/-- SIS_RANGE (R311). -/
def SIS_RANGE (n : Nat) : Nat := rgnBase n + 0x2000 + 0x10
def SIS_RANGE_f (n : Nat) : Fld := ⟨(SIS_RANGE n), 0, 5, .ro, 0⟩
def SIS_RANGE_h (n : Nat) : Fld := ⟨(SIS_RANGE n), 8, 5, .ro, 0⟩
def SIS_RANGE_g_max (n : Nat) : Fld := ⟨(SIS_RANGE n), 16, 8, .ro, 0⟩
def SIS_RANGE_f_bound (n : Nat) : Fld := ⟨(SIS_RANGE n), 24, 5, .ro, 0⟩

/-- SIS_ITER (R311). -/
def SIS_ITER (n : Nat) : Nat := rgnBase n + 0x2000 + 0x14
def SIS_ITER_iterations (n : Nat) : Fld := ⟨(SIS_ITER n), 0, 32, .ro, 0⟩

/-- SIS_COUNT (R311). -/
def SIS_COUNT (n : Nat) : Nat := rgnBase n + 0x2000 + 0x18
def SIS_COUNT_solves (n : Nat) : Fld := ⟨(SIS_COUNT n), 0, 16, .ro, 0⟩
def SIS_COUNT_rescales (n : Nat) : Fld := ⟨(SIS_COUNT n), 16, 8, .ro, 0⟩
def SIS_COUNT_ecc_corrected_count (n : Nat) : Fld := ⟨(SIS_COUNT n), 24, 8, .ro, 0⟩

/-- SIS_EVENT (R311). -/
def SIS_EVENT (n : Nat) : Nat := rgnBase n + 0x2000 + 0x1c
def SIS_EVENT_range_ends (n : Nat) : Fld := ⟨(SIS_EVENT n), 0, 8, .ro, 0⟩
def SIS_EVENT_refusals (n : Nat) : Fld := ⟨(SIS_EVENT n), 8, 8, .ro, 0⟩
def SIS_EVENT_breakdowns (n : Nat) : Fld := ⟨(SIS_EVENT n), 16, 8, .ro, 0⟩
def SIS_EVENT_late_ends (n : Nat) : Fld := ⟨(SIS_EVENT n), 24, 8, .ro, 0⟩

/-- UPD_VERDICT_CTL (R352). -/
def UPD_VERDICT_CTL : Nat := 0x4000
def UPD_VERDICT_CTL_window : Fld := ⟨UPD_VERDICT_CTL, 0, 8, .rw, 0⟩

/-- UPD_VERDICT_STATUS (R352). -/
def UPD_VERDICT_STATUS : Nat := 0x4004
def UPD_VERDICT_STATUS_state : Fld := ⟨UPD_VERDICT_STATUS, 0, 3, .ro, 0⟩
def UPD_VERDICT_STATUS_code : Fld := ⟨UPD_VERDICT_STATUS, 4, 4, .ro, 0⟩
def UPD_VERDICT_STATUS_reason : Fld := ⟨UPD_VERDICT_STATUS, 8, 4, .ro, 0⟩
def UPD_VERDICT_STATUS_veto_seen : Fld := ⟨UPD_VERDICT_STATUS, 12, 1, .w1c, 0⟩
def UPD_VERDICT_STATUS_late_veto : Fld := ⟨UPD_VERDICT_STATUS, 13, 1, .w1c, 0⟩
def UPD_VERDICT_STATUS_query_sent : Fld := ⟨UPD_VERDICT_STATUS, 14, 1, .w1c, 0⟩

/-- UPD_VETO_SOURCE (R352). -/
def UPD_VETO_SOURCE : Nat := 0x401c
def UPD_VETO_SOURCE_origin : Fld := ⟨UPD_VETO_SOURCE, 0, 16, .ro, 0⟩
def UPD_VETO_SOURCE_port : Fld := ⟨UPD_VETO_SOURCE, 16, 5, .ro, 31⟩
def UPD_VETO_SOURCE_reason : Fld := ⟨UPD_VETO_SOURCE, 24, 4, .ro, 0⟩

/-- UPD_GROUP_STATUS (R352). -/
def UPD_GROUP_STATUS : Nat := 0x4020
def UPD_GROUP_STATUS_open : Fld := ⟨UPD_GROUP_STATUS, 0, 12, .ro, 0⟩
def UPD_GROUP_STATUS_effects : Fld := ⟨UPD_GROUP_STATUS, 16, 16, .ro, 0⟩

/-- UPD_GROUP_COUNT (R352). -/
def UPD_GROUP_COUNT : Nat := 0x4024
def UPD_GROUP_COUNT_commits : Fld := ⟨UPD_GROUP_COUNT, 0, 16, .ro, 0⟩
def UPD_GROUP_COUNT_aborts : Fld := ⟨UPD_GROUP_COUNT, 16, 16, .ro, 0⟩

/-- UPD_SKIP_COUNT (R352). -/
def UPD_SKIP_COUNT : Nat := 0x4028
def UPD_SKIP_COUNT_skips : Fld := ⟨UPD_SKIP_COUNT, 0, 16, .ro, 0⟩
def UPD_SKIP_COUNT_vetoes : Fld := ⟨UPD_SKIP_COUNT, 16, 16, .ro, 0⟩

/-- UPD_ENGINE_STATUS (R352). -/
def UPD_ENGINE_STATUS (b : Nat) : Nat := blkBase b + 0xF00
def UPD_ENGINE_STATUS_busy (b : Nat) : Fld := ⟨(UPD_ENGINE_STATUS b), 0, 1, .ro, 0⟩
def UPD_ENGINE_STATUS_pass (b : Nat) : Fld := ⟨(UPD_ENGINE_STATUS b), 1, 2, .ro, 0⟩
def UPD_ENGINE_STATUS_context (b : Nat) : Fld := ⟨(UPD_ENGINE_STATUS b), 3, 2, .ro, 0⟩
def UPD_ENGINE_STATUS_retried (b : Nat) : Fld := ⟨(UPD_ENGINE_STATUS b), 5, 1, .w1c, 0⟩
def UPD_ENGINE_STATUS_reader_wait (b : Nat) : Fld := ⟨(UPD_ENGINE_STATUS b), 6, 1, .w1c, 0⟩

/-- UPD_ENGINE_COUNT (R352). -/
def UPD_ENGINE_COUNT (b : Nat) : Nat := blkBase b + 0xF04
def UPD_ENGINE_COUNT_updates (b : Nat) : Fld := ⟨(UPD_ENGINE_COUNT b), 0, 16, .ro, 0⟩
def UPD_ENGINE_COUNT_graft_fallbacks (b : Nat) : Fld := ⟨(UPD_ENGINE_COUNT b), 16, 16, .ro, 0⟩

/-- HRV_ANCHOR_CTL (R389). -/
def HRV_ANCHOR_CTL : Nat := 0x5000
def HRV_ANCHOR_CTL_anchor_offset : Fld := ⟨HRV_ANCHOR_CTL, 0, 8, .rw, 0⟩
def HRV_ANCHOR_CTL_raise : Fld := ⟨HRV_ANCHOR_CTL, 8, 5, .rw, 4⟩

/-- HRV_STEP_BASE_LO (R389). -/
def HRV_STEP_BASE_LO : Nat := 0x5004
def HRV_STEP_BASE_LO_base_lo : Fld := ⟨HRV_STEP_BASE_LO, 0, 32, .rw, 0⟩

/-- HRV_STEP_BASE_HI (R389). -/
def HRV_STEP_BASE_HI : Nat := 0x5008
def HRV_STEP_BASE_HI_base_hi : Fld := ⟨HRV_STEP_BASE_HI, 0, 16, .rw, 0⟩

/-- HRV_STEP_LEN (R389). -/
def HRV_STEP_LEN : Nat := 0x500c
def HRV_STEP_LEN_log2_entries : Fld := ⟨HRV_STEP_LEN, 0, 5, .rw, 4⟩

/-- HRV_NORM_STATUS (R389). -/
def HRV_NORM_STATUS : Nat := 0x5010
def HRV_NORM_STATUS_nonfinite_seen : Fld := ⟨HRV_NORM_STATUS, 0, 1, .w1c, 0⟩
def HRV_NORM_STATUS_overflow_seen : Fld := ⟨HRV_NORM_STATUS, 1, 1, .w1c, 0⟩
def HRV_NORM_STATUS_incomplete_seen : Fld := ⟨HRV_NORM_STATUS, 2, 1, .w1c, 0⟩
def HRV_NORM_STATUS_ring_read : Fld := ⟨HRV_NORM_STATUS, 3, 1, .w1c, 0⟩

/-- HRV_ANCHOR_COUNT (R389). -/
def HRV_ANCHOR_COUNT : Nat := 0x5014
def HRV_ANCHOR_COUNT_raises : Fld := ⟨HRV_ANCHOR_COUNT, 0, 16, .ro, 0⟩
def HRV_ANCHOR_COUNT_at_limit : Fld := ⟨HRV_ANCHOR_COUNT, 16, 16, .ro, 0⟩

/-- HRV_UNIT_STATUS (R390). -/
def HRV_UNIT_STATUS (n c : Nat) : Nat := rgnBase n + 0x3000 + c * 0x40 + 0x0
def HRV_UNIT_STATUS_open (n c : Nat) : Fld := ⟨(HRV_UNIT_STATUS n c), 0, 9, .ro, 0⟩
def HRV_UNIT_STATUS_rejected (n c : Nat) : Fld := ⟨(HRV_UNIT_STATUS n c), 9, 1, .w1c, 0⟩
def HRV_UNIT_STATUS_late (n c : Nat) : Fld := ⟨(HRV_UNIT_STATUS n c), 10, 1, .w1c, 0⟩
def HRV_UNIT_STATUS_torn (n c : Nat) : Fld := ⟨(HRV_UNIT_STATUS n c), 11, 1, .w1c, 0⟩
def HRV_UNIT_STATUS_overflow (n c : Nat) : Fld := ⟨(HRV_UNIT_STATUS n c), 12, 1, .w1c, 0⟩
def HRV_UNIT_STATUS_nonfinite (n c : Nat) : Fld := ⟨(HRV_UNIT_STATUS n c), 13, 1, .w1c, 0⟩
def HRV_UNIT_STATUS_carry_discarded (n c : Nat) : Fld := ⟨(HRV_UNIT_STATUS n c), 14, 1, .w1c, 0⟩
def HRV_UNIT_STATUS_ecc_fatal (n c : Nat) : Fld := ⟨(HRV_UNIT_STATUS n c), 15, 1, .w1c, 0⟩

/-- HRV_REJECT_COUNT (R390). -/
def HRV_REJECT_COUNT (n c : Nat) : Nat := rgnBase n + 0x3000 + c * 0x40 + 0x4
def HRV_REJECT_COUNT_rejected_cells (n c : Nat) : Fld := ⟨(HRV_REJECT_COUNT n c), 0, 32, .ro, 0⟩

/-- HRV_LATE_COUNT (R390). -/
def HRV_LATE_COUNT (n c : Nat) : Nat := rgnBase n + 0x3000 + c * 0x40 + 0x8
def HRV_LATE_COUNT_carried (n c : Nat) : Fld := ⟨(HRV_LATE_COUNT n c), 0, 16, .ro, 0⟩
def HRV_LATE_COUNT_dropped (n c : Nat) : Fld := ⟨(HRV_LATE_COUNT n c), 16, 16, .ro, 0⟩

/-- HRV_STALE_COUNT (R390). -/
def HRV_STALE_COUNT (n c : Nat) : Nat := rgnBase n + 0x3000 + c * 0x40 + 0xc
def HRV_STALE_COUNT_stale_cells (n c : Nat) : Fld := ⟨(HRV_STALE_COUNT n c), 0, 32, .ro, 0⟩

/-- HRV_EVENT_COUNT (R390). -/
def HRV_EVENT_COUNT (n c : Nat) : Nat := rgnBase n + 0x3000 + c * 0x40 + 0x10
def HRV_EVENT_COUNT_torn_windows (n c : Nat) : Fld := ⟨(HRV_EVENT_COUNT n c), 0, 8, .ro, 0⟩
def HRV_EVENT_COUNT_overflow_windows (n c : Nat) : Fld := ⟨(HRV_EVENT_COUNT n c), 8, 8, .ro, 0⟩
def HRV_EVENT_COUNT_nonfinite_windows (n c : Nat) : Fld := ⟨(HRV_EVENT_COUNT n c), 16, 8, .ro, 0⟩
def HRV_EVENT_COUNT_carry_sets_discarded (n c : Nat) : Fld := ⟨(HRV_EVENT_COUNT n c), 24, 8, .ro, 0⟩

/-- HUB_MAP_STATUS (R415). -/
def HUB_MAP_STATUS : Nat := 0x6000
def HUB_MAP_STATUS_maps : Fld := ⟨HUB_MAP_STATUS, 0, 11, .ro, 0⟩
def HUB_MAP_STATUS_bad_map : Fld := ⟨HUB_MAP_STATUS, 11, 1, .w1c, 0⟩
def HUB_MAP_STATUS_map_late : Fld := ⟨HUB_MAP_STATUS, 12, 1, .w1c, 0⟩
def HUB_MAP_STATUS_strict_hit : Fld := ⟨HUB_MAP_STATUS, 13, 1, .w1c, 0⟩
def HUB_MAP_STATUS_last_epoch : Fld := ⟨HUB_MAP_STATUS, 16, 16, .ro, 0⟩

/-- HUB_MAP_COUNT (R415). -/
def HUB_MAP_COUNT : Nat := 0x6004
def HUB_MAP_COUNT_installs : Fld := ⟨HUB_MAP_COUNT, 0, 16, .ro, 0⟩
def HUB_MAP_COUNT_strict_hits : Fld := ⟨HUB_MAP_COUNT, 16, 16, .ro, 0⟩

/-- HUB_RING_STATUS (R415). -/
def HUB_RING_STATUS : Nat := 0x6008
def HUB_RING_STATUS_in_flight : Fld := ⟨HUB_RING_STATUS, 0, 9, .ro, 0⟩
def HUB_RING_STATUS_held : Fld := ⟨HUB_RING_STATUS, 9, 1, .w1c, 0⟩
def HUB_RING_STATUS_late : Fld := ⟨HUB_RING_STATUS, 10, 1, .w1c, 0⟩
def HUB_RING_STATUS_failed : Fld := ⟨HUB_RING_STATUS, 11, 1, .w1c, 0⟩

/-- HUB_RING_COUNT (R415). -/
def HUB_RING_COUNT : Nat := 0x600c
def HUB_RING_COUNT_completed : Fld := ⟨HUB_RING_COUNT, 0, 16, .ro, 0⟩
def HUB_RING_COUNT_poisoned : Fld := ⟨HUB_RING_COUNT, 16, 16, .ro, 0⟩

/-- HUB_RING_STALE (R415). -/
def HUB_RING_STALE : Nat := 0x6010
def HUB_RING_STALE_stale_cells : Fld := ⟨HUB_RING_STALE, 0, 32, .ro, 0⟩

/-- SYN_STATUS (R445). -/
def SYN_STATUS : Nat := 0x7000
def SYN_STATUS_defer_overflow : Fld := ⟨SYN_STATUS, 0, 1, .w1c, 0⟩
def SYN_STATUS_range_conflict : Fld := ⟨SYN_STATUS, 1, 1, .w1c, 0⟩
def SYN_STATUS_unroutable : Fld := ⟨SYN_STATUS, 2, 1, .w1c, 0⟩
def SYN_STATUS_dump_written : Fld := ⟨SYN_STATUS, 3, 1, .w1c, 0⟩
def SYN_STATUS_frozen : Fld := ⟨SYN_STATUS, 4, 4, .ro, 0⟩
def SYN_STATUS_gated_held : Fld := ⟨SYN_STATUS, 8, 11, .ro, 0⟩

/-- SYN_TORUS (R445). -/
def SYN_TORUS : Nat := 0x7004
def SYN_TORUS_dim_x : Fld := ⟨SYN_TORUS, 0, 8, .rw, 1⟩
def SYN_TORUS_dim_y : Fld := ⟨SYN_TORUS, 8, 8, .rw, 1⟩
def SYN_TORUS_dim_z : Fld := ⟨SYN_TORUS, 16, 8, .rw, 1⟩

/-- SYN_EVT_SEL (R445). -/
def SYN_EVT_SEL : Nat := 0x7008
def SYN_EVT_SEL_offset : Fld := ⟨SYN_EVT_SEL, 2, 24, .rw, 0⟩
def SYN_EVT_SEL_bit : Fld := ⟨SYN_EVT_SEL, 27, 5, .rw, 0⟩

/-- SYN_EVT_COUNT (R445). -/
def SYN_EVT_COUNT : Nat := 0x700c
def SYN_EVT_COUNT_count : Fld := ⟨SYN_EVT_COUNT, 0, 16, .ro, 0⟩
def SYN_EVT_COUNT_valid : Fld := ⟨SYN_EVT_COUNT, 16, 1, .ro, 0⟩

/-- SYN_DUMP_BASE_LO (R445). -/
def SYN_DUMP_BASE_LO : Nat := 0x7010
def SYN_DUMP_BASE_LO_base_lo : Fld := ⟨SYN_DUMP_BASE_LO, 0, 32, .rw, 0⟩

/-- SYN_DUMP_BASE_HI (R445). -/
def SYN_DUMP_BASE_HI : Nat := 0x7014
def SYN_DUMP_BASE_HI_base_hi : Fld := ⟨SYN_DUMP_BASE_HI, 0, 16, .rw, 0⟩

/-- SYN_CTX_RANGE (R445). -/
def SYN_CTX_RANGE (c : Nat) : Nat := 0x7020 + c * 4
def SYN_CTX_RANGE_base (c : Nat) : Fld := ⟨(SYN_CTX_RANGE c), 0, 14, .rw, 0⟩
def SYN_CTX_RANGE_count (c : Nat) : Fld := ⟨(SYN_CTX_RANGE c), 16, 15, .rw, 0⟩

/-- SYN_RGN_STATUS (R445). -/
def SYN_RGN_STATUS (n : Nat) : Nat := rgnBase n + 0x4000 + 0x0
def SYN_RGN_STATUS_watches (n : Nat) : Fld := ⟨(SYN_RGN_STATUS n), 0, 14, .ro, 0⟩
def SYN_RGN_STATUS_table_full (n : Nat) : Fld := ⟨(SYN_RGN_STATUS n), 14, 1, .w1c, 0⟩
def SYN_RGN_STATUS_dropped (n : Nat) : Fld := ⟨(SYN_RGN_STATUS n), 15, 1, .w1c, 0⟩
def SYN_RGN_STATUS_deferred (n : Nat) : Fld := ⟨(SYN_RGN_STATUS n), 16, 10, .ro, 0⟩

/-- SYN_RGN_COUNT (R445). -/
def SYN_RGN_COUNT (n : Nat) : Nat := rgnBase n + 0x4000 + 0x4
def SYN_RGN_COUNT_applied (n : Nat) : Fld := ⟨(SYN_RGN_COUNT n), 0, 32, .ro, 0⟩

/-- SYN_RGN_DROP (R445). -/
def SYN_RGN_DROP (n : Nat) : Nat := rgnBase n + 0x4000 + 0x8
def SYN_RGN_DROP_discarded (n : Nat) : Fld := ⟨(SYN_RGN_DROP n), 0, 16, .ro, 0⟩
def SYN_RGN_DROP_returned_claims (n : Nat) : Fld := ⟨(SYN_RGN_DROP n), 16, 16, .ro, 0⟩

/-- RNG_BASE_LO (R484). -/
def RNG_BASE_LO (r : Nat) : Nat := 0x400000 + r * 0x40 + 0x0
def RNG_BASE_LO_base_lo (r : Nat) : Fld := ⟨(RNG_BASE_LO r), 0, 32, .rws, 0⟩

/-- RNG_BASE_HI (R484). -/
def RNG_BASE_HI (r : Nat) : Nat := 0x400000 + r * 0x40 + 0x4
def RNG_BASE_HI_base_hi (r : Nat) : Fld := ⟨(RNG_BASE_HI r), 0, 32, .rws, 0⟩

/-- RNG_CFG (R484). -/
def RNG_CFG (r : Nat) : Nat := 0x400000 + r * 0x40 + 0x8
def RNG_CFG_log2_size (r : Nat) : Fld := ⟨(RNG_CFG r), 0, 5, .rws, 4⟩
def RNG_CFG_priority (r : Nat) : Fld := ⟨(RNG_CFG r), 5, 3, .rws, 4⟩
def RNG_CFG_context (r : Nat) : Fld := ⟨(RNG_CFG r), 8, 2, .rws, 0⟩
def RNG_CFG_in_device (r : Nat) : Fld := ⟨(RNG_CFG r), 10, 1, .rws, 0⟩
def RNG_CFG_cq (r : Nat) : Fld := ⟨(RNG_CFG r), 11, 1, .rws, 0⟩
def RNG_CFG_enable (r : Nat) : Fld := ⟨(RNG_CFG r), 12, 1, .rws, 0⟩
def RNG_CFG_cq_index (r : Nat) : Fld := ⟨(RNG_CFG r), 16, 16, .rws, 0⟩

/-- RNG_NOTIFY (R484). -/
def RNG_NOTIFY (r : Nat) : Nat := 0x400000 + r * 0x40 + 0xc
def RNG_NOTIFY_signal_counter (r : Nat) : Fld := ⟨(RNG_NOTIFY r), 0, 16, .rws, 0⟩
def RNG_NOTIFY_vector (r : Nat) : Fld := ⟨(RNG_NOTIFY r), 16, 11, .rws, 0⟩
def RNG_NOTIFY_irq_enable (r : Nat) : Fld := ⟨(RNG_NOTIFY r), 27, 1, .rws, 0⟩

/-- RNG_MODERATION (R484). -/
def RNG_MODERATION (r : Nat) : Nat := 0x400000 + r * 0x40 + 0x10
def RNG_MODERATION_count_thr (r : Nat) : Fld := ⟨(RNG_MODERATION r), 0, 9, .rws, 1⟩
def RNG_MODERATION_time_us (r : Nat) : Fld := ⟨(RNG_MODERATION r), 16, 10, .rws, 0⟩

/-- RNG_HEAD (R484). -/
def RNG_HEAD (r : Nat) : Nat := 0x400000 + r * 0x40 + 0x14
def RNG_HEAD_head (r : Nat) : Fld := ⟨(RNG_HEAD r), 0, 21, .ro, 0⟩

/-- RNG_TAIL (R484). -/
def RNG_TAIL (r : Nat) : Nat := 0x400000 + r * 0x40 + 0x18
def RNG_TAIL_tail (r : Nat) : Fld := ⟨(RNG_TAIL r), 0, 21, .ro, 0⟩

/-- RNG_SEQ (R484). -/
def RNG_SEQ (r : Nat) : Nat := 0x400000 + r * 0x40 + 0x1c
def RNG_SEQ_next_seq (r : Nat) : Fld := ⟨(RNG_SEQ r), 0, 32, .rws, 0⟩

/-- RNG_STATUS (R484). -/
def RNG_STATUS (r : Nat) : Nat := 0x400000 + r * 0x40 + 0x20
def RNG_STATUS_idle (r : Nat) : Fld := ⟨(RNG_STATUS r), 0, 1, .ro, 1⟩
def RNG_STATUS_refused (r : Nat) : Fld := ⟨(RNG_STATUS r), 1, 1, .w1c, 0⟩
def RNG_STATUS_doorbell_error (r : Nat) : Fld := ⟨(RNG_STATUS r), 2, 1, .w1c, 0⟩
def RNG_STATUS_bind_error (r : Nat) : Fld := ⟨(RNG_STATUS r), 3, 1, .w1c, 0⟩
def RNG_STATUS_cfg_ignored (r : Nat) : Fld := ⟨(RNG_STATUS r), 4, 1, .w1c, 0⟩
def RNG_STATUS_ignored_idempotent (r : Nat) : Fld := ⟨(RNG_STATUS r), 5, 1, .w1c, 0⟩
def RNG_STATUS_paused (r : Nat) : Fld := ⟨(RNG_STATUS r), 6, 1, .ro, 0⟩
def RNG_STATUS_pause_reason (r : Nat) : Fld := ⟨(RNG_STATUS r), 8, 4, .ro, 0⟩
def RNG_STATUS_in_flight (r : Nat) : Fld := ⟨(RNG_STATUS r), 16, 16, .ro, 0⟩

/-- RNG_REFUSED (R484). -/
def RNG_REFUSED (r : Nat) : Nat := 0x400000 + r * 0x40 + 0x24
def RNG_REFUSED_index (r : Nat) : Fld := ⟨(RNG_REFUSED r), 0, 21, .ro, 0⟩

/-- RNG_ACCEPTED (R484). -/
def RNG_ACCEPTED (r : Nat) : Nat := 0x400000 + r * 0x40 + 0x28
def RNG_ACCEPTED_accepted (r : Nat) : Fld := ⟨(RNG_ACCEPTED r), 0, 32, .ro, 0⟩

/-- RNG_JOURNAL_STATUS (R485). -/
def RNG_JOURNAL_STATUS : Nat := 0x8000
def RNG_JOURNAL_STATUS_mirror_a : Fld := ⟨RNG_JOURNAL_STATUS, 0, 2, .ro, 0⟩
def RNG_JOURNAL_STATUS_mirror_b : Fld := ⟨RNG_JOURNAL_STATUS, 2, 2, .ro, 2⟩
def RNG_JOURNAL_STATUS_single_mirror : Fld := ⟨RNG_JOURNAL_STATUS, 4, 1, .ro, 0⟩
def RNG_JOURNAL_STATUS_journal_full : Fld := ⟨RNG_JOURNAL_STATUS, 5, 1, .w1c, 0⟩
def RNG_JOURNAL_STATUS_replaying : Fld := ⟨RNG_JOURNAL_STATUS, 6, 1, .ro, 0⟩

/-- RNG_JOURNAL_GEN (R485). -/
def RNG_JOURNAL_GEN : Nat := 0x8004
def RNG_JOURNAL_GEN_generation : Fld := ⟨RNG_JOURNAL_GEN, 0, 32, .ro, 0⟩

/-- RNG_JOURNAL_USED (R485). -/
def RNG_JOURNAL_USED : Nat := 0x8008
def RNG_JOURNAL_USED_used : Fld := ⟨RNG_JOURNAL_USED, 0, 21, .ro, 0⟩

/-- RNG_REPLAY_COUNT (R485). -/
def RNG_REPLAY_COUNT : Nat := 0x800c
def RNG_REPLAY_COUNT_reexecuted : Fld := ⟨RNG_REPLAY_COUNT, 0, 16, .ro, 0⟩
def RNG_REPLAY_COUNT_unsafe : Fld := ⟨RNG_REPLAY_COUNT, 16, 16, .ro, 0⟩

/-- RNG_WINDOW_BASE_LO (R485). -/
def RNG_WINDOW_BASE_LO : Nat := 0x8010
def RNG_WINDOW_BASE_LO_base_lo : Fld := ⟨RNG_WINDOW_BASE_LO, 0, 32, .rw, 0⟩

/-- RNG_WINDOW_BASE_HI (R485). -/
def RNG_WINDOW_BASE_HI : Nat := 0x8014
def RNG_WINDOW_BASE_HI_base_hi : Fld := ⟨RNG_WINDOW_BASE_HI, 0, 16, .rw, 0⟩

/-- PRT_CFG (R508). -/
def PRT_CFG (p : Nat) : Nat := prtBase p + 0x0
def PRT_CFG_direction (p : Nat) : Fld := ⟨(PRT_CFG p), 0, 3, .rw, 0⟩
def PRT_CFG_lane_thr (p : Nat) : Fld := ⟨(PRT_CFG p), 4, 8, .rw, 64⟩
def PRT_CFG_malformed_thr (p : Nat) : Fld := ⟨(PRT_CFG p), 16, 8, .rw, 16⟩

/-- PRT_CTL (R508). -/
def PRT_CTL (p : Nat) : Nat := prtBase p + 0x4
def PRT_CTL_fence_req (p : Nat) : Fld := ⟨(PRT_CTL p), 0, 1, .w1s, 0⟩
def PRT_CTL_unfence (p : Nat) : Fld := ⟨(PRT_CTL p), 1, 1, .wo, 0⟩
def PRT_CTL_retrain (p : Nat) : Fld := ⟨(PRT_CTL p), 2, 1, .wo, 0⟩
def PRT_CTL_wake (p : Nat) : Fld := ⟨(PRT_CTL p), 3, 1, .wo, 0⟩

/-- PRT_STATUS (R508). -/
def PRT_STATUS (p : Nat) : Nat := prtBase p + 0x8
def PRT_STATUS_state (p : Nat) : Fld := ⟨(PRT_STATUS p), 0, 3, .ro, 0⟩
def PRT_STATUS_miswired (p : Nat) : Fld := ⟨(PRT_STATUS p), 3, 1, .ro, 0⟩
def PRT_STATUS_fence_cause (p : Nat) : Fld := ⟨(PRT_STATUS p), 4, 3, .ro, 0⟩
def PRT_STATUS_lane_fault (p : Nat) : Fld := ⟨(PRT_STATUS p), 8, 1, .w1c, 0⟩
def PRT_STATUS_spare_bad (p : Nat) : Fld := ⟨(PRT_STATUS p), 9, 1, .w1c, 0⟩
def PRT_STATUS_train_fail (p : Nat) : Fld := ⟨(PRT_STATUS p), 10, 1, .w1c, 0⟩
def PRT_STATUS_peer_fence_seen (p : Nat) : Fld := ⟨(PRT_STATUS p), 11, 1, .w1c, 0⟩
def PRT_STATUS_wake_seen (p : Nat) : Fld := ⟨(PRT_STATUS p), 12, 1, .w1c, 0⟩

/-- PRT_LANE (R508). -/
def PRT_LANE (p : Nat) : Nat := prtBase p + 0xc
def PRT_LANE_tx_spare (p : Nat) : Fld := ⟨(PRT_LANE p), 0, 4, .ro, 15⟩
def PRT_LANE_rx_spare (p : Nat) : Fld := ⟨(PRT_LANE p), 4, 4, .ro, 15⟩
def PRT_LANE_rx_ok (p : Nat) : Fld := ⟨(PRT_LANE p), 8, 9, .ro, 0⟩

/-- PRT_PEER (R508). -/
def PRT_PEER (p : Nat) : Nat := prtBase p + 0x10
def PRT_PEER_peer_chip (p : Nat) : Fld := ⟨(PRT_PEER p), 0, 16, .ro, 65535⟩
def PRT_PEER_peer_port (p : Nat) : Fld := ⟨(PRT_PEER p), 16, 5, .ro, 31⟩
def PRT_PEER_peer_dir (p : Nat) : Fld := ⟨(PRT_PEER p), 21, 3, .ro, 7⟩

/-- PRT_FEC_CORR (R508). -/
def PRT_FEC_CORR (p : Nat) : Nat := prtBase p + 0x14
def PRT_FEC_CORR_corrected (p : Nat) : Fld := ⟨(PRT_FEC_CORR p), 0, 32, .ro, 0⟩

/-- PRT_FEC_UNCORR (R508). -/
def PRT_FEC_UNCORR (p : Nat) : Nat := prtBase p + 0x18
def PRT_FEC_UNCORR_uncorrectable (p : Nat) : Fld := ⟨(PRT_FEC_UNCORR p), 0, 32, .ro, 0⟩

/-- PRT_CRC_ERR (R508). -/
def PRT_CRC_ERR (p : Nat) : Nat := prtBase p + 0x1c
def PRT_CRC_ERR_crc_errors (p : Nat) : Fld := ⟨(PRT_CRC_ERR p), 0, 32, .ro, 0⟩

/-- PRT_MALFORMED (R508). -/
def PRT_MALFORMED (p : Nat) : Nat := prtBase p + 0x20
def PRT_MALFORMED_malformed (p : Nat) : Fld := ⟨(PRT_MALFORMED p), 0, 16, .ro, 0⟩
def PRT_MALFORMED_tx_replaced (p : Nat) : Fld := ⟨(PRT_MALFORMED p), 16, 16, .ro, 0⟩

/-- PRT_EVENT_COUNT (R508). -/
def PRT_EVENT_COUNT (p : Nat) : Nat := prtBase p + 0x24
def PRT_EVENT_COUNT_lane_switches (p : Nat) : Fld := ⟨(PRT_EVENT_COUNT p), 0, 8, .ro, 0⟩
def PRT_EVENT_COUNT_fences (p : Nat) : Fld := ⟨(PRT_EVENT_COUNT p), 8, 8, .ro, 0⟩
def PRT_EVENT_COUNT_trainings (p : Nat) : Fld := ⟨(PRT_EVENT_COUNT p), 16, 8, .ro, 0⟩
def PRT_EVENT_COUNT_train_failures (p : Nat) : Fld := ⟨(PRT_EVENT_COUNT p), 24, 8, .ro, 0⟩

/-- PRT_LANE_ERR (R508). -/
def PRT_LANE_ERR (p l : Nat) : Nat := prtBase p + 0x40 + l * 4
def PRT_LANE_ERR_symbol_errors (p l : Nat) : Fld := ⟨(PRT_LANE_ERR p l), 0, 32, .ro, 0⟩

/-- RGN_HBM_STATUS (R528). -/
def RGN_HBM_STATUS (n c : Nat) : Nat := rgnBase n + 0x5000 + c * 0x40 + 0x0
def RGN_HBM_STATUS_trained (n c : Nat) : Fld := ⟨(RGN_HBM_STATUS n c), 0, 1, .ro, 0⟩
def RGN_HBM_STATUS_degraded (n c : Nat) : Fld := ⟨(RGN_HBM_STATUS n c), 1, 1, .ro, 0⟩
def RGN_HBM_STATUS_marked_die (n c : Nat) : Fld := ⟨(RGN_HBM_STATUS n c), 2, 4, .ro, 0⟩
def RGN_HBM_STATUS_corrected (n c : Nat) : Fld := ⟨(RGN_HBM_STATUS n c), 6, 1, .w1c, 0⟩
def RGN_HBM_STATUS_uncorrectable (n c : Nat) : Fld := ⟨(RGN_HBM_STATUS n c), 7, 1, .w1c, 0⟩
def RGN_HBM_STATUS_poison_read (n c : Nat) : Fld := ⟨(RGN_HBM_STATUS n c), 8, 1, .w1c, 0⟩
def RGN_HBM_STATUS_partial_poison (n c : Nat) : Fld := ⟨(RGN_HBM_STATUS n c), 9, 1, .w1c, 0⟩
def RGN_HBM_STATUS_row_repaired (n c : Nat) : Fld := ⟨(RGN_HBM_STATUS n c), 10, 1, .w1c, 0⟩
def RGN_HBM_STATUS_spare_exhausted (n c : Nat) : Fld := ⟨(RGN_HBM_STATUS n c), 11, 1, .w1c, 0⟩
def RGN_HBM_STATUS_die_marked (n c : Nat) : Fld := ⟨(RGN_HBM_STATUS n c), 12, 1, .w1c, 0⟩

/-- RGN_HBM_CORR (R528). -/
def RGN_HBM_CORR (n c : Nat) : Nat := rgnBase n + 0x5000 + c * 0x40 + 0x4
def RGN_HBM_CORR_corrected_reads (n c : Nat) : Fld := ⟨(RGN_HBM_CORR n c), 0, 32, .ro, 0⟩

/-- RGN_HBM_UNCORR (R528). -/
def RGN_HBM_UNCORR (n c : Nat) : Nat := rgnBase n + 0x5000 + c * 0x40 + 0x8
def RGN_HBM_UNCORR_poisoned_lines (n c : Nat) : Fld := ⟨(RGN_HBM_UNCORR n c), 0, 16, .ro, 0⟩
def RGN_HBM_UNCORR_poisoned_reads (n c : Nat) : Fld := ⟨(RGN_HBM_UNCORR n c), 16, 16, .ro, 0⟩

/-- RGN_HBM_ERR_LO (R528). -/
def RGN_HBM_ERR_LO (n c : Nat) : Nat := rgnBase n + 0x5000 + c * 0x40 + 0xc
def RGN_HBM_ERR_LO_addr_lo (n c : Nat) : Fld := ⟨(RGN_HBM_ERR_LO n c), 0, 32, .ro, 0⟩

/-- RGN_HBM_ERR_HI (R528). -/
def RGN_HBM_ERR_HI (n c : Nat) : Nat := rgnBase n + 0x5000 + c * 0x40 + 0x10
def RGN_HBM_ERR_HI_addr_hi (n c : Nat) : Fld := ⟨(RGN_HBM_ERR_HI n c), 0, 16, .ro, 0⟩
def RGN_HBM_ERR_HI_uncorr (n c : Nat) : Fld := ⟨(RGN_HBM_ERR_HI n c), 16, 1, .ro, 0⟩

/-- RGN_HBM_REPAIR (R528). -/
def RGN_HBM_REPAIR (n c : Nat) : Nat := rgnBase n + 0x5000 + c * 0x40 + 0x14
def RGN_HBM_REPAIR_soft_repairs (n c : Nat) : Fld := ⟨(RGN_HBM_REPAIR n c), 0, 8, .ro, 0⟩
def RGN_HBM_REPAIR_hard_repairs (n c : Nat) : Fld := ⟨(RGN_HBM_REPAIR n c), 8, 8, .ro, 0⟩

/-- RGN_SCRUB_CTL (R528). -/
def RGN_SCRUB_CTL (n : Nat) : Nat := rgnBase n + 0x5200
def RGN_SCRUB_CTL_period_h (n : Nat) : Fld := ⟨(RGN_SCRUB_CTL n), 0, 8, .rw, 24⟩
def RGN_SCRUB_CTL_row_thr (n : Nat) : Fld := ⟨(RGN_SCRUB_CTL n), 8, 8, .rw, 4⟩
def RGN_SCRUB_CTL_die_thr (n : Nat) : Fld := ⟨(RGN_SCRUB_CTL n), 16, 8, .rw, 64⟩

/-- RGN_SCRUB_STATUS (R528). -/
def RGN_SCRUB_STATUS (n : Nat) : Nat := rgnBase n + 0x5204
def RGN_SCRUB_STATUS_passes (n : Nat) : Fld := ⟨(RGN_SCRUB_STATUS n), 0, 16, .ro, 0⟩
def RGN_SCRUB_STATUS_progress (n : Nat) : Fld := ⟨(RGN_SCRUB_STATUS n), 16, 7, .ro, 0⟩

/-- HUB_ADDR_STATUS (R528). -/
def HUB_ADDR_STATUS : Nat := 0x9000
def HUB_ADDR_STATUS_unmapped : Fld := ⟨HUB_ADDR_STATUS, 0, 1, .w1c, 0⟩
def HUB_ADDR_STATUS_window_fenced : Fld := ⟨HUB_ADDR_STATUS, 1, 1, .w1c, 0⟩
def HUB_ADDR_STATUS_remote_mirror : Fld := ⟨HUB_ADDR_STATUS, 2, 1, .w1c, 0⟩

/-- HUB_ADDR_COUNT (R528). -/
def HUB_ADDR_COUNT : Nat := 0x9004
def HUB_ADDR_COUNT_unmapped_accesses : Fld := ⟨HUB_ADDR_COUNT, 0, 16, .ro, 0⟩
def HUB_ADDR_COUNT_window_refusals : Fld := ⟨HUB_ADDR_COUNT, 16, 16, .ro, 0⟩

/-- HUB_ERR_BASE_LO (R551). -/
def HUB_ERR_BASE_LO : Nat := 0xa000
def HUB_ERR_BASE_LO_base_lo : Fld := ⟨HUB_ERR_BASE_LO, 0, 32, .rw, 0⟩

/-- HUB_ERR_BASE_HI (R551). -/
def HUB_ERR_BASE_HI : Nat := 0xa004
def HUB_ERR_BASE_HI_base_hi : Fld := ⟨HUB_ERR_BASE_HI, 0, 32, .rw, 0⟩

/-- HUB_ERR_CFG (R551). -/
def HUB_ERR_CFG : Nat := 0xa008
def HUB_ERR_CFG_log2_size : Fld := ⟨HUB_ERR_CFG, 0, 5, .rw, 8⟩
def HUB_ERR_CFG_in_device : Fld := ⟨HUB_ERR_CFG, 5, 1, .rw, 0⟩
def HUB_ERR_CFG_enable : Fld := ⟨HUB_ERR_CFG, 6, 1, .rw, 0⟩
def HUB_ERR_CFG_irq_severity : Fld := ⟨HUB_ERR_CFG, 8, 3, .rw, 1⟩
def HUB_ERR_CFG_irq_enable : Fld := ⟨HUB_ERR_CFG, 11, 1, .rw, 0⟩
def HUB_ERR_CFG_vector : Fld := ⟨HUB_ERR_CFG, 16, 11, .rw, 0⟩

/-- HUB_ERR_HEAD (R551). -/
def HUB_ERR_HEAD : Nat := 0xa00c
def HUB_ERR_HEAD_head : Fld := ⟨HUB_ERR_HEAD, 0, 17, .rw, 0⟩

/-- HUB_ERR_TAIL (R551). -/
def HUB_ERR_TAIL : Nat := 0xa010
def HUB_ERR_TAIL_tail : Fld := ⟨HUB_ERR_TAIL, 0, 17, .ro, 0⟩

/-- HUB_ERR_STATUS (R551). -/
def HUB_ERR_STATUS : Nat := 0xa014
def HUB_ERR_STATUS_dropped : Fld := ⟨HUB_ERR_STATUS, 0, 1, .w1c, 0⟩
def HUB_ERR_STATUS_lost_severe : Fld := ⟨HUB_ERR_STATUS, 1, 1, .w1c, 0⟩
def HUB_ERR_STATUS_buffered : Fld := ⟨HUB_ERR_STATUS, 2, 9, .ro, 0⟩
def HUB_ERR_STATUS_dropped_count : Fld := ⟨HUB_ERR_STATUS, 16, 16, .ro, 0⟩

/-- HUB_REDUN_CTL (R551). -/
def HUB_REDUN_CTL : Nat := 0xA020
def HUB_REDUN_CTL_abft_sample : Fld := ⟨HUB_REDUN_CTL, 0, 1, .rw, 0⟩
def HUB_REDUN_CTL_dup_roots : Fld := ⟨HUB_REDUN_CTL, 1, 2, .rw, 0⟩
def HUB_REDUN_CTL_mirror_depth : Fld := ⟨HUB_REDUN_CTL, 3, 1, .rw, 0⟩
def HUB_REDUN_CTL_dup_unplaced : Fld := ⟨HUB_REDUN_CTL, 16, 16, .ro, 0⟩

/-- HUB_HEARTBEAT (R551). -/
def HUB_HEARTBEAT : Nat := 0xA024
def HUB_HEARTBEAT_beat : Fld := ⟨HUB_HEARTBEAT, 0, 32, .rw, 0⟩

/-- SAF_STATUS (R552). -/
def SAF_STATUS : Nat := 0x800000
def SAF_STATUS_power_throttle : Fld := ⟨SAF_STATUS, 0, 1, .ro, 0⟩
def SAF_STATUS_thermal_throttle : Fld := ⟨SAF_STATUS, 1, 1, .ro, 0⟩
def SAF_STATUS_shutdown : Fld := ⟨SAF_STATUS, 2, 1, .ro, 0⟩
def SAF_STATUS_fw_ok : Fld := ⟨SAF_STATUS, 3, 1, .ro, 0⟩
def SAF_STATUS_heartbeat_ok : Fld := ⟨SAF_STATUS, 4, 1, .ro, 0⟩
def SAF_STATUS_clock_fault : Fld := ⟨SAF_STATUS, 8, 4, .ro, 0⟩

/-- SAF_CAUSE (R552). -/
def SAF_CAUSE : Nat := 0x800004
def SAF_CAUSE_cause : Fld := ⟨SAF_CAUSE, 0, 4, .ro, 0⟩
def SAF_CAUSE_index : Fld := ⟨SAF_CAUSE, 8, 5, .ro, 0⟩
def SAF_CAUSE_trips : Fld := ⟨SAF_CAUSE, 16, 16, .ro, 0⟩

/-- SAF_POWER (R552). -/
def SAF_POWER : Nat := 0x800008
def SAF_POWER_average : Fld := ⟨SAF_POWER, 0, 16, .ro, 0⟩
def SAF_POWER_peak : Fld := ⟨SAF_POWER, 16, 16, .ro, 0⟩

/-- SAF_INPUT (R552). -/
def SAF_INPUT : Nat := 0x80000c
def SAF_INPUT_volts : Fld := ⟨SAF_INPUT, 0, 16, .ro, 0⟩

/-- SAF_TEMP (R552). -/
def SAF_TEMP (k : Nat) : Nat := 0x800010 + k * 4
def SAF_TEMP_temp (k : Nat) : Fld := ⟨(SAF_TEMP k), 0, 8, .ro, 0⟩
def SAF_TEMP_throttle (k : Nat) : Fld := ⟨(SAF_TEMP k), 8, 8, .ro, 0⟩
def SAF_TEMP_trip (k : Nat) : Fld := ⟨(SAF_TEMP k), 16, 8, .ro, 0⟩

/-- SAF_COUNT (R552). -/
def SAF_COUNT : Nat := 0x800030
def SAF_COUNT_throttles : Fld := ⟨SAF_COUNT, 0, 16, .ro, 0⟩
def SAF_COUNT_vetoes : Fld := ⟨SAF_COUNT, 16, 16, .ro, 0⟩

/-- SAF_FW (R552). -/
def SAF_FW : Nat := 0x800034
def SAF_FW_rom_pass : Fld := ⟨SAF_FW, 0, 1, .ro, 0⟩
def SAF_FW_monitor_pass : Fld := ⟨SAF_FW, 1, 1, .ro, 0⟩
def SAF_FW_digest : Fld := ⟨SAF_FW, 8, 24, .ro, 0⟩

/-- PWR_CTL (R571). -/
def PWR_CTL : Nat := 0xb000
def PWR_CTL_request : Fld := ⟨PWR_CTL, 0, 2, .wo, 0⟩
def PWR_CTL_auto_idle : Fld := ⟨PWR_CTL, 2, 1, .rw, 0⟩
def PWR_CTL_wake_host : Fld := ⟨PWR_CTL, 3, 1, .rw, 0⟩
def PWR_CTL_idle_us : Fld := ⟨PWR_CTL, 16, 16, .rw, 100⟩

/-- PWR_STATUS (R571). -/
def PWR_STATUS : Nat := 0xb004
def PWR_STATUS_state : Fld := ⟨PWR_STATUS, 0, 2, .ro, 0⟩
def PWR_STATUS_entering : Fld := ⟨PWR_STATUS, 2, 1, .ro, 0⟩
def PWR_STATUS_exiting : Fld := ⟨PWR_STATUS, 3, 1, .ro, 0⟩
def PWR_STATUS_last_wake : Fld := ⟨PWR_STATUS, 4, 3, .ro, 0⟩
def PWR_STATUS_last_refuser : Fld := ⟨PWR_STATUS, 8, 3, .ro, 0⟩
def PWR_STATUS_refused : Fld := ⟨PWR_STATUS, 11, 1, .w1c, 0⟩
def PWR_STATUS_aborted_flag : Fld := ⟨PWR_STATUS, 12, 1, .w1c, 0⟩
def PWR_STATUS_wake_in_entry : Fld := ⟨PWR_STATUS, 13, 1, .w1c, 0⟩
def PWR_STATUS_req_ignored : Fld := ⟨PWR_STATUS, 14, 1, .w1c, 0⟩
def PWR_STATUS_brake_active : Fld := ⟨PWR_STATUS, 15, 1, .ro, 0⟩
def PWR_STATUS_therm_alert : Fld := ⟨PWR_STATUS, 16, 1, .ro, 0⟩

/-- PWR_LIMIT (R571). -/
def PWR_LIMIT : Nat := 0xb008
def PWR_LIMIT_cap_w : Fld := ⟨PWR_LIMIT, 0, 12, .rw, 2150⟩
def PWR_LIMIT_brake_w : Fld := ⟨PWR_LIMIT, 16, 12, .rw, 1200⟩

/-- PWR_THERM (R571). -/
def PWR_THERM : Nat := 0xb00c
def PWR_THERM_warn_delta : Fld := ⟨PWR_THERM, 0, 5, .rw, 0⟩

/-- PWR_ENTRY_COUNT (R571). -/
def PWR_ENTRY_COUNT : Nat := 0xb010
def PWR_ENTRY_COUNT_entries : Fld := ⟨PWR_ENTRY_COUNT, 0, 16, .ro, 0⟩
def PWR_ENTRY_COUNT_aborted : Fld := ⟨PWR_ENTRY_COUNT, 16, 16, .ro, 0⟩

/-- PWR_WAKE_COUNT (R571). -/
def PWR_WAKE_COUNT : Nat := 0xb014
def PWR_WAKE_COUNT_wakes : Fld := ⟨PWR_WAKE_COUNT, 0, 16, .ro, 0⟩
def PWR_WAKE_COUNT_wakes_in_entry : Fld := ⟨PWR_WAKE_COUNT, 16, 16, .ro, 0⟩

/-- PWR_REFUSE_COUNT0 (R571). -/
def PWR_REFUSE_COUNT0 : Nat := 0xb018
def PWR_REFUSE_COUNT0_ring_nonempty : Fld := ⟨PWR_REFUSE_COUNT0, 0, 16, .ro, 0⟩
def PWR_REFUSE_COUNT0_open_group : Fld := ⟨PWR_REFUSE_COUNT0, 16, 16, .ro, 0⟩

/-- PWR_REFUSE_COUNT1 (R571). -/
def PWR_REFUSE_COUNT1 : Nat := 0xb01c
def PWR_REFUSE_COUNT1_watch_pending : Fld := ⟨PWR_REFUSE_COUNT1, 0, 16, .ro, 0⟩
def PWR_REFUSE_COUNT1_link_traffic : Fld := ⟨PWR_REFUSE_COUNT1, 16, 16, .ro, 0⟩

/-- PWR_REFUSE_COUNT2 (R571). -/
def PWR_REFUSE_COUNT2 : Nat := 0xb020
def PWR_REFUSE_COUNT2_hbm_training : Fld := ⟨PWR_REFUSE_COUNT2, 0, 16, .ro, 0⟩
def PWR_REFUSE_COUNT2_safety_veto : Fld := ⟨PWR_REFUSE_COUNT2, 16, 16, .ro, 0⟩

/-- HUB_FW_CMD (R597). -/
def HUB_FW_CMD : Nat := 0xc000
def HUB_FW_CMD_cmd : Fld := ⟨HUB_FW_CMD, 0, 3, .wo, 0⟩

/-- HUB_FW_STATUS (R597). -/
def HUB_FW_STATUS : Nat := 0xc004
def HUB_FW_STATUS_state : Fld := ⟨HUB_FW_STATUS, 0, 3, .ro, 0⟩
def HUB_FW_STATUS_busy : Fld := ⟨HUB_FW_STATUS, 3, 1, .ro, 0⟩
def HUB_FW_STATUS_error : Fld := ⟨HUB_FW_STATUS, 4, 4, .ro, 0⟩
def HUB_FW_STATUS_fell_back : Fld := ⟨HUB_FW_STATUS, 8, 1, .w1c, 0⟩
def HUB_FW_STATUS_staged : Fld := ⟨HUB_FW_STATUS, 9, 1, .w1c, 0⟩
def HUB_FW_STATUS_board_record_bad : Fld := ⟨HUB_FW_STATUS, 10, 1, .ro, 0⟩
def HUB_FW_STATUS_progress : Fld := ⟨HUB_FW_STATUS, 16, 7, .ro, 0⟩

/-- HUB_FW_SRC_LO (R597). -/
def HUB_FW_SRC_LO : Nat := 0xc008
def HUB_FW_SRC_LO_src_lo : Fld := ⟨HUB_FW_SRC_LO, 0, 32, .rw, 0⟩

/-- HUB_FW_SRC_HI (R597). -/
def HUB_FW_SRC_HI : Nat := 0xc00c
def HUB_FW_SRC_HI_src_hi : Fld := ⟨HUB_FW_SRC_HI, 0, 16, .rw, 0⟩

/-- HUB_FW_LEN (R597). -/
def HUB_FW_LEN : Nat := 0xc010
def HUB_FW_LEN_length : Fld := ⟨HUB_FW_LEN, 0, 32, .rw, 0⟩

/-- HUB_HEALTH_CONFIRM (R597). -/
def HUB_HEALTH_CONFIRM : Nat := 0xc014
def HUB_HEALTH_CONFIRM_code : Fld := ⟨HUB_HEALTH_CONFIRM, 0, 32, .wo, 0⟩

/-- HUB_FW_TRIAL (R597). -/
def HUB_FW_TRIAL : Nat := 0xc018
def HUB_FW_TRIAL_remaining_s : Fld := ⟨HUB_FW_TRIAL, 0, 10, .ro, 0⟩
def HUB_FW_TRIAL_boots : Fld := ⟨HUB_FW_TRIAL, 10, 2, .ro, 0⟩

/-- HUB_FW_SET_LO (R597). -/
def HUB_FW_SET_LO : Nat := 0xc01c
def HUB_FW_SET_LO_set_lo : Fld := ⟨HUB_FW_SET_LO, 0, 32, .ro, 0⟩

/-- HUB_FW_SET_HI (R597). -/
def HUB_FW_SET_HI : Nat := 0xc020
def HUB_FW_SET_HI_set_hi : Fld := ⟨HUB_FW_SET_HI, 0, 32, .ro, 0⟩

/-- HUB_FW_COUNT (R597). -/
def HUB_FW_COUNT : Nat := 0xc024
def HUB_FW_COUNT_updates : Fld := ⟨HUB_FW_COUNT, 0, 8, .ro, 0⟩
def HUB_FW_COUNT_fallbacks : Fld := ⟨HUB_FW_COUNT, 8, 8, .ro, 0⟩
def HUB_FW_COUNT_bad_confirms : Fld := ⟨HUB_FW_COUNT, 16, 8, .ro, 0⟩
def HUB_FW_COUNT_board_clamped : Fld := ⟨HUB_FW_COUNT, 24, 8, .ro, 0⟩

/-- HUB_FW_CTL (R597). -/
def HUB_FW_CTL : Nat := 0xc028
def HUB_FW_CTL_wp_loader : Fld := ⟨HUB_FW_CTL, 0, 1, .lk, 1⟩

/-- HUB_ATTEST_CMD (R597). -/
def HUB_ATTEST_CMD : Nat := 0xc030
def HUB_ATTEST_CMD_start : Fld := ⟨HUB_ATTEST_CMD, 0, 1, .wo, 0⟩

/-- HUB_ATTEST_STATUS (R597). -/
def HUB_ATTEST_STATUS : Nat := 0xc034
def HUB_ATTEST_STATUS_busy : Fld := ⟨HUB_ATTEST_STATUS, 0, 1, .ro, 0⟩
def HUB_ATTEST_STATUS_done : Fld := ⟨HUB_ATTEST_STATUS, 1, 1, .w1c, 0⟩
def HUB_ATTEST_STATUS_error : Fld := ⟨HUB_ATTEST_STATUS, 2, 1, .w1c, 0⟩

/-- CNT_CTL (R608). -/
def CNT_CTL : Nat := 0xc00000
def CNT_CTL_window : Fld := ⟨CNT_CTL, 0, 16, .rw, 488⟩

/-- CNT_STATUS (R608). -/
def CNT_STATUS : Nat := 0xc00004
def CNT_STATUS_pending : Fld := ⟨CNT_STATUS, 0, 5, .ro, 0⟩
def CNT_STATUS_snap_late : Fld := ⟨CNT_STATUS, 5, 1, .w1c, 0⟩
def CNT_STATUS_any_overflow : Fld := ⟨CNT_STATUS, 6, 1, .ro, 0⟩

/-- CNT_WINDOW_END (R608). -/
def CNT_WINDOW_END : Nat := 0xc00008
def CNT_WINDOW_END_frame : Fld := ⟨CNT_WINDOW_END, 0, 32, .ro, 0⟩

/-- CNT_VALUE_LO (R608). -/
def CNT_VALUE_LO (k : Nat) : Nat := 0xC10000 + k * 8
def CNT_VALUE_LO_value_lo (k : Nat) : Fld := ⟨(CNT_VALUE_LO k), 0, 32, .ro, 0⟩

/-- CNT_VALUE_HI (R608). -/
def CNT_VALUE_HI (k : Nat) : Nat := 0xC10004 + k * 8
def CNT_VALUE_HI_value_hi (k : Nat) : Fld := ⟨(CNT_VALUE_HI k), 0, 16, .ro, 0⟩
def CNT_VALUE_HI_overflow (k : Nat) : Fld := ⟨(CNT_VALUE_HI k), 16, 1, .w1c, 0⟩

/-- HUB_RESET_CTL (R621). -/
def HUB_RESET_CTL : Nat := 0xd000
def HUB_RESET_CTL_warm : Fld := ⟨HUB_RESET_CTL, 0, 1, .wo, 0⟩
def HUB_RESET_CTL_cold : Fld := ⟨HUB_RESET_CTL, 1, 1, .wo, 0⟩
def HUB_RESET_CTL_region_reset : Fld := ⟨HUB_RESET_CTL, 2, 4, .wo, 0⟩

/-- HUB_RESET_STATUS (R621). -/
def HUB_RESET_STATUS : Nat := 0xd004
def HUB_RESET_STATUS_last_kind : Fld := ⟨HUB_RESET_STATUS, 0, 3, .ro, 0⟩
def HUB_RESET_STATUS_region_refused : Fld := ⟨HUB_RESET_STATUS, 3, 1, .w1c, 0⟩
def HUB_RESET_STATUS_warm_resets : Fld := ⟨HUB_RESET_STATUS, 8, 8, .ro, 0⟩
def HUB_RESET_STATUS_region_resets : Fld := ⟨HUB_RESET_STATUS, 16, 8, .ro, 0⟩

/-- HUB_BOOT_STATUS (R621). -/
def HUB_BOOT_STATUS : Nat := 0xd008
def HUB_BOOT_STATUS_phase : Fld := ⟨HUB_BOOT_STATUS, 0, 4, .ro, 0⟩
def HUB_BOOT_STATUS_ports_up : Fld := ⟨HUB_BOOT_STATUS, 8, 5, .ro, 0⟩
def HUB_BOOT_STATUS_ready_ms : Fld := ⟨HUB_BOOT_STATUS, 16, 16, .ro, 0⟩

/-- TID_NOW_LO (02, Registers). -/
def TID_NOW_LO : Nat := 0x100000
def TID_NOW_LO_tide_lo : Fld := ⟨TID_NOW_LO, 0, 32, .ro, 0⟩

/-- TID_NOW_HI (02, Registers). -/
def TID_NOW_HI : Nat := 0x100004
def TID_NOW_HI_tide_hi : Fld := ⟨TID_NOW_HI, 0, 32, .ro, 0⟩

/-- TID_ROOT_ID (02, Registers). -/
def TID_ROOT_ID : Nat := 0x100010
def TID_ROOT_ID_root_chip : Fld := ⟨TID_ROOT_ID, 0, 16, .ro, 65535⟩
def TID_ROOT_ID_root_prio : Fld := ⟨TID_ROOT_ID, 16, 8, .ro, 255⟩

/-- TID_EPOCH_SET_LO (02, Registers). -/
def TID_EPOCH_SET_LO : Nat := 0x100018
def TID_EPOCH_SET_LO_epoch_lo : Fld := ⟨TID_EPOCH_SET_LO, 0, 32, .rw, 0⟩

/-- TID_EPOCH_SET_HI (02, Registers). -/
def TID_EPOCH_SET_HI : Nat := 0x10001C
def TID_EPOCH_SET_HI_epoch_hi : Fld := ⟨TID_EPOCH_SET_HI, 0, 32, .rw, 0⟩

/-- TID_RATE_ADJ (02, Registers). -/
def TID_RATE_ADJ : Nat := 0x100020
def TID_RATE_ADJ_rate : Fld := ⟨TID_RATE_ADJ, 0, 32, .ro, 0⟩

/-- TID_OFFSET (02, Registers). -/
def TID_OFFSET : Nat := 0x100024
def TID_OFFSET_theta : Fld := ⟨TID_OFFSET, 0, 32, .ro, 0⟩

/-- TID_PORT_ASYM (02, Registers). -/
def TID_PORT_ASYM (p : Nat) : Nat := 0x100040 + p * 4
def TID_PORT_ASYM_asym (p : Nat) : Fld := ⟨(TID_PORT_ASYM p), 0, 16, .rw, 0⟩

/-- TID_ALARM_LO (02, Registers). -/
def TID_ALARM_LO (n : Nat) : Nat := 0x100100 + n * 0x10
def TID_ALARM_LO_value_lo (n : Nat) : Fld := ⟨(TID_ALARM_LO n), 0, 32, .rw, 0⟩

/-- TID_ALARM_HI (02, Registers). -/
def TID_ALARM_HI (n : Nat) : Nat := 0x100104 + n * 0x10
def TID_ALARM_HI_value_hi (n : Nat) : Fld := ⟨(TID_ALARM_HI n), 0, 32, .rw, 0⟩

/-- BLK_ROW_MAP (R126). -/
def BLK_ROW_MAP (b k : Nat) : Nat := blkBase b + 0x80 + k * 4
def BLK_ROW_MAP_row_0 (b k : Nat) : Fld := ⟨(BLK_ROW_MAP b k), 0, 8, .ro, 0⟩
def BLK_ROW_MAP_row_1 (b k : Nat) : Fld := ⟨(BLK_ROW_MAP b k), 8, 8, .ro, 0⟩
def BLK_ROW_MAP_row_2 (b k : Nat) : Fld := ⟨(BLK_ROW_MAP b k), 16, 8, .ro, 0⟩
def BLK_ROW_MAP_row_3 (b k : Nat) : Fld := ⟨(BLK_ROW_MAP b k), 24, 8, .ro, 0⟩

/-- UPD_VERDICT_STEP (10, Registers). -/
def UPD_VERDICT_STEP : Nat := 0x4008
def UPD_VERDICT_STEP_step : Fld := ⟨UPD_VERDICT_STEP, 0, 32, .ro, 0⟩

/-- UPD_CLIP_FACTOR (10, Registers). -/
def UPD_CLIP_FACTOR : Nat := 0x400C
def UPD_CLIP_FACTOR_c : Fld := ⟨UPD_CLIP_FACTOR, 0, 32, .ro, 1065353216⟩

/-- UPD_NORM (10, Registers). -/
def UPD_NORM : Nat := 0x4010
def UPD_NORM_norm : Fld := ⟨UPD_NORM, 0, 32, .ro, 0⟩

/-- UPD_NORM_CLIP (10, Registers). -/
def UPD_NORM_CLIP : Nat := 0x4014
def UPD_NORM_CLIP_clip : Fld := ⟨UPD_NORM_CLIP, 0, 32, .rw, 2139095040⟩

/-- UPD_NORM_CEILING (10, Registers). -/
def UPD_NORM_CEILING : Nat := 0x4018
def UPD_NORM_CEILING_ceiling : Fld := ⟨UPD_NORM_CEILING, 0, 32, .rw, 2139095040⟩

/-- HUB_ATTEST_NONCE_LO (R597). -/
def HUB_ATTEST_NONCE_LO : Nat := 0xC038
def HUB_ATTEST_NONCE_LO_addr_lo : Fld := ⟨HUB_ATTEST_NONCE_LO, 0, 32, .rw, 0⟩

/-- HUB_ATTEST_NONCE_HI (R597). -/
def HUB_ATTEST_NONCE_HI : Nat := 0xC03C
def HUB_ATTEST_NONCE_HI_addr_hi : Fld := ⟨HUB_ATTEST_NONCE_HI, 0, 16, .rw, 0⟩

/-- HUB_ATTEST_DST_LO (R597). -/
def HUB_ATTEST_DST_LO : Nat := 0xC040
def HUB_ATTEST_DST_LO_addr_lo : Fld := ⟨HUB_ATTEST_DST_LO, 0, 32, .rw, 0⟩

/-- HUB_ATTEST_DST_HI (R597). -/
def HUB_ATTEST_DST_HI : Nat := 0xC044
def HUB_ATTEST_DST_HI_addr_hi : Fld := ⟨HUB_ATTEST_DST_HI, 0, 16, .rw, 0⟩

/-- CNT_PORT_BW_TX (20, Registers). -/
def CNT_PORT_BW_TX (p : Nat) : Nat := 0xC00100 + p * 8
def CNT_PORT_BW_TX_bytes64 (p : Nat) : Fld := ⟨(CNT_PORT_BW_TX p), 0, 32, .ro, 0⟩

/-- CNT_PORT_BW_RX (20, Registers). -/
def CNT_PORT_BW_RX (p : Nat) : Nat := 0xC00104 + p * 8
def CNT_PORT_BW_RX_bytes64 (p : Nat) : Fld := ⟨(CNT_PORT_BW_RX p), 0, 32, .ro, 0⟩

/-- MSIX_ADDR_LO (R448). -/
def MSIX_ADDR_LO (v : Nat) : Nat := 0x380000 + v * 16
def MSIX_ADDR_LO_addr (v : Nat) : Fld := ⟨(MSIX_ADDR_LO v), 0, 32, .rw, 0⟩

/-- MSIX_ADDR_HI (R448). -/
def MSIX_ADDR_HI (v : Nat) : Nat := 0x380004 + v * 16
def MSIX_ADDR_HI_addr (v : Nat) : Fld := ⟨(MSIX_ADDR_HI v), 0, 32, .rw, 0⟩

/-- MSIX_DATA (R448). -/
def MSIX_DATA (v : Nat) : Nat := 0x380008 + v * 16
def MSIX_DATA_data (v : Nat) : Fld := ⟨(MSIX_DATA v), 0, 32, .rw, 0⟩

/-- MSIX_CTL (R448; mask reset PRESUMED from the PCI Express specification it names). -/
def MSIX_CTL (v : Nat) : Nat := 0x38000C + v * 16
def MSIX_CTL_mask (v : Nat) : Fld := ⟨(MSIX_CTL v), 0, 1, .rw, 1⟩

/-- Part 0 of the class table. -/
def regClasses0 : List RegClass := [
  ⟨"HUB_MODULE_STATUS", 0x10, [],
    [⟨0, 0, 4, .ro, 0⟩, ⟨0, 4, 4, .ro, 0⟩, ⟨0, 8, 1, .ro, 0⟩, ⟨0, 9, 1, .ro, 1⟩, ⟨0, 10, 1, .ro, 0⟩, ⟨0, 11, 1, .w1c, 0⟩]⟩,
  ⟨"HUB_MAINT_CTL", 0x14, [],
    [⟨0, 0, 1, .rw, 0⟩, ⟨0, 1, 1, .ro, 0⟩]⟩,
  ⟨"RGN_STATUS", 0x1000000, [(4, 0x400000)],
    [⟨0, 0, 1, .ro, 0⟩, ⟨0, 1, 1, .ro, 0⟩, ⟨0, 2, 1, .ro, 0⟩, ⟨0, 3, 1, .ro, 0⟩, ⟨0, 4, 4, .ro, 0⟩, ⟨0, 8, 8, .ro, 0⟩]⟩,
  ⟨"RGN_BLOCK_MAP", 0x1000010, [(4, 0x400000), (4, 0x4)],
    [⟨0, 0, 5, .ro, 0⟩, ⟨0, 7, 1, .ro, 0⟩, ⟨0, 8, 5, .ro, 0⟩, ⟨0, 15, 1, .ro, 0⟩, ⟨0, 16, 5, .ro, 0⟩, ⟨0, 23, 1, .ro, 0⟩, ⟨0, 24, 5, .ro, 0⟩, ⟨0, 31, 1, .ro, 0⟩]⟩,
  ⟨"TID_CTL", 0x100008, [],
    [⟨0, 0, 1, .rw, 0⟩, ⟨0, 1, 1, .rw, 0⟩, ⟨0, 2, 1, .rw, 0⟩, ⟨0, 3, 1, .w1s, 0⟩, ⟨0, 8, 8, .rw, 255⟩]⟩,
  ⟨"TID_STATUS", 0x10000c, [],
    [⟨0, 0, 1, .ro, 0⟩, ⟨0, 1, 1, .ro, 0⟩, ⟨0, 2, 1, .ro, 0⟩, ⟨0, 3, 1, .ro, 0⟩, ⟨0, 4, 1, .ro, 0⟩, ⟨0, 5, 1, .w1c, 0⟩, ⟨0, 6, 1, .w1c, 0⟩, ⟨0, 7, 5, .ro, 31⟩, ⟨0, 16, 8, .ro, 255⟩, ⟨0, 24, 8, .ro, 0⟩]⟩,
  ⟨"TID_OUT_CTL", 0x100028, [],
    [⟨0, 0, 1, .rw, 0⟩, ⟨0, 8, 8, .rw, 10⟩, ⟨0, 16, 16, .rw, 1000⟩]⟩,
  ⟨"TID_ALARM_CTL", 0x100108, [(16, 0x10)],
    [⟨0, 0, 1, .rw, 0⟩, ⟨0, 1, 1, .w1c, 0⟩, ⟨0, 2, 1, .w1c, 0⟩, ⟨0, 3, 1, .rw, 0⟩, ⟨0, 4, 1, .rw, 0⟩, ⟨0, 5, 1, .rw, 0⟩]⟩,
  ⟨"TID_ALARM_TARGET", 0x10010c, [(16, 0x10)],
    [⟨0, 0, 16, .rw, 0⟩, ⟨0, 16, 11, .rw, 0⟩]⟩,
  ⟨"WEB_CTL", 0x101000, [],
    [⟨0, 0, 1, .rw, 0⟩, ⟨0, 8, 8, .rw, 16⟩]⟩,
  ⟨"WEB_STREAM_CTL", 0x101004, [],
    [⟨0, 0, 16, .wo, 0⟩, ⟨0, 16, 1, .wo, 0⟩]⟩,
  ⟨"WEB_PORT_CTL", 0x101100, [(18, 0x10)],
    [⟨0, 0, 1, .rw, 0⟩, ⟨0, 1, 1, .rw, 0⟩]⟩]

/-- Part 1 of the class table. -/
def regClasses1 : List RegClass := [
  ⟨"WEB_PORT_STATUS", 0x101104, [(18, 0x10)],
    [⟨0, 0, 1, .ro, 1⟩, ⟨0, 1, 1, .ro, 0⟩, ⟨0, 2, 1, .ro, 0⟩, ⟨0, 3, 1, .ro, 0⟩, ⟨0, 4, 1, .ro, 0⟩, ⟨0, 5, 1, .ro, 0⟩, ⟨0, 6, 1, .w1c, 0⟩, ⟨0, 7, 1, .ro, 0⟩, ⟨0, 16, 16, .ro, 0⟩]⟩,
  ⟨"BLK_LATENCY", 0x1100000, [(4, 0x400000), (16, 0x10000)],
    [⟨0, 0, 9, .ro, 0⟩, ⟨0, 16, 8, .ro, 0⟩, ⟨0, 24, 2, .ro, 0⟩]⟩,
  ⟨"BLK_REPAIR", 0x1100004, [(4, 0x400000), (16, 0x10000)],
    [⟨0, 0, 8, .ro, 0⟩, ⟨0, 8, 8, .ro, 0⟩, ⟨0, 16, 8, .ro, 0⟩]⟩,
  ⟨"BLK_ABFT_CTL", 0x1100008, [(4, 0x400000), (16, 0x10000)],
    [⟨0, 0, 1, .rw, 0⟩]⟩,
  ⟨"BLK_ABFT_STATUS", 0x110000c, [(4, 0x400000), (16, 0x10000)],
    [⟨0, 0, 1, .w1c, 0⟩, ⟨0, 1, 1, .w1c, 0⟩, ⟨0, 2, 1, .w1c, 0⟩, ⟨0, 3, 1, .w1c, 0⟩, ⟨0, 4, 1, .w1c, 0⟩, ⟨0, 16, 8, .ro, 255⟩]⟩,
  ⟨"BLK_ABFT_COUNT", 0x1100010, [(4, 0x400000), (16, 0x10000)],
    [⟨0, 0, 12, .ro, 0⟩, ⟨0, 12, 12, .ro, 0⟩, ⟨0, 24, 8, .ro, 0⟩]⟩,
  ⟨"BLK_DECKLE_COL_KEEP", 0x1100120, [(4, 0x400000), (16, 0x10000), (15, 0x20), (4, 0x4)],
    [⟨0, 0, 32, .rw, 4294967295⟩]⟩,
  ⟨"BLK_DECKLE_RUN", 0x1100130, [(4, 0x400000), (16, 0x10000), (15, 0x20), (4, 0x4)],
    [⟨0, 0, 12, .rw, 0⟩, ⟨0, 16, 13, .rw, 0⟩]⟩,
  ⟨"BLK_TIE_CFG", 0x1100304, [(4, 0x400000), (16, 0x10000), (15, 0x4)],
    [⟨0, 0, 12, .rw, 0⟩, ⟨0, 16, 12, .ro, 0⟩]⟩,
  ⟨"PAN_STATUS", 0x1100400, [(4, 0x400000), (16, 0x10000)],
    [⟨0, 0, 5, .ro, 0⟩, ⟨0, 5, 1, .w1c, 0⟩, ⟨0, 6, 1, .w1c, 0⟩, ⟨0, 7, 1, .w1c, 0⟩, ⟨0, 16, 16, .ro, 0⟩]⟩,
  ⟨"PAN_WINDOW_COUNT", 0x1100404, [(4, 0x400000), (16, 0x10000)],
    [⟨0, 0, 16, .ro, 0⟩, ⟨0, 16, 16, .ro, 0⟩]⟩,
  ⟨"PAN_DBG_CTL", 0x1100500, [(4, 0x400000), (16, 0x10000)],
    [⟨0, 0, 1, .rw, 0⟩, ⟨0, 1, 1, .ro, 0⟩, ⟨0, 2, 1, .w1s, 0⟩]⟩]

/-- Part 2 of the class table. -/
def regClasses2 : List RegClass := [
  ⟨"PAN_DBG_ROW", 0x1100504, [(4, 0x400000), (16, 0x10000)],
    [⟨0, 0, 12, .rw, 0⟩]⟩,
  ⟨"PAN_DBG_FLAGS", 0x1100508, [(4, 0x400000), (16, 0x10000)],
    [⟨0, 0, 1, .ro, 0⟩, ⟨0, 1, 1, .ro, 0⟩, ⟨0, 2, 1, .ro, 0⟩, ⟨0, 3, 1, .w1c, 0⟩, ⟨0, 4, 1, .ro, 0⟩, ⟨0, 5, 1, .ro, 0⟩]⟩,
  ⟨"PAN_DBG_RESIDUE", 0x110050c, [(4, 0x400000), (16, 0x10000)],
    [⟨0, 0, 32, .ro, 0⟩]⟩,
  ⟨"PAN_DBG_BOUND", 0x1100510, [(4, 0x400000), (16, 0x10000)],
    [⟨0, 0, 32, .ro, 0⟩]⟩,
  ⟨"PAN_DBG_ELEM", 0x1100600, [(4, 0x400000), (16, 0x10000), (128, 0x4)],
    [⟨0, 0, 32, .rw, 0⟩]⟩,
  ⟨"PAN_DBG_GUARD", 0x1100800, [(4, 0x400000), (16, 0x10000), (16, 0x4)],
    [⟨0, 0, 32, .ro, 0⟩]⟩,
  ⟨"BLK_FAB_STATUS", 0x1100a00, [(4, 0x400000), (16, 0x10000)],
    [⟨0, 0, 1, .ro, 0⟩, ⟨0, 1, 3, .ro, 0⟩, ⟨0, 4, 1, .w1c, 0⟩, ⟨0, 5, 1, .w1c, 0⟩, ⟨0, 6, 1, .w1c, 0⟩, ⟨0, 7, 1, .w1c, 0⟩]⟩,
  ⟨"BLK_FAB_COUNT", 0x1100a04, [(4, 0x400000), (16, 0x10000)],
    [⟨0, 0, 16, .ro, 0⟩, ⟨0, 16, 16, .ro, 0⟩]⟩,
  ⟨"BLK_FAB_PLANE", 0x1100a10, [(4, 0x400000), (16, 0x10000), (2, 0x4)],
    [⟨0, 0, 16, .ro, 0⟩, ⟨0, 16, 1, .ro, 0⟩, ⟨0, 17, 1, .ro, 0⟩]⟩,
  ⟨"GRM_STATUS", 0x1100c00, [(4, 0x400000), (16, 0x10000)],
    [⟨0, 0, 1, .ro, 0⟩, ⟨0, 1, 1, .ro, 0⟩, ⟨0, 2, 6, .ro, 0⟩, ⟨0, 8, 1, .w1c, 0⟩, ⟨0, 9, 1, .w1c, 0⟩, ⟨0, 10, 1, .w1c, 0⟩]⟩,
  ⟨"GRM_STALL_COUNT", 0x1100c04, [(4, 0x400000), (16, 0x10000)],
    [⟨0, 0, 32, .ro, 0⟩]⟩,
  ⟨"GRM_EVENT_COUNT", 0x1100c08, [(4, 0x400000), (16, 0x10000)],
    [⟨0, 0, 16, .ro, 0⟩, ⟨0, 16, 16, .ro, 0⟩]⟩]

/-- Part 3 of the class table. -/
def regClasses3 : List RegClass := [
  ⟨"GRM_SLOT", 0x1100c40, [(4, 0x400000), (16, 0x10000), (16, 0x4)],
    [⟨0, 0, 32, .ro, 0⟩]⟩,
  ⟨"MFU_STATUS", 0x1100e00, [(4, 0x400000), (16, 0x10000)],
    [⟨0, 0, 1, .ro, 0⟩, ⟨0, 1, 3, .ro, 0⟩, ⟨0, 4, 1, .ro, 0⟩, ⟨0, 5, 2, .ro, 0⟩, ⟨0, 8, 8, .ro, 0⟩, ⟨0, 16, 1, .w1c, 0⟩, ⟨0, 17, 1, .w1c, 0⟩, ⟨0, 18, 1, .w1c, 0⟩, ⟨0, 19, 1, .w1c, 0⟩, ⟨0, 20, 1, .w1c, 0⟩]⟩,
  ⟨"MFU_RESIDUAL", 0x1100e04, [(4, 0x400000), (16, 0x10000)],
    [⟨0, 0, 32, .ro, 0⟩]⟩,
  ⟨"MFU_SIG_LO", 0x1100e08, [(4, 0x400000), (16, 0x10000)],
    [⟨0, 0, 32, .ro, 0⟩]⟩,
  ⟨"MFU_SIG_HI", 0x1100e0c, [(4, 0x400000), (16, 0x10000)],
    [⟨0, 0, 32, .ro, 0⟩]⟩,
  ⟨"MFU_COUNT", 0x1100e10, [(4, 0x400000), (16, 0x10000)],
    [⟨0, 0, 16, .ro, 0⟩, ⟨0, 16, 16, .ro, 0⟩]⟩,
  ⟨"MFU_EVENT", 0x1100e14, [(4, 0x400000), (16, 0x10000)],
    [⟨0, 0, 8, .ro, 0⟩, ⟨0, 8, 8, .ro, 0⟩, ⟨0, 16, 8, .ro, 0⟩, ⟨0, 24, 8, .ro, 0⟩]⟩,
  ⟨"MFU_ITER_COUNT", 0x1100e18, [(4, 0x400000), (16, 0x10000)],
    [⟨0, 0, 32, .ro, 0⟩]⟩,
  ⟨"SIS_STATUS", 0x1002000, [(4, 0x400000)],
    [⟨0, 0, 1, .ro, 0⟩, ⟨0, 1, 3, .ro, 0⟩, ⟨0, 4, 1, .ro, 0⟩, ⟨0, 5, 2, .ro, 0⟩, ⟨0, 8, 1, .w1c, 0⟩, ⟨0, 9, 1, .w1c, 0⟩, ⟨0, 10, 1, .w1c, 0⟩, ⟨0, 11, 1, .w1c, 0⟩, ⟨0, 12, 1, .w1c, 0⟩, ⟨0, 13, 1, .w1c, 0⟩, ⟨0, 16, 8, .ro, 255⟩]⟩,
  ⟨"SIS_SYSTEM_ID", 0x1002004, [(4, 0x400000)],
    [⟨0, 0, 32, .ro, 0⟩]⟩,
  ⟨"SIS_ROWS", 0x1002008, [(4, 0x400000)],
    [⟨0, 0, 23, .ro, 0⟩]⟩,
  ⟨"SIS_NNZ", 0x100200c, [(4, 0x400000)],
    [⟨0, 0, 24, .ro, 0⟩]⟩]

/-- Part 4 of the class table. -/
def regClasses4 : List RegClass := [
  ⟨"SIS_RANGE", 0x1002010, [(4, 0x400000)],
    [⟨0, 0, 5, .ro, 0⟩, ⟨0, 8, 5, .ro, 0⟩, ⟨0, 16, 8, .ro, 0⟩, ⟨0, 24, 5, .ro, 0⟩]⟩,
  ⟨"SIS_ITER", 0x1002014, [(4, 0x400000)],
    [⟨0, 0, 32, .ro, 0⟩]⟩,
  ⟨"SIS_COUNT", 0x1002018, [(4, 0x400000)],
    [⟨0, 0, 16, .ro, 0⟩, ⟨0, 16, 8, .ro, 0⟩, ⟨0, 24, 8, .ro, 0⟩]⟩,
  ⟨"SIS_EVENT", 0x100201c, [(4, 0x400000)],
    [⟨0, 0, 8, .ro, 0⟩, ⟨0, 8, 8, .ro, 0⟩, ⟨0, 16, 8, .ro, 0⟩, ⟨0, 24, 8, .ro, 0⟩]⟩,
  ⟨"UPD_VERDICT_CTL", 0x4000, [],
    [⟨0, 0, 8, .rw, 0⟩]⟩,
  ⟨"UPD_VERDICT_STATUS", 0x4004, [],
    [⟨0, 0, 3, .ro, 0⟩, ⟨0, 4, 4, .ro, 0⟩, ⟨0, 8, 4, .ro, 0⟩, ⟨0, 12, 1, .w1c, 0⟩, ⟨0, 13, 1, .w1c, 0⟩, ⟨0, 14, 1, .w1c, 0⟩]⟩,
  ⟨"UPD_VETO_SOURCE", 0x401c, [],
    [⟨0, 0, 16, .ro, 0⟩, ⟨0, 16, 5, .ro, 31⟩, ⟨0, 24, 4, .ro, 0⟩]⟩,
  ⟨"UPD_GROUP_STATUS", 0x4020, [],
    [⟨0, 0, 12, .ro, 0⟩, ⟨0, 16, 16, .ro, 0⟩]⟩,
  ⟨"UPD_GROUP_COUNT", 0x4024, [],
    [⟨0, 0, 16, .ro, 0⟩, ⟨0, 16, 16, .ro, 0⟩]⟩,
  ⟨"UPD_SKIP_COUNT", 0x4028, [],
    [⟨0, 0, 16, .ro, 0⟩, ⟨0, 16, 16, .ro, 0⟩]⟩,
  ⟨"UPD_ENGINE_STATUS", 0x1100f00, [(4, 0x400000), (16, 0x10000)],
    [⟨0, 0, 1, .ro, 0⟩, ⟨0, 1, 2, .ro, 0⟩, ⟨0, 3, 2, .ro, 0⟩, ⟨0, 5, 1, .w1c, 0⟩, ⟨0, 6, 1, .w1c, 0⟩]⟩,
  ⟨"UPD_ENGINE_COUNT", 0x1100f04, [(4, 0x400000), (16, 0x10000)],
    [⟨0, 0, 16, .ro, 0⟩, ⟨0, 16, 16, .ro, 0⟩]⟩]

/-- Part 5 of the class table. -/
def regClasses5 : List RegClass := [
  ⟨"HRV_ANCHOR_CTL", 0x5000, [],
    [⟨0, 0, 8, .rw, 0⟩, ⟨0, 8, 5, .rw, 4⟩]⟩,
  ⟨"HRV_STEP_BASE_LO", 0x5004, [],
    [⟨0, 0, 32, .rw, 0⟩]⟩,
  ⟨"HRV_STEP_BASE_HI", 0x5008, [],
    [⟨0, 0, 16, .rw, 0⟩]⟩,
  ⟨"HRV_STEP_LEN", 0x500c, [],
    [⟨0, 0, 5, .rw, 4⟩]⟩,
  ⟨"HRV_NORM_STATUS", 0x5010, [],
    [⟨0, 0, 1, .w1c, 0⟩, ⟨0, 1, 1, .w1c, 0⟩, ⟨0, 2, 1, .w1c, 0⟩, ⟨0, 3, 1, .w1c, 0⟩]⟩,
  ⟨"HRV_ANCHOR_COUNT", 0x5014, [],
    [⟨0, 0, 16, .ro, 0⟩, ⟨0, 16, 16, .ro, 0⟩]⟩,
  ⟨"HRV_UNIT_STATUS", 0x1003000, [(4, 0x400000), (6, 0x40)],
    [⟨0, 0, 9, .ro, 0⟩, ⟨0, 9, 1, .w1c, 0⟩, ⟨0, 10, 1, .w1c, 0⟩, ⟨0, 11, 1, .w1c, 0⟩, ⟨0, 12, 1, .w1c, 0⟩, ⟨0, 13, 1, .w1c, 0⟩, ⟨0, 14, 1, .w1c, 0⟩, ⟨0, 15, 1, .w1c, 0⟩]⟩,
  ⟨"HRV_REJECT_COUNT", 0x1003004, [(4, 0x400000), (6, 0x40)],
    [⟨0, 0, 32, .ro, 0⟩]⟩,
  ⟨"HRV_LATE_COUNT", 0x1003008, [(4, 0x400000), (6, 0x40)],
    [⟨0, 0, 16, .ro, 0⟩, ⟨0, 16, 16, .ro, 0⟩]⟩,
  ⟨"HRV_STALE_COUNT", 0x100300c, [(4, 0x400000), (6, 0x40)],
    [⟨0, 0, 32, .ro, 0⟩]⟩,
  ⟨"HRV_EVENT_COUNT", 0x1003010, [(4, 0x400000), (6, 0x40)],
    [⟨0, 0, 8, .ro, 0⟩, ⟨0, 8, 8, .ro, 0⟩, ⟨0, 16, 8, .ro, 0⟩, ⟨0, 24, 8, .ro, 0⟩]⟩,
  ⟨"HUB_MAP_STATUS", 0x6000, [],
    [⟨0, 0, 11, .ro, 0⟩, ⟨0, 11, 1, .w1c, 0⟩, ⟨0, 12, 1, .w1c, 0⟩, ⟨0, 13, 1, .w1c, 0⟩, ⟨0, 16, 16, .ro, 0⟩]⟩]

/-- Part 6 of the class table. -/
def regClasses6 : List RegClass := [
  ⟨"HUB_MAP_COUNT", 0x6004, [],
    [⟨0, 0, 16, .ro, 0⟩, ⟨0, 16, 16, .ro, 0⟩]⟩,
  ⟨"HUB_RING_STATUS", 0x6008, [],
    [⟨0, 0, 9, .ro, 0⟩, ⟨0, 9, 1, .w1c, 0⟩, ⟨0, 10, 1, .w1c, 0⟩, ⟨0, 11, 1, .w1c, 0⟩]⟩,
  ⟨"HUB_RING_COUNT", 0x600c, [],
    [⟨0, 0, 16, .ro, 0⟩, ⟨0, 16, 16, .ro, 0⟩]⟩,
  ⟨"HUB_RING_STALE", 0x6010, [],
    [⟨0, 0, 32, .ro, 0⟩]⟩,
  ⟨"SYN_STATUS", 0x7000, [],
    [⟨0, 0, 1, .w1c, 0⟩, ⟨0, 1, 1, .w1c, 0⟩, ⟨0, 2, 1, .w1c, 0⟩, ⟨0, 3, 1, .w1c, 0⟩, ⟨0, 4, 4, .ro, 0⟩, ⟨0, 8, 11, .ro, 0⟩]⟩,
  ⟨"SYN_TORUS", 0x7004, [],
    [⟨0, 0, 8, .rw, 1⟩, ⟨0, 8, 8, .rw, 1⟩, ⟨0, 16, 8, .rw, 1⟩]⟩,
  ⟨"SYN_EVT_SEL", 0x7008, [],
    [⟨0, 2, 24, .rw, 0⟩, ⟨0, 27, 5, .rw, 0⟩]⟩,
  ⟨"SYN_EVT_COUNT", 0x700c, [],
    [⟨0, 0, 16, .ro, 0⟩, ⟨0, 16, 1, .ro, 0⟩]⟩,
  ⟨"SYN_DUMP_BASE_LO", 0x7010, [],
    [⟨0, 0, 32, .rw, 0⟩]⟩,
  ⟨"SYN_DUMP_BASE_HI", 0x7014, [],
    [⟨0, 0, 16, .rw, 0⟩]⟩,
  ⟨"SYN_CTX_RANGE", 0x7020, [(4, 0x4)],
    [⟨0, 0, 14, .rw, 0⟩, ⟨0, 16, 15, .rw, 0⟩]⟩,
  ⟨"SYN_RGN_STATUS", 0x1004000, [(4, 0x400000)],
    [⟨0, 0, 14, .ro, 0⟩, ⟨0, 14, 1, .w1c, 0⟩, ⟨0, 15, 1, .w1c, 0⟩, ⟨0, 16, 10, .ro, 0⟩]⟩]

/-- Part 7 of the class table. -/
def regClasses7 : List RegClass := [
  ⟨"SYN_RGN_COUNT", 0x1004004, [(4, 0x400000)],
    [⟨0, 0, 32, .ro, 0⟩]⟩,
  ⟨"SYN_RGN_DROP", 0x1004008, [(4, 0x400000)],
    [⟨0, 0, 16, .ro, 0⟩, ⟨0, 16, 16, .ro, 0⟩]⟩,
  ⟨"RNG_BASE_LO", 0x400000, [(65536, 0x40)],
    [⟨0, 0, 32, .rws, 0⟩]⟩,
  ⟨"RNG_BASE_HI", 0x400004, [(65536, 0x40)],
    [⟨0, 0, 32, .rws, 0⟩]⟩,
  ⟨"RNG_CFG", 0x400008, [(65536, 0x40)],
    [⟨0, 0, 5, .rws, 4⟩, ⟨0, 5, 3, .rws, 4⟩, ⟨0, 8, 2, .rws, 0⟩, ⟨0, 10, 1, .rws, 0⟩, ⟨0, 11, 1, .rws, 0⟩, ⟨0, 12, 1, .rws, 0⟩, ⟨0, 16, 16, .rws, 0⟩]⟩,
  ⟨"RNG_NOTIFY", 0x40000c, [(65536, 0x40)],
    [⟨0, 0, 16, .rws, 0⟩, ⟨0, 16, 11, .rws, 0⟩, ⟨0, 27, 1, .rws, 0⟩]⟩,
  ⟨"RNG_MODERATION", 0x400010, [(65536, 0x40)],
    [⟨0, 0, 9, .rws, 1⟩, ⟨0, 16, 10, .rws, 0⟩]⟩,
  ⟨"RNG_HEAD", 0x400014, [(65536, 0x40)],
    [⟨0, 0, 21, .ro, 0⟩]⟩,
  ⟨"RNG_TAIL", 0x400018, [(65536, 0x40)],
    [⟨0, 0, 21, .ro, 0⟩]⟩,
  ⟨"RNG_SEQ", 0x40001c, [(65536, 0x40)],
    [⟨0, 0, 32, .rws, 0⟩]⟩,
  ⟨"RNG_STATUS", 0x400020, [(65536, 0x40)],
    [⟨0, 0, 1, .ro, 1⟩, ⟨0, 1, 1, .w1c, 0⟩, ⟨0, 2, 1, .w1c, 0⟩, ⟨0, 3, 1, .w1c, 0⟩, ⟨0, 4, 1, .w1c, 0⟩, ⟨0, 5, 1, .w1c, 0⟩, ⟨0, 6, 1, .ro, 0⟩, ⟨0, 8, 4, .ro, 0⟩, ⟨0, 16, 16, .ro, 0⟩]⟩,
  ⟨"RNG_REFUSED", 0x400024, [(65536, 0x40)],
    [⟨0, 0, 21, .ro, 0⟩]⟩]

/-- Part 8 of the class table. -/
def regClasses8 : List RegClass := [
  ⟨"RNG_ACCEPTED", 0x400028, [(65536, 0x40)],
    [⟨0, 0, 32, .ro, 0⟩]⟩,
  ⟨"RNG_JOURNAL_STATUS", 0x8000, [],
    [⟨0, 0, 2, .ro, 0⟩, ⟨0, 2, 2, .ro, 2⟩, ⟨0, 4, 1, .ro, 0⟩, ⟨0, 5, 1, .w1c, 0⟩, ⟨0, 6, 1, .ro, 0⟩]⟩,
  ⟨"RNG_JOURNAL_GEN", 0x8004, [],
    [⟨0, 0, 32, .ro, 0⟩]⟩,
  ⟨"RNG_JOURNAL_USED", 0x8008, [],
    [⟨0, 0, 21, .ro, 0⟩]⟩,
  ⟨"RNG_REPLAY_COUNT", 0x800c, [],
    [⟨0, 0, 16, .ro, 0⟩, ⟨0, 16, 16, .ro, 0⟩]⟩,
  ⟨"RNG_WINDOW_BASE_LO", 0x8010, [],
    [⟨0, 0, 32, .rw, 0⟩]⟩,
  ⟨"RNG_WINDOW_BASE_HI", 0x8014, [],
    [⟨0, 0, 16, .rw, 0⟩]⟩,
  ⟨"PRT_CFG", 0x200000, [(18, 0x10000)],
    [⟨0, 0, 3, .rw, 0⟩, ⟨0, 4, 8, .rw, 64⟩, ⟨0, 16, 8, .rw, 16⟩]⟩,
  ⟨"PRT_CTL", 0x200004, [(18, 0x10000)],
    [⟨0, 0, 1, .w1s, 0⟩, ⟨0, 1, 1, .wo, 0⟩, ⟨0, 2, 1, .wo, 0⟩, ⟨0, 3, 1, .wo, 0⟩]⟩,
  ⟨"PRT_STATUS", 0x200008, [(18, 0x10000)],
    [⟨0, 0, 3, .ro, 0⟩, ⟨0, 3, 1, .ro, 0⟩, ⟨0, 4, 3, .ro, 0⟩, ⟨0, 8, 1, .w1c, 0⟩, ⟨0, 9, 1, .w1c, 0⟩, ⟨0, 10, 1, .w1c, 0⟩, ⟨0, 11, 1, .w1c, 0⟩, ⟨0, 12, 1, .w1c, 0⟩]⟩,
  ⟨"PRT_LANE", 0x20000c, [(18, 0x10000)],
    [⟨0, 0, 4, .ro, 15⟩, ⟨0, 4, 4, .ro, 15⟩, ⟨0, 8, 9, .ro, 0⟩]⟩,
  ⟨"PRT_PEER", 0x200010, [(18, 0x10000)],
    [⟨0, 0, 16, .ro, 65535⟩, ⟨0, 16, 5, .ro, 31⟩, ⟨0, 21, 3, .ro, 7⟩]⟩]

/-- Part 9 of the class table. -/
def regClasses9 : List RegClass := [
  ⟨"PRT_FEC_CORR", 0x200014, [(18, 0x10000)],
    [⟨0, 0, 32, .ro, 0⟩]⟩,
  ⟨"PRT_FEC_UNCORR", 0x200018, [(18, 0x10000)],
    [⟨0, 0, 32, .ro, 0⟩]⟩,
  ⟨"PRT_CRC_ERR", 0x20001c, [(18, 0x10000)],
    [⟨0, 0, 32, .ro, 0⟩]⟩,
  ⟨"PRT_MALFORMED", 0x200020, [(18, 0x10000)],
    [⟨0, 0, 16, .ro, 0⟩, ⟨0, 16, 16, .ro, 0⟩]⟩,
  ⟨"PRT_EVENT_COUNT", 0x200024, [(18, 0x10000)],
    [⟨0, 0, 8, .ro, 0⟩, ⟨0, 8, 8, .ro, 0⟩, ⟨0, 16, 8, .ro, 0⟩, ⟨0, 24, 8, .ro, 0⟩]⟩,
  ⟨"PRT_LANE_ERR", 0x200040, [(18, 0x10000), (9, 0x4)],
    [⟨0, 0, 32, .ro, 0⟩]⟩,
  ⟨"RGN_HBM_STATUS", 0x1005000, [(4, 0x400000), (6, 0x40)],
    [⟨0, 0, 1, .ro, 0⟩, ⟨0, 1, 1, .ro, 0⟩, ⟨0, 2, 4, .ro, 0⟩, ⟨0, 6, 1, .w1c, 0⟩, ⟨0, 7, 1, .w1c, 0⟩, ⟨0, 8, 1, .w1c, 0⟩, ⟨0, 9, 1, .w1c, 0⟩, ⟨0, 10, 1, .w1c, 0⟩, ⟨0, 11, 1, .w1c, 0⟩, ⟨0, 12, 1, .w1c, 0⟩]⟩,
  ⟨"RGN_HBM_CORR", 0x1005004, [(4, 0x400000), (6, 0x40)],
    [⟨0, 0, 32, .ro, 0⟩]⟩,
  ⟨"RGN_HBM_UNCORR", 0x1005008, [(4, 0x400000), (6, 0x40)],
    [⟨0, 0, 16, .ro, 0⟩, ⟨0, 16, 16, .ro, 0⟩]⟩,
  ⟨"RGN_HBM_ERR_LO", 0x100500c, [(4, 0x400000), (6, 0x40)],
    [⟨0, 0, 32, .ro, 0⟩]⟩,
  ⟨"RGN_HBM_ERR_HI", 0x1005010, [(4, 0x400000), (6, 0x40)],
    [⟨0, 0, 16, .ro, 0⟩, ⟨0, 16, 1, .ro, 0⟩]⟩,
  ⟨"RGN_HBM_REPAIR", 0x1005014, [(4, 0x400000), (6, 0x40)],
    [⟨0, 0, 8, .ro, 0⟩, ⟨0, 8, 8, .ro, 0⟩]⟩]

/-- Part 10 of the class table. -/
def regClasses10 : List RegClass := [
  ⟨"RGN_SCRUB_CTL", 0x1005200, [(4, 0x400000)],
    [⟨0, 0, 8, .rw, 24⟩, ⟨0, 8, 8, .rw, 4⟩, ⟨0, 16, 8, .rw, 64⟩]⟩,
  ⟨"RGN_SCRUB_STATUS", 0x1005204, [(4, 0x400000)],
    [⟨0, 0, 16, .ro, 0⟩, ⟨0, 16, 7, .ro, 0⟩]⟩,
  ⟨"HUB_ADDR_STATUS", 0x9000, [],
    [⟨0, 0, 1, .w1c, 0⟩, ⟨0, 1, 1, .w1c, 0⟩, ⟨0, 2, 1, .w1c, 0⟩]⟩,
  ⟨"HUB_ADDR_COUNT", 0x9004, [],
    [⟨0, 0, 16, .ro, 0⟩, ⟨0, 16, 16, .ro, 0⟩]⟩,
  ⟨"HUB_ERR_BASE_LO", 0xa000, [],
    [⟨0, 0, 32, .rw, 0⟩]⟩,
  ⟨"HUB_ERR_BASE_HI", 0xa004, [],
    [⟨0, 0, 32, .rw, 0⟩]⟩,
  ⟨"HUB_ERR_CFG", 0xa008, [],
    [⟨0, 0, 5, .rw, 8⟩, ⟨0, 5, 1, .rw, 0⟩, ⟨0, 6, 1, .rw, 0⟩, ⟨0, 8, 3, .rw, 1⟩, ⟨0, 11, 1, .rw, 0⟩, ⟨0, 16, 11, .rw, 0⟩]⟩,
  ⟨"HUB_ERR_HEAD", 0xa00c, [],
    [⟨0, 0, 17, .rw, 0⟩]⟩,
  ⟨"HUB_ERR_TAIL", 0xa010, [],
    [⟨0, 0, 17, .ro, 0⟩]⟩,
  ⟨"HUB_ERR_STATUS", 0xa014, [],
    [⟨0, 0, 1, .w1c, 0⟩, ⟨0, 1, 1, .w1c, 0⟩, ⟨0, 2, 9, .ro, 0⟩, ⟨0, 16, 16, .ro, 0⟩]⟩,
  ⟨"HUB_REDUN_CTL", 0xa020, [],
    [⟨0, 0, 1, .rw, 0⟩, ⟨0, 1, 2, .rw, 0⟩, ⟨0, 3, 1, .rw, 0⟩, ⟨0, 16, 16, .ro, 0⟩]⟩,
  ⟨"HUB_HEARTBEAT", 0xa024, [],
    [⟨0, 0, 32, .rw, 0⟩]⟩]

/-- Part 11 of the class table. -/
def regClasses11 : List RegClass := [
  ⟨"SAF_STATUS", 0x800000, [],
    [⟨0, 0, 1, .ro, 0⟩, ⟨0, 1, 1, .ro, 0⟩, ⟨0, 2, 1, .ro, 0⟩, ⟨0, 3, 1, .ro, 0⟩, ⟨0, 4, 1, .ro, 0⟩, ⟨0, 8, 4, .ro, 0⟩]⟩,
  ⟨"SAF_CAUSE", 0x800004, [],
    [⟨0, 0, 4, .ro, 0⟩, ⟨0, 8, 5, .ro, 0⟩, ⟨0, 16, 16, .ro, 0⟩]⟩,
  ⟨"SAF_POWER", 0x800008, [],
    [⟨0, 0, 16, .ro, 0⟩, ⟨0, 16, 16, .ro, 0⟩]⟩,
  ⟨"SAF_INPUT", 0x80000c, [],
    [⟨0, 0, 16, .ro, 0⟩]⟩,
  ⟨"SAF_TEMP", 0x800010, [(6, 0x4)],
    [⟨0, 0, 8, .ro, 0⟩, ⟨0, 8, 8, .ro, 0⟩, ⟨0, 16, 8, .ro, 0⟩]⟩,
  ⟨"SAF_COUNT", 0x800030, [],
    [⟨0, 0, 16, .ro, 0⟩, ⟨0, 16, 16, .ro, 0⟩]⟩,
  ⟨"SAF_FW", 0x800034, [],
    [⟨0, 0, 1, .ro, 0⟩, ⟨0, 1, 1, .ro, 0⟩, ⟨0, 8, 24, .ro, 0⟩]⟩,
  ⟨"PWR_CTL", 0xb000, [],
    [⟨0, 0, 2, .wo, 0⟩, ⟨0, 2, 1, .rw, 0⟩, ⟨0, 3, 1, .rw, 0⟩, ⟨0, 16, 16, .rw, 100⟩]⟩,
  ⟨"PWR_STATUS", 0xb004, [],
    [⟨0, 0, 2, .ro, 0⟩, ⟨0, 2, 1, .ro, 0⟩, ⟨0, 3, 1, .ro, 0⟩, ⟨0, 4, 3, .ro, 0⟩, ⟨0, 8, 3, .ro, 0⟩, ⟨0, 11, 1, .w1c, 0⟩, ⟨0, 12, 1, .w1c, 0⟩, ⟨0, 13, 1, .w1c, 0⟩, ⟨0, 14, 1, .w1c, 0⟩, ⟨0, 15, 1, .ro, 0⟩, ⟨0, 16, 1, .ro, 0⟩]⟩,
  ⟨"PWR_LIMIT", 0xb008, [],
    [⟨0, 0, 12, .rw, 2150⟩, ⟨0, 16, 12, .rw, 1200⟩]⟩,
  ⟨"PWR_THERM", 0xb00c, [],
    [⟨0, 0, 5, .rw, 0⟩]⟩,
  ⟨"PWR_ENTRY_COUNT", 0xb010, [],
    [⟨0, 0, 16, .ro, 0⟩, ⟨0, 16, 16, .ro, 0⟩]⟩]

/-- Part 12 of the class table. -/
def regClasses12 : List RegClass := [
  ⟨"PWR_WAKE_COUNT", 0xb014, [],
    [⟨0, 0, 16, .ro, 0⟩, ⟨0, 16, 16, .ro, 0⟩]⟩,
  ⟨"PWR_REFUSE_COUNT0", 0xb018, [],
    [⟨0, 0, 16, .ro, 0⟩, ⟨0, 16, 16, .ro, 0⟩]⟩,
  ⟨"PWR_REFUSE_COUNT1", 0xb01c, [],
    [⟨0, 0, 16, .ro, 0⟩, ⟨0, 16, 16, .ro, 0⟩]⟩,
  ⟨"PWR_REFUSE_COUNT2", 0xb020, [],
    [⟨0, 0, 16, .ro, 0⟩, ⟨0, 16, 16, .ro, 0⟩]⟩,
  ⟨"HUB_FW_CMD", 0xc000, [],
    [⟨0, 0, 3, .wo, 0⟩]⟩,
  ⟨"HUB_FW_STATUS", 0xc004, [],
    [⟨0, 0, 3, .ro, 0⟩, ⟨0, 3, 1, .ro, 0⟩, ⟨0, 4, 4, .ro, 0⟩, ⟨0, 8, 1, .w1c, 0⟩, ⟨0, 9, 1, .w1c, 0⟩, ⟨0, 10, 1, .ro, 0⟩, ⟨0, 16, 7, .ro, 0⟩]⟩,
  ⟨"HUB_FW_SRC_LO", 0xc008, [],
    [⟨0, 0, 32, .rw, 0⟩]⟩,
  ⟨"HUB_FW_SRC_HI", 0xc00c, [],
    [⟨0, 0, 16, .rw, 0⟩]⟩,
  ⟨"HUB_FW_LEN", 0xc010, [],
    [⟨0, 0, 32, .rw, 0⟩]⟩,
  ⟨"HUB_HEALTH_CONFIRM", 0xc014, [],
    [⟨0, 0, 32, .wo, 0⟩]⟩,
  ⟨"HUB_FW_TRIAL", 0xc018, [],
    [⟨0, 0, 10, .ro, 0⟩, ⟨0, 10, 2, .ro, 0⟩]⟩,
  ⟨"HUB_FW_SET_LO", 0xc01c, [],
    [⟨0, 0, 32, .ro, 0⟩]⟩]

/-- Part 13 of the class table. -/
def regClasses13 : List RegClass := [
  ⟨"HUB_FW_SET_HI", 0xc020, [],
    [⟨0, 0, 32, .ro, 0⟩]⟩,
  ⟨"HUB_FW_COUNT", 0xc024, [],
    [⟨0, 0, 8, .ro, 0⟩, ⟨0, 8, 8, .ro, 0⟩, ⟨0, 16, 8, .ro, 0⟩, ⟨0, 24, 8, .ro, 0⟩]⟩,
  ⟨"HUB_FW_CTL", 0xc028, [],
    [⟨0, 0, 1, .lk, 1⟩]⟩,
  ⟨"HUB_ATTEST_CMD", 0xc030, [],
    [⟨0, 0, 1, .wo, 0⟩]⟩,
  ⟨"HUB_ATTEST_STATUS", 0xc034, [],
    [⟨0, 0, 1, .ro, 0⟩, ⟨0, 1, 1, .w1c, 0⟩, ⟨0, 2, 1, .w1c, 0⟩]⟩,
  ⟨"CNT_CTL", 0xc00000, [],
    [⟨0, 0, 16, .rw, 488⟩]⟩,
  ⟨"CNT_STATUS", 0xc00004, [],
    [⟨0, 0, 5, .ro, 0⟩, ⟨0, 5, 1, .w1c, 0⟩, ⟨0, 6, 1, .ro, 0⟩]⟩,
  ⟨"CNT_WINDOW_END", 0xc00008, [],
    [⟨0, 0, 32, .ro, 0⟩]⟩,
  ⟨"CNT_VALUE_LO", 0xc10000, [(4096, 0x8)],
    [⟨0, 0, 32, .ro, 0⟩]⟩,
  ⟨"CNT_VALUE_HI", 0xc10004, [(4096, 0x8)],
    [⟨0, 0, 16, .ro, 0⟩, ⟨0, 16, 1, .w1c, 0⟩]⟩,
  ⟨"HUB_RESET_CTL", 0xd000, [],
    [⟨0, 0, 1, .wo, 0⟩, ⟨0, 1, 1, .wo, 0⟩, ⟨0, 2, 4, .wo, 0⟩]⟩,
  ⟨"HUB_RESET_STATUS", 0xd004, [],
    [⟨0, 0, 3, .ro, 0⟩, ⟨0, 3, 1, .w1c, 0⟩, ⟨0, 8, 8, .ro, 0⟩, ⟨0, 16, 8, .ro, 0⟩]⟩]

/-- Part 14 of the class table. -/
def regClasses14 : List RegClass := [
  ⟨"HUB_BOOT_STATUS", 0xd008, [],
    [⟨0, 0, 4, .ro, 0⟩, ⟨0, 8, 5, .ro, 0⟩, ⟨0, 16, 16, .ro, 0⟩]⟩,
  ⟨"TID_NOW_LO", 0x100000, [],
    [⟨0, 0, 32, .ro, 0⟩]⟩,
  ⟨"TID_NOW_HI", 0x100004, [],
    [⟨0, 0, 32, .ro, 0⟩]⟩,
  ⟨"TID_ROOT_ID", 0x100010, [],
    [⟨0, 0, 16, .ro, 65535⟩, ⟨0, 16, 8, .ro, 255⟩]⟩,
  ⟨"TID_EPOCH_SET_LO", 0x100018, [],
    [⟨0, 0, 32, .rw, 0⟩]⟩,
  ⟨"TID_EPOCH_SET_HI", 0x10001c, [],
    [⟨0, 0, 32, .rw, 0⟩]⟩,
  ⟨"TID_RATE_ADJ", 0x100020, [],
    [⟨0, 0, 32, .ro, 0⟩]⟩,
  ⟨"TID_OFFSET", 0x100024, [],
    [⟨0, 0, 32, .ro, 0⟩]⟩,
  ⟨"TID_PORT_ASYM", 0x100040, [(18, 0x4)],
    [⟨0, 0, 16, .rw, 0⟩]⟩,
  ⟨"TID_ALARM_LO", 0x100100, [(16, 0x10)],
    [⟨0, 0, 32, .rw, 0⟩]⟩,
  ⟨"TID_ALARM_HI", 0x100104, [(16, 0x10)],
    [⟨0, 0, 32, .rw, 0⟩]⟩,
  ⟨"BLK_ROW_MAP", 0x1100080, [(4, 0x400000), (16, 0x10000), (32, 0x4)],
    [⟨0, 0, 8, .ro, 0⟩, ⟨0, 8, 8, .ro, 0⟩, ⟨0, 16, 8, .ro, 0⟩, ⟨0, 24, 8, .ro, 0⟩]⟩]

/-- Part 15 of the class table. -/
def regClasses15 : List RegClass := [
  ⟨"UPD_VERDICT_STEP", 0x4008, [],
    [⟨0, 0, 32, .ro, 0⟩]⟩,
  ⟨"UPD_CLIP_FACTOR", 0x400c, [],
    [⟨0, 0, 32, .ro, 1065353216⟩]⟩,
  ⟨"UPD_NORM", 0x4010, [],
    [⟨0, 0, 32, .ro, 0⟩]⟩,
  ⟨"UPD_NORM_CLIP", 0x4014, [],
    [⟨0, 0, 32, .rw, 2139095040⟩]⟩,
  ⟨"UPD_NORM_CEILING", 0x4018, [],
    [⟨0, 0, 32, .rw, 2139095040⟩]⟩,
  ⟨"HUB_ATTEST_NONCE_LO", 0xc038, [],
    [⟨0, 0, 32, .rw, 0⟩]⟩,
  ⟨"HUB_ATTEST_NONCE_HI", 0xc03c, [],
    [⟨0, 0, 16, .rw, 0⟩]⟩,
  ⟨"HUB_ATTEST_DST_LO", 0xc040, [],
    [⟨0, 0, 32, .rw, 0⟩]⟩,
  ⟨"HUB_ATTEST_DST_HI", 0xc044, [],
    [⟨0, 0, 16, .rw, 0⟩]⟩,
  ⟨"CNT_PORT_BW_TX", 0xc00100, [(18, 0x8)],
    [⟨0, 0, 32, .ro, 0⟩]⟩,
  ⟨"CNT_PORT_BW_RX", 0xc00104, [(18, 0x8)],
    [⟨0, 0, 32, .ro, 0⟩]⟩,
  ⟨"MSIX_ADDR_LO", 0x380000, [(2048, 0x10)],
    [⟨0, 0, 32, .rw, 0⟩]⟩]

/-- Part 16 of the class table. -/
def regClasses16 : List RegClass := [
  ⟨"MSIX_ADDR_HI", 0x380004, [(2048, 0x10)],
    [⟨0, 0, 32, .rw, 0⟩]⟩,
  ⟨"MSIX_DATA", 0x380008, [(2048, 0x10)],
    [⟨0, 0, 32, .rw, 0⟩]⟩,
  ⟨"MSIX_CTL", 0x38000c, [(2048, 0x10)],
    [⟨0, 0, 1, .rw, 1⟩]⟩]

/-- Every register class of BAR0. -/
def regClasses : List RegClass :=
  regClasses0 ++ regClasses1 ++ regClasses2 ++ regClasses3 ++ regClasses4 ++ regClasses5 ++ regClasses6 ++ regClasses7 ++ regClasses8 ++ regClasses9 ++ regClasses10 ++ regClasses11 ++ regClasses12 ++ regClasses13 ++ regClasses14 ++ regClasses15 ++ regClasses16

/-- The indices of offset `x` from a class's base along its dimensions; none when it names no register of the class. -/
def RegClass.index : List (Nat × Nat) → Nat → Option (List Nat)
  | [], 0 => some []
  | [], _ + 1 => none
  | (n, st) :: ds, x =>
    if x / st < n then (RegClass.index ds (x % st)).map (x / st :: ·)
    else none

/-- The class that holds BAR0 offset `a`. -/
def regClassAt (a : Nat) : Option RegClass :=
  regClasses.find? (fun c => decide (c.base ≤ a) && (RegClass.index c.dims (a - c.base)).isSome)

/-- The fields of the register at `a`; none listed for an offset that no chapter defines. -/
def fieldsAt (a : Nat) : List Fld :=
  match regClassAt a with
  | none => []
  | some c => c.fields.map (fun f => { f with addr := a })

end Sys2Proof.Machine
end

