-- ==== Sys2Proof/Machine/State.lean ====
section
/-! DEFINITION. The state of the module, as plain data, the reasons a step can stop, and the state after cold reset. Registers
live in one sparse map by BAR0 offset (Machine/Regs.lean names them); state that no register shows has fields of its own. -/

namespace Sys2Proof.Machine

/-- Why the machine stops with a fault. No command of the manual stops the device, so nothing raises one: a fault of the hardware is
an effect on the state (an error record, a fence, a completion status). -/
inductive Fault where
  /-- Raised by no command; kept so that the type names what a stop would be. Safe. -/
  | halted
  deriving DecidableEq, Repr

/-- Why a command has no meaning. -/
inductive Refusal where
  /-- A command whose meaning is not written yet; raised by Dispatch only. Safe. -/
  | notModelled (mnemonic : String)
  deriving DecidableEq, Repr

/-- Completion statuses (R476). -/
inductive Status where
  | ok | clamped | late | skipped | groupAborted | replayed | range | coldStart | faultRetried | faultFailed
  deriving DecidableEq, Repr

/-- Error codes (R478). -/
inductive ErrCode where
  | none | badDescriptor | badSequence | illegalInstruction | groupClosed | groupFull | storeFault | epochRejected | windowLost
  | syncLost | saveBroken | replayUnsafe | blockAbsent | regionFenced | memoryFault | portFenced | blockError
  deriving DecidableEq, Repr

/-- A journal entry (R469). State 0 is free; the record is empty before state 3. `order` counts the acceptances of the module, so that of two
descriptors accepted at one tide the earlier is known. -/
structure JEntry where
  desc : List Byte
  ring : Nat
  state : Nat
  marked : Bool
  acceptTide : Nat
  order : Nat
  record : List Byte
  deriving DecidableEq, Repr

/-- The free journal entry. -/
def JEntry.free : JEntry := ⟨[], 0, 0, false, 0, 0, []⟩

/-- A completion that waits to be written (R470 step 3, R454); `uncertain` is SIGNAL_UNCERTAIN (R480). -/
structure Done where
  entry : Nat
  status : Status
  err : ErrCode
  c1 : Nat
  c2 : Nat
  tide : Nat
  journalled : Bool
  uncertain : Bool
  deriving DecidableEq, Repr

/-- Who waits for a watch (R424): the waiter's chip and its token at that chip. -/
inductive Waiter where
  | ring (chip token : Nat)
  | block (chip token : Nat)
  | vector (chip token : Nat)
  | internal (chip token : Nat)
  deriving DecidableEq, Repr

/-- A registered watch (R420). `cond` is the code of R421. -/
structure Watch where
  counter : Nat
  claim : Bool
  cond : Nat
  operand : Nat
  waiter : Waiter
  regTide : Nat
  deriving DecidableEq, Repr

/-- Who raised a counter operation, as the dump names it (R442, R638): chip, and the 16-bit last source. -/
structure Origin where
  chip : Nat
  code : Nat
  deriving DecidableEq, Repr

/-- An operation on its way to a counter's home (R416, R417). `entry` is the SIGNAL descriptor that completes when it is applied or
deferred (R436). -/
structure SyncOp where
  counter : Nat
  op : Nat
  operand : Nat
  origin : Origin
  entry : Option Nat
  deriving DecidableEq, Repr

/-- A gated signal held at its destination (R427). -/
structure Gated where
  stream : Nat
  count : Nat
  op : SyncOp
  deriving DecidableEq, Repr

/-- A sync counter (R416) with what the dump shows of it (R442). -/
structure Counter where
  value : Word
  origin : Origin
  tide : Nat
  deriving DecidableEq, Repr

/-- A counter at cold reset (R419). -/
def Counter.zero : Counter := ⟨0, ⟨0, 0⟩, 0⟩

/-- A fire message on its way to a waiter of this module (R424): the waiter, the counter, the units that a CLAIM took, and the counter's
module. -/
structure Fire where
  waiter : Waiter
  counter : Nat
  claimed : Nat
  chip : Nat
  deriving DecidableEq, Repr

/-- A save taken of a frozen context (R439): its range, the area of the save, so that an overflow can mark it broken (R440), and the regions whose
counters are still frozen. -/
structure Frozen where
  ctx : Nat
  base : Nat
  count : Nat
  area : Nat
  regions : List Nat
  deriving DecidableEq, Repr

/-- The sync unit of a region (R416 to R425, R434, R439): operations, registrations and cancels in arrival order, the watch
table in registration order, registrations that wait for a place, and the deferral queue. -/
structure SyncUnit where
  ops : List SyncOp
  regs : List Watch
  cancels : List Watch
  watches : List Watch
  waiting : List Watch
  deferred : List SyncOp
  deriving DecidableEq, Repr

def SyncUnit.zero : SyncUnit := ⟨[], [], [], [], [], []⟩

/-- What a port remembers of its peer's tide cells and of its own (R43, R44, R48). Times are in units of 1/65,536 ns. `t1` is when the last
own tide cell left, `t1Min` when the first one since the last coarse step left (0: none has). -/
structure TidePort where
  t1 : Nat
  t1Min : Nat
  echoTx : Nat
  echoRx : Nat
  linkDelay : Nat
  delay : Int
  theta : Int
  rootId : Nat
  rootPrio : Nat
  dist : Nat
  seq : Nat
  seqAge : Nat
  locked : Bool
  epochGen : Nat
  seen : Bool
  deriving DecidableEq, Repr

def TidePort.zero : TidePort := ⟨0, 0, 0, 0, 0, 0, 0, 0xFFFF, 0xFF, 255, 0, 255, false, 0, false⟩

/-- The tide unit (R39 to R62): the count and its fraction, the frame whose boundary has been acted on last, the copies the alarms compare
against (R60), and what lock, holdover, reference discipline and epoch following remember. `lockFrame` says what the parent's tide cell of
the current frame gave (R52): 0 none yet, 1 within 2 ns, 2 beyond; `refStart` is the tide of the edge that counting starts from, moved
with every coarse step. -/
structure TideUnit where
  ns : Nat
  frac : Nat
  done : Nat
  everLocked : Bool
  mayStep : Bool
  lockRun : Nat
  lockFrame : Nat
  quiet : Nat
  holdoverFrames : Nat
  announce : Nat
  refEdges : Nat
  refStart : Int
  refLast : Nat
  refSeen : Bool
  refRate : Int
  ppsRate : Int
  ppsFrames : Nat
  ppsLast : Nat
  follow : Option (Nat × Int × Nat)
  alarms : SMap Nat
  outRise : Option Nat
  outHigh : Bool
  deriving DecidableEq, Repr

def TideUnit.zero : TideUnit :=
  ⟨0, 0, 0, false, true, 0, 0, 0, 0, 0, 0, 0, 0, false, 0, 0, 0, 0, none, [], none, false⟩

/-- A port of the hub (R63 to R94, R486 to R508): pending swaps, requests not yet in effect with the tide of their registration,
faults being counted, and the queues of slots 1 and 2 and of forwarded cells. `txStaged` and `rxStaged` name the WEB_TABLE of a commit group
that has staged a table for the direction (R77, R94); `vNext` is a verdict answer for slot 3 of the next frame (R337), `ctlNext` holds notices for slot 1 of the next frame (R404); the first `syncDue`
messages of `syncOut` may leave in this frame (R31). -/
structure PortUnit where
  txSwap : Option Nat
  rxSwap : Option Nat
  txStaged : Option Nat
  rxStaged : Option Nat
  ctlReq : List (Nat × Bool × Bool)
  vOut : Option (List Byte)
  vNext : Option (List Byte)
  fencePend : Option (Nat × Nat)
  markerRun : SMap Nat
  laneCorr : SMap Nat
  laneOver : SMap Nat
  faulty : List Nat
  unlockRun : Nat
  fenceRun : Nat
  malformed : List Nat
  txFails : Nat
  switchReq : Nat
  switchPend : Option (Nat × Nat)
  parkFrames : Nat
  peerParked : Bool
  ctlOut : List Notice
  ctlNext : List Notice
  syncOut : List (SyncMsg × Option Nat)
  syncDue : Nat
  syncSent : List (Nat × List (SyncMsg × Option Nat))
  syncNext : Nat
  syncMark : Nat
  fwd : List (Cell × Nat)
  emitted : Option Cell
  bwTx : Nat
  bwRx : Nat
  deriving DecidableEq, Repr

def PortUnit.zero : PortUnit :=
  { txSwap := none, rxSwap := none, txStaged := none, rxStaged := none, ctlReq := [], vOut := none, vNext := none, fencePend := none, markerRun := [], laneCorr := [],
    laneOver := [], faulty := [], unlockRun := 0, fenceRun := 0, malformed := [], txFails := 0, switchReq := 0, switchPend := none,
    parkFrames := 0, peerParked := false, ctlOut := [], ctlNext := [], syncOut := [], syncDue := 0, syncSent := [], syncNext := 0, syncMark := 0,
    fwd := [], emitted := none, bwTx := 0, bwRx := 0 }

/-- Who owns an outgoing transfer: a descriptor, the answer to a gather request, or a broadcast relay. -/
inductive TxOwner where
  | entry (e : Nat)
  | gather
  | relay
  deriving DecidableEq, Repr

/-- An outgoing transfer (R65 to R68, R85): its payloads are taken when it starts. `loc` travels over the region crossbar, `be` by
best-effort DMA; `first` is the first element of a contribution (R360), `late`, `carried` and `reject` what its window says of it (R379,
R385), `more` says that a relay's cells are still landing (R386), `sheet` is the sheet that a gather reads (R320), `port` the port on which
a cell last left (18: none has), `queued` says that it has been re-queued and has sent nothing since (R86), and `sent` counts the cells that
have left at least once. -/
structure TxXfer where
  stream : Nat
  tag : Nat
  epoch : Nat
  hold : Nat
  owner : TxOwner
  cells : List (List Byte)
  dst : Nat
  next : Nat
  landed : Nat
  gap : Nat
  moved : Bool
  retry : Bool
  loc : Bool
  be : Bool
  first : Nat
  late : Bool
  carried : Bool
  reject : Bool
  more : Bool
  sheet : Option (Nat × Bool)
  port : Nat
  queued : Bool
  sent : Nat
  deriving DecidableEq, Repr

/-- What a receiving endpoint does with the cells of the transfer it is bound to. -/
inductive RxKind where
  | plain
  | widen
  | ringStep
  | broadcast
  deriving DecidableEq, Repr

/-- A bound receive (R66, R466): the descriptor, its tag, destination and length, its landed mark and gap; `port` and `queued` are as for an
outgoing transfer. -/
structure RxBind where
  entry : Nat
  kind : RxKind
  tag : Nat
  base : Nat
  len : Nat
  hold : Nat
  mark : Nat
  written : Nat
  excess : Nat
  gap : Nat
  moved : Bool
  poison : Bool
  port : Nat
  queued : Bool
  deriving DecidableEq, Repr

/-- The receiving endpoint of a stream (R67, R427): the bound receive, those that wait in acceptance order, the landed-transfer
count, and for each transfer that a closed receive or a best-effort destination has taken its tag, its landed mark and whether its last cell has
landed. -/
structure RxStream where
  bound : Option RxBind
  queue : List RxBind
  count : Nat
  marks : List (Nat × Nat × Bool)
  deriving DecidableEq, Repr

def RxStream.zero : RxStream := ⟨none, [], 0, []⟩

/-- An error record before it is laid out (R544). -/
structure ErrRec where
  severity : Nat
  level : Nat
  unit : Nat
  region : Nat
  index : Nat
  detail : Nat
  cause : Nat
  addr : Nat
  ring : Nat
  seq : Nat
  deriving DecidableEq, Repr

/-- An answer on the bus to the last read of a command: data, whether it is marked poisoned, and whether it is an Unsupported Request
completion. A field of the model, not of the manual (notes/assumptions/3.md). -/
structure BusAnswer where
  data : List Byte
  poison : Bool
  unsupported : Bool
  deriving DecidableEq, Repr

/-- A pan word: its bits, whether its stored parity is wrong, and its guard nibble (R130, R155, R157). -/
structure PanWord where
  bits : Nat
  bad : Bool
  guard : Nat
  deriving DecidableEq, Repr

def PanWord.zero : PanWord := ⟨0, false, 0⟩

/-- What a pan row carries beside its words (R132, R161, R162, R603): width tag, sticky flags, residue, bound and cost. -/
structure PanRow where
  w16 : Bool
  nonfinite : Bool
  overflow : Bool
  inexact : Bool
  parityErr : Bool
  unverified : Bool
  residue : Nat
  bound : Nat
  cost : Nat
  deriving DecidableEq, Repr

/-- A pan row at cold reset and block reset (R133). -/
def PanRow.zero : PanRow := ⟨false, false, false, false, false, false, 0, 0, 0⟩

/-- An armed Gram tap (R220). -/
structure Tap where
  clear : Bool
  keep : Bool
  interval : Nat
  phase : Nat
  slot : Nat
  rowBase : Nat
  keepAddr : Nat
  deriving DecidableEq, Repr

/-- A row in the sample queue (R223, R224): its slot, whether the slot is cleared first, and its 128 bf16 codes. -/
structure Sample where
  slot : Nat
  clear : Bool
  row : List Nat
  deriving DecidableEq, Repr

/-- An instruction that waits for its replay (R119) or for the row test (R120): context, launch entry, instruction, first row to
stream again, and the index after its last sampled row (R232). -/
structure Replay where
  ctx : Nat
  entry : Nat
  word : Nat
  fromRow : Nat
  sampled : Nat
  deriving DecidableEq, Repr

/-- A tile-window access that waits for its rows (R153): offset, length, the data of a write, and the descriptor that makes it, if one does. -/
structure WinAccess where
  off : Nat
  len : Nat
  data : Option (List Byte)
  entry : Option Nat
  deriving DecidableEq, Repr

/-- A drain that has issued and waits for the count of its tie group (R114): context, launch entry, instruction, and the deckle mask it
latched (R112): the column keep map and the row runs (start, count). -/
structure DrainWait where
  ctx : Nat
  entry : Nat
  word : Nat
  keep : Nat
  runs : List (Nat × Nat)
  deriving DecidableEq, Repr

/-- An instruction in the fabric queue of a block (R215): context, launch entry, instruction. -/
structure FabJob where
  ctx : Nat
  entry : Nat
  word : Nat
  deriving DecidableEq, Repr

/-- The stationary tile that a context keeps (R97 stat_keep): format code, whether it was loaded transposed, and its bytes as read from
the vat, by offset. -/
structure KeptTile where
  fmt : Nat
  trans : Bool
  bytes : SMap Byte
  deriving DecidableEq, Repr

/-- A logical block (R97 to R245) beside its pan, stat pan, lanes and registers. -/
structure BlockUnit where
  tiles : SMap KeptTile
  taps : SMap Tap
  samples : List Sample
  verifyCount : Nat
  replay : Option Replay
  rowTest : Option Replay
  reinit : Bool
  drains : List DrainWait
  winWait : List WinAccess
  planes : SMap (List Byte)
  dbgPending : Bool
  current : Nat
  lastBg : Nat
  tieRows : SMap (Nat × Nat)
  fabQ : List FabJob
  deriving DecidableEq, Repr

def BlockUnit.zero : BlockUnit := ⟨[], [], [], 0, none, none, false, [], [], [], false, 0, 3, [], []⟩

def KeptTile.none : KeptTile := ⟨0, false, []⟩
def Tap.none : Tap := ⟨false, false, 0, 0, 0, 0, 0⟩

/-- A block program that runs, or waits to run, in a context of a block (R467, R121): its descriptor, place and length, the next
instruction, what has been counted, the first instruction of the current program step, the tie counts at that point, and the tie groups whose
count the step has changed since (R151). `token` is the watch that a SYN_WAIT waits for; `touched` says the current step has issued an instruction. -/
structure Launch where
  entry : Nat
  block : Nat
  ctx : Nat
  addr : Nat
  len : Nat
  stepNo : Nat
  pc : Nat
  issued : Nat
  reruns : Nat
  stepPc : Nat
  ties : List Nat
  tied : List Nat
  replayed : Bool
  retried : Bool
  token : Option Nat
  deriving DecidableEq, Repr

/-- What the device configuration fields hold (R592). -/
structure DevCfg where
  seed : DWord
  shAddr : Nat
  shCount : Nat
  chip : Nat
  bootLock : Bool
  deriving DecidableEq, Repr

/-- What a started descriptor is doing (R463): which kind it is, whether it has completed, and its job. Jobs of kinds that act in one
command are `plain`. `phase` is 0 until the kind's command has begun it. -/
structure Work where
  kind : Nat
  ring : Nat
  done : Bool
  phase : Nat
  deriving DecidableEq, Repr

def Work.none : Work := ⟨0, 0, true, 0⟩

/-- A descriptor that waits for a watch (R424, R425): a WAIT, or a RING_STEP for its free counter. -/
structure WaitJob where
  token : Nat
  chip : Nat
  watch : Watch
  deriving DecidableEq, Repr

/-- A cell of a harvest window (R359): its internal accumulator (the pattern, in fp32 mode), the non-finite mark, and whether it became
infinite by adding finite values. -/
structure HCell where
  acc : Int
  mark : Bool
  ovf : Bool
  deriving DecidableEq, Repr

def HCell.zero : HCell := ⟨0, false, false⟩

/-- A contribution to a window as it lands (R362, R363): contributor, stream, tag, landed mark; its gap and the port of its last cell (R85,
R86). -/
structure WinXfer where
  chip : Nat
  stream : Nat
  tag : Nat
  mark : Nat
  included : Bool
  late : Bool
  done : Bool
  reject : Bool
  gap : Nat
  moved : Bool
  port : Nat
  queued : Bool
  deriving DecidableEq, Repr

/-- A harvest window (R358 to R369): state 0 FREE, 1 OPEN, 2 CLOSING, 3 TRAIL; the HARVEST that opened it; the anchors of its main cells and
of its carry set; and the contributions of its step and the step before. -/
structure Window where
  state : Nat
  step : Nat
  entry : Nat
  mode : Nat
  normAcc : Bool
  carry : Bool
  epoch : Nat
  tensor : Nat
  anchor : Int
  sluice : Nat
  strict : Bool
  closeTide : Nat
  early : Bool
  torn : Bool
  off : Nat
  elems : Nat
  hasCarry : Bool
  carryAnchor : Int
  carryTensor : Nat
  carryEpoch : Nat
  rejected : Nat
  shed : Bool
  xfers : List WinXfer
  deriving DecidableEq, Repr

def Window.zero : Window :=
  ⟨0, 0, 0, 0, false, false, 0, 0, 0, 0, false, 0, false, false, 0, 0, false, 0, 0, 0, 0, false, []⟩

/-- What a module gathers for the norm contribution of a step (R373, R374): the exact sum of squares in units of 2^−298, the indications, the
amax bytes by record index, whether a window of the step was lost (R387), and whether the step has been marked under R400 and under R401. -/
structure NormAcc where
  step : Nat
  sum : Nat
  nonfinite : Bool
  overflow : Bool
  probe : Bool
  lost : Bool
  amax : SMap Nat
  strict : Bool
  poisoned : Bool
  deriving DecidableEq, Repr

def NormAcc.zero : NormAcc := ⟨0, 0, false, false, false, false, [], false, false⟩

/-- The verdict of a step (R332 to R337): `phase` is 0 before the norm record has landed, 1 with a local verdict, 2 in the window of frame V
to V + W, 3 confirmed, at tide `conf`. `ports` are the verdict ports whose cell of frame V has not come; they and the window are latched at the
start of frame V. -/
structure Verdict where
  step : Nat
  domain : Nat
  bound : Bool
  vtide : Nat
  phase : Nat
  record : List Byte
  clip : Nat
  ceil : Nat
  code : Nat
  reason : Nat
  factor : Nat
  norm : Nat
  digest : Nat
  origin : Nat
  fromPort : Nat
  window : Nat
  ports : List Nat
  byQuery : Bool
  conf : Nat
  latched : Bool
  deriving DecidableEq, Repr

def Verdict.zero : Verdict :=
  ⟨0, 0, false, 0, 0, [], 0, 0, 0, 0, 0x3F800000, 0, 0, 0, 0x1F, 0, [], false, 0, false⟩

/-- What a step's harvests add up to for its step record (R382). -/
structure StepSum where
  windows : Nat
  included : Nat
  carried : Nat
  dropped : Nat
  rejected : Nat
  sluice : Option Nat
  deriving DecidableEq, Repr

def StepSum.zero : StepSum := ⟨0, 0, 0, 0, 0, none⟩

/-- An installed owner map (R393): runs are (start, length, owner chip, logical block). -/
structure OwnerMap where
  epoch : Nat
  tensor : Nat
  strict : Bool
  extent : Nat
  unit : Nat
  runs : List (Nat × Nat × Nat × Nat)
  deriving DecidableEq, Repr

/-- An OWNER_MAP that has been checked and waits for its activation tide (R398). -/
structure MapChange where
  entry : Option Nat
  remove : Bool
  id : Nat
  map : OwnerMap
  tide : Nat
  clamped : Bool
  deriving DecidableEq, Repr

/-- A RING_STEP under way (R403 to R406): what has been sent and landed, and whether the free threshold has been met. -/
structure RingJob where
  sendDone : Bool
  recvDone : Bool
  sent : Nat
  landed : Nat
  isOpen : Bool
  deriving DecidableEq, Repr

/-- A ROOT job under way (R246 to R272): its sequencers, dimension, order code, damping, estimate, scale exponent, signature, factor version
and start kind; the iterations since its start and in this execution, the last residual, the source (empty once resumed) and the pair
(X, M) as dense matrices of bf16 codes; what it has met: a rescale, a mismatch of its duplicate, a cold start forced, a block error, a quarantine
of its block, and whether that quarantine is still to be acted on; the iteration published or checkpointed last; and the slot it waits to publish. -/
structure RootJob where
  blocks : List Nat
  dupBlocks : List Nat
  n : Nat
  eps : Nat
  lam : Nat
  exp : Int
  sig : Nat
  fver : Nat
  kind : Nat
  k : Nat
  run : Nat
  res : Nat
  src : List Nat
  x : List Nat
  m : List Nat
  rescaled : Bool
  mismatched : Bool
  cold : Bool
  retried : Bool
  replayed : Bool
  lost : Bool
  kept : Nat
  pub : Option Nat
  deriving DecidableEq, Repr

/-- The resident system of a region's solver (R280, R281, R284 to R286, R304): entries are (sq32 code, column word); `lam` is λ as a
code; and the gather store. -/
structure Solver where
  valid : Bool
  id : Nat
  ws : Nat
  n : Nat
  f : Nat
  h : Nat
  gmax : Int
  lam : Int
  entries : List (Int × Nat)
  gather : List Int
  deriving DecidableEq, Repr

def Solver.zero : Solver := ⟨false, 0, 0, 0, 0, 0, 0, 0, [], []⟩

/-- An effect that a member of a commit group stages (R340): an absolute write of bytes at an address, a signal, the arming of a bank of a
port's direction for its swap tide, and the installation or removal of an owner map. -/
inductive Effect where
  | write (addr : Nat) (bytes : List Byte)
  | signal (chip n op operand : Nat) (origin : Origin) (gate : Option (Nat × Nat))
  | bank (port : Nat) (rx : Bool) (entries : List Byte) (tide : Nat)
  | map (remove : Bool) (id : Nat) (m : OwnerMap) (tide : Nat)
  deriving DecidableEq, Repr

/-- A member of a group that has staged (R342): its descriptor, its own status and counts. -/
structure Member where
  entry : Nat
  status : List Status
  c1 : Nat
  c2 : Nat
  deriving DecidableEq, Repr

/-- An open commit group (R339, R341): members expected; its step, domain and verdict tide when verdict-bound; its GROUP_COMMIT; what has
staged, in staging order; and the tide by which its commit record write must begin (R346, R398), with the member that set it. -/
structure Group where
  begin_ : Nat
  expected : Nat
  bound : Option (Nat × Nat × Nat)
  commit : Option Nat
  members : List Member
  effects : List Effect
  limits : List (Nat × Nat)
  deriving DecidableEq, Repr

def Group.zero : Group := ⟨0, 0, none, none, [], [], []⟩

/-- A commit record in the ring journal (R343): the group, its GROUP_COMMIT and its effects with their absolute values; how many mirrors hold it
(its write has begun with none), how many effects have been made, whether the group has been freed, and the completions that are not yet in
state 3. -/
structure CommitRec where
  group : Nat
  entry : Nat
  effects : List Effect
  mirrors : Nat
  made : Nat
  done : Bool
  owed : List Member
  deriving DecidableEq, Repr

/-- A copy of a preconditioner block that an UPDATE has recorded (R326): the UPDATE's entry, the area, the block and its version. -/
structure RecCopy where
  entry : Nat
  area : Nat
  block : Nat
  version : Nat
  deriving DecidableEq, Repr

/-- The whole state. -/
structure State where
  /-- Commands that wait, first in, first out. -/
  pending : List Instr
  /-- The last bus answer (model's own output). -/
  out : BusAnswer
  /-- How many free values have been taken (model's own). -/
  free : Nat
  /-- BAR0 registers by offset. -/
  regs : SMap Word
  /-- Event counts of W1C flags by offset × 32 + bit (R443). -/
  evt : SMap Nat
  /-- HBM and vat bytes by local address. -/
  mem : SMap Byte
  /-- Poisoned 64-byte lines by line number (R520). -/
  poison : SMap Bool
  /-- Host memory as the device reaches it over PCI Express, by bus address. -/
  host : SMap Byte
  tide : TideUnit
  tports : SMap TidePort
  ports : SMap PortUnit
  /-- Streams held (R82), and hold or resume requests with their tide. -/
  held : List Nat
  holdReq : List (Nat × Bool × Nat)
  tx : List TxXfer
  rx : SMap RxStream
  /-- Started-transfer counts by stream (R427). -/
  started : SMap Nat
  counters : SMap Counter
  sync : SMap SyncUnit
  gated : List Gated
  frozen : List Frozen
  fires : List Fire
  /-- Sync messages raised here that wait to leave, with the descriptor that completes when they land (R31, R436). -/
  syncRaise : List (SyncMsg × Option Nat)
  /-- Sync messages that wait for a forwarding step (R432). -/
  syncFwd : List SyncMsg
  /-- Descriptors accepted so far, which orders acceptances at one tide (R305). -/
  acceptNo : Nat
  mirrorA : SMap JEntry
  mirrorB : SMap JEntry
  shadow : SMap JEntry
  work : SMap Work
  /-- Accepted and uncompleted entries of each ring, in acceptance order. -/
  ringQ : SMap (List Nat)
  doneQ : List Done
  /-- Descriptors that wait for a watch, by journal entry, and tokens of CLAIM waiters that have given up (R425). -/
  waits : SMap WaitJob
  gaveUp : List Nat
  /-- Open commit groups by ID, and commit records (R339, R343). -/
  groups : SMap Group
  commits : List CommitRec
  /-- Preconditioner copies that unresolved UPDATEs have recorded (R326). -/
  copies : List RecCopy
  /-- The PCIe endpoint has stopped issuing requests (R534). -/
  tlpStop : Bool
  /-- Binary logarithm of the size of BAR4 in force (R447): 36 at reset (notes/assumptions/34.md). -/
  barLog : Nat
  /-- Records written since the last interrupt and the tide of the oldest, by completion ring (R482). -/
  moder : SMap (Nat × Nat)
  /-- Records written to each completion ring since its enable (R453). -/
  cqPass : SMap Nat
  /-- Entries that the current or last journal replay took up (R480). -/
  replayQ : List Nat
  /-- Reset requests that are still to be carried out (R609, R612): the warm request's kind code of R621, a cold request, and regions. -/
  warmReq : Option Nat
  coldReq : Bool
  regionReq : List Nat
  /-- Ring served last in each priority class (R463). -/
  rr : SMap Nat
  errBuf : List (List Byte)
  errSeq : Nat
  /-- Coalescing severity 0 records: the record, its count and the start of its interval (R546). -/
  errCoal : List (ErrRec × Nat × Nat)
  /-- The 63 newest records of severity 1 or more, oldest first (R633). -/
  errNew : List (List Byte)
  cfg : DevCfg
  /-- Logical blocks by number. -/
  blocks : SMap BlockUnit
  /-- Pan words by (block × 4096 + row) × 128 + column; pan rows by block × 4096 + row. -/
  pan : SMap PanWord
  panRows : SMap PanRow
  /-- Stat-pan words by ((block × 16 + slot) × 128 + i) × 128 + j. -/
  stat : SMap Nat
  /-- Lane registers by ((block × 4 + context) × 16 + register) × 64 + lane. -/
  lanes : SMap Nat
  /-- Block programs in launch order. -/
  launches : List Launch
  /-- Block errors of each physical block since cold reset (R22). -/
  blkErr : SMap Nat
  /-- Quarantined rows of each physical block (R95, R537). -/
  quarRows : SMap (List Nat)
  /-- The copies of the repair record in flash (R536), whether a change waits to be written, and soft repairs awaiting hard repair (R537):
  stack, channel, pseudo-channel, bank, row. -/
  repairA : List Byte
  repairB : List Byte
  repairPend : Bool
  softRep : List (List Nat)
  /-- Issue stopped in every block by the safety monitor (R539), and by the hub on PWR_BRAKE# (R555). -/
  monStop : Bool
  brakeStop : Bool
  /-- PWR_BRAKE# as sampled; the hub governor is engaged (R553, R555). -/
  brakeLow : Bool
  governing : Bool
  /-- Temperature of each HBM stack as last sampled (R539). -/
  stackTemp : SMap Nat
  /-- The state that the entry under way leads to, a wake that came in it, and a request for a deeper state that waits for an exit (R560,
  R566). -/
  entryTo : Nat
  wakePend : Option Nat
  reqPend : Nat
  /-- WAKE# driven low (R568), the tide of the last exit from S2 or S3, HBM controllers whose retraining is due, whether a port moved a cell
  in slots 4 to 255 in the current and in the last whole frame (R562). -/
  wakeLow : Bool
  lastExit : Option Nat
  retrainDue : List Nat
  movedNow : Bool
  movedLast : Bool
  /-- Alarm signals held in S2 and S3 (R570). -/
  heldAlarms : List SyncOp
  /-- The scrub position of each stack as a line number, passes ended, and the corrected reads of the pass by die and by row (R522 to R524). -/
  scrubPos : SMap Nat
  scrubPass : SMap Nat
  scrubDie : SMap Nat
  scrubRow : SMap Nat
  /-- Harvest windows by ID, and their cells by unit × 4 MiB + byte offset (R358, R359). -/
  wins : SMap Window
  hcells : SMap HCell
  /-- The norm accumulators and contributions of even and odd steps (R373, R374). -/
  norms : SMap NormAcc
  /-- Verdicts under way and the confirmed ones of the last 16 steps (R332 to R337), norm records that have landed and are still to be taken
  (R386), and the sums of steps that have no step record yet (R382). -/
  verdicts : List Verdict
  normIn : List (List Byte)
  stepSums : SMap StepSum
  /-- The map store and the changes that wait for their activation (R395, R398). -/
  maps : SMap OwnerMap
  mapPend : List MapChange
  ringJobs : SMap RingJob
  /-- ROOT jobs by journal entry, and the solvers of the regions. -/
  rootJobs : SMap RootJob
  solvers : SMap Solver
  /-- The port on which a best-effort transfer passing through came in, by tag. -/
  relayed : SMap Nat
  /-- The xSPI flash beside the repair record and the error history (R572). -/
  flash : SMap Byte
  /-- Next waiter token (R430). -/
  nextToken : Nat
  /-- The 64 newest records of severity 3 or 4, in flash, oldest first (R547). -/
  errHist : List (List Byte)
  cnt : SMap Nat
  cntLatch : SMap Nat
  /-- Bytes not yet making up a 64-byte unit, by event counter (R601). -/
  cntRem : SMap Nat
  /-- The window W of port bandwidth in force (R604), and the uncaptured SNAPSHOTs (R606). -/
  bwWindow : Nat
  snaps : List Nat
  /-- PERST# is asserted (R609); the 48 V input is lost (R627). -/
  perstLow : Bool
  unpowered : Bool
  /-- Regions that a protective shutdown fenced, which its restart opens again, and the cause of the shutdown (R540, R541). -/
  shutFenced : List Nat
  shutCause : Nat
  /-- A write of 0 to maint_req waits for the next instruction boundary of every block (R30). -/
  maintEnd : Bool
  /-- The booted-set area (R574, R575), by the manifest entries of its parts, and by 32 × part type + unit the entry of the part that each unit has
  loaded its code from. -/
  booted : List (List Byte)
  loaded : SMap (List Byte)
  /-- The scale-history table has been set and is to be checked at the restart, and how many records the restart report counts (R193). -/
  restartDue : Bool
  restartReport : Nat
  /-- The cause of a fallback that has started and is to be carried out (R585), and the tide at which the trial timer showed remaining_s. -/
  fallDue : Option Nat
  trialAt : Nat
  /-- The measurement log: its value and its entries (R594); the board serial in force (R587). -/
  logValue : List Byte
  logEntries : List (List Byte)
  serial : List Byte
  /-- The test access port (R632): its instruction (0 BYPASS, 1 SAMPLE/PRELOAD, 2 EXTEST), the boundary-scan chain, and the pins it drives. -/
  tap : Nat
  chain : Nat
  driven : Option Nat
  /-- The I3C target (R633): its address, the mailbox offset, and the last RSTACT action. -/
  i3cAddr : Nat
  i3cOff : Nat
  i3cRst : Nat
  deriving DecidableEq, Repr

/-- The machine after cold reset: every register at its reset value (R11: nothing is listed in `regs`), nothing in memory, nothing waiting
(notes/assumptions/6.md names the values the manual does not give). -/
def State.reset : State :=
  { pending := [], out := ⟨[], false, false⟩, free := 0, regs := [], evt := [], mem := [], poison := [], host := [],
    tide := TideUnit.zero, tports := [], ports := [], held := [], holdReq := [], tx := [], rx := [], started := [],
    counters := [], sync := [], gated := [], frozen := [], fires := [], syncRaise := [], syncFwd := [], acceptNo := 0,
    mirrorA := [], mirrorB := [], shadow := [], work := [], ringQ := [], doneQ := [], waits := [], gaveUp := [], groups := [],
    commits := [], copies := [], tlpStop := false, barLog := 36, moder := [], cqPass := [], replayQ := [], warmReq := none,
    coldReq := false, regionReq := [], rr := [], errBuf := [], errSeq := 0, errCoal := [], errNew := [],
    cfg := ⟨0#64, 0, 1, 0xFFFF, false⟩, blocks := [], pan := [], panRows := [], stat := [], lanes := [], launches := [],
    blkErr := [], quarRows := [], repairA := [], repairB := [], repairPend := false, softRep := [], monStop := false,
    brakeStop := false, brakeLow := false, governing := false, stackTemp := [], entryTo := 0, wakePend := none, reqPend := 0,
    wakeLow := false, lastExit := none, retrainDue := [], movedNow := false, movedLast := false, heldAlarms := [],
    scrubPos := [], scrubPass := [], scrubDie := [], scrubRow := [], wins := [], hcells := [], norms := [], verdicts := [],
    normIn := [], stepSums := [], maps := [], mapPend := [], ringJobs := [], rootJobs := [], solvers := [], relayed := [],
    flash := [], nextToken := 0, errHist := [], cnt := [], cntLatch := [], cntRem := [], bwWindow := 488, snaps := [],
    perstLow := false, unpowered := false, shutFenced := [], shutCause := 0, maintEnd := false, booted := [], loaded := [],
    restartDue := false, restartReport := 0, fallDue := none, trialAt := 0, logValue := List.replicate 32 0#8, logEntries := [],
    serial := List.replicate 16 0#8, tap := 0, chain := 0, driven := none, i3cAddr := 0x5C, i3cOff := 0, i3cRst := 0 }

end Sys2Proof.Machine
end

