-- ==== Sys2Proof/Machine/Flags.lean ====
section
/-! DEFINITION. Register fields and flags: reading and setting a field, setting a W1C flag with its event count (R443),
saturating counts, the event counters of R598 and R599, and the registers' values after cold reset (R11). -/

namespace Sys2Proof.Machine

/-- Register values after cold reset that are no sum of constant field resets: the block map with no block quarantined (R37), the row
map with no row quarantined (R126), BLK_LATENCY and BLK_REPAIR (R125), run 0 of each deckle mask (R128), the direction of a port
(R487), the marked die (R528), the limits of the safety monitor (R552) and the control entries of the web tables (R71). -/
def regSpecial (a : Nat) : Option Nat :=
  if 0x110000 ≤ a ∧ a < 0x122000 then
    some (if a % 0x400 < 16 ∧ a % 4 = 0 then 3 else 0)
  else if 0x200000 ≤ a ∧ a < 0x320000 ∧ a % 0x10000 = 0 then
    some ((a - 0x200000) / 0x10000 / 3 + 64 * 16 + 16 * 65536)
  else if a = 0x800010 ∨ a = 0x800014 ∨ a = 0x800018 ∨ a = 0x80001C then some (100 * 256 + 110 * 65536)
  else if a = 0x800020 then some (105 * 256 + 115 * 65536)
  else if a = 0x800024 then some (95 * 256 + 105 * 65536)
  else if 0x1000000 ≤ a ∧ a < 0x2000000 then
    let o := a % 0x400000
    if 0x10 ≤ o ∧ o < 0x20 ∧ o % 4 = 0 then some (0x03020100 + (o - 0x10) / 4 * 0x04040404)
    else if 0x5000 ≤ o ∧ o < 0x5180 ∧ o % 0x40 = 0 then some (0xF * 4)
    else if 0x100000 ≤ o ∧ o < 0x200000 then
      let k := o % 0x10000
      if k = 0 then some (261 + 128 * 65536)
      else if k = 4 then some 0x00FFFFFF
      else if 0x80 ≤ k ∧ k < 0x100 ∧ k % 4 = 0 then some (0x03020100 + (k - 0x80) / 4 * 0x04040404)
      else if 0x120 ≤ k ∧ k < 0x300 ∧ k % 4 = 0 then
        some (if k % 0x20 < 0x10 then 0xFFFFFFFF else if k % 0x20 = 0x10 then 4096 * 65536 else 0)
      else none
    else none
  else none

/-- The value of the register at `a` after cold reset (R11). -/
def regReset (a : Nat) : Word :=
  match regSpecial a with
  | some v => BitVec.ofNat 32 v
  | none => BitVec.ofNat 32 ((fieldsAt a).foldl (fun acc f => acc + f.reset * 2 ^ f.lo) 0)

/-- The stored value of the register at `a`. -/
def State.reg (s : State) (a : Nat) : Word := SMap.get regReset s.regs a

def State.setReg (s : State) (a : Nat) (v : Word) : State := { s with regs := SMap.set regReset s.regs a v }

/-- The value of a field. -/
def State.fld (s : State) (f : Fld) : Nat := bitsOf (s.reg f.addr).toNat f.lo f.width

/-- Whether a field is not 0. -/
def State.flag (s : State) (f : Fld) : Bool := s.fld f != 0

/-- Give a field a value, cut to its width. -/
def State.setFld (s : State) (f : Fld) (v : Nat) : State :=
  s.setReg f.addr (BitVec.ofNat 32 (putBits (s.reg f.addr).toNat f.lo f.width v))

/-- Hardware sets a W1C flag: the flag reads 1 and its event count advances by 1 modulo 65,536 (R443). -/
def State.setFlag (s : State) (f : Fld) : State :=
  let s1 := s.setFld f 1
  { s1 with evt := SMap.modify (fun _ => 0) s1.evt (f.addr * 32 + f.lo) (fun n => (n + 1) % 65536) }

def State.setFlagIf (s : State) (c : Bool) (f : Fld) : State := if c then s.setFlag f else s

/-- Add to a count that stops at its largest value. -/
def State.bump (s : State) (f : Fld) (n : Nat := 1) : State :=
  s.setFld f (min (s.fld f + n) (2 ^ f.width - 1))

/-- Add to a count that runs modulo its width. -/
def State.wrapBump (s : State) (f : Fld) (n : Nat := 1) : State := s.setFld f (s.fld f + n)

/-- The cause field of an error record for a flag (R544, R445). -/
def Fld.cause (f : Fld) : Nat := f.addr + f.lo * 2 ^ 27

/-- Advance event counter `k` by `n`; a counter that passes 2^48 − 1 wraps to 0 and sets its overflow bit (R598, R599). -/
def State.count (s : State) (k : Nat) (n : Nat := 1) : State :=
  let v := SMap.get (fun _ => 0) s.cnt k + n
  let s1 := { s with cnt := SMap.set (fun _ => 0) s.cnt k (v % 2 ^ 48) }
  s1.setFlagIf (decide (2 ^ 48 ≤ v)) (CNT_VALUE_HI_overflow k)

/-- Event counters of the hub, of a port, a region, an HBM controller and a logical block (R601). -/
def cntHub (e : Nat) : Nat := e
def cntPort (p e : Nat) : Nat := 0x100 + p * 32 + e
def cntRegion (n e : Nat) : Nat := 0x340 + n * 24 + e
def cntCtrl (u e : Nat) : Nat := 0x3A0 + u * 4 + e
def cntBlock (b e : Nat) : Nat := 0x400 + b * 48 + e

/-- Advance a byte counter, which counts in units of 64 bytes (R601); bytes short of a unit wait. -/
def State.countBytes (s : State) (k n : Nat) : State :=
  let t := SMap.get (fun _ => 0) s.cntRem k + n
  ({ s with cntRem := SMap.set (fun _ => 0) s.cntRem k (t % 64) }).count k (t / 64)

/-- The BAR0 registers of a region, a block and a port that a reset returns to their reset values: drop what is stored. -/
def State.clearRegs (s : State) (lo n : Nat) : State := { s with regs := SMap.clearRange s.regs lo n }

/-! ### The maps of regions and blocks (R34 to R38) -/

/-- Whether region `r` is fenced (R36). -/
def State.regionFenced (s : State) (r : Nat) : Bool := s.flag (RGN_STATUS_fenced r)

/-- The byte of logical block `b` in RGN_BLOCK_MAP (R37). -/
def mapFld (b : Nat) : Fld := ⟨RGN_BLOCK_MAP (b / 16) (b % 16 / 4), 8 * (b % 4), 8, .ro, 0⟩

/-- Whether logical block `b` is absent (R21). -/
def State.absent (s : State) (b : Nat) : Bool := bitOf (s.fld (mapFld b)) 7

/-- The physical block, 0 to 67, of logical block `b` (R3). -/
def State.phys (s : State) (b : Nat) : Nat := 17 * (b / 16) + bitsOf (s.fld (mapFld b)) 0 5

/-- The present logical blocks of region `r`, in ascending order (R236, R261). -/
def State.presentBlocks (s : State) (r : Nat) : List Nat :=
  ((List.range 16).map (fun i => 16 * r + i)).filter (fun b => !s.absent b)

/-- The module's chip ID; 0xFFFF while none is set (R592). -/
def State.chip (s : State) : Nat := s.cfg.chip

/-- The value of a 64-bit pair of registers. -/
def State.pair (s : State) (lo hi : Nat) : Nat := (s.reg lo).toNat + (s.reg hi).toNat * 2 ^ 32

end Sys2Proof.Machine
end

