-- ==== Sys2Proof/Machine/Operands.lean ====
section
/-! DEFINITION. Operand forms: descriptor fields (R458), block instruction fields (R97), the local address map (R510, R509) and
global addresses (R511). -/

namespace Sys2Proof.Machine

/-! ### Descriptors (R458) -/

def dKind (d : List Byte) : Nat := leAt d 0 1
def dFlags (d : List Byte) : Nat := leAt d 1 1
def dIdempotent (d : List Byte) : Bool := bitOf (dFlags d) 0
def dFence (d : List Byte) : Bool := bitOf (dFlags d) 1
def dSignal (d : List Byte) : Bool := bitOf (dFlags d) 2
def dInterrupt (d : List Byte) : Bool := bitOf (dFlags d) 3
def dDeadlineValid (d : List Byte) : Bool := bitOf (dFlags d) 4
def dGroup (d : List Byte) : Nat := bitsOf (leAt d 2 2) 0 12
def dContext (d : List Byte) : Nat := bitsOf (leAt d 2 2) 12 2
def dSeq (d : List Byte) : Nat := leAt d 4 4
def dDeadline (d : List Byte) : Nat := leAt d 8 8

/-- Reserved header bits are 0 (R458, R461). -/
def dHeaderOk (d : List Byte) : Bool := bitsOf (dFlags d) 5 3 == 0 && bitsOf (leAt d 2 2) 14 2 == 0

/-- Bytes [lo, hi] of a descriptor are 0 (R461: reserved body bytes). -/
def dZero (d : List Byte) (lo hi : Nat) : Bool := leAt d lo (hi - lo + 1) == 0

/-- The kinds of R459. -/
def kindCopy : Nat := 0x01
def kindGather : Nat := 0x02
def kindStream : Nat := 0x03
def kindLaunch : Nat := 0x10
def kindRoot : Nat := 0x18
def kindSolve : Nat := 0x19
def kindStats : Nat := 0x1A
def kindReduce : Nat := 0x20
def kindBroadcast : Nat := 0x21
def kindRingStep : Nat := 0x22
def kindUpdate : Nat := 0x30
def kindGroupBegin : Nat := 0x38
def kindGroupCommit : Nat := 0x39
def kindGroupAbort : Nat := 0x3A
def kindSignal : Nat := 0x40
def kindWait : Nat := 0x41
def kindConfig : Nat := 0x50
def kindWebTable : Nat := 0x51
def kindOwnerMap : Nat := 0x52
def kindSnapshot : Nat := 0x60
def kindNop : Nat := 0x7F

def kinds : List Nat :=
  [0x01, 0x02, 0x03, 0x10, 0x18, 0x19, 0x1A, 0x20, 0x21, 0x22, 0x30, 0x38, 0x39, 0x3A, 0x40, 0x41, 0x50, 0x51, 0x52, 0x60, 0x7F]

/-- The status codes of R476. -/
def Status.code : Status → Nat
  | .ok => 0x00
  | .clamped => 0x01
  | .late => 0x02
  | .skipped => 0x03
  | .groupAborted => 0x04
  | .replayed => 0x05
  | .range => 0x06
  | .coldStart => 0x07
  | .faultRetried => 0x10
  | .faultFailed => 0x11

/-- The order of R477, first to last. -/
def Status.rank : Status → Nat
  | .faultFailed => 0
  | .groupAborted => 1
  | .skipped => 2
  | .range => 3
  | .late => 4
  | .faultRetried => 5
  | .coldStart => 6
  | .replayed => 7
  | .clamped => 8
  | .ok => 9

/-- The status with which a descriptor to which all of these apply completes (R477). -/
def Status.pick (l : List Status) : Status :=
  l.foldl (fun a b => if b.rank < a.rank then b else a) .ok

/-- The error codes of R478. -/
def ErrCode.code : ErrCode → Nat
  | .none => 0
  | .badDescriptor => 0x0001
  | .badSequence => 0x0002
  | .illegalInstruction => 0x0003
  | .groupClosed => 0x0004
  | .groupFull => 0x0005
  | .storeFault => 0x0006
  | .epochRejected => 0x0007
  | .windowLost => 0x0008
  | .syncLost => 0x0009
  | .saveBroken => 0x000A
  | .replayUnsafe => 0x000B
  | .blockAbsent => 0x000C
  | .regionFenced => 0x000D
  | .memoryFault => 0x000E
  | .portFenced => 0x000F
  | .blockError => 0x0010

/-! ### Addresses (R509 to R511) -/

/-- What a local address names (R510). -/
inductive Place where
  | hbm
  | vat (b off : Nat)
  | pan (b off : Nat)
  | harvest (u off : Nat)
  | counter (n off : Nat)
  | mirror (a : Nat)
  | unmapped
  deriving DecidableEq, Repr

def hbmTop : Nat := 0x00D800000000
def vatBase : Nat := 0x800000000000
def harvestBase : Nat := 0x900000000000
def counterBase : Nat := 0xA00000000000
def mirrorBase : Nat := 0xF00000000000
def vatSize : Nat := 0x800000
def panSize : Nat := 0x200000

/-- Local address of the vat of logical block `b` (R510). -/
def vatAt (b : Nat) : Nat := vatBase + b * 0x1000000

/-- What the local address `a` names, and how many bytes from it on name the same thing (R510); HBM ends with its region (R509). -/
def placeOf (a : Nat) : Place × Nat :=
  if a < hbmTop then (.hbm, 0x003600000000 - a % 0x003600000000)
  else if a < vatBase then (.unmapped, vatBase - a)
  else if a < vatBase + 64 * 0x1000000 then
    let b := (a - vatBase) / 0x1000000
    let o := (a - vatBase) % 0x1000000
    if o < vatSize then (.vat b o, vatSize - o)
    else if o < vatSize + panSize then (.pan b (o - vatSize), vatSize + panSize - o)
    else (.unmapped, 0x1000000 - o)
  else if a < harvestBase then (.unmapped, harvestBase - a)
  else if a < harvestBase + 24 * 0x400000 then
    (.harvest ((a - harvestBase) / 0x400000) ((a - harvestBase) % 0x400000), 0x400000 - (a - harvestBase) % 0x400000)
  else if a < counterBase then (.unmapped, counterBase - a)
  else if a < counterBase + 65536 * 8 then
    (.counter ((a - counterBase) / 8) ((a - counterBase) % 8), counterBase + 65536 * 8 - a)
  else if a < mirrorBase then (.unmapped, mirrorBase - a)
  else if a < mirrorBase + 0x4000000 then (.mirror (a - mirrorBase), mirrorBase + 0x4000000 - a)
  else (.unmapped, 2 ^ 64)

/-- The region of an HBM address (R509). -/
def hbmRegion (a : Nat) : Nat := a / 0x003600000000

/-- The stack of an HBM address (R509): stack 6r + c is controller c of region r. -/
def hbmStack (a : Nat) : Nat := 6 * hbmRegion a + (a % 0x003600000000) / 4096 % 6

/-- The byte within its stack of an HBM address (R509). -/
def hbmOffset (a : Nat) : Nat := (a % 0x003600000000) / 4096 / 6 * 4096 + a % 4096

/-- Chip ID and local address of a global address (R511). -/
def gChip (a : Nat) : Nat := a / 2 ^ 48
def gLocal (a : Nat) : Nat := a % 2 ^ 48

/-- A local address field has bits [63:48] equal to 0 (R511). -/
def isLocal (a : Nat) : Bool := decide (a < 2 ^ 48)

/-- The counter that a local address names, if it is a counter's address (R416). -/
def counterOf (a : Nat) : Option Nat :=
  match (placeOf a).1 with
  | .counter n 0 => some n
  | _ => none

/-! ### Block instructions (R97) -/

/-- Bits [lo + w - 1 : lo] of an instruction word. -/
def iBits (w lo n : Nat) : Nat := bitsOf w lo n

/-- Signed value of bits. -/
def iSigned (w lo n : Nat) : Int := sext n (bitsOf w lo n)

def opArrStream : Nat := 0x20
def opArrElem : Nat := 0x21
def opPanDrain : Nat := 0x28
def opPanLoad : Nat := 0x29
def opPanStore : Nat := 0x2A
def opFabCfg : Nat := 0x30
def opFabRun : Nat := 0x31
def opFabLane : Nat := 0x32
def opGrmTap : Nat := 0x34
def opGrmDrain : Nat := 0x35
def opSynSignal : Nat := 0x3C
def opSynWait : Nat := 0x3D

/-- The opcodes that the manual gives. STEP has none there (notes/assumptions/10.md). -/
def opcodes : List Nat := [0x20, 0x21, 0x28, 0x29, 0x2A, 0x30, 0x31, 0x32, 0x34, 0x35, 0x3C, 0x3D]

end Sys2Proof.Machine
end

