-- ==== Sys2Proof/Machine/Ops.lean ====
section
/-! DEFINITION. The named operations over memory, interrupts, error records, the journal and completions, which the commands share. -/

namespace Sys2Proof.Machine

/-! ### Free values -/

/-- Take a fresh free value of `w` bits (notes/assumptions/1.md). -/
def State.takeFree (s : State) (w : Nat) : Nat × State :=
  ((Config.freeValue w s.free).toNat, { s with free := s.free + 1 })

/-! ### Bytes of HBM, vats and harvest cells -/

/-- What a byte that nothing has written reads as: 0 (vats and cells R133, R358; HBM notes/assumptions/7.md). -/
def memDefault : Nat → Byte := fun _ => 0#8

/-- One byte at a local address. -/
def State.byte (s : State) (a : Nat) : Byte := SMap.get memDefault s.mem a

/-- `n` bytes at a local address. -/
def State.bytes (s : State) (a n : Nat) : List Byte := (List.range n).map (fun i => s.byte (a + i))

def State.setByte (s : State) (a : Nat) (v : Byte) : State := { s with mem := SMap.set memDefault s.mem a v }

/-- Write a byte string at a local address. -/
def State.setBytes (s : State) (a : Nat) : List Byte → State
  | [] => s
  | b :: bs => (s.setByte a b).setBytes (a + 1) bs

/-- The little-endian value of `n` bytes at a local address. -/
def State.le (s : State) (a n : Nat) : Nat := leNat (s.bytes a n)

/-- Whether the 64-byte line that holds `a` is poisoned (R520). -/
def State.poisoned (s : State) (a : Nat) : Bool := SMap.get (fun _ => false) s.poison (a / 64)

/-- Whether any line of [a, a + n) is poisoned. -/
def State.anyPoison (s : State) (a n : Nat) : Bool :=
  n != 0 && s.poison.any (fun p => p.2 && decide (a / 64 ≤ p.1) && decide (p.1 ≤ (a + n - 1) / 64))

/-- The counting of an HBM line read: lines read, and for a poisoned line poison_read and poisoned_reads (R528, R601). -/
def State.noteLineRead (s : State) (line : Nat) : State :=
  let u := hbmStack (line * 64)
  let s1 := s.count (cntCtrl u 0)
  if SMap.get (fun _ => false) s.poison line then
    (s1.setFlag (RGN_HBM_STATUS_poison_read (u / 6) (u % 6))).bump (RGN_HBM_UNCORR_poisoned_reads (u / 6) (u % 6))
  else s1

/-- The counting of a read of [a, a + n) in HBM, in its controllers and on the crossbar of its region (R601; notes/assumptions/78.md). -/
def State.noteHbmRead (s : State) (a n : Nat) : State :=
  if n = 0 then s
  else (forUpTo ((a + n - 1) / 64 - a / 64 + 1) (fun i t => t.noteLineRead (a / 64 + i)) s).countBytes (cntRegion (hbmRegion a) 0) n

/-- A write of part or all of one HBM line: an aligned 64-byte write replaces the line and clears its poison, a smaller write leaves a
poisoned line poisoned and is counted (R521). -/
def State.writeLine (s : State) (a : Nat) (bs : List Byte) : State :=
  let u := hbmStack a
  let s1 := ((s.count (cntCtrl u 1)).countBytes (cntRegion (u / 6) 1) bs.length).setBytes a bs
  if !s.poisoned a then s1
  else if a % 64 = 0 ∧ bs.length = 64 then { s1 with poison := SMap.set (fun _ => false) s1.poison (a / 64) false }
  else s1.setFlag (RGN_HBM_STATUS_partial_poison (u / 6) (u % 6))

/-- A write to HBM, line by line (R514, R521); `fuel` bounds the number of lines. -/
def State.writeHbm (s : State) (a : Nat) (bs : List Byte) : Nat → State
  | 0 => s
  | fuel + 1 =>
    if bs.isEmpty then s
    else
      let n := 64 - a % 64
      State.writeHbm (s.writeLine a (bs.take n)) (a + n) (bs.drop n) fuel

/-- A write to HBM or a vat by a unit that addresses them directly. -/
def State.put (s : State) (a : Nat) (bs : List Byte) : State :=
  if a < hbmTop then s.writeHbm a bs (bs.length + 1) else s.setBytes a bs

/-- Poison the line of `a` (R520). -/
def State.poisonLine (s : State) (a : Nat) : State :=
  let u := hbmStack a
  let s1 := { s with poison := SMap.set (fun _ => false) s.poison (a / 64) true }
  (s1.setFlag (RGN_HBM_STATUS_uncorrectable (u / 6) (u % 6))).bump (RGN_HBM_UNCORR_poisoned_lines (u / 6) (u % 6))

/-! ### Host memory and interrupts -/

/-- One byte of host memory. -/
def State.hostByte (s : State) (a : Nat) : Byte := SMap.get memDefault s.host a

def State.hostBytes (s : State) (a n : Nat) : List Byte := (List.range n).map (fun i => s.hostByte (a + i))

/-- Host memory takes a byte string. -/
def State.putHost (s : State) (a : Nat) : List Byte → State
  | [] => s
  | b :: bs => ({ s with host := SMap.set memDefault s.host a b }).putHost (a + 1) bs

/-- A write to host memory by the device: none while the endpoint has stopped (R534). -/
def State.setHost (s : State) (a : Nat) (bs : List Byte) : State := if s.tlpStop then s else s.putHost a bs

/-- The pending bit of MSI-X vector `v` (R448). -/
def pbaFld (v : Nat) : Fld := ⟨0x3C0000 + v / 32 * 4, v % 32, 1, .ro, 0⟩

/-- Send the message of vector `v`: a write of its data to its address. -/
def State.msixMessage (s : State) (v : Nat) : State :=
  ((s.setHost (s.pair (MSIX_ADDR_LO v) (MSIX_ADDR_HI v)) (leBytes 4 (s.reg (MSIX_DATA v)).toNat)).setFld (pbaFld v) 0).count
    (cntHub 10)

/-- A source sends vector `v`: a masked vector sets its pending bit (R448), and so does a stopped endpoint (R534). -/
def State.msix (s : State) (v : Nat) : State :=
  if s.flag (MSIX_CTL_mask v) || s.tlpStop then s.setFld (pbaFld v) 1 else s.msixMessage v

/-! ### Error records (R544 to R547, R550) -/

/-- The 64 bytes of an error record (R544). -/
def errBytes (seq : Nat) (r : ErrRec) (tide n : Nat) : List Byte :=
  leBytes 4 seq ++ leBytes 1 r.severity ++ leBytes 1 r.level ++ leBytes 1 r.unit ++ leBytes 1 0 ++ leBytes 8 tide ++
  leBytes 1 r.region ++ leBytes 1 r.index ++ leBytes 2 r.detail ++ leBytes 4 r.cause ++ leBytes 8 r.addr ++ leBytes 2 r.ring ++
  leBytes 2 0 ++ leBytes 4 r.seq ++ leBytes 4 n ++ leBytes 20 0

/-- An error record with no descriptor, address or detail. -/
def ErrRec.plain (severity level unit region index cause : Nat) : ErrRec :=
  ⟨severity, level, unit, region, index, 0xFFFF, cause, 0, 0xFFFF, 0⟩

/-- Whether the error ring takes a record now (R546, R547). -/
def State.errRoom (s : State) : Bool :=
  s.flag HUB_ERR_CFG_enable && (s.flag HUB_ERR_CFG_in_device || !s.tlpStop) &&
  decide (subMod (s.fld HUB_ERR_TAIL_tail) (s.fld HUB_ERR_HEAD_head) (2 ^ (s.fld HUB_ERR_CFG_log2_size + 1)) <
    2 ^ s.fld HUB_ERR_CFG_log2_size)

/-- Write a record at the tail of the error ring and send the interrupt of R550. -/
def State.errToRing (s : State) (bs : List Byte) : State :=
  let n := s.fld HUB_ERR_CFG_log2_size
  let t := s.fld HUB_ERR_TAIL_tail
  let a := s.pair HUB_ERR_BASE_LO HUB_ERR_BASE_HI + t % 2 ^ n * 64
  let s1 := if s.flag HUB_ERR_CFG_in_device then s.put a bs else s.setHost a bs
  let s2 := s1.setFld HUB_ERR_TAIL_tail ((t + 1) % 2 ^ (n + 1))
  if s.flag HUB_ERR_CFG_irq_enable && decide (s.fld HUB_ERR_CFG_irq_severity ≤ leAt bs 4 1) then
    s2.msix (s.fld HUB_ERR_CFG_vector)
  else s2

/-- Show how many records wait in the hub buffer. -/
def State.showErrBuf (s : State) : State := s.setFld HUB_ERR_STATUS_buffered s.errBuf.length

/-- Write waiting records, in order, as space appears (R547). -/
def State.drainErr (s : State) : Nat → State
  | 0 => s
  | fuel + 1 =>
    match s.errBuf with
    | [] => s
    | r :: rs => if s.errRoom then State.drainErr (({ s with errBuf := rs }).errToRing r).showErrBuf fuel else s

/-- A finished record goes to the ring, to the hub buffer, or is dropped (R547); severity 3 and 4 also to the history in flash, and
severity 1 or more to the mailbox of R633. -/
def State.writeErr (s : State) (severity : Nat) (bs : List Byte) : State :=
  let s1 := if 1 ≤ severity then { s with errNew := (s.errNew ++ [bs]).drop (s.errNew.length - 62) } else s
  let s2 := if 3 ≤ severity then { s1 with errHist := (s1.errHist ++ [bs]).drop (s1.errHist.length - 63) } else s1
  if s2.errRoom && s2.errBuf.isEmpty then s2.errToRing bs
  else if severity = 0 then (s2.setFlag HUB_ERR_STATUS_dropped).bump HUB_ERR_STATUS_dropped_count
  else if s2.errBuf.length < 256 then ({ s2 with errBuf := s2.errBuf ++ [bs] }).showErrBuf
  else (s2.setFlag HUB_ERR_STATUS_lost_severe).bump HUB_ERR_STATUS_dropped_count

/-- Two severity 0 records that coalesce (R546). -/
def ErrRec.same (a b : ErrRec) : Bool :=
  a.unit == b.unit && a.region == b.region && a.index == b.index && a.detail == b.detail && a.cause == b.cause

/-- Add an occurrence to the coalescing record it belongs to. -/
def coalesce (r : ErrRec) (now : Nat) : List (ErrRec × Nat × Nat) → List (ErrRec × Nat × Nat)
  | [] => [(r, 1, now)]
  | (q, n, t) :: l => if q.same r then (q, n + 1, t) :: l else (q, n, t) :: coalesce r now l

/-- A level settles or hands upward a fault: one error record (R544); severity 0 waits for its coalescing interval (R546). -/
def State.error (s : State) (r : ErrRec) : State :=
  if r.severity = 0 then { s with errCoal := coalesce r s.tide.ns s.errCoal }
  else ({ s with errSeq := (s.errSeq + 1) % 2 ^ 32 }).writeErr r.severity (errBytes s.errSeq r s.tide.ns 1)

/-- The endpoint's checker finds a TLP wrongly formed (R534): it is not sent, the endpoint stops issuing requests, acceptance stops, and the
fault is recorded. -/
def State.tlpFault (s : State) : State := State.error { s with tlpStop := true } (ErrRec.plain 4 3 0x0D 0xFF 0xFF 0)

/-! ### The ring journal (R469, R470) -/

def jDefault : Nat → JEntry := fun _ => JEntry.free

/-- Whether a mirror's region lets it serve (R25); a fence made by a protective shutdown keeps the journal (R540). -/
def State.mirrorAOk (s : State) : Bool :=
  !s.regionFenced (s.fld RNG_JOURNAL_STATUS_mirror_a) || s.shutFenced.contains (s.fld RNG_JOURNAL_STATUS_mirror_a)
def State.mirrorBOk (s : State) : Bool :=
  !s.regionFenced (s.fld RNG_JOURNAL_STATUS_mirror_b) || s.shutFenced.contains (s.fld RNG_JOURNAL_STATUS_mirror_b)

/-- The journal as the serving mirror holds it (R472); from the shadows when both mirrors are lost (R548). -/
def State.journal (s : State) : SMap JEntry :=
  if s.mirrorAOk then s.mirrorA else if s.mirrorBOk then s.mirrorB else s.shadow

def State.jget (s : State) (e : Nat) : JEntry := SMap.get jDefault s.journal e

/-- A journal write, made in both mirrors, and copied to the shadows where mirror_depth is 1 (R470, R548). -/
def State.jput (s : State) (e : Nat) (j : JEntry) : State :=
  let s1 := { s with
    mirrorA := if s.mirrorAOk then SMap.set jDefault s.mirrorA e j else s.mirrorA
    mirrorB := if s.mirrorBOk then SMap.set jDefault s.mirrorB e j else s.mirrorB
    shadow := if s.flag HUB_REDUN_CTL_mirror_depth then SMap.set jDefault s.shadow e j else s.shadow }
  (s1.setFld RNG_JOURNAL_USED_used s1.journal.length).count (cntHub 3)

/-- The descriptor bytes of an entry. -/
def State.desc (s : State) (e : Nat) : List Byte := (s.jget e).desc

/-! ### The booted-set area (R575) -/

/-- The part of a type in the booted-set area, as its manifest entry. -/
def State.bootPart (s : State) (type : Nat) : List Byte := (s.booted.find? (fun p => leAt p 0 1 == type)).getD []

/-- Unit `u` loads its code, a part of type `type`, from the booted-set area. -/
def State.loadCode (s : State) (type u : Nat) : State := { s with loaded := SMap.insert s.loaded (32 * type + u) (s.bootPart type) }

/-- HBM controller `k` takes its training code from the booted-set area. -/
def State.loadHbmCode (s : State) (k : Nat) : State := s.loadCode 7 k

/-! ### Completion -/

def workDefault : Nat → Work := fun _ => Work.none

/-- What entry `e` is doing, if it is started and not completed. -/
def State.working (s : State) (e : Nat) : Option Work :=
  match SMap.find s.work e with
  | some w => if w.done then none else some w
  | none => none

/-- Whether entry `e` is a started descriptor of kind `k` that has not completed. -/
def State.doing (s : State) (e k : Nat) : Bool :=
  match s.working e with
  | some w => w.kind == k
  | none => false

/-- Whether entry `e` is a started descriptor of kind `k` whose command has not begun it. In phase 8 its wait for pan rows has ended without them
(R153). -/
def State.fresh (s : State) (e k : Nat) : Bool :=
  match s.working e with
  | some w => w.kind == k && (w.phase == 0 || w.phase == 8)
  | none => false

/-- Whether the wait of entry `e` for pan rows has ended without them (R153). -/
def State.windowTimedOut (s : State) (e : Nat) : Bool :=
  match s.working e with
  | some w => w.phase == 8
  | none => false

def State.setWork (s : State) (e : Nat) (w : Work) : State := { s with work := SMap.set workDefault s.work e w }

/-- The command of entry `e` has begun it. -/
def State.begun (s : State) (e : Nat) (ph : Nat := 1) : State :=
  match s.working e with
  | some w => s.setWork e { w with phase := ph }
  | none => s

def qDefault : Nat → List Nat := fun _ => []

/-- A completed UPDATE counts in its block's engine (R352). -/
def State.countUpdate (s : State) (e : Nat) : State :=
  { s with regs := if dKind (s.desc e) = kindUpdate then (s.bump (UPD_ENGINE_COUNT_updates (leAt (s.desc e) 37 1 % 64))).regs else s.regs }

/-- Entry `e` completes: it is no longer in flight in its ring, and its completion waits to be written (R470, R477). -/
def State.complete (s0 : State) (e : Nat) (st : List Status) (err : ErrCode) (c1 : Nat := 0) (c2 : Nat := 0) : State :=
  let s := s0.countUpdate e
  let r := (s.jget e).ring
  { s with
    work := SMap.set workDefault s.work e Work.none
    waits := SMap.erase s.waits e
    copies := s.copies.filter (fun c => c.entry != e)
    ringQ := SMap.modify qDefault s.ringQ r (fun l => l.filter (fun x => x != e))
    doneQ := s.doneQ ++ [⟨e, Status.pick st, if st.contains .faultFailed || st.contains .faultRetried then err else .none,
      c1 % 2 ^ 32, c2 % 2 ^ 32, s.tide.ns, false, false⟩] }

/-- Entry `e` fails with an error code. -/
def State.failWith (s : State) (e : Nat) (err : ErrCode) : State := s.complete e [.faultFailed] err

/-- Entry `e` fails with BAD_DESCRIPTOR (R461). -/
def State.bad (s : State) (e : Nat) : State := s.failWith e .badDescriptor

/-- Entry `e` completes with OK and its counts. -/
def State.okWith (s : State) (e : Nat) (c1 : Nat := 0) (c2 : Nat := 0) : State := s.complete e [.ok] .none c1 c2

/-- The tide reaches `t` (R40): an event that is the tide reaching a value happens at that value, or now where it has passed. The count has 64
bits (R9); past 2^64 − 1 it goes on from 0 (DESIGN CHOICE, notes/assumptions/130.md). -/
def State.atTide (s : State) (t : Nat) : State := { s with tide := { s.tide with ns := max s.tide.ns t % 2 ^ 64 } }

end Sys2Proof.Machine
end

