-- ==== Sys2Proof/Machine/SyncOps.lean ====
section
/-! DEFINITION. Counters and watches (13_synchronisation.md R416 to R428, R434, R439, R440): raising a signal, applying an operation
at its home, serving claims, firing, registering and cancelling watches, deferral, gated signals, and routing between modules. -/

namespace Sys2Proof.Machine

def counterDefault : Nat → Counter := fun _ => Counter.zero
def syncDefault : Nat → SyncUnit := fun _ => SyncUnit.zero
def portDefault : Nat → PortUnit := fun _ => PortUnit.zero

def State.counter (s : State) (n : Nat) : Counter := SMap.get counterDefault s.counters n
def State.setCounter (s : State) (n : Nat) (c : Counter) : State := { s with counters := SMap.set counterDefault s.counters n c }
def State.syncUnit (s : State) (r : Nat) : SyncUnit := SMap.get syncDefault s.sync r
def State.port (s : State) (p : Nat) : PortUnit := SMap.get portDefault s.ports p
def State.setPort (s : State) (p : Nat) (u : PortUnit) : State := { s with ports := SMap.set portDefault s.ports p u }

/-- Write back a region's sync unit, with the counts that SYN_RGN_STATUS shows (R445). -/
def State.setSync (s : State) (r : Nat) (u : SyncUnit) : State :=
  (({ s with sync := SMap.set syncDefault s.sync r u }).setFld (SYN_RGN_STATUS_watches r) u.watches.length).setFld
    (SYN_RGN_STATUS_deferred r) u.deferred.length

/-- The last-source codes of R638. -/
def srcRing (r : Nat) : Nat := 4 * r
def srcBlock (b : Nat) : Nat := 1 + 4 * b
def srcOther (k : Nat) : Nat := 2 + 4 * k
def srcAlarm (n : Nat) : Nat := 3 + 4 * n

/-- A discarded operation or message of a region (R418, R419, R430, R439). -/
def State.syncDrop (s : State) (r : Nat) : State :=
  (s.bump (SYN_RGN_DROP_discarded r)).setFlag (SYN_RGN_STATUS_dropped r)

/-- The home region of counter `n` (R416). -/
def homeOf (n : Nat) : Nat := n % 65536 / 16384

/-- Whether counter `n` is frozen by a SAVE (R439). -/
def State.isFrozen (s : State) (n : Nat) : Bool :=
  s.frozen.any (fun f => f.regions.contains (homeOf n) && decide (f.base ≤ n % 16384) && decide (n % 16384 < f.base + f.count))

/-- Fire a watch (R424): its fire message leaves the home in firing order; a waiter on another module gets it as a sync message
(R425). -/
def State.fireWatch (s : State) (w : Watch) : State :=
  let s1 := s.count (cntRegion (homeOf w.counter) 6)
  let f : Fire := ⟨w.waiter, w.counter, if w.claim then w.operand else 0, s.chip⟩
  let chip := match w.waiter with
    | .ring c _ | .block c _ | .vector c _ | .internal c _ => c
  if chip = s.chip then { s1 with fires := s1.fires ++ [f] }
  else
    let tt := match w.waiter with
      | .ring _ t => (0, t) | .block _ t => (1, t) | .vector _ t => (2, t) | .internal _ t => (3, t)
    { s1 with syncRaise := s1.syncRaise ++ [(⟨3#8, BitVec.ofNat 8 (w.cond + 4 * b2n w.claim + 8 * tt.1), BitVec.ofNat 16 w.counter,
      BitVec.ofNat 32 w.operand, BitVec.ofNat 16 chip, BitVec.ofNat 16 s.chip, BitVec.ofNat 16 (tt.2 % 65536),
      BitVec.ofNat 16 (tt.2 / 65536)⟩, none)] }

/-- Whether an OBSERVE condition holds (R421). -/
def condHolds (cond operand : Nat) (v : Word) : Bool :=
  if cond = 0 then decide (subMod v.toNat operand (2 ^ 32) < 2 ^ 31)
  else if cond = 1 then v.toNat == operand
  else if cond = 2 then (v &&& BitVec.ofNat 32 operand) == BitVec.ofNat 32 operand
  else false

/-- Remove the first watch equal to `w`. -/
def dropWatch (w : Watch) (l : List Watch) : List Watch := l.erase w

/-- Step 2 of R423: serve CLAIM watches of counter `n` from the head of its queue while the head can be served. -/
def State.serveClaims (s : State) (n : Nat) : Nat → State
  | 0 => s
  | fuel + 1 =>
    let u := s.syncUnit (homeOf n)
    match u.watches.find? (fun w => w.claim && w.counter == n) with
    | none => s
    | some w =>
      let c := s.counter n
      if w.operand ≤ c.value.toNat then
        let s1 := s.setSync (homeOf n) { u with watches := dropWatch w u.watches }
        let s2 := (s1.setCounter n { c with value := c.value - BitVec.ofNat 32 w.operand }).count (cntRegion (homeOf n) 7)
        State.serveClaims (s2.fireWatch w) n fuel
      else s

/-- Step 3 of R423: every OBSERVE watch of counter `n` whose condition holds fires, in registration order, and is freed. -/
def State.serveObserves (s : State) (n : Nat) : State :=
  let u := s.syncUnit (homeOf n)
  let v := (s.counter n).value
  let hit := fun w : Watch => !w.claim && w.counter == n && condHolds w.cond w.operand v
  let fired := u.watches.filter hit
  let s1 := if fired.isEmpty then s else s.setSync (homeOf n) { u with watches := u.watches.filter (fun w => !hit w) }
  fired.foldl State.fireWatch s1

/-- Steps 2 and 3 of R423. -/
def State.serve (s : State) (n : Nat) : State :=
  (s.serveClaims n (s.syncUnit (homeOf n)).watches.length).serveObserves n

/-- Put a registration into the watch table and judge it (R420, R423); a frozen counter's watch does not fire (R439). -/
def State.enterWatch (s : State) (w : Watch) : State :=
  let r := homeOf w.counter
  let u := s.syncUnit r
  let s1 := s.setSync r { u with watches := u.watches ++ [{ w with regTide := s.tide.ns }] }
  if s.isFrozen w.counter then s1
  else if w.claim then
    let s2 := s1.serveClaims w.counter (u.watches.length + 1)
    if (s2.counter w.counter).value = (s1.counter w.counter).value then s2 else s2.serveObserves w.counter
  else if condHolds w.cond w.operand (s.counter w.counter).value then
    (s.fireWatch w)
  else s1

/-- Freed places go to the oldest waiting registrations (R420, R444). -/
def State.admitWaiting (s : State) (r : Nat) : Nat → State
  | 0 => s
  | fuel + 1 =>
    let u := s.syncUnit r
    match u.waiting with
    | [] => s
    | w :: ws =>
      if u.watches.length < 8192 then State.admitWaiting ((s.setSync r { u with waiting := ws }).enterWatch w) r fuel else s

/-- The value after an operation (R417). -/
def opResult (op : Nat) (v x : Word) : Word :=
  if op = 0 then v + x else if op = 1 then x else if op = 2 then v ||| x else v &&& ~~~x

/-- Apply an operation at its home (R423), and let freed places be taken. -/
def State.applyOp (s : State) (o : SyncOp) : State :=
  let r := homeOf o.counter
  let c := s.counter o.counter
  let s1 := s.setCounter o.counter ⟨opResult o.op c.value (BitVec.ofNat 32 o.operand), o.origin, s.tide.ns⟩
  let s2 := (s1.bump (SYN_RGN_COUNT_applied r)).count (cntRegion r 4)
  let s3 := s2.serve o.counter
  s3.admitWaiting r (s3.syncUnit r).waiting.length

/-- The SIGNAL descriptor of an operation completes (R436). -/
def State.opDone (s : State) (o : SyncOp) : State :=
  match o.entry with
  | some e => s.okWith e
  | none => s

/-- Apply a region's deferred operations in order (R439); those of a fenced region are discarded (R419). -/
def State.applyDeferred (s : State) (r : Nat) (l : List SyncOp) : State :=
  let u := s.syncUnit r
  let s1 := s.setSync r { u with deferred := u.deferred.filter (fun o => !l.contains o) }
  if s.regionFenced r then l.foldl (fun (t : State) (_ : SyncOp) => t.syncDrop r) s1 else l.foldl State.applyOp s1

/-- Places that have come free in the watch tables are taken. -/
def State.admitAll (s : State) : State := forUpTo 4 (fun r t => t.admitWaiting r (t.syncUnit r).waiting.length) s

/-- Show which contexts are frozen (R445). -/
def State.showFrozen (s : State) : State :=
  s.setFld SYN_STATUS_frozen (s.frozen.foldl (fun m f => m ||| 2 ^ f.ctx) 0)

/-- A full deferral queue of region `r`: the region thaws every frozen counter of its own at once and applies its queue; every save
taken during the freeze is marked broken in its header (R440). -/
def State.deferOverflow (s : State) (r : Nat) : State :=
  let mark := fun (t : State) (f : Frozen) => t.put (f.area + 8) [BitVec.ofNat 8 (t.le (f.area + 8) 1 ||| 1)]
  let s1 := s.frozen.foldl mark s
  let left := (s.frozen.map (fun f => { f with regions := f.regions.filter (fun q => q != r) })).filter (fun f => !f.regions.isEmpty)
  let held := (s.syncUnit r).watches.filter (fun w => s.isFrozen w.counter)
  let s2 := (State.showFrozen { s1 with frozen := left }).setFlag SYN_STATUS_defer_overflow
  (held.foldl (fun (t : State) (w : Watch) => t.serve w.counter) (s2.applyDeferred r (s2.syncUnit r).deferred)).admitAll

/-- An operation reaches its counter's home (R416, R419, R439). -/
def State.reachHome (s : State) (o : SyncOp) : State :=
  let r := homeOf o.counter
  if s.regionFenced r then
    let s1 := s.syncDrop r
    match o.entry with
    | some e => s1.failWith e .regionFenced
    | none => s1
  else if s.isFrozen o.counter then
    let u := s.syncUnit r
    let s1 := (s.count (cntRegion r 12)).opDone o
    if u.deferred.length < 512 then s1.setSync r { u with deferred := u.deferred ++ [{ o with entry := none }] }
    else (s1.deferOverflow r).applyOp { o with entry := none }
  else (s.applyOp o).opDone o

/-- Hand an operation to its local home, in arrival order (R416, R434): one that finds four waiting counts as queued (R601; notes/assumptions/78.md). -/
def State.toHome (s : State) (o : SyncOp) : State :=
  let u := s.syncUnit (homeOf o.counter)
  (s.setSync (homeOf o.counter) { u with ops := u.ops ++ [o] }).count (cntRegion (homeOf o.counter) 5) (b2n (decide (4 ≤ u.ops.length)))

/-- Transfers that started on a stream (R427). -/
def State.startedCount (s : State) (stream : Nat) : Nat := SMap.get (fun _ => 0) s.started stream

def rxDefault : Nat → RxStream := fun _ => RxStream.zero
def State.rxOf (s : State) (stream : Nat) : RxStream := SMap.get rxDefault s.rx stream
def State.setRx (s : State) (stream : Nat) (r : RxStream) : State := { s with rx := SMap.set rxDefault s.rx stream r }

/-- A gated signal may pass once (landed − count) mod 65,536 < 32,768 (R427). -/
def State.gateOpen (s : State) (stream count : Nat) : Bool :=
  decide (subMod (s.rxOf stream).count count 65536 < 32768)

def State.showGated (s : State) : State := s.setFld SYN_STATUS_gated_held s.gated.length

/-- Release the gated signals of a stream that its landed-transfer count now covers, in the order they are held (R427). -/
def State.releaseGated (s : State) (stream : Nat) : State :=
  let pass := fun g : Gated => g.stream == stream && s.gateOpen g.stream g.count
  ((s.gated.filter pass).foldl (fun (t : State) (g : Gated) => t.toHome g.op)
    { s with gated := s.gated.filter (fun g => !pass g) }).showGated

/-- A signal arrives at the module of its counter: held while its gate is closed, else handed to its home (R427). -/
def State.arriveSignal (s : State) (o : SyncOp) (gate : Option (Nat × Nat)) : State :=
  match gate with
  | none => s.toHome o
  | some (st, c) =>
    if s.gateOpen st c then s.toHome o
    else (State.showGated { s with gated := s.gated ++ [⟨st, c, o⟩] }).count (cntHub 22)

/-- Raise a signal on the counter at global address chip:n; a gate is the stream and its started-transfer count (R417, R427, R430). -/
def State.raise (s : State) (chip n op operand : Nat) (origin : Origin) (entry : Option Nat) (gate : Option (Nat × Nat)) : State :=
  if chip = s.chip then s.arriveSignal ⟨n, op, operand, origin, entry⟩ gate
  else
    let g := gate.getD (0, 0)
    { s with syncRaise := s.syncRaise ++ [(⟨1#8, BitVec.ofNat 8 (op + 4 * b2n gate.isSome), BitVec.ofNat 16 n, BitVec.ofNat 32 operand,
      BitVec.ofNat 16 chip, BitVec.ofNat 16 s.chip, BitVec.ofNat 16 g.1, BitVec.ofNat 16 g.2⟩, entry)] }

/-! ### Routing between modules (R432, R487) -/

/-- The way from coordinate `a` to `b` on a ring of `n` positions: none, the positive way, or the negative way. -/
def ringWay (a b n : Nat) : Option Bool :=
  let d := subMod b a n
  if d = 0 then none else if d ≤ n - d then some true else some false

/-- The direction code of R487 in which a message to `dst` leaves `src` on an X × Y × Z torus, dimension by dimension. -/
def torusDir (x y z src dst : Nat) : Option Nat :=
  match ringWay (src % x) (dst % x) x with
  | some d => some (if d then 0 else 1)
  | none =>
    match ringWay (src / x % y) (dst / x % y) y with
    | some d => some (if d then 2 else 3)
    | none =>
      match ringWay (src / (x * y) % z) (dst / (x * y) % z) z with
      | some d => some (if d then 4 else 5)
      | none => none

/-- Whether port `p` is up: trained and not fenced (R505, R508). -/
def State.portUp (s : State) (p : Nat) : Bool := s.fld (PRT_STATUS_state p) == 2

/-- The members of a direction, in ascending port number (R487). -/
def State.members (s : State) (dir : Nat) : List Nat :=
  (List.range 18).filter (fun p => s.fld (PRT_CFG_direction p) == dir)

/-- The port on which a message about counter `n` to module `dst` leaves (R432, R487). -/
def State.routePort (s : State) (dst n : Nat) : Option Nat :=
  let x := max 1 (s.fld SYN_TORUS_dim_x)
  let y := max 1 (s.fld SYN_TORUS_dim_y)
  let z := max 1 (s.fld SYN_TORUS_dim_z)
  match torusDir x y z s.chip dst with
  | none => none
  | some d =>
    let ms := s.members d
    let i := if ms.isEmpty then 0 else n % 3 % ms.length
    (ms.drop i ++ ms.take i).find? s.portUp

/-- Queue a message for slot 2 of its port, or discard it as unroutable (R432); the SIGNAL that raised it then fails with PORT_FENCED. -/
def State.sendSync (s : State) (m : SyncMsg × Option Nat) : State :=
  match s.routePort m.1.dst.toNat m.1.counter.toNat with
  | none =>
    match m.2 with
    | some e => (s.setFlag SYN_STATUS_unroutable).failWith e .portFenced
    | none => s.setFlag SYN_STATUS_unroutable
  | some p => s.setPort p { s.port p with syncOut := (s.port p).syncOut ++ [m] }

/-- A waiter's token, fresh for each watch (R430). -/
def State.token (s : State) : Nat × State := (s.nextToken, { s with nextToken := (s.nextToken + 1) % 2 ^ 32 })

/-- Register a watch on the counter at chip:n (R425, R420). -/
def State.register (s : State) (chip : Nat) (w : Watch) : State :=
  if chip = s.chip then
    let u := s.syncUnit (homeOf w.counter)
    s.setSync (homeOf w.counter) { u with regs := u.regs ++ [w] }
  else
    let tt := match w.waiter with
      | .ring _ t => (0, t) | .block _ t => (1, t) | .vector _ t => (2, t) | .internal _ t => (3, t)
    { s with syncRaise := s.syncRaise ++ [(⟨2#8, BitVec.ofNat 8 (w.cond + 4 * b2n w.claim + 8 * tt.1), BitVec.ofNat 16 w.counter,
      BitVec.ofNat 32 w.operand, BitVec.ofNat 16 chip, BitVec.ofNat 16 s.chip, BitVec.ofNat 16 (tt.2 % 65536),
      BitVec.ofNat 16 (tt.2 / 65536)⟩, none)] }

/-- Send the cancel of a watch to the home of its counter (R425). -/
def State.cancel (s : State) (chip : Nat) (w : Watch) : State :=
  if chip = s.chip then
    let u := s.syncUnit (homeOf w.counter)
    s.setSync (homeOf w.counter) { u with cancels := u.cancels ++ [w] }
  else
    let tt := match w.waiter with
      | .ring _ t => (0, t) | .block _ t => (1, t) | .vector _ t => (2, t) | .internal _ t => (3, t)
    { s with syncRaise := s.syncRaise ++ [(⟨4#8, BitVec.ofNat 8 (w.cond + 4 * b2n w.claim + 8 * tt.1), BitVec.ofNat 16 w.counter,
      BitVec.ofNat 32 w.operand, BitVec.ofNat 16 chip, BitVec.ofNat 16 s.chip, BitVec.ofNat 16 (tt.2 % 65536),
      BitVec.ofNat 16 (tt.2 / 65536)⟩, none)] }

end Sys2Proof.Machine
end

