-- ==== Sys2Proof/Machine/BlockInstr.lean ====
section
/-! DEFINITION. The fields of the block instructions (03_tensor_array.md R97, 04_pans.md R143 and R148, 06_element_fabric.md R201 to R213,
07_curvature_statistics.md R220), the pan rows and the vat ranges that an instruction names. -/

namespace Sys2Proof.Machine

/-- `n` bytes of the vat of block `b` at offset `off`, as a value. -/
def State.vatLe (s : State) (b off n : Nat) : Nat := s.le (vatAt b + off) n

/-- Whether [off, off + n) lies in a vat. -/
def inVat (off n : Nat) : Bool := decide (off + n ≤ vatSize)

/-! ### Array instructions -/

/-- The operand formats of R97. -/
def arrFmt (c : Nat) : Fmt := if c = 0 then Fmt.bf16 else if c = 1 then Fmt.fp16 else if c = 2 then Fmt.fp8e4 else Fmt.fp8e5

/-- ARR_STREAM decoded (R97). -/
structure ArrOp where
  fmtS : Nat
  fmtX : Nat
  acc : Bool
  statT : Bool
  strT : Bool
  clear : Bool
  keep : Bool
  k : Nat
  n : Nat
  m : Nat
  panRow : Nat
  stat : Nat
  str : Nat
  stride : Nat
  tie : Nat
  outExp : Int
  deriving DecidableEq, Repr

def arrOp (w : Nat) : ArrOp :=
  ⟨iBits w 8 2, iBits w 10 2, bitOf w 12, bitOf w 13, bitOf w 14, bitOf w 15, bitOf w 16, iBits w 24 7 + 1, iBits w 32 7 + 1,
   iBits w 40 12 + 1, iBits w 52 12, iBits w 64 17 * 64, iBits w 81 17 * 64, iBits w 98 14 * 64, iBits w 112 4, iSigned w 116 8⟩

/-- Reserved fields of ARR_STREAM are 0 (R97, R101). -/
def arrReserved (w : Nat) : Bool := iBits w 17 7 == 0 && iBits w 31 1 == 0 && iBits w 39 1 == 0 && iBits w 124 4 == 0

/-- Pan rows that an ARR_STREAM names (R100). -/
def ArrOp.rows (i : ArrOp) : Nat := if i.acc then (i.m + 1) / 2 else i.m

/-- Streamed rows per issue ac (R103). -/
def ArrOp.rate (i : ArrOp) : Nat := (if (arrFmt i.fmtX).bytes = 1 then 2 else 1) * (if i.acc then 2 else 1)

/-- Byte offset in the vat of element `k` of streamed row `m` (R99). -/
def strOff (strT : Bool) (str stride e m k : Nat) : Nat :=
  if strT then str + k * stride + m * e else str + m * (if stride = 0 then 128 * e else stride) + k * e

/-- The streaming operand ends within the vat (R99, R101). -/
def strFits (strT : Bool) (str stride e m : Nat) : Bool := inVat (strOff strT str stride e (m - 1) 127) e

/-- The accumulation format (R184). -/
def accFmt (acc : Bool) : Fmt := if acc then Fmt.bf16 else Fmt.fp32

/-! ### Pan instructions -/

/-- PAN_DRAIN decoded (R143). -/
structure DrainOp where
  src16 : Bool
  fmt : Nat
  deckle : Nat
  tie : Nat
  exp : Int
  rows : Nat
  panRow : Nat
  dst : Nat
  stride : Nat
  n : Nat
  deriving DecidableEq, Repr

def drainOp (w : Nat) : DrainOp :=
  ⟨bitOf w 8, iBits w 9 3, iBits w 16 4, iBits w 20 4, iSigned w 24 8, iBits w 32 12 + 1, iBits w 48 12, iBits w 64 17 * 64,
   iBits w 81 14 * 64, iBits w 96 7 + 1⟩

/-- The float target of a drain (R143); q32 has none. -/
def drainFmt (c : Nat) : Option Fmt :=
  if c = 0 then some Fmt.fp32 else if c = 1 then some Fmt.bf16 else if c = 2 then some Fmt.fp16
  else if c = 3 then some Fmt.fp8e4 else if c = 4 then some Fmt.fp8e5 else none

/-- Output element size (R144). -/
def DrainOp.elem (d : DrainOp) : Nat := match drainFmt d.fmt with
  | some f => f.bytes
  | none => 4

def DrainOp.rowBytes (d : DrainOp) : Nat := if d.stride = 0 then 128 * d.elem else d.stride

/-- Logical output rows (R144). -/
def DrainOp.outs (d : DrainOp) : Nat := if d.src16 then 2 * d.rows else d.rows

/-- PAN_LOAD and PAN_STORE decoded (R148): rows, first row, vat offset, stride. -/
structure CopyOp where
  w16 : Bool
  rows : Nat
  panRow : Nat
  vat : Nat
  stride : Nat
  deriving DecidableEq, Repr

def copyOp (w : Nat) : CopyOp :=
  ⟨bitOf w 8, iBits w 32 12 + 1, iBits w 48 12, iBits w 64 17 * 64, if iBits w 81 14 = 0 then 512 else iBits w 81 14 * 64⟩

/-- The pan rows that an instruction names, and whether it only reads them (R100, R115, R143, R148): first row and number. -/
def opPanRows (w : Nat) : Option (Nat × Nat × Bool) :=
  let op := iBits w 0 8
  let i := arrOp w
  let c := copyOp w
  if op = opArrStream then some (i.panRow, i.rows, false)
  else if op = opArrElem then some (i.panRow, i.m, false)
  else if op = opPanLoad then some (c.panRow, c.rows, false)
  else if op = opPanDrain ∨ op = opPanStore then some (c.panRow, c.rows, true)
  else none

/-! ### Fabric and Gram instructions -/

def imageSize : Nat := 24640

/-- A stream of a run record (R205): base, stride, format code. -/
structure FabStream where
  base : Nat
  stride : Nat
  fmt : Nat
  deriving DecidableEq, Repr

/-- FAB_RUN with its run record, decoded. -/
structure FabOp where
  plane : Nat
  mode : Nat
  reg : Nat
  rows : Nat
  len : Nat
  recAt : Nat
  streams : List FabStream
  tensor : Nat
  index : Nat
  deriving DecidableEq, Repr

def fabOp (s : State) (b w : Nat) : FabOp :=
  let a := iBits w 48 17 * 64
  let r := s.bytes (vatAt b + a) 64
  ⟨iBits w 8 1, iBits w 9 2, iBits w 11 4, iBits w 16 12 + 1, iBits w 32 16 + 1, a,
   (List.range 5).map (fun i => ⟨leAt r (8 * i) 4, leAt r (8 * i + 4) 4, leAt r (40 + i) 1⟩), leAt r 48 3, leAt r 56 6⟩

/-- Element formats of a run record (R205). -/
def fabFmt (c : Nat) : Fmt :=
  if c = 0 then Fmt.bf16 else if c = 1 then Fmt.fp16 else if c = 2 then Fmt.fp8e4 else if c = 3 then Fmt.fp8e5 else Fmt.fp32

def FabStream.used (x : FabStream) : Bool := x.fmt != 0xF

/-- Bytes from a stream's base to the last byte of its last row (R216). -/
def FabStream.span (x : FabStream) (rows len : Nat) : Nat := (rows - 1) * x.stride + len * (fabFmt x.fmt).bytes

structure LaneOp where
  op : Nat
  dst : Nat
  src : Nat
  count : Nat
  imm : Nat
  vat : Nat
  deriving DecidableEq, Repr

def laneOp (w : Nat) : LaneOp := ⟨iBits w 8 4, iBits w 12 4, iBits w 16 4, iBits w 20 4 + 1, iBits w 32 32, iBits w 64 17 * 64⟩

/-- GRM_TAP decoded (R220). -/
def tapOp (w : Nat) : Tap :=
  ⟨bitOf w 8, bitOf w 9, iBits w 16 6 + 1, iBits w 22 6, iBits w 28 4, iBits w 32 32, iBits w 64 17 * 64⟩

/-- The rows of an instruction that a Gram tap samples (R221), in ascending order. -/
def tapRows (t : Tap) (m : Nat) : List Nat := (List.range m).filter (fun j => (t.rowBase + j) % t.interval == t.phase)

/-! ### The vat ranges of an instruction (R216) -/

/-- A range of vat bytes that an instruction reads or writes: first offset, the one after the last, and whether it writes. -/
structure VatSpan where
  lo : Nat
  hi : Nat
  write : Bool
  deriving DecidableEq, Repr

/-- Two ranges that need an order (R216): they overlap, and one of the two accesses writes. -/
def VatSpan.clash (a b : VatSpan) : Bool := (a.write || b.write) && decide (a.lo < b.hi) && decide (b.lo < a.hi)

/-- The range that a drain writes (R144). -/
def DrainOp.span (d : DrainOp) : VatSpan := ⟨d.dst, d.dst + (d.outs - 1) * d.rowBytes + d.n * d.elem, true⟩

/-- The range of a PAN_LOAD or a PAN_STORE (R148). -/
def CopyOp.span (c : CopyOp) (write : Bool) : VatSpan := ⟨c.vat, c.vat + (c.rows - 1) * c.stride + 512, write⟩

/-- The ranges of a run (R205, R216): its record, and each stream from its base to the last byte of its last row. -/
def FabOp.spans (o : FabOp) : List VatSpan :=
  ⟨o.recAt, o.recAt + 64, false⟩ :: ((List.range 5).filter (fun i => (o.streams.getD i ⟨0, 0, 0xF⟩).used)).map (fun i =>
    let x := o.streams.getD i ⟨0, 0, 0xF⟩
    ⟨x.base, x.base + x.span o.rows o.len, decide (3 ≤ i)⟩)

/-- The ranges that an ARR_STREAM or an ARR_ELEM reads (R98, R99, R115). -/
def ArrOp.spans (i : ArrOp) (elem : Bool) : List VatSpan :=
  let e := (arrFmt i.fmtX).bytes
  ⟨i.str, strOff (!elem && i.strT) i.str i.stride e (i.m - 1) 127 + e, false⟩ ::
    (if elem then [⟨i.stat, strOff false i.stat i.stride e (i.m - 1) 127 + e, false⟩]
     else if i.keep then [] else [⟨i.stat, i.stat + 16384 * e, false⟩])

/-- The range that the sample panel of a tap takes (R220, R223). -/
def Tap.span (t : Tap) (m : Nat) : List VatSpan :=
  if t.keep then [⟨t.keepAddr, t.keepAddr + (tapRows t m).length * 256, true⟩] else []

/-- The vat ranges of the instruction `w` of block `b` (R216), with the tap that it carries. -/
def State.vatSpans (s : State) (b w : Nat) (tap : Option Tap) : List VatSpan :=
  let op := iBits w 0 8
  let i := arrOp w
  let o := laneOp w
  if op = opArrStream then i.spans false ++ (match tap with
    | some t => t.span i.m
    | none => [])
  else if op = opArrElem then i.spans true
  else if op = opPanDrain then [(drainOp w).span]
  else if op = opPanLoad then [(copyOp w).span false]
  else if op = opPanStore then [(copyOp w).span true]
  else if op = opFabCfg then [⟨iBits w 32 17 * 64, iBits w 32 17 * 64 + imageSize, false⟩]
  else if op = opFabRun then (fabOp s b w).spans
  else if op = opFabLane then (if o.op = 8 ∨ o.op = 9 then [⟨o.vat, o.vat + o.count * 256, o.op == 9⟩] else [])
  else if op = opGrmDrain then [⟨iBits w 32 17 * 64, iBits w 32 17 * 64 + 65536, true⟩]
  else []

/-- Whether an instruction goes to the fabric queue (R215). -/
def isFab (w : Nat) : Bool := let op := iBits w 0 8; op == opFabCfg || op == opFabRun || op == opFabLane

end Sys2Proof.Machine
end

