-- ==== Sys2Proof/Machine/BlockOps.lean ====
section
/-! DEFINITION. What the block commands share: pan words and rows (R130 to R133, R155), vat bytes, block programs (R467, R121),
arbitration (R17), block errors, quarantine and the re-run of program steps (R20 to R22). -/

namespace Sys2Proof.Machine

def blockDefault : Nat → BlockUnit := fun _ => BlockUnit.zero
def panDefault : Nat → PanWord := fun _ => PanWord.zero
def rowDefault : Nat → PanRow := fun _ => PanRow.zero

def State.blk (s : State) (b : Nat) : BlockUnit := SMap.get blockDefault s.blocks b
def State.setBlk (s : State) (b : Nat) (u : BlockUnit) : State := { s with blocks := SMap.set blockDefault s.blocks b u }

/-! ### The pan -/

def panKey (b row col : Nat) : Nat := (b * 4096 + row) * 128 + col
def State.panWord (s : State) (b row col : Nat) : PanWord := SMap.get panDefault s.pan (panKey b row col)
def State.setPanWord (s : State) (b row col : Nat) (w : PanWord) : State :=
  { s with pan := SMap.set panDefault s.pan (panKey b row col) w }
def State.panRow (s : State) (b row : Nat) : PanRow := SMap.get rowDefault s.panRows (b * 4096 + row)
def State.setPanRow (s : State) (b row : Nat) (r : PanRow) : State :=
  { s with panRows := SMap.set rowDefault s.panRows (b * 4096 + row) r }

/-- Half `h` of a 16-bit pan word (R131). -/
def halfOf (bits h : Nat) : Nat := bitsOf bits (16 * h) 16
def putHalf (bits h v : Nat) : Nat := putBits bits (16 * h) 16 v

/-- Whether any row of [row, row + n) has another width than `w16` (R132). -/
def State.tagDiffers (s : State) (b row n : Nat) (w16 : Bool) : Bool :=
  (List.range n).any (fun i => (s.panRow b (row + i)).w16 != w16)

/-- Whether a word of columns [c, c + n) of a row has wrong parity (R155). -/
def State.rowBad (s : State) (b row c n : Nat) : Bool := (List.range n).any (fun i => (s.panWord b row (c + i)).bad)

/-- A parity error found on a read of a pan row (R155): the row's flag, parity_error and parity_count. -/
def State.panParity (s : State) (b row : Nat) : State :=
  (((s.setPanRow b row { s.panRow b row with parityErr := true }).setFlag (PAN_STATUS_parity_error b)).bump
    (PAN_STATUS_parity_count b)).count (cntBlock b 43)

/-- The pan as at block reset (R133). -/
def State.resetPan (s : State) (b : Nat) : State :=
  { s with
    pan := SMap.clearRange s.pan (panKey b 0 0) (4096 * 128)
    panRows := SMap.clearRange s.panRows (b * 4096) 4096 }

/-- The discarded bits of a rounding to format `f`: guard, round and sticky (R157). -/
def guardBits (f : Fmt) : FVal → Nat
  | .fin _ m e =>
    if m = 0 then 0
    else
      let sh := (f.gridOf m e - e).toNat
      if sh = 0 then 0
      else bitsOf m (sh - 1) 1 + (if 2 ≤ sh then 2 * bitsOf m (sh - 2) 1 else 0) + (if 3 ≤ sh ∧ m % 2 ^ (sh - 2) ≠ 0 then 4 else 0)
  | _ => 0

/-! ### The indications of a step (R373) -/

/-- What the module holds for the norm of step `n`. -/
def State.normOf (s : State) (n : Nat) : NormAcc :=
  let a := SMap.get (fun _ => NormAcc.zero) s.norms (n % 2)
  if a.step = n then a else { NormAcc.zero with step := n }

def State.setNorm (s : State) (n : Nat) (a : NormAcc) : State :=
  { s with norms := SMap.set (fun _ => NormAcc.zero) s.norms (n % 2) a }

/-- The module's non-finite indication for a step. -/
def State.markNonfinite (s : State) (n : Nat) : State := s.setNorm n { s.normOf n with nonfinite := true }

/-- The module's overflow indication for a step. -/
def State.markOverflow (s : State) (n : Nat) : State := s.setNorm n { s.normOf n with overflow := true }

/-! ### The vat -/

/-- The bytes of a vat range, as a sparse map by offset in the range. -/
def State.vatSlice (s : State) (b off n : Nat) : SMap Byte :=
  (s.mem.filter (fun p => decide (vatAt b + off ≤ p.1) && decide (p.1 < vatAt b + off + n))).map
    (fun p => (p.1 - (vatAt b + off), p.2))

def sliceLe (m : SMap Byte) (off n : Nat) : Nat := leNat ((List.range n).map (fun i => SMap.get memDefault m (off + i)))

/-! ### Block programs -/

/-- The block program that runs in context `c` of block `b`: the first launched (R467). -/
def State.launchAt (s : State) (b c : Nat) : Option Launch := s.launches.find? (fun l => l.block == b && l.ctx == c)

def State.setLaunch (s : State) (l : Launch) : State :=
  { s with launches := s.launches.map (fun x => if x.entry = l.entry then l else x) }

/-- The pan operations of block `b` in flight (R141): drains that wait for their tie group, and an ARR_STREAM that is to be replayed or tested. -/
def State.flight (s : State) (b : Nat) : List Nat :=
  let u := s.blk b
  u.drains.map (·.word) ++ (u.replay.toList ++ u.rowTest.toList).map (·.word)

/-- Whether an operation in flight holds a row of [row, row + n) (R137, R141). -/
def State.rowsHeld (s : State) (b row n : Nat) : Bool :=
  (s.flight b).any (fun w => match opPanRows w with
    | some x => decide (row < x.1 + x.2.1) && decide (x.1 < row + n)
    | none => false)

/-- Whether an instruction has to wait at issue for the pan operations in flight (R137 to R141): for their rows, or with 16 of them in flight. -/
def State.panWaits (s : State) (b w : Nat) : Bool :=
  match opPanRows w with
  | some x => decide (16 ≤ (s.flight b).length) || (!x.2.2 && s.rowsHeld b x.1 x.2.1)
  | none => false

/-- Whether a drain of a LAUNCH still waits for its tie group. -/
def State.drainsOf (s : State) (l : Launch) : Bool := (s.blk l.block).drains.any (fun d => d.entry == l.entry)

/-- The fabric instructions of a LAUNCH that are still to be executed (R215). -/
def State.jobsOf (s : State) (l : Launch) : List FabJob := (s.blk l.block).fabQ.filter (fun j => j.entry == l.entry)

/-- Whether DMA transfers of the job context are still to be acknowledged (R426): transfers of its descriptors that have not all landed. -/
def State.dmaOutstanding (s : State) (c : Nat) : Bool :=
  s.tx.any (fun x => match x.owner with
    | .entry e => dContext (s.desc e) == c
    | _ => false)

/-- Whether the vat ranges of `w`, an instruction of `l`, need an order with those of a fabric instruction of `l` in the queue (R216). -/
def State.fabClash (s : State) (l : Launch) (w : Nat) : Bool :=
  (s.vatSpans l.block w (SMap.find (s.blk l.block).taps l.ctx)).any (fun x =>
    (s.jobsOf l).any (fun j => (s.vatSpans l.block j.word none).any x.clash))

/-- Whether the instruction `w` of `l` has to wait at issue: for the pan (R137 to R141), for room in the fabric queue (R215), for a fabric instruction
whose vat ranges overlap its own (R216); a SYN_SIGNAL for what the context's earlier instructions are still to write and, with AFTER_DMA, for its
transfers (R426); and a STEP for the fabric instructions of its step (notes/assumptions/147.md). -/
def State.issueWaits (s : State) (l : Launch) (w : Nat) : Bool :=
  let op := iBits w 0 8
  s.panWaits l.block w ||
  (if isFab w then decide (6 ≤ (s.blk l.block).fabQ.length)
   else if op = opSynSignal then s.drainsOf l || !(s.jobsOf l).isEmpty || (bitOf w 11 && s.dmaOutstanding l.ctx)
   else if op ∉ opcodes then !(s.jobsOf l).isEmpty
   else s.fabClash l w)

/-- Whether a context has an instruction ready: it runs a program, no SYN_WAIT stops it (R435), and its next instruction does not wait; other
instructions do not wait with it (R139). -/
def State.ctxReady (s : State) (b c : Nat) : Bool :=
  match s.launchAt b c with
  | some l => l.token.isNone && decide (l.pc < l.len) && !s.issueWaits l (s.le (l.addr + 16 * l.pc) 16)
  | none => false

/-- The context that issues next on block `b` (R17): context 0 when it is ready, else the next ready one of 1 to 3 in round-robin
order. -/
def State.arbiter (s : State) (b : Nat) : Option Nat :=
  if s.ctxReady b 0 then some 0
  else
    let i := (s.blk b).lastBg
    ([i % 3 + 1, (i + 1) % 3 + 1, (i + 2) % 3 + 1] : List Nat).find? (fun c => s.ctxReady b c)

/-- Whether block `b` does not work at all: it is absent (R38), its region is fenced (R23), debug mode holds it (R156), issue is stopped (R539,
R555), or its clock is (R557). -/
def State.blockStopped (s : State) (b : Nat) : Bool :=
  s.absent b || s.regionFenced (b / 16) || s.flag (PAN_DBG_CTL_dbg_active b) || (s.blk b).dbgPending || s.monStop || s.brakeStop ||
  s.fld PWR_STATUS_state != 0

/-- Whether anything stops block `b` from issuing: it does not work, or a replay, a row test or a re-initialisation comes first (R119, R120,
R108). -/
def State.blockHeld (s : State) (b : Nat) : Bool :=
  s.blockStopped b || (s.blk b).replay.isSome || (s.blk b).rowTest.isSome || (s.blk b).reinit

/-- Whether the 16 bytes at a program address can be read: HBM of a running region that is not poisoned, or the vat of a present block
of a running region. -/
def State.fetchOk (s : State) (a : Nat) : Bool :=
  match (placeOf a).1 with
  | .hbm => !s.regionFenced (hbmRegion a) && !s.poisoned a
  | .vat b _ => !s.absent b && !s.regionFenced (b / 16)
  | _ => false

/-- The next instruction of context `c` of block `b`, if it issues now: its program and its word. -/
def State.nextInstr (s : State) (b c : Nat) : Option (Launch × Nat) :=
  if s.blockHeld b || (s.blk b).current != c || s.arbiter b != some c then none
  else
    match s.launchAt b c with
    | some l => if s.fetchOk (l.addr + 16 * l.pc) then some (l, s.le (l.addr + 16 * l.pc) 16) else none
    | none => none

/-! ### The tile window (R152 to R155, R517) -/

/-- The rows of a tile-window range (R152). -/
def winRows (off len : Nat) : Nat × Nat := (off / 512, (off + len - 1) / 512 - off / 512 + 1)

/-- A byte of the tile window (R152); all ones where an operation in flight holds its row (R153). -/
def State.panByte (s : State) (b off : Nat) : Byte :=
  if s.rowsHeld b (off / 512) 1 then 0xFF#8
  else BitVec.ofNat 8 (bitsOf (s.panWord b (off / 512) (off % 512 / 4)).bits (8 * (off % 4)) 8)

/-- A tile-window read (R152, R153, R155): bytes, whether they are poisoned, and the state with the parity errors noted. Words of wrong parity in one
row that are read at once are one parity error (DESIGN CHOICE, notes/assumptions/142.md). -/
def State.winRead (s : State) (b off len : Nat) : List Byte × Bool × State :=
  let words := if len = 0 then 0 else (off + len - 1) / 4 - off / 4 + 1
  let bad := ((List.range words).map (fun i => off / 4 + i)).filter (fun k =>
    (s.panWord b (k / 128) (k % 128)).bad && !s.rowsHeld b (k / 128) 1)
  let rows := (bad.map (fun k => k / 128)).dedup
  ((List.range len).map (fun i => s.panByte b (off + i)), !bad.isEmpty,
   (rows.foldl (fun (t : State) (r : Nat) => t.panParity b r) s).count (cntBlock b 22))

/-- A tile-window write (R152 to R154): words of rows that an operation in flight holds are discarded. -/
def State.winWrite (s : State) (b off : Nat) (data : List Byte) : State :=
  if off % 4 ≠ 0 ∨ data.length % 4 ≠ 0 then
    (s.setFlag (PAN_STATUS_window_misaligned b)).bump (PAN_WINDOW_COUNT_misaligned b)
  else
    (forUpTo (data.length / 4) (fun i t =>
      let k := off / 4 + i
      let w := t.panWord b (k / 128) (k % 128)
      if s.rowsHeld b (k / 128) 1 then t
      else t.setPanWord b (k / 128) (k % 128) ⟨leAt data (4 * i) 4, false, w.guard⟩) s).count (cntBlock b 22)

/-- A host access through the window is made now. -/
def State.winMake (s : State) (b : Nat) (a : WinAccess) : State :=
  match a.data with
  | some d => s.winWrite b a.off d
  | none =>
    let x := s.winRead b a.off a.len
    { x.2.2 with out := ⟨x.1, x.2.1, false⟩ }

/-- A tile-window access of the host whose rows a pan operation holds waits (R153). -/
def State.winAccess (s : State) (b : Nat) (a : WinAccess) : State :=
  let r := winRows a.off a.len
  if s.rowsHeld b r.1 r.2 then s.setBlk b { s.blk b with winWait := (s.blk b).winWait ++ [a] } else s.winMake b a

/-- The first block of which an operation in flight holds a pan row in [a, a + n): the block, and the part of the range in its window (R153). -/
def State.panHeld (s : State) (a n : Nat) : Option (Nat × Nat × Nat) :=
  ((List.range 64).map (fun b =>
    let p := vatAt b + vatSize
    (b, max a p - p, min (a + n) (p + panSize) - max a p))).find? (fun x =>
      x.2.2 != 0 && s.rowsHeld x.1 (winRows x.2.1 x.2.2).1 (winRows x.2.1 x.2.2).2)

/-- The pan rows in [a, a + n) that entry `e` has to wait for, unless its wait has timed out (R153). -/
def State.entryHeld (s : State) (e a n : Nat) : Option (Nat × Nat × Nat) := if s.windowTimedOut e then none else s.panHeld a n

/-- The access of entry `e` to a part of a pan window waits for its rows (R153): phase 7. -/
def State.waitPan (s : State) (e : Nat) (x : Nat × Nat × Nat) : State :=
  (s.setBlk x.1 { s.blk x.1 with winWait := (s.blk x.1).winWait ++ [⟨x.2.1, x.2.2, none, some e⟩] }).begun e 7

/-- A waiting access goes on: the host's is made, that of a descriptor lets the descriptor start again. -/
def State.winGo (s : State) (b : Nat) (a : WinAccess) : State :=
  match a.entry with
  | some e => s.begun e 0
  | none => s.winMake b a

/-- Window accesses that no operation holds any longer proceed, oldest first (R153). -/
def State.serveWindow (s : State) (b : Nat) : Nat → State
  | 0 => s
  | fuel + 1 =>
    match (s.blk b).winWait.find? (fun a => !s.rowsHeld b (winRows a.off a.len).1 (winRows a.off a.len).2) with
    | none => s
    | some a => State.serveWindow ((s.setBlk b { s.blk b with winWait := (s.blk b).winWait.erase a }).winGo b a) b fuel

/-- Refuse a host access through the window (R517): a fenced region's pan sets window_fenced; an absent block's is unmapped. -/
def State.winRefuse (s : State) (b : Nat) (read : Bool) : State :=
  let s1 := s.bump HUB_ADDR_COUNT_window_refusals
  let s2 := s1.setFlagIf (!s.absent b && s.regionFenced (b / 16)) HUB_ADDR_STATUS_window_fenced
  if read then { s2 with out := ⟨[], false, true⟩ } else s2

/-- The accesses that wait for a pan that is no more, or is closed, end (R512, R517): the host's is refused, and a descriptor starts again and finds
the address closed. -/
def State.dropWindow (s : State) (b : Nat) : State :=
  (s.blk b).winWait.foldl (fun (t : State) (a : WinAccess) => match a.entry with
    | some e => t.begun e 0
    | none => t.winRefuse b a.data.isNone) (s.setBlk b { s.blk b with winWait := [] })

/-- A LAUNCH ends (R467, R122, R22): its counts are the instructions issued and the program steps re-run; its waiting drains go. -/
def State.endLaunch (s : State) (l : Launch) (st : List Status) (err : ErrCode) : State :=
  let s1 := { s with launches := s.launches.filter (fun x => x.entry != l.entry) }
  let u := s1.blk l.block
  let s2 := s1.setBlk l.block { u with
    drains := u.drains.filter (fun d => d.entry != l.entry)
    fabQ := u.fabQ.filter (fun j => j.entry != l.entry)
    taps := SMap.erase u.taps l.ctx
    lastBg := if l.ctx = 0 then u.lastBg else l.ctx }
  s2.complete l.entry (st ++ (if l.retried then [.faultRetried] else []) ++ (if l.replayed then [.replayed] else []) ++ [.ok])
    (if st.contains .faultFailed then err else if l.retried then .blockError else .none) l.issued l.reruns

/-- The program of entry `e` ends when its last instruction has issued and nothing of it is outstanding (R467). -/
def State.finishLaunch (s : State) (e : Nat) : State :=
  match s.launches.find? (fun x => x.entry == e) with
  | none => s
  | some l => if l.len ≤ l.pc ∧ l.token = none ∧ !s.drainsOf l ∧ s.jobsOf l = [] then s.endLaunch l [] .none else s

/-- An instruction of `l` has issued: the next one follows (R467 counts it). -/
def State.advance (s : State) (l : Launch) : State :=
  match s.launches.find? (fun x => x.entry == l.entry) with
  | none => s
  | some x =>
    let s1 := s.setLaunch { x with pc := x.pc + 1, issued := x.issued + 1 }
    let u := s1.blk l.block
    let s2 := s1.setBlk l.block { u with lastBg := if l.ctx = 0 then u.lastBg else l.ctx }
    s2.finishLaunch l.entry

/-- An instruction of `l` counts as issued but its program does not go on past it yet. -/
def State.noteIssued (s : State) (l : Launch) : State :=
  match s.launches.find? (fun x => x.entry == l.entry) with
  | none => s
  | some x => s.setLaunch { x with issued := x.issued + 1 }

/-- A program whose next instruction would issue but cannot be read ends: its place is poisoned, unmapped or in a fenced region (R512, R520). -/
def State.fetchFail (s : State) (b c : Nat) : State :=
  if s.blockHeld b || (s.blk b).current != c || s.arbiter b != some c then s
  else
    match s.launchAt b c with
    | some l =>
      let a := l.addr + 16 * l.pc
      if s.fetchOk a then s
      else
        let err := match (placeOf a).1 with
          | .hbm => if s.regionFenced (hbmRegion a) then ErrCode.regionFenced else .memoryFault
          | .vat v _ => if s.regionFenced (v / 16) then ErrCode.regionFenced else .memoryFault
          | _ => .memoryFault
        s.endLaunch l [.faultFailed] err
    | none => s

/-- The issued counts of the tie groups 1 to 15 (R114, R151). -/
def State.tieCounts (s : State) (b : Nat) : List Nat := (List.range 15).map (fun i => s.fld (BLK_TIE_CFG_issued b (i + 1)))

/-- The counts of the tie groups `ts` become those of `l` again (R151). -/
def State.setTieCounts (s : State) (b : Nat) (l ts : List Nat) : State :=
  ts.foldl (fun (t : State) (i : Nat) => t.setFld (BLK_TIE_CFG_issued b i) (l.getD (i - 1) 0)) s

/-- The step of `l` begins with its first instruction: the tie counts are kept (R151). -/
def State.stepStart (s : State) (l : Launch) : State :=
  if l.pc = l.stepPc then s.setLaunch { l with ties := s.tieCounts l.block, tied := [] } else s

/-- The step of entry `e` has changed the count of a tie group (R151). -/
def State.noteTied (s : State) (e t : Nat) : State :=
  match s.launches.find? (fun x => x.entry == e) with
  | some l => if l.tied.contains t then s else s.setLaunch { l with tied := l.tied ++ [t] }
  | none => s

/-- The sequencer sends the fabric instructions that come next to the fabric queue, in issue order, while it has room (R215): they count as issued,
and the program goes on. -/
def State.feed (s : State) (b : Nat) : Nat → State
  | 0 => s
  | fuel + 1 =>
    match s.nextInstr b (s.blk b).current with
    | none => s
    | some (l, w) =>
      if isFab w then
        let s1 := s.stepStart l
        State.feed ((s1.setBlk b { s1.blk b with fabQ := (s1.blk b).fabQ ++ [⟨l.ctx, l.entry, w⟩] }).advance l) b fuel
      else s

/-- Block `b` with the fabric queue as its sequencer has filled it. -/
def State.fed (s : State) (b : Nat) : State := s.feed b 6

/-- Whether the oldest fabric instruction has to wait (R216): a drain of its program that waits, or an ARR_STREAM of it that is to be replayed, has
still to access its vat ranges. -/
def State.fabWaits (s : State) (b : Nat) (j : FabJob) : Bool :=
  let u := s.blk b
  let ws := (u.drains.filter (fun d => d.entry == j.entry)).map (·.word) ++
    ((u.replay.toList ++ u.rowTest.toList).filter (fun r => r.entry == j.entry)).map (·.word)
  ws.any (fun w => (s.vatSpans b w none).any (fun x => (s.vatSpans b j.word none).any x.clash))

/-- A fabric instruction of `l` has ended: its program may end with it. -/
def State.fabEnd (s : State) (l : Launch) : State := s.finishLaunch l.entry

/-- The instruction with opcode `op` that issues next in context `c` of block `b`: an illegal one ends its LAUNCH (R102), a legal one
acts. Nothing happens when the next instruction is another one or none issues; one that cannot be read ends its LAUNCH. -/
def State.issue (s : State) (b c op : Nat) (legal : State → Launch → Nat → Bool) (act : State → Launch → Nat → State) : State :=
  let s0 := s.fed b
  match s0.nextInstr b c with
  | none => s0.fetchFail b c
  | some (l, w) =>
    if iBits w 0 8 = op then
      if legal s0 l w then act (s0.stepStart l) l w else s0.endLaunch l [.faultFailed] .illegalInstruction
    else s0

/-- The fabric of block `b` takes the oldest instruction of its queue (R215), when that is one of context `c` with opcode `op`: it is read and judged
as it leaves the queue (R205, R208; notes/assumptions/147.md). An illegal one ends its LAUNCH (R102). -/
def State.fabIssue (s : State) (b c op : Nat) (legal : State → Launch → Nat → Bool) (act : State → Launch → Nat → State) : State :=
  let s0 := s.fed b
  match (s0.blk b).fabQ with
  | [] => s0.fetchFail b c
  | j :: q =>
    if j.ctx = c ∧ iBits j.word 0 8 = op ∧ !s0.blockStopped b ∧ !s0.fabWaits b j then
      let s1 := s0.setBlk b { s0.blk b with fabQ := q }
      match s1.launches.find? (fun x => x.entry == j.entry) with
      | none => s1
      | some l => if legal s1 l j.word then act s1 l j.word else s1.endLaunch l [.faultFailed] .illegalInstruction
    else s0

/-- Re-run the current program step of a program from its first instruction (R121); the tie groups that the step has counted in get back the count
they had there (R151, notes/assumptions/140.md). -/
def State.rerunStep (s : State) (l : Launch) (retried : Bool) : State :=
  match s.launches.find? (fun x => x.entry == l.entry) with
  | none => s
  | some x =>
    let s1 := s.setLaunch { x with
      pc := x.stepPc, reruns := x.reruns + 1, token := none
      retried := x.retried || retried, replayed := x.replayed || !retried }
    let u := s1.blk x.block
    let s2 := s1.setBlk x.block { u with
      drains := u.drains.filter (fun d => d.entry != x.entry)
      fabQ := u.fabQ.filter (fun j => j.entry != x.entry)
      replay := none, rowTest := none, taps := SMap.erase u.taps x.ctx }
    (s2.setTieCounts x.block x.ties x.tied).count (cntBlock x.block 46)

/-- Number of quarantined physical blocks of region `r`, from its block map (R639). -/
def State.quarantinedCount (s : State) (r : Nat) : Nat :=
  let ps := ((s.presentBlocks r).map s.phys).dedup
  17 - ps.length - (if ps.contains (17 * r + 16) then 0 else 1)

/-- Show what the block map says of region `r` (R34, R36). -/
def State.showRegion (s : State) (r : Nat) : State :=
  let ab := ((List.range 16).any (fun i => s.absent (16 * r + i)))
  let sp := (s.presentBlocks r).any (fun b => s.phys b == 17 * r + 16)
  let s1 := (s.setFld (RGN_STATUS_degraded r) (b2n ab)).setFld (RGN_STATUS_spare_used r) (b2n sp)
  let s2 := s1.setFld (RGN_STATUS_quarantined_count r) (min 15 (s1.quarantinedCount r))
  s2.setFld HUB_MODULE_STATUS_region_degraded
    (putBits (s2.fld HUB_MODULE_STATUS_region_degraded) r 1 (b2n ab))

/-- The row map of a physical block (R95): the physical rows that are not quarantined, in ascending order. -/
def liveRows (q : List Nat) : List Nat := (List.range 132).filter (fun x => !q.contains x)

def State.quarOf (s : State) (p : Nat) : List Nat := SMap.get qDefault s.quarRows p

/-- Initialise the repair registers of block `b` from the repair record (R107, R108, R125, R126). -/
def State.programRows (s : State) (b : Nat) : State :=
  let q := s.quarOf (s.phys b)
  let live := liveRows q
  let s1 := forUpTo 32 (fun k t => t.setReg (BLK_ROW_MAP b k)
    (BitVec.ofNat 32 (leNat ((List.range 4).map (fun i => BitVec.ofNat 8 (live.getD (4 * k + i) 0)))))) s
  let s2 := ((s1.setFld (BLK_LATENCY_latency b) (128 + live.getD 127 0 + 6)).setFld (BLK_LATENCY_chk_row b) (live.getD 128 0)).setFld
    (BLK_LATENCY_spares_used b) q.length
  ((s2.setFld (BLK_REPAIR_quar_0 b) (q.getD 0 0xFF)).setFld (BLK_REPAIR_quar_1 b) (q.getD 1 0xFF)).setFld
    (BLK_REPAIR_quar_2 b) (q.getD 2 0xFF)

/-- What a block loses at a block reset or on a move to the spare (R133, R203, R209, R611): pan, stat pan, planes, lanes, the kept
tiles, taps, samples and pending replays. Its registers' reset is the caller's. -/
def State.clearBlock (s : State) (b : Nat) : State :=
  let s1 := s.resetPan b
  let s2 := { s1 with
    stat := SMap.clearRange s1.stat (b * 16 * 16384) (16 * 16384)
    lanes := SMap.clearRange s1.lanes (b * 4 * 1024) (4 * 1024) }
  let s3 := s2.setBlk b BlockUnit.zero
  let s4 := forUpTo 2 (fun p t => (t.setFld (BLK_FAB_PLANE_valid b p) 0).setFld (BLK_FAB_PLANE_image_id b p) 0) s3
  forUpTo 16 (fun i t => t.setFld (GRM_SLOT_samples b i) 0) s4

/-- The vat of a block as at block reset (R133, R611). -/
def State.clearVat (s : State) (b : Nat) : State := { s with mem := SMap.clearRange s.mem (vatAt b) vatSize }

/-- The error record of a block fault: unit, physical block, detail and the descriptor of the program (R544, R547). -/
def State.blockRec (s : State) (severity level unit b detail cause : Nat) (l : Option Launch) : ErrRec :=
  match l with
  | some x => ⟨severity, level, unit, b / 16, s.phys b, detail, cause, 0, (s.jget x.entry).ring, dSeq (s.desc x.entry)⟩
  | none => ⟨severity, level, unit, b / 16, s.phys b, detail, cause, 0, 0xFFFF, 0⟩

/-- Re-run the current step of every program on block `b`: the one that erred as retried, the others as replayed (R22, R158); with no
context named, every one as retried. -/
def State.rerunBlock (s : State) (b : Nat) (ctx : Option Nat) : State :=
  forUpTo 4 (fun c t => match t.launchAt b c with
    | some l => t.rerunStep l (ctx.isNone || ctx == some c)
    | none => t) s

/-- Fail every program on block `b`, now absent (R21). -/
def State.failBlock (s : State) (b : Nat) : State :=
  (s.launches.filter (fun l => l.block == b)).foldl
    (fun (t : State) (l : Launch) => t.endLaunch l [.faultFailed] .blockAbsent) s

/-- The root jobs on block `b` whose sequencer is quarantined: their current iteration runs again, in the moved block or without it (R276). -/
def State.markRoots (s : State) (b : Nat) : State :=
  { s with rootJobs := s.rootJobs.map (fun p =>
    if p.2.blocks.contains b || p.2.dupBlocks.contains b then (p.1, { p.2 with replayed := true, lost := true }) else p) }

/-- A block is quarantined: its logical block moves to the unused spare (R20), or is marked absent (R21), its physical index then a free value
(R38, notes/assumptions/118.md). The repair record is to be rewritten. A spare that has itself been quarantined holds no logical block and counts as
unused again (DESIGN CHOICE, notes/assumptions/138.md). -/
def State.quarantine (s : State) (b : Nat) (ctx : Option Nat) (unit cause : Nat) (l : Option Launch) : State :=
  let r := b / 16
  if s.flag (RGN_STATUS_spare_used r) then
    let rec' := s.blockRec 2 2 unit b 0xFFFF cause l
    let s1 := (s.failBlock b).markRoots b
    let k := s1.takeFree 5
    let s2 := (k.2.setFld (mapFld b) (k.1 + 128)).dropWindow b
    { (s2.showRegion r).error rec' with repairPend := true }
  else
    let rec' := s.blockRec 1 2 unit b (17 * r + 16) cause l
    let u := s.blk b
    let s1 := ((s.clearBlock b).clearVat b).markRoots b
    let s2 := s1.setBlk b { BlockUnit.zero with current := u.current, lastBg := u.lastBg, winWait := u.winWait }
    let s3 := (s2.setFld (mapFld b) 16).showRegion r
    let s4 := ((s3.programRows b).rerunBlock b ctx).serveWindow b u.winWait.length
    { s4.error rec' with repairPend := true }

/-- The first block error of a physical block re-runs the step of the erring context, or of every running one (R22). -/
def State.rerunFirst (s : State) (b : Nat) : Option Nat → State
  | some c => match s.launchAt b c with
    | some l => s.rerunStep l true
    | none => s
  | none => s.rerunBlock b none

/-- A block error (R22, R25): counted and recorded; in a region that is fenced nothing more; the first of a physical block since cold
reset re-runs the program step, the second quarantines the block. `ctx` is the context whose instruction erred, `none` for a check
between instructions; with no program on the block it is only recorded and counted toward quarantine. -/
def State.blockError (s : State) (b : Nat) (ctx : Option Nat) (unit cause : Nat) : State :=
  let r := b / 16
  let l := match ctx with
    | some c => s.launchAt b c
    | none => none
  let s1 := s.bump (RGN_STATUS_block_error_count r)
  if s.regionFenced r then s1.error (s.blockRec 1 2 unit b 0xFFFF cause l)
  else
    let p := s.phys b
    let n := SMap.get (fun _ => 0) s.blkErr p
    let s2 := { s1 with blkErr := SMap.set (fun _ => 0) s1.blkErr p (n + 1) }
    if n = 0 then (s2.error (s.blockRec 1 2 unit b 0xFFFF cause l)).rerunFirst b ctx
    else s2.quarantine b ctx unit cause l

end Sys2Proof.Machine
end

