-- ==== Sys2Proof/Machine/Pan.lean ====
section
/-! DEFINITION. Pans (04_pans.md): PAN_DRAIN, PAN_LOAD, PAN_STORE, tie groups, the tile window, debug mode and the raw window. -/

namespace Sys2Proof.Machine

def drainReserved (w : Nat) : Bool :=
  iBits w 12 4 == 0 && iBits w 44 4 == 0 && iBits w 60 4 == 0 && iBits w 95 1 == 0 && iBits w 103 25 == 0

/-- The rows that the members of a tie group named, if one has issued (R113, R147). -/
def State.tieRowsOk (s : State) (b : Nat) (d : DrainOp) : Bool :=
  match SMap.find (s.blk b).tieRows d.tie with
  | some r => s.fld (BLK_TIE_CFG_issued b d.tie) == 0 || r == (d.panRow, d.rows)
  | none => true

/-- PAN_DRAIN is legal (R147, R132, R114, R124). -/
def drainLegal (s : State) (l : Launch) (w : Nat) : Bool :=
  let d := drainOp w
  drainReserved w && decide (d.fmt ≤ 5) && decide (d.panRow + d.rows ≤ 4096) &&
  inVat (d.dst + (d.outs - 1) * d.rowBytes) (d.n * d.elem) &&
  (d.stride == 0 || decide (ceilDiv (d.n * d.elem) 64 ≤ d.stride / 64)) &&
  !s.tagDiffers l.block d.panRow d.rows d.src16 &&
  (d.tie == 0 || (s.tieRowsOk l.block d && s.fld (BLK_TIE_CFG_members l.block d.tie) != 0 &&
    decide (s.fld (BLK_TIE_CFG_issued l.block d.tie) ≤ s.fld (BLK_TIE_CFG_members l.block d.tie))))

/-- The deckle mask in its registers (R110, R128): the column keep map and the four runs; mask 0 keeps everything. -/
def State.deckle (s : State) (b d : Nat) : Nat × List (Nat × Nat) :=
  if d = 0 then (2 ^ 128 - 1, [(0, 2 ^ 16)])
  else
    ((List.range 4).foldl (fun acc i => acc + s.fld (BLK_DECKLE_COL_KEEP_keep b d i) * 2 ^ (32 * i)) 0,
     (List.range 4).map (fun i => (s.fld (BLK_DECKLE_RUN_start b d i), s.fld (BLK_DECKLE_RUN_count b d i))))

/-- Whether a row lies in a run (R110). -/
def inRuns (runs : List (Nat × Nat)) (row : Nat) : Bool := runs.any (fun r => decide (r.1 ≤ row) && decide (row < r.1 + r.2))

/-- One drained element (R145, R172): its bytes, and whether its conversion saturated (R166, R172). -/
def drainElem (d : DrainOp) (bits : Nat) : List Byte × Bool :=
  let v := (if d.src16 then Fmt.bf16 else Fmt.fp32).decode bits
  match drainFmt d.fmt with
  | some f =>
    let r := f.round .rne (v.scale d.exp)
    (leBytes f.bytes r.bits, f.bytes == 1 && v.isFin && r.overflow)
  | none =>
    let q := toBrine 32 d.exp v
    (leBytes 4 (toBits 32 q.code), q.overflow)

/-- One logical output row of a drain of a program of step `step` (R144, R145, R111). A brine word that saturates sets the overflow indication of
the step (R172); the counter of R601 counts fp8 conversions. -/
def State.drainRow (s : State) (b step : Nat) (d : DrainOp) (keep : Nat) (runs : List (Nat × Nat)) (i : Nat) : State :=
  let row := d.panRow + (if d.src16 then i / 2 else i)
  let cols := if inRuns runs i then (List.range d.n).filter (fun n => bitOf keep n) else []
  let out := cols.map (fun n =>
    let w := (s.panWord b row n).bits
    (n, drainElem d (if d.src16 then halfOf w (i % 2) else w)))
  let base := vatAt b + d.dst + i * d.rowBytes
  let s1 := out.foldl (fun (t : State) (x : Nat × List Byte × Bool) => t.setBytes (base + x.1 * d.elem) x.2.1) s
  let sat := (out.filter (fun x => x.2.2)).length
  let s2 := (s1.countBytes (cntBlock b 38) (cols.length * d.elem)).count (cntBlock b 44) (d.n - cols.length)
  let s3 := if sat = 0 then s2 else if (drainFmt d.fmt).isSome then s2.count (cntBlock b 36) sat else s2.markOverflow step
  if cols.isEmpty then s3.count (cntBlock b 4) ((s.panRow b row).cost / (if d.src16 then 2 else 1)) else s3

/-- A drain reads its rows in ascending order (R140): a word of wrong parity raises a block error (R155). It reads every column below n_used, also
those that its deckle mask leaves out (DESIGN CHOICE, notes/assumptions/141.md). -/
def State.drainRows (s : State) (b step : Nat) (d : DrainOp) (keep : Nat) (runs : List (Nat × Nat)) : State × Option Nat :=
  let bad := (List.range d.rows).find? (fun j => s.rowBad b (d.panRow + j) 0 d.n)
  let n := bad.getD d.rows
  ((forUpTo (if d.src16 then 2 * n else n) (fun i t => t.drainRow b step d keep runs i) s).count (cntBlock b 20) n, bad)

/-- The step number of the program of entry `e`. -/
def State.stepNoOf (s : State) (e : Nat) : Nat := match s.launches.find? (fun x => x.entry == e) with
  | some l => l.stepNo
  | none => 0

/-- A drain takes place (R143, R114): the count of its tie group is reset. -/
def State.doDrain (s : State) (b : Nat) (x : DrainWait) : State :=
  let d := drainOp x.word
  let r := s.drainRows b (s.stepNoOf x.entry) d x.keep x.runs
  let s1 := if d.tie = 0 then r.1
    else ((r.1.setFld (BLK_TIE_CFG_issued b d.tie) 0).noteTied x.entry d.tie).count (cntBlock b 40)
  match r.2 with
  | some j => (r.1.panParity b (d.panRow + j)).blockError b (some x.ctx) 2 (PAN_STATUS_parity_error b).cause
  | none => s1

/-- Whether a waiting drain's tie group has all its members (R114). -/
def State.drainDue (s : State) (b : Nat) (x : DrainWait) : Bool :=
  let t := (drainOp x.word).tie
  s.fld (BLK_TIE_CFG_issued b t) == s.fld (BLK_TIE_CFG_members b t)

/-- Drains whose tie group is complete take place, oldest first, and their LAUNCHes may end. -/
def State.runDrains' (s : State) (b : Nat) : Nat → State
  | 0 => s
  | fuel + 1 =>
    match (s.blk b).drains.find? (s.drainDue b) with
    | none => s
    | some x =>
      let s1 := s.setBlk b { s.blk b with drains := (s.blk b).drains.erase x }
      let s2 := (s1.doDrain b x).finishLaunch x.entry
      State.runDrains' (s2.serveWindow b (s2.blk b).winWait.length) b fuel

def State.runDrains (s : State) (b : Nat) : State := s.runDrains' b (s.blk b).drains.length

/-- PAN_DRAIN (R143 to R147): it latches its mask as it issues; with a tie group it waits in flight for the member count. -/
def drainAct (s : State) (l : Launch) (w : Nat) : State :=
  let b := l.block
  let d := drainOp w
  let k := s.deckle b d.deckle
  let x : DrainWait := ⟨l.ctx, l.entry, w, k.1, k.2⟩
  if d.tie ≠ 0 ∧ !s.drainDue b x then
    (s.setBlk b { s.blk b with drains := (s.blk b).drains ++ [x] }).advance l
  else
    let bad := (s.drainRows b l.stepNo d k.1 k.2).2
    if bad.isSome then (s.noteIssued l).doDrain b x else (s.doDrain b x).advance l

/-- PAN_DRAIN (R143, R102). -/
def execPanDrain (b : Fin 64) (c : Fin 4) (s : State) : Host.Outcome State Fault Refusal :=
  .next (s.issue b.val c.val opPanDrain drainLegal drainAct)

/-- PAN_LOAD and PAN_STORE are legal (R149). -/
def copyLegal (store : Bool) (_ : State) (_ : Launch) (w : Nat) : Bool :=
  let c := copyOp w
  iBits w 9 23 == 0 && !(store && bitOf w 8) && iBits w 44 4 == 0 && iBits w 60 4 == 0 && iBits w 95 33 == 0 &&
  decide (c.panRow + c.rows ≤ 4096) && inVat (c.vat + (c.rows - 1) * c.stride) 512 &&
  (iBits w 81 14 == 0 || decide (8 ≤ iBits w 81 14))

/-- Whether a raw word holds an infinity or a NaN in the width given (R161, R187). -/
def wordNonfinite (w16 : Bool) (bits : Nat) : Bool :=
  if w16 then !(Fmt.bf16.decode (halfOf bits 0)).isFin || !(Fmt.bf16.decode (halfOf bits 1)).isFin
  else !(Fmt.fp32.decode bits).isFin

/-- One row of PAN_LOAD (R149, R132, R161, R603). -/
def State.loadRow (s : State) (b : Nat) (c : CopyOp) (i : Nat) : State :=
  let row := c.panRow + i
  let ws := (List.range 128).map (fun n => s.vatLe b (c.vat + i * c.stride + 4 * n) 4)
  let s1 := forUpTo 128 (fun n t => t.setPanWord b row n ⟨ws.getD n 0, false, 0⟩) s
  s1.setPanRow b row { s1.panRow b row with
    w16 := c.w16, nonfinite := ws.any (wordNonfinite c.w16), overflow := false, inexact := false, unverified := false, cost := 0 }

/-- PAN_LOAD (R148, R149). -/
def loadAct (s : State) (l : Launch) (w : Nat) : State :=
  let c := copyOp w
  ((forUpTo c.rows (fun i t => t.loadRow l.block c i) s).count (cntBlock l.block 21) c.rows).countBytes
    (cntBlock l.block 37) (512 * c.rows) |>.advance l

def execPanLoad (b : Fin 64) (c : Fin 4) (s : State) : Host.Outcome State Fault Refusal :=
  .next (s.issue b.val c.val opPanLoad (copyLegal false) loadAct)

/-- One row of PAN_STORE (R149). -/
def State.storeRow (s : State) (b : Nat) (c : CopyOp) (i : Nat) : State :=
  s.setBytes (vatAt b + c.vat + i * c.stride)
    ((List.range 128).flatMap (fun n => leBytes 4 (s.panWord b (c.panRow + i) n).bits))

/-- PAN_STORE (R148, R149): a word of wrong parity raises a block error (R155). -/
def storeAct (s : State) (l : Launch) (w : Nat) : State :=
  let c := copyOp w
  let b := l.block
  let bad := (List.range c.rows).find? (fun j => s.rowBad b (c.panRow + j) 0 128)
  let n := bad.getD c.rows
  let s1 := ((forUpTo n (fun i t => t.storeRow b c i) s).count (cntBlock b 21) n).countBytes (cntBlock b 38) (512 * n)
  match bad with
  | some j => ((s1.noteIssued l).panParity b (c.panRow + j)).blockError b (some l.ctx) 2 (PAN_STATUS_parity_error b).cause
  | none => s1.advance l

def execPanStore (b : Fin 64) (c : Fin 4) (s : State) : Host.Outcome State Fault Refusal :=
  .next (s.issue b.val c.val opPanStore (copyLegal true) storeAct)

/-- PAN_WINDOW_READ (R152, R153, R155). -/
def execPanWindowRead (b : Fin 64) (off : BitVec 21) (len : Nat) (s : State) : Host.Outcome State Fault Refusal :=
  .next (if s.absent b.val || s.regionFenced (b.val / 16) || decide (panSize < off.toNat + len) then s.winRefuse b.val true
    else if len = 0 then s
    else s.winAccess b.val ⟨off.toNat, len, none, none⟩)

/-- PAN_WINDOW_WRITE (R153, R154). -/
def execPanWindowWrite (b : Fin 64) (off : BitVec 21) (data : List Byte) (s : State) : Host.Outcome State Fault Refusal :=
  .next (if s.absent b.val || s.regionFenced (b.val / 16) || decide (panSize < off.toNat + data.length) then s.winRefuse b.val false
    else if data.isEmpty then s
    else s.winAccess b.val ⟨off.toNat, data.length, some data, none⟩)

/-- PAN_WINDOW_TIMEOUT (R153, R158): the oldest waiting access, if its rows are still held, is made without them: words of held rows read as all
ones, and writes of them are discarded. -/
def execPanWindowTimeout (b : Fin 64) (s : State) : Host.Outcome State Fault Refusal :=
  .next (match (s.blk b.val).winWait with
    | [] => s
    | a :: rest =>
      let r := winRows a.off a.len
      if s.rowsHeld b.val r.1 r.2 then
        let s1 := s.setBlk b.val { s.blk b.val with winWait := rest }
        let s2 := (s1.setFlag (PAN_STATUS_window_timeout b.val)).bump (PAN_WINDOW_COUNT_timeouts b.val)
        match a.entry with
        | some e => s2.begun e 8
        | none => s2.winMake b.val a
      else s.serveWindow b.val (s.blk b.val).winWait.length)

/-- Debug mode ends: the block issues again (R156). -/
def State.debugOff (s : State) (b : Nat) : State :=
  ((s.setFld (PAN_DBG_CTL_debug b) 0).setFld (PAN_DBG_CTL_dbg_active b) 0).setBlk b { s.blk b with dbgPending := false }

/-! ### Maintenance mode (R30, R35) -/

/-- Whether every block is at an instruction boundary (R30): a replay or row test holds an instruction open. -/
def State.atBoundary (s : State) : Bool := (List.range 64).all (fun b => (s.blk b).replay.isNone && (s.blk b).rowTest.isNone)

/-- Whether a request for maintenance mode can take effect (R30): no context is frozen either. -/
def State.maintReady (s : State) : Bool := s.atBoundary && s.frozen.isEmpty

/-- Whether a condition of R30 other than maint_req keeps maintenance mode in effect: start-up, replay, or the repair rebuild. -/
def State.startingUp (s : State) : Bool := s.fld HUB_BOOT_STATUS_phase != 6 || s.flag RNG_JOURNAL_STATUS_replaying

/-- Show maintenance mode (R30): start-up, or a request that has taken effect and has not ended. Its end ends debug mode in every block (R156). -/
def State.showMaint (s : State) : State :=
  let on := s.startingUp || (s.flag HUB_MAINT_CTL_maint_req && !s.flag HUB_MAINT_CTL_maint_pending) || s.maintEnd
  let s1 := s.setFld HUB_MODULE_STATUS_maintenance_mode (b2n on)
  if on then s1 else forUpTo 64 (fun b t => if t.flag (PAN_DBG_CTL_debug b) then t.debugOff b else t) s1

/-- A requested mode that is to end does so at the next instruction boundary of every block (R30). -/
def State.settleMaint (s : State) : State := if s.maintEnd && s.atBoundary then State.showMaint { s with maintEnd := false } else s

/-- A write of maint_req (R30): 1 requests the mode and waits for its conditions; 0 ends a mode that is in effect at the next instruction boundary of
every block, and a request that still waits at once. -/
def State.maintWrite (s : State) (on : Bool) : State :=
  if on then
    if s.flag HUB_MAINT_CTL_maint_req then s
    else (s.setFld HUB_MAINT_CTL_maint_req 1).setFld HUB_MAINT_CTL_maint_pending 1
  else
    let inEffect := s.maintEnd || (s.flag HUB_MAINT_CTL_maint_req && !s.flag HUB_MAINT_CTL_maint_pending)
    let s1 := (s.setFld HUB_MAINT_CTL_maint_req 0).setFld HUB_MAINT_CTL_maint_pending 0
    (State.showMaint { s1 with maintEnd := inEffect }).settleMaint

/-! ### Debug mode (R156) -/

/-- PAN_DEBUG_REQUEST (R156): takes effect only in maintenance mode. -/
def execPanDebugRequest (b : Fin 64) (s : State) : Host.Outcome State Fault Refusal :=
  .next (if s.flag HUB_MODULE_STATUS_maintenance_mode then
      let s1 := s.setFld (PAN_DBG_CTL_debug b.val) 1
      if s.flag (PAN_DBG_CTL_dbg_active b.val) then s1 else s1.setBlk b.val { s1.blk b.val with dbgPending := true }
    else s)

/-- PAN_DEBUG_ENTER (R156): once the pan operations in flight have ended, a replay or a row test that is due among them. -/
def execPanDebugEnter (b : Fin 64) (s : State) : Host.Outcome State Fault Refusal :=
  .next (if (s.blk b.val).dbgPending ∧ s.flight b.val = [] then
      (s.setFld (PAN_DBG_CTL_dbg_active b.val) 1).setBlk b.val { s.blk b.val with dbgPending := false }
    else s)

/-- PAN_DEBUG_EXIT (R156): a write of 0 to debug, which is ignored outside maintenance mode (R160); the end of maintenance mode has
already ended debug mode there. -/
def execPanDebugExit (b : Fin 64) (s : State) : Host.Outcome State Fault Refusal :=
  .next (s.debugOff b.val)

/-- INJECT_PARITY (R160). -/
def execInjectParity (b : Fin 64) (s : State) : Host.Outcome State Fault Refusal :=
  .next (s.setFld (PAN_DBG_CTL_inject_parity b.val) 1)

/-- PAN_DBG_ELEM_WRITE (R157, R162, R187): ignored while dbg_active is 0; parity is recomputed, or inverted once where injected, and the row notes an
infinity or a NaN. -/
def execPanDbgElemWrite (b : Fin 64) (n : Fin 128) (v : Word) (s : State) : Host.Outcome State Fault Refusal :=
  .next (if s.flag (PAN_DBG_CTL_dbg_active b.val) then
      let row := s.fld (PAN_DBG_ROW_row b.val)
      let w := s.panWord b.val row n.val
      let r := s.panRow b.val row
      let s1 := s.setPanRow b.val row { r with nonfinite := r.nonfinite || wordNonfinite r.w16 v.toNat }
      (s1.setPanWord b.val row n.val ⟨v.toNat, s.flag (PAN_DBG_CTL_inject_parity b.val), w.guard⟩).setFld
        (PAN_DBG_CTL_inject_parity b.val) 0
    else s)

end Sys2Proof.Machine
end

