-- ==== Sys2Proof/Machine/Array.lean ====
section
/-! DEFINITION. The tensor array (03_tensor_array.md): ARR_STREAM, ARR_ELEM and STEP, the checks, replay, row test, repair and
re-initialisation, and context switches. -/

namespace Sys2Proof.Machine

/-- What a member of a tie group must meet: the count has not reached members (R114, R124). -/
def State.tieOpen (s : State) (b t : Nat) : Bool :=
  t == 0 || decide (s.fld (BLK_TIE_CFG_issued b t) < s.fld (BLK_TIE_CFG_members b t))

/-- ARR_STREAM is legal (R101, R114, R132). -/
def arrLegal (s : State) (l : Launch) (w : Nat) : Bool :=
  let i := arrOp w
  let eS := (arrFmt i.fmtS).bytes
  let eX := (arrFmt i.fmtX).bytes
  arrReserved w && eS == eX && (eS == 1 || i.fmtS == i.fmtX) && !(i.acc && i.fmtX == 1) && decide (i.panRow + i.rows ≤ 4096) &&
  (i.keep || inVat i.stat (128 * 128 * eS)) && strFits i.strT i.str i.stride eX i.m &&
  !(i.strT && decide (i.stride < i.m * eX)) &&
  !(i.keep && (SMap.find (s.blk l.block).tiles l.ctx).isNone) &&
  s.tieOpen l.block i.tie &&
  (i.clear || !s.tagDiffers l.block i.panRow i.rows i.acc)

/-- Element [k][n] of a kept stationary tile (R98). A tile that stat_keep keeps is read in the format and orientation in which it was loaded,
whatever the instruction names (DESIGN CHOICE, notes/assumptions/144.md). -/
def KeptTile.elem (t : KeptTile) (k n : Nat) : FVal :=
  let f := arrFmt t.fmt
  f.decode (sliceLe t.bytes ((if t.trans then n * 128 + k else k * 128 + n) * f.bytes) f.bytes)

/-- Element `k` of streamed row `m` (R99). -/
def State.strElem (s : State) (b : Nat) (i : ArrOp) (m k : Nat) : FVal :=
  let f := arrFmt i.fmtX
  f.decode (s.vatLe b (strOff i.strT i.str i.stride f.bytes m k) f.bytes)

/-- A running sum with its sticky flags and the value before its last rounding. -/
structure Acc where
  bits : Nat
  overflow : Bool
  inexact : Bool
  last : FVal
  deriving DecidableEq, Repr

/-- Round a value into a sum (R184): overflow counts a rounding of a finite value that gave an infinity. -/
def Acc.step (f : Fmt) (a : Acc) (v : FVal) : Acc :=
  let r := f.round .rne v
  ⟨r.bits, a.overflow || (v.isFin && r.overflow), a.inexact || r.inexact, v⟩

/-- The column sum of R184 over a list of products. -/
def colSum (f : Fmt) : List FVal → Acc
  | [] => ⟨0, false, false, .fin false 0 0⟩
  | p :: ps => ps.foldl (fun a q => a.step f ((f.decode a.bits).add q)) ((⟨0, false, false, p⟩ : Acc).step f p)

/-- An output before it is added into the pan (R184, R100). -/
def arrOut (f : Fmt) (ps : List FVal) (outExp : Int) : Acc :=
  let s := colSum f ps
  s.step f ((f.decode s.bits).scale outExp)

/-- Whether a pattern is finite. -/
def finBits (f : Fmt) (x : Nat) : Bool := (f.decode x).isFin

/-- The internal guard bits after writing one half or the word (R157). -/
def newGuard (acc : Bool) (h old g : Nat) : Nat :=
  if acc then
    putBits (putBits old h 1 (bitsOf g 0 1)) (2 + h) 1 (if g / 2 = 0 then 0 else 1)
  else g

/-- One output element written or added into a pan word (R100, R184), with the row flags it raises. -/
def State.panAccum (s : State) (b row col : Nat) (acc clear : Bool) (h : Nat) (o : Acc) : State :=
  let f := accFmt acc
  let w := s.panWord b row col
  let old := if acc then halfOf w.bits h else w.bits
  let a := if clear then o else o.step f ((f.decode old).add (f.decode o.bits))
  let bits := if acc then putHalf w.bits h a.bits else a.bits
  let s1 := s.setPanWord b row col ⟨bits, false, newGuard acc h w.guard (guardBits f a.last)⟩
  let r := s1.panRow b row
  s1.setPanRow b row { r with
    nonfinite := r.nonfinite || !finBits f a.bits, overflow := r.overflow || a.overflow, inexact := r.inexact || a.inexact }

/-- The fp32 sum of a list, in order (R105, R116). -/
def f32sum (l : List Nat) : Nat := l.foldl f32add 0

/-- fp32 pattern of a value. -/
def to32 (v : FVal) : Nat := Fmt.fp32.rne v

/-- The sums c[k] and a[k] of a stationary row over the used columns (R105). -/
def rowSum (t : KeptTile) (k n : Nat) : Nat := f32sum ((List.range n).map (fun j => to32 (t.elem k j)))
def rowAbs (t : KeptTile) (k n : Nat) : Nat := f32sum ((List.range n).map (fun j => to32 (t.elem k j).abs))

/-- The sums of a streamed row that the checks compare (R105, R116), in fp32: C_m, B_m and D_m. Products are rounded to fp32 and added in ascending
order from +0; the manual gives no order (DESIGN CHOICE, notes/assumptions/145.md). -/
structure RowSums where
  c : Nat
  b : Nat
  d : Nat
  deriving DecidableEq, Repr

/-- The sums of a streamed row `x` with data outputs `outs` before they are rounded for the pan. -/
def rowSums (x : List FVal) (t : KeptTile) (n : Nat) (outs : List Nat) (acc : Bool) : RowSums :=
  let ks := List.range x.length
  { c := f32sum (ks.map (fun k => f32mul (to32 (x.getD k .nan)) (rowSum t k n)))
    b := f32sum (ks.map (fun k => f32mul (to32 (x.getD k .nan).abs) (rowAbs t k n)))
    d := f32sum (outs.map (fun o => to32 ((accFmt acc).decode o))) }

/-- Whether a row is compared at all (R117). -/
def RowSums.compared (r : RowSums) : Bool := f32finite r.d && f32finite r.c && f32finite r.b

/-- D_m − C_m (R162). -/
def RowSums.residue (r : RowSums) : Nat := f32sub r.d r.c

/-- A tolerance of R116 for a sum of magnitudes: 2^(p − q) of it plus 2^(−126), with q = 24 or 8. -/
def tolerance (p : Int) (acc : Bool) (b : Nat) : Nat :=
  to32 (((Fmt.fp32.decode b).scale (p - (if acc then 8 else 24))).add (.fin false 1 (-126)))

/-- Whether two sums differ by more than a tolerance. -/
def apart (x y tol : Nat) : Bool := (Fmt.fp32.decode tol).lt (Fmt.fp32.decode (f32sub x y)).abs

/-- The column check of a row fails (R116, R117). -/
def RowSums.fails (r : RowSums) (acc : Bool) : Bool := r.compared && apart r.d r.c (tolerance 8 acc r.b)

/-- The used elements of streamed row `m`, its products with column `n`, and its sums (R99, R184). -/
def State.strRow (s : State) (b : Nat) (i : ArrOp) (m : Nat) : List FVal := (List.range i.k).map (s.strElem b i m)
def prods (x : List FVal) (t : KeptTile) (n : Nat) : List FVal := (List.range x.length).map (fun k => (x.getD k .nan).mul (t.elem k n))
def State.sumsOf (s : State) (b : Nat) (i : ArrOp) (t : KeptTile) (m : Nat) : RowSums :=
  let x := s.strRow b i m
  rowSums x t i.n ((List.range i.n).map (fun n => (colSum (accFmt i.acc) (prods x t n)).bits)) i.acc

/-- The row check of a group of streamed rows fails (R116): the sum of C_m and s · c differ by more than its tolerance. Sums that are not finite are
not compared. -/
def State.groupFails (s : State) (b : Nat) (i : ArrOp) (t : KeptTile) (ms : List Nat) : Bool :=
  let rs := ms.map (s.sumsOf b i t)
  let sk := fun k => f32sum (ms.map (fun m => to32 (s.strElem b i m k)))
  let sc := f32sum ((List.range i.k).map (fun k => f32mul (sk k) (rowSum t k i.n)))
  let c := f32sum (rs.map (·.c))
  let bs := f32sum (rs.map (·.b))
  f32finite c && f32finite bs && f32finite sc && apart c sc (tolerance 9 i.acc bs)

/-- How the checks of the group of rows [lo, hi) end (R116 to R118): none fails, or the row at which one does; a row check decides at the last row.
`upset` is a fault of the datapath, which a check sees where it compares the row. -/
def State.groupEnd (s : State) (b : Nat) (i : ArrOp) (t : KeptTile) (upset : ArrUpset) (lo hi : Nat) : Option Nat :=
  let ms := (List.range (hi - lo)).map (fun j => lo + j)
  let col := ms.find? (fun m => let r := s.sumsOf b i t m; r.fails i.acc || (upset == .column m && r.compared))
  match col with
  | some m => some m
  | none => if upset == .group (lo / 128) || s.groupFails b i t ms then some (hi - 1) else none

/-- The first group from row `lo` on whose checks fail (R118, R119): its first row, and the row at which they do. -/
def State.checksFail (s : State) (b : Nat) (i : ArrOp) (t : KeptTile) (upset : ArrUpset) (lo : Nat) : Option (Nat × Nat) :=
  ((List.range (ceilDiv i.m 128)).filter (fun g => decide (lo < 128 * (g + 1)))).findSome? (fun g =>
    let a := max lo (128 * g)
    (s.groupEnd b i t upset a (min i.m (128 * (g + 1)))).map (fun m => (a, m)))

/-- Rows of [lo, hi) that are not compared are counted (R117). -/
def State.countSkips (s : State) (b : Nat) (i : ArrOp) (t : KeptTile) (lo hi : Nat) : State :=
  let n := ((List.range (hi - lo)).filter (fun j => !(s.sumsOf b i t (lo + j)).compared)).length
  if n = 0 then s
  else ((s.bump (BLK_ABFT_COUNT_nonfinite_skipped b) n).setFlag (BLK_ABFT_STATUS_nonfinite_skip b)).count (cntBlock b 42) n

/-- One streamed row of an ARR_STREAM (R100, R184): its outputs, the row's tag, flags, cost, and for a verified one its residue and
bound (R161, R162, R117). -/
def State.arrRow (s : State) (b : Nat) (i : ArrOp) (t : KeptTile) (verified : Bool) (m : Nat) : State :=
  let f := accFmt i.acc
  let row := i.panRow + (if i.acc then m / 2 else m)
  let h := if i.acc then m % 2 else 0
  let x := s.strRow b i m
  let r0 := s.panRow b row
  let fresh := i.clear && h == 0
  let r1 : PanRow := if fresh then { r0 with nonfinite := false, overflow := false, inexact := false, w16 := i.acc } else r0
  let chk := s.sumsOf b i t m
  let cost := 4 / i.rate
  let r2 : PanRow := { r1 with
    unverified := !verified
    residue := if verified then chk.residue else r1.residue
    bound := if verified then tolerance 8 i.acc chk.b else r1.bound
    cost := (if fresh then 0 else r1.cost) + cost }
  let s1 := s.setPanRow b row r2
  let s2 := forUpTo i.n (fun n st => st.panAccum b row n i.acc i.clear h (arrOut f (prods x t n) i.outExp)) s1
  if verified then s2.countSkips b i t m (m + 1) else s2

/-- Streamed rows [lo, hi) in order. -/
def State.arrRows (s : State) (b : Nat) (i : ArrOp) (t : KeptTile) (verified : Bool) (lo hi : Nat) : State :=
  forUpTo (hi - lo) (fun j st => st.arrRow b i t verified (lo + j)) s

/-- The first streamed row in [lo, hi) whose addition reads a pan word with wrong parity (R155). -/
def State.firstBad (s : State) (b : Nat) (i : ArrOp) (lo hi : Nat) : Option Nat :=
  if i.clear then none
  else ((List.range (hi - lo)).map (fun j => lo + j)).find?
    (fun m => s.rowBad b (i.panRow + (if i.acc then m / 2 else m)) 0 i.n)

/-- A sampled row rounded to bf16 (R223). -/
def State.sampleRow (s : State) (b : Nat) (i : ArrOp) (m : Nat) : List Nat :=
  (List.range 128).map (fun k => if k < i.k then Fmt.bf16.rne (s.strElem b i m k) else 0)

/-- Stat-pan word (i, j) of a slot (R228). -/
def statKey (b slot i j : Nat) : Nat := ((b * 16 + slot) * 128 + i) * 128 + j
def State.statWord (s : State) (b slot i j : Nat) : Nat := SMap.get (fun _ => 0) s.stat (statKey b slot i j)
def State.setStat (s : State) (b slot i j v : Nat) : State :=
  { s with stat := SMap.set (fun _ => 0) s.stat (statKey b slot i j) v }

/-- A slot is cleared (R220): every word +0, its sample count 0. -/
def State.clearSlot (s : State) (b slot : Nat) : State :=
  ({ s with stat := SMap.clearRange s.stat (statKey b slot 0 0) 16384 }).setFld (GRM_SLOT_samples b slot) 0

/-- The Gram unit adds the upper triangle of one sampled row into its slot (R224, R228). -/
def State.addSample (s : State) (b : Nat) (x : Sample) : State :=
  let s1 := if x.clear then s.clearSlot b x.slot else s
  let s2 := forUpTo 128 (fun i st => forUpTo (128 - i) (fun d st' =>
      let j := i + d
      st'.setStat b x.slot i j (Fmt.fp32.rne ((Fmt.fp32.decode (st'.statWord b x.slot i j)).add
        ((Fmt.bf16.decode (x.row.getD i 0)).mul (Fmt.bf16.decode (x.row.getD j 0)))))) st) s1
  (s2.bump (GRM_SLOT_samples b x.slot)).count (cntBlock b 26)

/-- The Gram unit takes the oldest waiting row (R226). -/
def State.takeSample (s : State) (b : Nat) : State :=
  match (s.blk b).samples with
  | [] => s
  | x :: xs => (s.setBlk b { s.blk b with samples := xs }).addSample b x

/-- A sampled row enters the queue, which holds 32: with 32 waiting the Gram unit has taken the oldest by then (R226). -/
def State.queueSample (s : State) (b : Nat) (x : Sample) : State :=
  let s1 := if 32 ≤ (s.blk b).samples.length then s.takeSample b else s
  s1.setBlk b { s1.blk b with samples := (s1.blk b).samples ++ [x] }

/-- Issue ac that R226 withholds over the samples of one instruction: `us` are the unhindered issue ac; `hist` holds the Gram starts so far, newest
first. -/
def withheldAc (g : Nat) : List Nat → List Nat → Nat → Nat
  | [], _, delay => delay
  | u :: us, hist, delay =>
    let free := hist.getD 31 0
    let a := max (u + delay) free
    let start := match hist with
      | [] => a
      | p :: _ => max a (p + g)
    withheldAc g us (start :: hist) (a - u)

/-- The Gram starts of the `n` rows that wait as an instruction begins, newest first: the unit takes the first at once and one every `g` ac
(DESIGN CHOICE, notes/assumptions/148.md). -/
def waitingStarts (g n : Nat) : List Nat := ((List.range n).map (fun i => g * i)).reverse

/-- The armed tap acts on an ARR_STREAM (R220 to R223, R226): samples are queued and, with keep, written to the panel. A tap with clear that samples
no row clears its slot all the same, after the rows that wait (R220, notes/assumptions/148.md). -/
def State.runTap (s : State) (b c : Nat) (i : ArrOp) : State :=
  match SMap.find (s.blk b).taps c with
  | none => s
  | some t =>
    let rows := tapRows t i.m
    let s1 := s.setBlk b { s.blk b with taps := SMap.erase (s.blk b).taps c }
    let codes := rows.map (s.sampleRow b i)
    let s2 := if t.keep then s1.setBytes (vatAt b + t.keepAddr) (codes.flatMap (fun r => r.flatMap (leBytes 2))) else s1
    let s3 := forUpTo rows.length (fun j st => st.queueSample b ⟨t.slot, t.clear && j == 0, codes.getD j []⟩) s2
    let g := if 64 < i.k then 3 else 1
    let stall := withheldAc g (rows.map (fun m => m / i.rate)) (waitingStarts g (s.blk b).samples.length) 0
    let s4 := if t.clear && rows.isEmpty then (forUpTo (s3.blk b).samples.length (fun _ st => st.takeSample b) s3).clearSlot b t.slot else s3
    ((s4.setFlagIf (stall != 0) (GRM_STATUS_withheld b)).bump (GRM_STALL_COUNT_stall_count b) stall).count (cntBlock b 27) stall
      |>.count (cntBlock b 0) stall |>.count (cntBlock b 10) (4 * stall)

/-- A member of a tie group is counted as it issues (R114); a drain that waits for the count then reads. -/
def State.tieMember (s : State) (l : Launch) (i : ArrOp) : State :=
  let b := l.block
  if i.tie = 0 then s
  else
    let s1 := (s.wrapBump (BLK_TIE_CFG_issued b i.tie)).noteTied l.entry i.tie
    (s1.setBlk b { s1.blk b with tieRows := SMap.insert (s1.blk b).tieRows i.tie (i.panRow, i.rows) }).runDrains b

/-- Whether this ARR_STREAM is verified (R123). -/
def State.verifies (s : State) (b : Nat) : Bool := !s.flag (BLK_ABFT_CTL_sample b) || (s.blk b).verifyCount % 16 == 0

/-- A failed check of row `m` (R118, R119, R603): counted, with the rows behind it as discarded, and the instruction waits for its replay from the
start of the failing group. -/
def State.mismatch (s : State) (b : Nat) (i : ArrOp) (m : Nat) : State :=
  (((s.setFlag (BLK_ABFT_STATUS_mismatch b)).bump (BLK_ABFT_COUNT_mismatch_count b)).count (cntBlock b 18)).count (cntBlock b 3)
    (4 / i.rate * (i.m - (m + 1)))

/-- Stream rows [lo, M) of an instruction: a wrong pan parity raises a block error (R155), a failed check leaves the rows from its group
on for a replay, and otherwise the instruction is done. The whole of a failing group stays unwritten, after a column check as after a row check
(DESIGN CHOICE, notes/assumptions/146.md). `fail` says what a failed check leads to. -/
def State.stream (s : State) (l : Launch) (i : ArrOp) (t : KeptTile) (verified : Bool) (lo : Nat) (upset : ArrUpset)
    (fail : State → Nat → State) (done : State → State) : State :=
  let b := l.block
  let stop := if verified then s.checksFail b i t upset lo else none
  let hi := match stop with
    | some x => x.1
    | none => i.m
  match s.firstBad b i lo hi with
  | some m =>
    let row := i.panRow + (if i.acc then m / 2 else m)
    (((s.arrRows b i t verified lo m).noteIssued l).panParity b row).blockError b (some l.ctx) 2 (PAN_STATUS_parity_error b).cause
  | none =>
    let s1 := s.arrRows b i t verified lo hi
    match stop with
    | some x => fail ((s1.countSkips b i t x.1 (x.2 + 1)).mismatch b i x.2) x.1
    | none => done s1

/-- Issue ac in which streamed rows issue: cycles, the retired class and the context's retired issue (R601, R602). -/
def State.retire (s : State) (b c ac : Nat) : State :=
  ((s.count (cntBlock b 0) ac).count (cntBlock b 1) (4 * ac)).count (cntBlock b (11 + c)) (4 * ac)

/-- ARR_STREAM (R97 to R100, R184): load or keep the tile, sample for the tap, stream the rows. -/
def State.arrAct (upset : ArrUpset) (s : State) (l : Launch) (w : Nat) : State :=
  let i := arrOp w
  let b := l.block
  let f := arrFmt i.fmtS
  let s0 := if i.keep then s
    else (s.setBlk b { s.blk b with
      tiles := SMap.insert (s.blk b).tiles l.ctx ⟨i.fmtS, i.statT, s.vatSlice b i.stat (16384 * f.bytes)⟩ }).count (cntBlock b 16)
  let t := (SMap.find (s0.blk b).tiles l.ctx).getD KeptTile.none
  let verified := s0.verifies b
  let s1 := s0.setBlk b { s0.blk b with verifyCount := (s0.blk b).verifyCount + 1 }
  let s2 := (((s1.runTap b l.ctx i).tieMember l i).count (cntBlock b 45)).count (cntBlock b 15) i.m
  let s3 := s2.retire b l.ctx (ceilDiv i.m i.rate)
  s3.stream l i t verified 0 upset
    (fun st g => st.setBlk b { st.blk b with replay := some ⟨l.ctx, l.entry, w, g, i.m⟩ })
    (fun st => st.advance l)

/-- ARR_STREAM (R97, R101, R102). -/
def execArrStream (b : Fin 64) (c : Fin 4) (upset : ArrUpset) (s : State) : Host.Outcome State Fault Refusal :=
  .next (s.issue b.val c.val opArrStream arrLegal (State.arrAct upset))

/-- An instruction in flight of block `b` has ended: window accesses that waited for its rows proceed (R153), and so does an end of maintenance mode
(R30). -/
def State.released (s : State) (b : Nat) : State := (s.serveWindow b (s.blk b).winWait.length).settleMaint

/-- INSTRUCTION_REPLAY (R119): the rows from the failing group on are streamed again, verified; a second mismatch leads to the row test
(R120); without one the fault is settled at the cell level (R535, R544). -/
def execInstructionReplay (b : Fin 64) (upset : ArrUpset) (s : State) : Host.Outcome State Fault Refusal :=
  .next (match (s.blk b.val).replay with
    | none => s
    | some r =>
      if s.regionFenced (b.val / 16) then s
      else
        match s.launches.find? (fun l => l.entry == r.entry) with
        | none => s.setBlk b.val { s.blk b.val with replay := none }
        | some l =>
          let i := arrOp r.word
          let t := (SMap.find (s.blk b.val).tiles r.ctx).getD KeptTile.none
          let s1 := (s.setBlk b.val { s.blk b.val with replay := none }).setLaunch { l with replayed := true }
          let s2 := (((s1.setFlag (BLK_ABFT_STATUS_replayed b.val)).bump (BLK_ABFT_COUNT_replay_count b.val)).count
            (cntBlock b.val 19)).retire b.val r.ctx (ceilDiv (i.m - r.fromRow) i.rate)
          (s2.stream l i t true r.fromRow upset
            (fun st _ => st.setBlk b.val { st.blk b.val with rowTest := some r })
            (fun st => (st.error (st.blockRec 1 0 1 b.val 0xFFFF (BLK_ABFT_STATUS_mismatch b.val).cause (some l))).advance l)).released b.val)

/-- ROW_TEST (R120): one physical row explains the discrepancies and a spare row remains: it is quarantined, the block is to
re-initialise and the program step re-runs. Otherwise a block error is raised. last_row names the row, or none (R127). In a fenced region the fence
acts (R124). -/
def execRowTest (b : Fin 64) (row : Option (Fin 132)) (s : State) : Host.Outcome State Fault Refusal :=
  .next (match (s.blk b.val).rowTest with
    | none => s
    | some r =>
      let l := s.launches.find? (fun l => l.entry == r.entry)
      let s0 := (s.setBlk b.val { s.blk b.val with rowTest := none }).count (cntBlock b.val 41)
      let s1 := (match l with
        | some x => s0.noteIssued x
        | none => s0).setFld (BLK_ABFT_STATUS_last_row b.val) (match row with
          | some f => f.val
          | none => 0xFF)
      let p := s.phys b.val
      let q := s.quarOf p
      let failed := (s1.setFlag (BLK_ABFT_STATUS_block_error b.val)).blockError b.val (some r.ctx) 1 (BLK_ABFT_STATUS_block_error b.val).cause
      if s.regionFenced (b.val / 16) then s
      else
        (match row with
          | some f =>
            if q.length < 3 ∧ f.val ∉ q then
              let s2 := { s1 with
                quarRows := SMap.set qDefault s1.quarRows p ((q ++ [f.val]).mergeSort (· ≤ ·))
                repairPend := true }
              let s3 := s2.setFlag (BLK_ABFT_STATUS_row_quarantined b.val)
              let s4 := s3.setBlk b.val { s3.blk b.val with reinit := true }
              let s5 := s4.error (s4.blockRec 1 1 1 b.val f.val (BLK_ABFT_STATUS_row_quarantined b.val).cause l)
              match l with
              | some x => s5.rerunStep x false
              | none => s5
            else failed
          | none => failed).released b.val)

/-- BLOCK_REINIT (R108, R203): skew, row map and latency follow the repair map; planes are lost, pan rows are not (R133), and the count
of R123 and the kept tiles start again. -/
def execBlockReinit (b : Fin 64) (s : State) : Host.Outcome State Fault Refusal :=
  .next (if (s.blk b.val).reinit then
      let s1 := s.setBlk b.val { s.blk b.val with reinit := false, tiles := [], verifyCount := 0, planes := [] }
      forUpTo 2 (fun p t => (t.setFld (BLK_FAB_PLANE_valid b.val p) 0).setFld (BLK_FAB_PLANE_image_id b.val p) 0)
        (s1.programRows b.val)
    else s)

/-- ARR_ELEM's fields of R115: operation code and whether its unused bits are 0. -/
def elemReserved (w : Nat) : Bool := iBits w 10 6 == 0 && iBits w 19 21 == 0 && iBits w 112 16 == 0

/-- ARR_ELEM is legal (R115, R132). -/
def elemLegal (s : State) (l : Launch) (w : Nat) : Bool :=
  let i := arrOp w
  let e := (arrFmt i.fmtS).bytes
  let op := iBits w 16 3
  elemReserved w && decide (op ≤ 4) && decide (i.panRow + i.m ≤ 4096) &&
  strFits false i.str i.stride e i.m && strFits false i.stat i.stride e i.m &&
  (op != 2 || !s.tagDiffers l.block i.panRow i.m false)

/-- One element of ARR_ELEM (R115): the value before rounding. -/
def elemValue (op : Nat) (a b pan : FVal) : FVal :=
  if op = 0 then a.add b else if op = 1 then a.mul b else if op = 2 then (a.mul b).add pan
  else if op = 3 then a.max b else a.min b

/-- One row of ARR_ELEM: 128 fp32 results into a pan row; the row becomes fp32 wide (R132) and counts as not verified. -/
def State.elemRow (s : State) (b : Nat) (i : ArrOp) (op m : Nat) : State :=
  let f := arrFmt i.fmtS
  let row := i.panRow + m
  let r := s.panRow b row
  let s1 := s.setPanRow b row { r with w16 := false, unverified := true, cost := (if op = 2 then r.cost else 0) + 4 }
  forUpTo 128 (fun n st =>
    let rd := fun base => f.decode (st.vatLe b (strOff false base i.stride f.bytes m n) f.bytes)
    let v := elemValue op (rd i.str) (rd i.stat) (Fmt.fp32.decode (st.panWord b row n).bits)
    st.panAccum b row n false true 0 ((⟨0, false, false, v⟩ : Acc).step Fmt.fp32 v)) s1

/-- ARR_ELEM (R115). Operation 0b010 reads the pan words it adds to (R155). -/
def elemAct (s : State) (l : Launch) (w : Nat) : State :=
  let i := arrOp w
  let b := l.block
  let op := iBits w 16 3
  let bad := if op = 2 then (List.range i.m).find? (fun m => s.rowBad b (i.panRow + m) 0 128) else none
  let s1 := (s.retire b l.ctx i.m).count (cntBlock b 17) i.m
  match bad with
  | some m => (((forUpTo m (fun j st => st.elemRow b i op j) s1).noteIssued l).panParity b (i.panRow + m)).blockError b (some l.ctx) 2
      (PAN_STATUS_parity_error b).cause
  | none => (forUpTo i.m (fun j st => st.elemRow b i op j) s1).advance l

/-- ARR_ELEM (R115, R102). -/
def execArrElem (b : Fin 64) (c : Fin 4) (s : State) : Host.Outcome State Fault Refusal :=
  .next (s.issue b.val c.val opArrElem elemLegal elemAct)

/-- STEP (R121): the next program step begins after it. The manual gives STEP
no opcode: the next instruction is taken to be one when its opcode is none of those given (notes/assumptions/10.md). -/
def execStep (b : Fin 64) (c : Fin 4) (s : State) : Host.Outcome State Fault Refusal :=
  .next (let s := s.fed b.val
    match s.nextInstr b.val c.val with
    | none => s
    | some (l, w) =>
      if iBits w 0 8 ∈ opcodes then s
      else (s.setLaunch { l with stepPc := l.pc + 1, ties := s.tieCounts b.val, tied := [] }).advance l)

/-- CONTEXT_SWITCH (R17, R18): the block turns to the context that is to issue next; the instruction before it has issued its last
row, since a command acts whole. A replay that is due does not stop the switch: it comes before the next instruction of the context that then runs
(R124). -/
def execContextSwitch (b : Fin 64) (c : Fin 4) (s : State) : Host.Outcome State Fault Refusal :=
  .next (if s.arbiter b.val == some c.val && (s.blk b.val).current != c.val && !s.blockStopped b.val && (s.blk b.val).rowTest.isNone &&
      !(s.blk b.val).reinit then
      (s.setBlk b.val { s.blk b.val with current := c.val }).count (cntBlock b.val 39)
    else s)

end Sys2Proof.Machine
end

