-- ==== Sys2Proof/Machine/Hash.lean ====
section
/-! DEFINITION. CRC-32C (R493) and SHA3-256 (R593, R594; FIPS 202). -/

namespace Sys2Proof.Machine

/-- One bit of the reflected CRC-32C division, polynomial 0x1EDC_6F41 (R493). -/
def crcBit (c : Word) : Word := if c &&& 1#32 = 1#32 then (c >>> 1) ^^^ 0x82F63B78#32 else c >>> 1

/-- One byte into the CRC register. -/
def crcByte (c : Word) (b : Byte) : Word :=
  crcBit (crcBit (crcBit (crcBit (crcBit (crcBit (crcBit (crcBit (c ^^^ b.setWidth 32))))))))

/-- CRC-32C of a byte string (R493). -/
def crc32c (bs : List Byte) : Word := (bs.foldl crcByte 0xFFFFFFFF#32) ^^^ 0xFFFFFFFF#32

/-- One step of the register that gives the round-constant bits (FIPS 202, rc): x⁸ + x⁶ + x⁵ + x⁴ + 1. -/
def rcStep (r : Byte) : Byte := if r.msb then (r <<< 1) ^^^ 0x71#8 else r <<< 1

/-- A round constant (FIPS 202, ι): the next seven bits of the register go to the places 2^j − 1. -/
def roundConst : Nat → Nat → Byte → DWord → DWord × Byte
  | 0, _, r, acc => (acc, r)
  | k + 1, j, r, acc => roundConst k (j + 1) (rcStep r) (acc ||| (if r.getLsbD 0 then 1#64 <<< (2 ^ j - 1) else 0#64))

/-- θ (FIPS 202): each lane takes in the parities of two columns. -/
def theta (a : List DWord) : List DWord :=
  let col := (List.range 5).map (fun x => ((List.range 5).map (fun y => a.getD (5 * y + x) 0)).foldl (· ^^^ ·) 0)
  a.zipIdx.map (fun l => l.1 ^^^ col.getD ((l.2 + 4) % 5) 0 ^^^ (col.getD ((l.2 + 1) % 5) 0).rotateLeft 1)

/-- ρ and π (FIPS 202), along the walk (x, y) → (y, 2x + 3y) that ρ's offsets (t + 1)(t + 2) / 2 follow: each lane is rotated and put where
the walk goes next. -/
def rhoPi (a : List DWord) : Nat → Nat → Nat → Nat → List DWord → List DWord
  | 0, _, _, _, out => out
  | k + 1, t, x, y, out =>
    let y' := (2 * x + 3 * y) % 5
    rhoPi a k (t + 1) y y' (out.set (5 * y' + y) ((a.getD (5 * y + x) 0).rotateLeft ((t + 1) * (t + 2) / 2 % 64)))

/-- χ on one row (FIPS 202). -/
def chiRow (r : List DWord) : List DWord :=
  List.zipWith (fun p qs => p ^^^ (~~~qs.1 &&& qs.2)) r (List.zip (r.rotateLeft 1) (r.rotateLeft 2))

/-- `n` rounds of Keccak-f[1600]. -/
def keccakRounds : Nat → Byte → List DWord → List DWord
  | 0, _, a => a
  | n + 1, r, a =>
    let rc := roundConst 7 0 r 0
    let m := rhoPi (theta a) 24 0 1 0 (theta a)
    let c := (List.range 5).flatMap (fun y => chiRow ((m.drop (5 * y)).take 5))
    keccakRounds n rc.2 (c.modify 0 (fun v => v ^^^ rc.1))

/-- The padded message of SHA3-256: domain bits 01, pad10*1 to a multiple of 136 bytes. -/
def sha3Pad (m : List Byte) : List Byte :=
  match 135 - m.length % 136 with
  | 0 => m ++ [0x86#8]
  | k + 1 => m ++ 0x06#8 :: padTo k [] ++ [0x80#8]

/-- A block of 136 bytes enters the state. -/
def sha3Absorb (a : List DWord) (block : List Byte) : List DWord :=
  keccakRounds 24 1#8 (a.zipIdx.map (fun l => if l.2 < 17 then l.1 ^^^ BitVec.ofNat 64 (leAt block (8 * l.2) 8) else l.1))

/-- SHA3-256 of a byte string. -/
def sha3 (m : List Byte) : List Byte :=
  let p := sha3Pad m
  let a := (chunksOf 136 (p.length / 136) p).foldl sha3Absorb (List.replicate 25 0)
  ((a.take 4).flatMap (fun x => leBytes 8 x.toNat))

end Sys2Proof.Machine
end

