-- ==== Sys2Proof/Machine/Fabric.lean ====
section
/-! DEFINITION. The element fabric and the privileged lanes (06_element_fabric.md): FAB_CFG, FAB_RUN, FAB_LANE and the plane scan. -/

namespace Sys2Proof.Machine

/-! ### Configuration images (R200 to R203) -/

/-- Header fields of an image (R200). -/
def imgId (g : List Byte) : Nat := leAt g 0 2
def imgLaneRead (g : List Byte) : Bool := bitOf (leAt g 3 1) 0
def imgLaneReduce (g : List Byte) : Bool := bitOf (leAt g 3 1) 1
def imgSR (g : List Byte) : Bool := bitOf (leAt g 3 1) 2
def imgIns (g : List Byte) : Nat := leAt g 4 1
def imgOuts (g : List Byte) : Nat := leAt g 5 1
def imgWeight (g : List Byte) : Nat := leAt g 6 1

/-- The check of R202: CRC, header fields against R200, and the weight of the body's operations. -/
def imageOk (g : List Byte) : Bool :=
  leAt g 2 1 == 1 && bitsOf (leAt g 3 1) 3 5 == 0 && decide (imgIns g ≤ 3) && decide (imgOuts g ≤ 2) &&
  decide (1 ≤ imgWeight g) && decide (imgWeight g ≤ 32) && decide (4 ≤ leAt g 7 1) && decide (leAt g 7 1 ≤ 64) &&
  leAt g 8 4 == 24576 && leAt g 16 48 == 0 &&
  (crc32c (g.take 12 ++ [0, 0, 0, 0] ++ g.drop 16)).toNat == leAt g 12 4 &&
  Config.imageWeightOk (g.drop 64) (imgWeight g)

/-- FAB_CFG's fields (R201): plane and vat offset of the image; reserved bits are 0 and the image lies in the vat. -/
def cfgLegal (_ : State) (_ : Launch) (w : Nat) : Bool :=
  iBits w 9 23 == 0 && iBits w 49 79 == 0 && inVat (iBits w 32 17 * 64) imageSize

/-- FAB_CFG (R201, R202): a good image is loaded; a bad one leaves the plane invalid, sets bad_image and makes the FAB_CFG illegal. -/
def cfgAct (s : State) (l : Launch) (w : Nat) : State :=
  let b := l.block
  let p := iBits w 8 1
  let g := s.bytes (vatAt b + iBits w 32 17 * 64) imageSize
  let s0 := s.countBytes (cntBlock b 37) imageSize
  if imageOk g then
    ((s0.setBlk b { s0.blk b with planes := SMap.insert (s0.blk b).planes p g }).setFld (BLK_FAB_PLANE_image_id b p)
      (imgId g)).setFld (BLK_FAB_PLANE_valid b p) 1 |>.fabEnd l
  else
    ((s0.setBlk b { s0.blk b with planes := SMap.erase (s0.blk b).planes p }).setFld (BLK_FAB_PLANE_valid b p) 0).setFlag
      (BLK_FAB_STATUS_bad_image b) |>.endLaunch l [.faultFailed] .illegalInstruction

/-- FAB_CFG (R201, R102). -/
def execFabCfg (b : Fin 64) (c : Fin 4) (s : State) : Host.Outcome State Fault Refusal :=
  .next (s.fabIssue b.val c.val opFabCfg cfgLegal cfgAct)

/-! ### Runs (R204 to R212) -/

/-- A stream lies in the vat, its base is aligned, its format is one of R205, and it does not overlap the run record (R205, R208). -/
def FabStream.ok (x : FabStream) (o : FabOp) : Bool :=
  !x.used || (decide (x.fmt ≤ 4) && x.base % 64 == 0 && inVat x.base (x.span o.rows o.len) &&
    (decide (x.base + x.span o.rows o.len ≤ o.recAt) || decide (o.recAt + 64 ≤ x.base)))

/-- The image of a plane, if it is valid. -/
def State.image (s : State) (b p : Nat) : Option (List Byte) := SMap.find (s.blk b).planes p

def fabReserved (s : State) (b w : Nat) : Bool :=
  let r := s.bytes (vatAt b + iBits w 48 17 * 64) 64
  iBits w 15 1 == 0 && iBits w 28 4 == 0 && iBits w 65 63 == 0 && leAt r 45 3 == 0 && leAt r 51 5 == 0 && leAt r 62 2 == 0

/-- FAB_RUN is legal (R208). -/
def runLegal (s : State) (l : Launch) (w : Nat) : Bool :=
  let o := fabOp s l.block w
  match s.image l.block o.plane with
  | none => false
  | some g =>
    let ins := (o.streams.take 3).filter FabStream.used
    let outs := (o.streams.drop 3).filter FabStream.used
    fabReserved s l.block w && inVat o.recAt 64 && decide (o.rows * o.len ≤ 1048576) && ins.length == imgIns g && outs.length == imgOuts g &&
    outs.all (fun x => x.stride != 0) && o.mode != 3 && (o.mode == 0 || imgLaneReduce g) &&
    (!(imgLaneRead g || imgLaneReduce g) || decide (o.reg + ceilDiv o.rows 64 ≤ 16)) && o.streams.all (fun x => x.ok o)

/-- Lane register `r` of lane `l` (R209). -/
def laneKey (b c r l : Nat) : Nat := ((b * 4 + c) * 16 + r) * 64 + l
def State.laneReg (s : State) (b c r l : Nat) : Nat := SMap.get (fun _ => 0) s.lanes (laneKey b c r l)
def State.setLane (s : State) (b c r l v : Nat) : State :=
  { s with lanes := SMap.set (fun _ => 0) s.lanes (laneKey b c r l) v }

/-- Elements of row `i` of a stream (R206). -/
def State.fabRow (s : State) (b : Nat) (x : FabStream) (i len : Nat) : List Nat :=
  (List.range len).map (fun k => s.vatLe b (x.base + i * x.stride + k * (fabFmt x.fmt).bytes) (fabFmt x.fmt).bytes)

/-- The SR word of element k of row i (R206), or 0 where the image does not use SR. -/
def fabWord (s : State) (l : Launch) (g : List Byte) (o : FabOp) (i k : Nat) : Nat :=
  if imgSR g then srWord s.cfg.seed l.stepNo o.tensor 4 (o.index + i * o.len + k) else 0

/-- How a run rounds (R198): by the SR word of the element where the image uses SR, else RNE. -/
def fabMode (s : State) (l : Launch) (g : List Byte) (o : FabOp) (i k : Nat) : Mode :=
  if imgSR g then .sr (fabWord s l g o i k) else .rne

/-- The result of one element (R198, R204, R211), as an fp32 pattern. -/
def fabResult (s : State) (l : Launch) (g : List Byte) (o : FabOp) (i k which : Nat) : Nat :=
  let ins := (o.streams.take 3).filter FabStream.used
  let lane := if imgLaneRead g then s.laneReg l.block l.ctx (o.reg + i / 64) (i % 64) else 0
  (Config.fabricElem (g.drop 64) (ins.map (fun x => (x.fmt, s.fabRow l.block x i o.len))) lane (fabWord s l g o i k) k which).toNat

/-- The lane sum of row `i` (R210): ascending k, each addition rounded under R198. -/
def laneSum (s : State) (l : Launch) (g : List Byte) (o : FabOp) (i : Nat) : Nat :=
  let add := fun (acc : Nat) (k : Nat) =>
    (Fmt.fp32.round (fabMode s l g o i k) ((Fmt.fp32.decode acc).add (Fmt.fp32.decode (fabResult s l g o i k 2)))).bits
  if o.mode = 2 then (List.range o.len).foldl add (s.laneReg l.block l.ctx (o.reg + i / 64) (i % 64))
  else ((List.range o.len).drop 1).foldl add (fabResult s l g o i 0 2)

/-- An output element converted to the format of its stream (R166, R198): its bytes, and whether an fp8 conversion saturated. -/
def fabOut (s : State) (l : Launch) (g : List Byte) (o : FabOp) (i k q : Nat) (x : FabStream) : List Byte × Bool :=
  let f := fabFmt x.fmt
  let v := Fmt.fp32.decode (fabResult s l g o i k q)
  let r := f.round (fabMode s l g o i k) v
  (leBytes f.bytes r.bits, f.bytes == 1 && v.isFin && r.overflow)

/-- Row `i` of output stream `q` of a run is written (R204, R206); saturated fp8 conversions are counted (R601). -/
def State.fabOutRow (s : State) (l : Launch) (g : List Byte) (o : FabOp) (i q : Nat) (x : FabStream) : State :=
  let es := (List.range o.len).map (fun k => fabOut s l g o i k q x)
  (s.setBytes (vatAt l.block + x.base + i * x.stride) (es.flatMap (·.1))).count (cntBlock l.block 36) (es.filter (·.2)).length

/-- The outputs of the first `n` rows of a run, row by row. -/
def State.fabRows (s : State) (l : Launch) (g : List Byte) (o : FabOp) (n : Nat) : State :=
  let outs := (o.streams.drop 3).filter FabStream.used
  forUpTo n (fun i t => forUpTo outs.length (fun q t' => t'.fabOutRow l g o i q (outs.getD q ⟨0, 0, 0⟩)) t) s

/-- What a run writes: its outputs row by row, and, held apart until its end, its lane results (R204, R210, R212). -/
def State.fabDo (s : State) (l : Launch) (g : List Byte) (o : FabOp) : State :=
  let s1 := s.fabRows l g o o.rows
  if o.mode = 0 then s1
  else forUpTo o.rows (fun i t => t.setLane l.block l.ctx (o.reg + i / 64) (i % 64) (laneSum s l g o i)) s1

/-- Whether a run is replayable: no output range overlaps an input range (R217). -/
def FabOp.replayable (o : FabOp) : Bool :=
  let ins := (o.streams.take 3).filter FabStream.used
  let outs := (o.streams.drop 3).filter FabStream.used
  outs.all (fun x => ins.all (fun y =>
    decide (x.base + x.span o.rows o.len ≤ y.base) || decide (y.base + y.span o.rows o.len ≤ x.base)))

/-- Elements per ac of a run without lane reduction (R199). -/
def fabRate (g : List Byte) (o : FabOp) : Nat :=
  let bin := (((o.streams.take 3).filter FabStream.used).map (fun x => (fabFmt x.fmt).bytes)).sum
  let bout := (((o.streams.drop 3).filter FabStream.used).map (fun x => (fabFmt x.fmt).bytes)).sum
  let r0 := min 256 (2048 / imgWeight g)
  let r1 := if bin = 0 then r0 else min r0 (768 / bin)
  if bout = 0 then r1 else min r1 (512 / bout)

/-- Issue ac of a run (R207). -/
def fabAc (g : List Byte) (o : FabOp) : Nat :=
  let r := fabRate g o
  if o.mode = 0 then ceilDiv (o.rows * o.len) r
  else ceilDiv o.rows 64 * max o.len (ceilDiv (min o.rows 64 * o.len) r)

/-- A parity fault of the fabric is flagged and counted (R217, R219). -/
def State.fabParity (s : State) (b : Nat) : State :=
  ((s.setFlag (BLK_FAB_STATUS_parity_error b)).bump (BLK_FAB_COUNT_parity_count b)).count (cntBlock b 43)

/-- A plane is lost (R217). -/
def State.losePlane (s : State) (b p : Nat) : State :=
  (s.setBlk b { s.blk b with planes := SMap.erase (s.blk b).planes p }).setFld (BLK_FAB_PLANE_valid b p) 0

/-- The run is done (R204), counted. -/
def State.fabDone (s : State) (l : Launch) (g : List Byte) (o : FabOp) : State :=
  (((s.fabDo l g o).count (cntBlock l.block 23) (fabAc g o)).count (cntBlock l.block 24) (o.rows * o.len)).fabEnd l

/-- A replay of a run begins (R217). -/
def State.fabReplay (s : State) (l : Launch) : State :=
  (((s.setFlag (BLK_FAB_STATUS_replayed l.block)).bump (BLK_FAB_COUNT_replay_count l.block)).count (cntBlock l.block 25)).setLaunch
    { l with replayed := true }

/-- A faulted run is replayed when it is replayable, else its program step re-runs (R217); the fault is recorded (R544). -/
def State.fabAgain (s0 : State) (l : Launch) (g : List Byte) (o : FabOp) : State :=
  let s := s0.error (s0.blockRec 1 1 3 l.block 0xFFFF (BLK_FAB_STATUS_parity_error l.block).cause (some l))
  if o.replayable then (s.fabReplay l).fabDone l g o else s.rerunStep l false

/-- A fabric instruction of `l` raises a block error (R217, R22). -/
def State.fabError (s : State) (l : Launch) : State :=
  s.blockError l.block (some l.ctx) 3 (BLK_FAB_STATUS_parity_error l.block).cause

/-- FAB_RUN (R204) with the fault that upsets it, if any (R217). A second datapath fault is a block error, whether the run was replayed in between or
its step is to run again. -/
def runAct (upset : FabUpset) (s : State) (l : Launch) (w : Nat) : State :=
  let b := l.block
  let o := fabOp s b w
  let g := (s.image b o.plane).getD []
  match upset with
  | .none => s.fabDone l g o
  | .datapath => (s.fabParity b).fabAgain l g o
  | .datapathTwice =>
    let s1 := if o.replayable then (s.fabParity b).fabReplay l else s.fabParity b
    (s1.fabParity b).fabError l
  | .plane => ((s.fabParity b).setFlag (BLK_FAB_STATUS_plane_restored b)).fabAgain l g o
  | .fatal => ((s.fabParity b).losePlane b o.plane).fabError l
  | .lane => (s.fabParity b).fabError l

/-- FAB_RUN (R204, R102). -/
def execFabRun (b : Fin 64) (c : Fin 4) (upset : FabUpset) (s : State) : Host.Outcome State Fault Refusal :=
  .next (s.fabIssue b.val c.val opFabRun runLegal (runAct upset))

/-- A fence of the region while a run executes (R218): lane results are not written, and vat outputs are left incomplete: rows of some number, a free
value, have been written. -/
def State.cutRun (s : State) (b : Nat) : State :=
  match (s.blk b).fabQ with
  | [] => s
  | j :: _ =>
    match s.launches.find? (fun x => x.entry == j.entry) with
    | none => s
    | some l =>
      if iBits j.word 0 8 = opFabRun ∧ runLegal s l j.word ∧ !s.fabWaits b j then
        let o := fabOp s b j.word
        let n := s.takeFree 12
        n.2.fabRows l ((s.image b o.plane).getD []) o (min n.1 o.rows)
      else s

/-! ### Lane operations (R213) -/

/-- The correctly rounded reciprocal square root (R198): NaN for negatives, an infinity of the sign for a zero. -/
def FVal.rsqrt : FVal → FVal
  | .nan => .nan
  | .inf neg => if neg then .nan else .fin false 0 0
  | .fin neg m e =>
    if m = 0 then .inf neg
    else if neg then .nan
    else
      let m' := if e % 2 = 0 then m else 2 * m
      let e' := if e % 2 = 0 then e else e - 1
      let k := 128 + 2 * (Nat.log2 m' + 1)
      let q := 2 ^ k / m'
      let r := isqrt q
      let sticky := if r * r = q ∧ 2 ^ k % m' = 0 then 0 else 1
      .fin false (2 * r + sticky) (-(k / 2 : Int) - e' / 2 - 1)

/-- FAB_LANE is legal (R213, R102): a known op, the registers that it uses up to 15, reserved bits 0, a load or store within the
vat. -/
def laneLegal (_ : State) (_ : Launch) (w : Nat) : Bool :=
  let o := laneOp w
  iBits w 24 8 == 0 && iBits w 81 47 == 0 && decide (o.op ≤ 9) && decide (o.dst + o.count ≤ 16) &&
  (if o.op < 8 then decide (o.src + o.count ≤ 16) else inVat o.vat (o.count * 256))

/-- The result of a lane operation (R213): `d` and `a` are the old destination and the source. -/
def laneResult (op imm d a : Nat) : Nat :=
  let v := Fmt.fp32.decode
  if op = 0 then f32mul a imm
  else if op = 1 then f32add a imm
  else if op = 2 then Fmt.fp32.rne (FVal.rsqrt (v a))
  else if op = 3 then Fmt.fp32.rne ((v f32one).div (v a))
  else if op = 4 then Fmt.fp32.rne (v a).exp2
  else if op = 5 then Fmt.fp32.rne (v a).log2
  else if op = 6 then Fmt.fp32.rne ((v d).max (v a))
  else f32add d a

/-- FAB_LANE (R213): every lane of the context; sources are read before results are written. A lane register of wrong parity is a block error and
nothing is written (R217). -/
def laneAct (parity : Bool) (s : State) (l : Launch) (w : Nat) : State :=
  if parity then (s.fabParity l.block).fabError l else
  let o := laneOp w
  let b := l.block
  let c := l.ctx
  let at' := fun (j ln : Nat) => vatAt b + o.vat + j * 256 + ln * 4
  let s1 :=
    if o.op = 9 then forUpTo o.count (fun j t => forUpTo 64 (fun ln t' => t'.setBytes (at' j ln) (leBytes 4 (s.laneReg b c (o.dst + j) ln))) t) s
    else forUpTo o.count (fun j t => forUpTo 64 (fun ln t' => t'.setLane b c (o.dst + j) ln
      (if o.op = 8 then s.le (at' j ln) 4
       else laneResult o.op o.imm (s.laneReg b c (o.dst + j) ln) (s.laneReg b c (o.src + j) ln))) t) s
  (s1.count (cntBlock b 23) (o.count + 8)).fabEnd l

/-- FAB_LANE (R213, R102). -/
def execFabLane (b : Fin 64) (c : LaneIssue) (s : State) : Host.Outcome State Fault Refusal :=
  .next (s.fabIssue b.val c.ctx.val opFabLane laneLegal (laneAct c.parity))

/-- PLANE_SCAN (R217): a faulty plane is rewritten from its shadow; one whose shadow cannot restore it is lost and raises a block error
outside any instruction (R22). -/
def execPlaneScan (b : Fin 64) (bad : Option (Fin 2)) (restorable : Bool) (s : State) : Host.Outcome State Fault Refusal :=
  .next (match bad with
    | none => s
    | some p =>
      if s.absent b.val || s.regionFenced (b.val / 16) || (s.image b.val p.val).isNone then s
      else if restorable then ((s.fabParity b.val).setFlag (BLK_FAB_STATUS_plane_restored b.val)).error
        (s.blockRec 0 1 3 b.val 0xFFFF (BLK_FAB_STATUS_plane_restored b.val).cause none)
      else ((s.fabParity b.val).losePlane b.val p.val).blockError b.val none 3 (BLK_FAB_STATUS_parity_error b.val).cause)

end Sys2Proof.Machine
end

