-- ==== Sys2Proof/Machine/Gram.lean ====
section
/-! DEFINITION. The Gram unit (07_curvature_statistics.md R220 to R232): GRM_TAP, the sample queue, GRM_DRAIN. -/

namespace Sys2Proof.Machine

/-- The next ARR_STREAM of a program at or after instruction `pc` (R220, R222); `fuel` bounds the search. -/
def State.nextStream (s : State) (l : Launch) (pc : Nat) : Nat → Option ArrOp
  | 0 => none
  | fuel + 1 =>
    if pc < l.len then
      let w := s.le (l.addr + 16 * pc) 16
      if iBits w 0 8 = opArrStream then some (arrOp w) else State.nextStream s l (pc + 1) fuel
    else none

/-- GRM_TAP is legal (R222). -/
def tapLegal (s : State) (l : Launch) (w : Nat) : Bool :=
  let t := tapOp w
  let nx := s.nextStream l (l.pc + 1) (l.len - l.pc)
  iBits w 10 6 == 0 && iBits w 81 47 == 0 && decide (t.phase < t.interval) &&
  (match nx with | some i => !i.strT | none => true) &&
  (!t.keep || (match nx with | some i => inVat t.keepAddr ((tapRows t i.m).length * 256) | none => inVat t.keepAddr 0))

/-- GRM_TAP (R220): arms the tap of its context; a tap still armed is replaced and counted (R222). -/
def tapAct (s : State) (l : Launch) (w : Nat) : State :=
  let b := l.block
  let had := (SMap.find (s.blk b).taps l.ctx).isSome
  let s1 := s.setBlk b { s.blk b with taps := SMap.insert (s.blk b).taps l.ctx (tapOp w) }
  let s2 := if had then (s1.setFlag (GRM_STATUS_tap_dropped b)).bump (GRM_EVENT_COUNT_dropped_taps b) else s1
  s2.advance l

/-- GRM_TAP (R220, R102). -/
def execGrmTap (b : Fin 64) (c : Fin 4) (s : State) : Host.Outcome State Fault Refusal :=
  .next (s.issue b.val c.val opGrmTap tapLegal tapAct)

/-- A stat-pan parity or residue error is flagged and counted (R232, R245). -/
def State.gramParity (s : State) (b : Nat) : State :=
  ((s.setFlag (GRM_STATUS_parity_error b)).bump (GRM_EVENT_COUNT_parity_count b)).count (cntBlock b 43)

/-- GRAM_ROW_START (R224, R226): the Gram unit takes the oldest waiting row; a wrong word raises a block error (R232). -/
def execGramRowStart (b : Fin 64) (parity : Bool) (s : State) : Host.Outcome State Fault Refusal :=
  .next (if s.absent b.val || s.regionFenced (b.val / 16) || (s.blk b.val).samples.isEmpty then s
    else if parity then (s.gramParity b.val).blockError b.val none 4 (GRM_STATUS_parity_error b.val).cause
    else s.takeSample b.val)

/-- GRM_DRAIN is legal (R229). -/
def gdrainLegal (_ : State) (_ : Launch) (w : Nat) : Bool :=
  iBits w 12 20 == 0 && iBits w 49 79 == 0 && inVat (iBits w 32 17 * 64) 65536

/-- GRM_DRAIN (R229, R230): rows of earlier taps are added first; then the slot is copied, and stays as it is. -/
def gdrainAct (parity : Bool) (s : State) (l : Launch) (w : Nat) : State :=
  let b := l.block
  let slot := iBits w 8 4
  let s1 := forUpTo (s.blk b).samples.length (fun _ t => t.takeSample b) s
  if parity then ((s1.gramParity b).noteIssued l).blockError b (some l.ctx) 4 (GRM_STATUS_parity_error b).cause
  else
    let data := (List.range 16384).flatMap (fun k => leBytes 4 (s1.statWord b slot (k / 128) (k % 128)))
    ((s1.setBytes (vatAt b + iBits w 32 17 * 64) data).countBytes (cntBlock b 38) 65536).advance l

/-- GRM_DRAIN (R229, R102). -/
def execGrmDrain (b : Fin 64) (c : Fin 4) (parity : Bool) (s : State) : Host.Outcome State Fault Refusal :=
  .next (s.issue b.val c.val opGrmDrain gdrainLegal (gdrainAct parity))

end Sys2Proof.Machine
end

