-- ==== Sys2Proof/Machine/Bus.lean ====
section
/-! DEFINITION. What a read of a register shows, and accesses to local addresses by the module's own units and by other modules
(16_memory.md R509 to R521, 22_module_interface.md R634). -/

namespace Sys2Proof.Machine

/-! ### What a register read shows (R10, R634) -/

/-- Journal entries of ring `r` that are not retired (R454, R484). -/
def State.ringEntries (s : State) (r : Nat) : List Nat := (s.journal.filter (fun p => p.2.ring == r)).map (·.1)

/-- Whether a record is owed to completion ring `r` (R454): an accepted descriptor of a ring bound to it has no written record. -/
def State.owed (s : State) (r : Nat) : Bool :=
  s.doneQ.any (fun d => s.fld (RNG_CFG_cq_index (s.jget d.entry).ring) == r) ||
  s.journal.any (fun p => decide (p.2.state < 3) && s.fld (RNG_CFG_cq_index p.2.ring) == r)

/-- The idle bit of ring `r` (R484). -/
def State.ringIdle (s : State) (r : Nat) : Bool :=
  if s.flag (RNG_CFG_cq r) then !s.owed r else (s.ringEntries r).isEmpty

/-- Size and index modulus of ring `r` (R449). -/
def State.ringSize (s : State) (r : Nat) : Nat := 2 ^ s.fld (RNG_CFG_log2_size r)
def State.ringMod (s : State) (r : Nat) : Nat := 2 ^ (s.fld (RNG_CFG_log2_size r) + 1)

/-- Accepted descriptors that owe completion ring `q` a record that is not written (R452). -/
def State.owedCount (s : State) (q : Nat) : Nat :=
  (s.journal.filter (fun p => s.fld (RNG_CFG_cq_index p.2.ring) == q &&
    (decide (p.2.state < 3) || s.doneQ.any (fun d => d.entry == p.1)))).length

/-- Free records of completion ring `q` (R452). -/
def State.freeRecords (s : State) (q : Nat) : Nat :=
  s.ringSize q - subMod (s.fld (RNG_HEAD_head q)) (s.fld (RNG_TAIL_tail q)) (s.ringMod q)

/-- Entries of a journal mirror (R485). -/
def journalSize : Nat := 1048576

/-- Why acceptance on ring `r` waits (R484): replay, a journal mirror (R25), a full journal (R474), or, with descriptors pending, the records of its
completion ring (R452); 0 where it does not. -/
def State.pauseReason (s : State) (r : Nat) : Nat :=
  let q := s.fld (RNG_CFG_cq_index r)
  if !s.flag (RNG_CFG_enable r) || s.flag (RNG_CFG_cq r) then 0
  else if s.flag RNG_JOURNAL_STATUS_replaying then 4
  else if s.flag HUB_MODULE_STATUS_acceptance_paused then 3
  else if journalSize ≤ s.journal.length then 2
  else if !s.flag (RNG_STATUS_refused r) && s.fld (RNG_HEAD_head r) != s.fld (RNG_TAIL_tail r) && decide (s.freeRecords q ≤ s.owedCount q) then 1
  else 0

/-- Seconds left of a trial (R583): the timer runs in state 4 only. -/
def State.trialLeft (s : State) : Nat :=
  if s.fld HUB_FW_STATUS_state = 4 then s.fld HUB_FW_TRIAL_remaining_s - (s.tide.ns - s.trialAt) / 1000000000
  else s.fld HUB_FW_TRIAL_remaining_s

/-- The parity of a word as stored (R157): even parity over its 32 bits, inverted where the parity is wrong (DESIGN CHOICE, notes/assumptions/143.md). -/
def PanWord.parity (w : PanWord) : Nat := (((List.range 32).filter (fun i => bitOf w.bits i)).length + b2n w.bad) % 2

/-- The nibble of a word in PAN_DBG_GUARDk (R157): guard, round, sticky and parity, or in 16-bit width the two guard bits, the sticky bit of either
half and parity. -/
def guardNibble (w16 : Bool) (w : PanWord) : Nat :=
  (if w16 then w.guard % 4 + 4 * b2n (bitOf w.guard 2 || bitOf w.guard 3) else w.guard % 8) + 8 * w.parity

/-- Bits of the register at `a` that the state shows elsewhere than in the register file, as (field, value) pairs. -/
def State.shown (s : State) (a : Nat) : List (Fld × Nat) :=
  if a = TID_NOW_LO then [(TID_NOW_LO_tide_lo, s.tide.ns % 2 ^ 32)]
  else if a = SYN_EVT_COUNT then
    let off := s.fld SYN_EVT_SEL_offset * 4
    let bit := s.fld SYN_EVT_SEL_bit
    [(SYN_EVT_COUNT_count, SMap.get (fun _ => 0) s.evt (off * 32 + bit)),
     (SYN_EVT_COUNT_valid, b2n ((fieldsAt off).any (fun f => f.acc == .w1c && f.lo == bit)))]
  else if 0x400000 ≤ a ∧ a < 0x800000 ∧ a % 0x40 = 0x20 then
    let r := (a - 0x400000) / 0x40
    [(RNG_STATUS_idle r, b2n (s.ringIdle r)), (RNG_STATUS_in_flight r, min 65535 (s.ringEntries r).length)] ++
    (if s.pauseReason r = 0 then [] else [(RNG_STATUS_paused r, 1), (RNG_STATUS_pause_reason r, s.pauseReason r)])
  else if a = HUB_FW_TRIAL then [(HUB_FW_TRIAL_remaining_s, s.trialLeft)]
  else if a = CNT_STATUS then
    [(CNT_STATUS_any_overflow, b2n ((List.range 4096).any (fun k => s.flag (CNT_VALUE_HI_overflow k))))]
  else if 0xC10000 ≤ a ∧ a < 0xC18000 then
    let k := (a - 0xC10000) / 8
    let v := SMap.get (fun _ => 0) s.cnt k
    if a % 8 = 0 then [(CNT_VALUE_LO_value_lo k, v % 2 ^ 32)] else [(CNT_VALUE_HI_value_hi k, v / 2 ^ 32)]
  else if 0x1000000 ≤ a ∧ a < 0x2000000 ∧ 0x100000 ≤ a % 0x400000 ∧ a % 0x400000 < 0x200000 then
    let b := (a - 0x1000000) / 0x400000 * 16 + (a % 0x400000 - 0x100000) / 0x10000
    let u := s.blk b
    if a = PAN_STATUS b then [(PAN_STATUS_in_flight b, min 16 (s.flight b).length)]
    else if a = GRM_STATUS b then
      [(GRM_STATUS_busy b, b2n !u.samples.isEmpty), (GRM_STATUS_tap_armed b, b2n !u.taps.isEmpty),
       (GRM_STATUS_queue_level b, min 32 u.samples.length)]
    else if a = BLK_FAB_STATUS b then
      let q := ((s.fed b).blk b).fabQ
      [(BLK_FAB_STATUS_busy b, b2n !q.isEmpty), (BLK_FAB_STATUS_queued b, q.length)]
    else if a = BLK_FAB_PLANE b 0 ∨ a = BLK_FAB_PLANE b 1 then
      (List.range 2).map (fun p => (BLK_FAB_PLANE_loading b p, b2n (match ((s.fed b).blk b).fabQ with
        | j :: _ => iBits j.word 0 8 == opFabCfg && iBits j.word 8 1 == p
        | [] => false)))
    else if a % 0x10000 < 0x508 ∨ 0x900 ≤ a % 0x10000 then []
    else if s.flag (PAN_DBG_CTL_dbg_active b) then
      let row := s.fld (PAN_DBG_ROW_row b)
      let r := s.panRow b row
      [(PAN_DBG_FLAGS_nonfinite b, b2n r.nonfinite), (PAN_DBG_FLAGS_overflow b, b2n r.overflow),
       (PAN_DBG_FLAGS_inexact b, b2n r.inexact), (PAN_DBG_FLAGS_parity_error b, b2n r.parityErr),
       (PAN_DBG_FLAGS_unverified b, b2n r.unverified), (PAN_DBG_FLAGS_width16 b, b2n r.w16),
       (PAN_DBG_RESIDUE_residue b, r.residue), (PAN_DBG_BOUND_bound b, r.bound)] ++
      (List.range 128).map (fun i => (PAN_DBG_ELEM_word b i, (s.panWord b row i).bits)) ++
      (List.range 16).map (fun k => (PAN_DBG_GUARD_guard b k,
        leNat ((List.range 4).map (fun j =>
          BitVec.ofNat 8 (guardNibble r.w16 (s.panWord b row (8 * k + 2 * j)) + 16 * guardNibble r.w16 (s.panWord b row (8 * k + 2 * j + 1)))))))
    else []
  else []

/-- The base of the BAR4 window, the bits below its size taken as 0 (R485, R517). -/
def State.windowBase (s : State) : Nat :=
  (s.fld RNG_WINDOW_BASE_LO_base_lo + s.fld RNG_WINDOW_BASE_HI_base_hi * 2 ^ 32) / 2 ^ s.barLog * 2 ^ s.barLog

/-- The word that a read of the register at `a` returns. -/
def State.view (s : State) (a : Nat) : Word :=
  if a = RNG_WINDOW_BASE_LO then BitVec.ofNat 32 (s.windowBase % 2 ^ 32)
  else if a = RNG_WINDOW_BASE_HI then BitVec.ofNat 32 (s.windowBase / 2 ^ 32)
  else
    BitVec.ofNat 32 (((s.shown a).filter (fun p => p.1.addr == a)).foldl
      (fun v p => putBits v p.1.lo p.1.width p.2) (s.reg a).toNat)

/-- A field as a read shows it. -/
def State.viewFld (s : State) (f : Fld) : Nat := bitsOf (s.view f.addr).toNat f.lo f.width

/-- A read of the register at `a`: TID_NOW_LO latches the upper half of the tide (R42). -/
def State.readReg (s : State) (a : Nat) : Word × State :=
  (s.view a, if a = TID_NOW_LO then s.setFld TID_NOW_HI_tide_hi (s.tide.ns / 2 ^ 32) else s)

/-! ### Accesses to local addresses -/

/-- How an access ends (R512): done, failed for poison or an unmapped address, or failed at a fenced region. -/
inductive AccEnd where
  | ok
  | fault
  | fenced
  deriving DecidableEq, Repr

/-- The worse end of two. -/
def AccEnd.join : AccEnd → AccEnd → AccEnd
  | .fenced, _ => .fenced
  | _, .fenced => .fenced
  | .fault, _ => .fault
  | _, .fault => .fault
  | _, _ => .ok

/-- The error code of an access that failed (R512, R520). -/
def AccEnd.err : AccEnd → ErrCode
  | .ok => .none
  | .fault => .memoryFault
  | .fenced => .regionFenced

/-- Who makes an access: a unit of the module with the source code of R638, or another module. -/
inductive Who where
  | unit (code : Nat)
  | remote
  deriving DecidableEq, Repr

/-- An access to an address that is unmapped or closed is counted (R512). -/
def State.unmapped (s : State) : State := (s.setFlag HUB_ADDR_STATUS_unmapped).bump HUB_ADDR_COUNT_unmapped_accesses

/-- How the place at `a` answers: present and open, closed with its region, or unmapped (R23, R510). -/
def State.openAt (s : State) (a : Nat) : AccEnd :=
  match (placeOf a).1 with
  | .hbm => if s.regionFenced (hbmRegion a) then .fenced else .ok
  | .vat b _ | .pan b _ => if s.absent b then .fault else if s.regionFenced (b / 16) then .fenced else .ok
  | .harvest u _ => if s.regionFenced (u / 6) then .fenced else .ok
  | .counter _ _ => .ok
  | .mirror _ => .ok
  | .unmapped => .fault

/-- A counter access of a form that R418 does not allow is discarded and counted. -/
def State.counterDiscard (s : State) (n : Nat) : State := s.syncDrop (homeOf n)

/-- A read of one piece that lies in one place: bytes, end, state (R418, R510, R512, R513, R520). -/
def State.readPiece (s : State) (who : Who) (a n : Nat) : List Byte × AccEnd × State :=
  match s.openAt a with
  | .ok =>
    match (placeOf a).1 with
    | .hbm =>
      let bad := s.anyPoison a n
      (s.bytes a n, if bad then .fault else .ok, s.noteHbmRead a n)
    | .vat b _ => (s.bytes a n, .ok, (s.countBytes (cntBlock b 37) n).countBytes (cntRegion (b / 16) 0) n)
    | .pan b off =>
      let x := s.winRead b off n
      (x.1, if x.2.1 then .fault else .ok, x.2.2.countBytes (cntRegion (b / 16) 0) n)
    | .harvest u _ => (s.bytes a n, .ok, s.countBytes (cntRegion (u / 6) 0) n)
    | .counter i off =>
      if s.regionFenced (homeOf i) then (List.replicate n 0#8, .fenced, s.unmapped)
      else if off = 0 ∧ n = 4 then (leBytes 4 (s.counter i).value.toNat, .ok, s)
      else (List.replicate n 0#8, .fault, s.counterDiscard i)
    | .mirror r =>
      if who = .remote then (List.replicate n 0#8, .fault, s.unmapped.setFlag HUB_ADDR_STATUS_remote_mirror)
      else if r % 4 = 0 ∧ n = 4 then
        let x := s.readReg r
        (leBytes 4 x.1.toNat, .ok, x.2)
      else (List.replicate n 0xFF#8, .ok, s.bump HUB_ADDR_COUNT_unmapped_accesses)
    | .unmapped => (List.replicate n 0#8, .fault, s.unmapped)
  | e => (List.replicate n 0#8, e, s.unmapped)

/-- A write of one piece that lies in one place (R418, R510, R512, R513, R521). `wr` is the register write of the mirror. -/
def State.writePiece (s : State) (wr : State → Nat → Word → State) (who : Who) (a : Nat) (bs : List Byte) : AccEnd × State :=
  match s.openAt a with
  | .ok =>
    match (placeOf a).1 with
    | .hbm => (.ok, s.writeHbm a bs (bs.length + 1))
    | .vat b _ => (.ok, ((s.setBytes a bs).countBytes (cntBlock b 38) bs.length).countBytes (cntRegion (b / 16) 1) bs.length)
    | .pan b off => (.ok, (s.winWrite b off bs).countBytes (cntRegion (b / 16) 1) bs.length)
    | .harvest _ _ => (.ok, s)
    | .counter i off =>
      let code := match who with
        | .unit c => c
        | .remote => srcOther 2
      if bs.length = 4 ∧ (off = 0 ∨ off = 4) then
        (.ok, s.toHome ⟨i, if off = 0 then 1 else 0, leNat bs, ⟨s.chip, code⟩, none⟩)
      else (.ok, s.counterDiscard i)
    | .mirror r =>
      if who = .remote then (.fault, s.unmapped.setFlag HUB_ADDR_STATUS_remote_mirror)
      else if r % 4 = 0 ∧ bs.length = 4 then (.ok, wr s r (BitVec.ofNat 32 (leNat bs)))
      else (.ok, s.bump HUB_ADDR_COUNT_unmapped_accesses)
    | .unmapped => (.fault, s.unmapped)
  | e => (e, s.unmapped)

/-- Bytes from `a` to the end of the piece that one access makes there: a counter address and a register are accessed each by itself, all
else as far as the place goes. -/
def pieceLen (a n : Nat) : Nat :=
  match (placeOf a).1 with
  | .counter _ off => if off < 4 then min n (if n = 8 then 8 else 4 - off) else min n (8 - off)
  | .mirror r => min n (4 - r % 4)
  | _ => min n (placeOf a).2

/-- A read of [a, a + n), piece by piece; `fuel` bounds the pieces. -/
def State.busRead (s : State) (who : Who) (a n : Nat) : Nat → List Byte × AccEnd × State
  | 0 => ([], .ok, s)
  | fuel + 1 =>
    if n = 0 then ([], .ok, s)
    else
      let k := max 1 (pieceLen a n)
      let x := s.readPiece who a k
      let y := State.busRead x.2.2 who (a + k) (n - k) fuel
      (x.1 ++ y.1, x.2.1.join y.2.1, y.2.2)

/-- A write at `a`, piece by piece; `fuel` bounds the pieces. -/
def State.busWrite (s : State) (wr : State → Nat → Word → State) (who : Who) (a : Nat) (bs : List Byte) : Nat → AccEnd × State
  | 0 => (.ok, s)
  | fuel + 1 =>
    if bs.isEmpty then (.ok, s)
    else
      let k := max 1 (pieceLen a bs.length)
      let x := s.writePiece wr who a (bs.take k)
      let y := State.busWrite x.2 wr who (a + k) (bs.drop k) fuel
      (x.1.join y.1, y.2)

/-- A register write that a unit other than a COPY never makes: landed cells and results do not reach the mirror (R513). -/
def noMirror (s : State) (_ : Nat) (_ : Word) : State := s

/-- A unit's read of [a, a + n). -/
def State.load (s : State) (who : Who) (a n : Nat) : List Byte × AccEnd × State := s.busRead who a n (n + 1)

/-- A unit's write to memory. -/
def State.store (s : State) (who : Who) (a : Nat) (bs : List Byte) : AccEnd × State := s.busWrite noMirror who a bs (bs.length + 1)

end Sys2Proof.Machine
end

