-- ==== Sys2Proof/Machine/Groups.lean ====
section
/-! DEFINITION. Staging in commit groups (10_update_engine.md R339 to R347): what a member of a group and a failed member do to it. Opening,
committing and resolving groups are in Machine/Commit.lean. -/

namespace Sys2Proof.Machine

/-! ### Pending swaps of a port's directions (R77, R78, R94) -/

def State.swapOf (s : State) (p : Nat) (rx : Bool) : Option Nat := if rx then (s.port p).rxSwap else (s.port p).txSwap
def State.stagedOf (s : State) (p : Nat) (rx : Bool) : Option Nat := if rx then (s.port p).rxStaged else (s.port p).txStaged

/-- Write a port back and show whether a swap of it is pending: an armed one, or a table that a commit group has staged. -/
def State.showSwap (s : State) (p : Nat) (u : PortUnit) : State :=
  (s.setPort p u).setFld (WEB_PORT_STATUS_swap_pending p)
    (b2n (u.txSwap.isSome || u.rxSwap.isSome || u.txStaged.isSome || u.rxStaged.isSome))

/-- Give a direction its pending swap, or none. -/
def State.setSwap (s : State) (p : Nat) (rx : Bool) (t : Option Nat) : State :=
  s.showSwap p (if rx then { s.port p with rxSwap := t } else { s.port p with txSwap := t })

/-- Note the WEB_TABLE of a commit group that has staged a table for a direction, or none. -/
def State.setStaged (s : State) (p : Nat) (rx : Bool) (e : Option Nat) : State :=
  s.showSwap p (if rx then { s.port p with rxStaged := e } else { s.port p with txStaged := e })

/-- Entry `e` has no staged table any more. -/
def State.unstage (s : State) (e : Nat) : State :=
  forUpTo 18 (fun p t =>
    let u := t.port p
    if u.txStaged = some e ∨ u.rxStaged = some e then
      t.showSwap p { u with txStaged := if u.txStaged = some e then none else u.txStaged
                            rxStaged := if u.rxStaged = some e then none else u.rxStaged }
    else t) s

def groupDefault : Nat → Group := fun _ => Group.zero

/-- Show the open groups and the effects held (R352). -/
def State.showGroups (s : State) : State :=
  (s.setFld UPD_GROUP_STATUS_open s.groups.length).setFld UPD_GROUP_STATUS_effects
    ((s.groups.map (fun p => p.2.effects.length)).sum)

/-- Effects held in the effect store (R339). -/
def State.effectsHeld (s : State) : Nat := (s.groups.map (fun p => p.2.effects.length)).sum

/-- The open group `g`, if it is open. -/
def State.groupOf (s : State) (g : Nat) : Option Group := SMap.find s.groups g

/-- The commit record of group `g` whose write has begun and whose group has not been freed (R343). -/
def State.recOf (s : State) (g : Nat) : Option CommitRec := s.commits.find? (fun c => c.group == g && !c.done)

/-- Group `g`, if it is open and its commit record write has not begun. -/
def State.openGroup (s : State) (g : Nat) : Option Group := if (s.recOf g).isSome then none else s.groupOf g

/-- Every staged member of a group and its GROUP_COMMIT complete with one status, its effects are discarded and its entry is freed
(R344, R345). `late` names the entries that complete with LATE instead (R346, R347, R398). -/
def State.dropGroup (s : State) (g : Nat) (st : Status) (late : List Nat) : State :=
  match s.openGroup g with
  | none => s
  | some x =>
    let fin := fun (t : State) (e c1 c2 : Nat) => (t.unstage e).complete e [if late.contains e then .late else st] .none c1 c2
    let s1 := x.members.foldl (fun (t : State) (m : Member) => fin t m.entry m.c1 m.c2) s
    let s2 := match x.commit with
      | some e => fin s1 e 0 0
      | none => s1
    ({ s2 with groups := SMap.erase s2.groups g }).showGroups

/-- A group aborts (R344). -/
def State.abortGroup (s : State) (g : Nat) (late : List Nat) : State :=
  match s.openGroup g with
  | none => s
  | some _ => ((s.dropGroup g .groupAborted late).bump UPD_GROUP_COUNT_aborts).count (cntHub 16)

/-- The group that a descriptor is a member of (R340); 0 for none. -/
def memberOf (d : List Byte) : Nat :=
  if [kindUpdate, kindStats, kindRoot, kindWebTable, kindOwnerMap, kindSignal].contains (dKind d) then dGroup d else 0

/-- A member that ends without staging fails its group (R342); 0 is no group. -/
def State.failGroup (s : State) (g : Nat) : State := if g = 0 then s else s.abortGroup g []

/-- A descriptor ends with FAULT_FAILED; one in a group fails its group (R342). -/
def State.failMember (s : State) (e : Nat) (err : ErrCode) : State :=
  (s.failWith e err).failGroup (memberOf (s.desc e))

/-- A descriptor ends with LATE; one in a group fails its group (R342). An OWNER_MAP that does so sets map_late (R415). -/
def State.lateMember (s : State) (e : Nat) : State :=
  ((s.setFlagIf (dKind (s.desc e) == kindOwnerMap) HUB_MAP_STATUS_map_late).complete e [.late] .none).failGroup (memberOf (s.desc e))

/-- A member's work is done: its effects go to the effect store and it waits for its group (R342). With group 0 there is nothing to stage.
One that would exceed the group fails with GROUP_FULL; one whose group is not open (R344), or whose commit record write has begun, gets
GROUP_CLOSED. -/
def State.stage (s : State) (e : Nat) (effects : List Effect) (m : Member) (limit : Option Nat) : State :=
  let g := dGroup (s.desc e)
  match s.openGroup g with
  | none => s.failWith e .groupClosed
  | some x =>
    if x.expected ≤ x.members.length ∨ 4096 < x.effects.length + effects.length ∨ 32768 < s.effectsHeld + effects.length then
      s.failMember e .groupFull
    else
      (({ s with groups := SMap.set groupDefault s.groups g { x with
          members := x.members ++ [m]
          effects := x.effects ++ effects
          limits := match limit with
            | some t => x.limits ++ [(t, e)]
            | none => x.limits } }).begun e 9).showGroups

end Sys2Proof.Machine
end

