-- ==== Sys2Proof/Machine/PowerOps.lean ====
section
/-! DEFINITION. What starts an exit from a lower power state (18_power.md R564 to R566, R568). -/

namespace Sys2Proof.Machine

/-- Whether the hub is at its throttle limit, where the monitor holds acceptance (R539). -/
def State.hubHot (s : State) : Bool := decide (s.fld (SAF_TEMP_throttle 4) ≤ s.fld (SAF_TEMP_temp 4))

/-- Whether the module is in S0 with no entry under way. -/
def State.inS0 (s : State) : Bool := s.fld PWR_STATUS_state == 0 && !s.flag PWR_STATUS_entering

/-- The exit starts (R564, R568): the source is recorded; WAKE# is driven low for the host when it is asked to. -/
def State.startExit (s : State) (src : Nat) : State :=
  let s1 := ((s.setFld PWR_STATUS_exiting 1).setFld PWR_STATUS_last_wake src).bump PWR_WAKE_COUNT_wakes
  if s.flag PWR_CTL_wake_host && decide (2 ≤ s.fld PWR_STATUS_state) && src != 3 && src != 4 then { s1 with wakeLow := true } else s1

/-- A wake source of code `src` is detected (R564, R566): the first one starts the exit; one during entry lets the entry complete first. -/
def State.wakeBy (s : State) (src : Nat) : State :=
  if s.flag PWR_STATUS_entering then
    if s.wakePend.isSome then s
    else { (s.setFlag PWR_STATUS_wake_in_entry).bump PWR_WAKE_COUNT_wakes_in_entry with wakePend := some src }
  else if s.fld PWR_STATUS_state = 0 ∨ s.flag PWR_STATUS_exiting then s
  else s.startExit src

end Sys2Proof.Machine
end

