-- ==== Sys2Proof/Machine/Sync.lean ====
section
/-! DEFINITION. Signals, waits, saves, dumps and the sync network (13_synchronisation.md): the SIGNAL and WAIT descriptors, SYN_SIGNAL and
SYN_WAIT, accesses to counter addresses, a home's queue, fire messages, and sync messages between modules. -/

namespace Sys2Proof.Machine

/-! ### SIGNAL on a counter (R436, R438) -/

/-- The source of operations that entry `e` makes (R638): code 0 with its ring. -/
def State.entryOrigin (s : State) (e : Nat) : Origin := ⟨s.chip, srcRing (s.jget e).ring % 65536⟩

/-- The body of a SIGNAL with op 0 to 3 is as R436 and R438 allow. -/
def signalOk (d : List Byte) : Bool :=
  bitsOf (leAt d 17 1) 1 7 == 0 && (bitOf (leAt d 17 1) 0 || leAt d 18 2 == 0) && dZero d 32 63 &&
  (counterOf (gLocal (leAt d 24 8))).isSome && gChip (leAt d 24 8) != 0xFFFF

/-- A SIGNAL with op `op`: it stages in its group, or raises the signal and completes when that is applied, deferred or landed (R436). -/
def State.signalOp (s : State) (e op : Nat) : State :=
  let d := s.desc e
  if s.fresh e kindSignal ∧ leAt d 16 1 = op then
    if signalOk d then
      let a := leAt d 24 8
      let n := (counterOf (gLocal a)).getD 0
      let gate := if bitOf (leAt d 17 1) 0 then some (leAt d 18 2, s.startedCount (leAt d 18 2)) else none
      if dGroup d = 0 then (s.begun e).raise (gChip a) n op (leAt d 20 4) (s.entryOrigin e) (some e) gate
      else s.stage e [.signal (gChip a) n op (leAt d 20 4) (s.entryOrigin e) gate] ⟨e, [.ok], 0, 0⟩ none
    else s.failMember e .badDescriptor
  else s

/-- SIGNAL_ADD (R436, R417). -/
def execSignalAdd (e : Nat) (s : State) : Host.Outcome State Fault Refusal := .next (s.signalOp e 0)
/-- SIGNAL_SET (R436, R417). -/
def execSignalSet (e : Nat) (s : State) : Host.Outcome State Fault Refusal := .next (s.signalOp e 1)
/-- SIGNAL_OR (R436, R417). -/
def execSignalOr (e : Nat) (s : State) : Host.Outcome State Fault Refusal := .next (s.signalOp e 2)
/-- SIGNAL_ANDN (R436, R417). -/
def execSignalAndn (e : Nat) (s : State) : Host.Outcome State Fault Refusal := .next (s.signalOp e 3)

/-! ### RING_STEP: the fields and its end (R403, R406) -/

def gSendStream (d : List Byte) : Nat := leAt d 16 2
def gRecvStream (d : List Byte) : Nat := leAt d 18 2
def gStep (d : List Byte) : Nat := leAt d 20 4
def gBytes (d : List Byte) : Nat := leAt d 24 4
def gMask (d : List Byte) : Nat := leAt d 48 8
/-- The tag of R404. -/
def gTag (d : List Byte) : Nat := gStep d % 256 * 2 ^ 24 + leAt d 44 2 * 256 + leAt d 29 1

/-- Blocks of a fan-out mask. -/
def maskBlocks (m : Nat) : List Nat := (List.range 64).filter (fun b => bitOf m b)

def State.ringJob (s : State) (e : Nat) : RingJob := SMap.get (fun _ => ⟨true, true, 0, 0, false⟩) s.ringJobs e

/-- Show how many RING_STEPs execute (R415). -/
def State.showRingJobs (s : State) : State := s.setFld HUB_RING_STATUS_in_flight s.ringJobs.length

def State.setRingJob (s : State) (e : Nat) (j : RingJob) : State :=
  State.showRingJobs { s with ringJobs := SMap.insert s.ringJobs e j }

/-- A RING_STEP leaves execution: its parts, its watch and its job go. -/
def State.dropRingJob (s : State) (e : Nat) : State :=
  let rcv := gRecvStream (s.desc e)
  let r := s.rxOf rcv
  let s1 := { s with
    ringJobs := SMap.erase s.ringJobs e
    tx := s.tx.filter (fun x => x.owner != TxOwner.entry e) }
  let mine := match r.bound with
    | some b => b.entry == e
    | none => false
  State.showRingJobs (if mine then
      (match r.queue with
        | [] => s1.setRx rcv { r with bound := none }
        | q :: qs => s1.setRx rcv { r with bound := some q, queue := qs })
    else s1.setRx rcv { r with queue := r.queue.filter (fun q => q.entry != e) })

/-- The step of a RING_STEP that fails is marked non-finite, and counted once (R401, R415). -/
def State.poisonStep (s : State) (n : Nat) : State :=
  let s1 := (s.markNonfinite n).bump HUB_RING_COUNT_poisoned (b2n (!(s.normOf n).poisoned))
  s1.setNorm n { s1.normOf n with poisoned := true }

/-- A RING_STEP that does not end with OK (R401, R415): its step is marked. -/
def State.failRing (s : State) (e : Nat) (st : Status) (err : ErrCode) : State :=
  let n := gStep (s.desc e)
  let s1 := (s.dropRingJob e).setFlag (if st = .late then HUB_RING_STATUS_late else HUB_RING_STATUS_failed)
  (s1.poisonStep n).complete e [st] err

/-! ### Waiters (R424, R425, R437) -/

/-- The code, chip and token of a waiter (R424, R430). -/
def Waiter.parts : Waiter → Nat × Nat × Nat
  | .ring c t => (0, c, t)
  | .block c t => (1, c, t)
  | .vector c t => (2, c, t)
  | .internal c t => (3, c, t)

/-- The watch of a waiter is lost: a WAIT or another descriptor completes with FAULT_FAILED and SYNC_LOST, a SYN_WAIT ends its LAUNCH in the
same way, a vector sends nothing (R435, R437, R439, R444); a RING_STEP marks its step (R401). No sync message tells a waiter on another module. -/
def State.loseWaiter (s : State) (w : Waiter) : State :=
  if w.parts.2.1 ≠ s.chip then s
  else match w with
  | .ring _ t | .internal _ t =>
    match s.waits.find? (fun p => p.2.token == t) with
    | some p => if dKind (s.desc p.1) = kindRingStep then s.failRing p.1 .faultFailed .syncLost else s.failWith p.1 .syncLost
    | none => s
  | .block _ t =>
    match s.launches.find? (fun l => l.token == some t) with
    | some l => s.endLaunch l [.faultFailed] .syncLost
    | none => s
  | .vector _ _ => s

/-- The watches of a region with a property are freed and their waiters on this module told. -/
def State.freeWatches (s : State) (r : Nat) (p : Watch → Bool) : State :=
  let u := s.syncUnit r
  let gone := u.watches.filter p ++ u.waiting.filter p ++ u.regs.filter p
  let s1 := s.setSync r { u with
    watches := u.watches.filter (fun w => !p w), waiting := u.waiting.filter (fun w => !p w), regs := u.regs.filter (fun w => !p w) }
  gone.foldl (fun (t : State) (w : Watch) => t.loseWaiter w.waiter) s1

/-- The condition and CLAIM bits of a watch are as R421 and R422 allow. -/
def watchOk (cond operand : Nat) (claim : Bool) : Bool :=
  cond != 3 && (!claim || (cond == 0 && decide (1 ≤ operand) && decide (operand ≤ 65535)))

/-- Register a watch for entry `e` with a new token (R425, R430). -/
def State.waitFor (s : State) (e chip n cond operand : Nat) (claim internal : Bool) : State :=
  let x := s.token
  let w : Watch := ⟨n, claim, cond, operand, if internal then .internal s.chip x.1 else .ring s.chip x.1, 0⟩
  ({ x.2 with waits := SMap.insert x.2.waits e ⟨x.1, chip, w⟩ }).register chip w

/-- The body of a WAIT is as R437 and R438 allow. -/
def waitOk (d : List Byte) : Bool :=
  bitsOf (leAt d 16 1) 4 4 == 0 && dZero d 17 19 && dZero d 32 63 && (counterOf (gLocal (leAt d 24 8))).isSome &&
  gChip (leAt d 24 8) != 0xFFFF && dGroup d == 0 &&
  watchOk (bitsOf (leAt d 16 1) 0 2) (leAt d 20 4) (bitOf (leAt d 16 1) 2)

/-- A WAIT whose CLAIM bit is `claim` (R437): its watch goes to the counter's home. -/
def State.waitOp (s : State) (e : Nat) (claim : Bool) : State :=
  let d := s.desc e
  if s.fresh e kindWait ∧ bitOf (leAt d 16 1) 2 = claim then
    if waitOk d then
      let a := leAt d 24 8
      (s.begun e).waitFor e (gChip a) ((counterOf (gLocal a)).getD 0) (bitsOf (leAt d 16 1) 0 2) (leAt d 20 4) claim false
    else s.bad e
  else s

/-- WAIT_OBSERVE (R437, R421). -/
def execWaitObserve (e : Nat) (s : State) : Host.Outcome State Fault Refusal := .next (s.waitOp e false)
/-- WAIT_CLAIM (R437, R422). -/
def execWaitClaim (e : Nat) (s : State) : Host.Outcome State Fault Refusal := .next (s.waitOp e true)

/-! ### The dump and saves (R439 to R442) -/

/-- A counter record (R442). -/
def counterRec (c : Counter) : List Byte := leBytes 4 c.value.toNat ++ leBytes 2 c.origin.chip ++ leBytes 2 c.origin.code ++ leBytes 8 c.tide

/-- The context of a waiter of this module: of its descriptor or its LAUNCH (R442); 0 for any other. -/
def State.waiterCtx (s : State) (w : Waiter) : Nat :=
  let t := w.parts.2.2
  if w.parts.2.1 ≠ s.chip then 0
  else match s.waits.find? (fun p => p.2.token == t) with
    | some p => dContext (s.desc p.1)
    | none => match s.launches.find? (fun l => l.token == some t) with
      | some l => l.ctx
      | none => 0

/-- A watch record (R442); `pos` is the position in the CLAIM queue. -/
def State.watchRec (s : State) (w : Watch) (pos : Nat) : List Byte :=
  let p := w.waiter.parts
  leBytes 2 w.counter ++
  leBytes 1 (w.cond + 4 * b2n w.claim + 8 * p.1 + 32 + 64 * b2n (p.2.1 != s.chip)) ++ leBytes 1 (s.waiterCtx w.waiter) ++
  leBytes 4 w.operand ++ leBytes 2 p.2.1 ++ leBytes 2 pos ++ leBytes 4 p.2.2 ++ leBytes 8 w.regTide ++ leBytes 8 0

/-- The position of watch number `i` of a table in the queue of its counter's claimers; 0 for an OBSERVE watch (R442). -/
def claimPos (l : List Watch) (i : Nat) : Nat :=
  match l[i]? with
  | some w => if w.claim then ((l.take i).filter (fun x => x.claim && x.counter == w.counter)).length else 0
  | none => 0

/-- The records of a list of watches. -/
def State.watchRecs (s : State) (l : List Watch) : List Byte :=
  (List.range l.length).flatMap (fun i => match l[i]? with
    | some w => s.watchRec w (claimPos l i)
    | none => [])

/-- The header of a save area or a dump (R441). -/
def State.saveHeader (s : State) (counters watches ctx first : Nat) : List Byte :=
  leBytes 4 counters ++ leBytes 4 watches ++ leBytes 1 (2 * ctx) ++ leBytes 3 0 ++ leBytes 2 first ++ leBytes 2 0 ++
  leBytes 8 s.tide.ns ++ leBytes 2 s.chip ++ leBytes 38 0

/-- A dump at a local address (R442): header with the counts of the records that follow, the 65,536 counters, and the watch tables of the four regions, each of 8,192 places. -/
def State.dumpAt (s : State) (a : Nat) : AccEnd × State :=
  let ws := (List.range 4).map (fun r => (s.syncUnit r).watches)
  let body := (List.range 65536).flatMap (fun n => counterRec (s.counter n)) ++
    ws.flatMap (fun l => s.watchRecs l ++ List.replicate ((8192 - l.length) * 32) 0#8)
  let x := s.store (.unit (srcOther 1)) a (s.saveHeader 65536 32768 0 0 ++ body)
  (x.1, x.2.setFlagIf (x.1 == .ok) SYN_STATUS_dump_written)

/-- The body of a SIGNAL with op 0x8 to 0xB (R436, R438): its area is a 4 KiB aligned local address; it names no group. -/
def saveOk (op : Nat) (d : List Byte) : Bool :=
  let fl := leAt d 17 1
  bitsOf fl 3 5 == 0 && !bitOf fl 0 && (op != 0xB || bitsOf fl 1 2 == 0) && dZero d 18 31 && dZero d 40 63 && dGroup d == 0 &&
  isLocal (leAt d 32 8) && leAt d 32 8 % 4096 == 0

/-- A SIGNAL with one of the ops 0x8 to 0xB: the checks of R438, then its effect. -/
def State.saveOp (s : State) (e op : Nat) (act : List Byte → State → State) : State :=
  let d := s.desc e
  if s.fresh e kindSignal ∧ leAt d 16 1 = op then
    if saveOk op d then act d s else s.failMember e .badDescriptor
  else s

/-- The counters of context `c` (R439): global indices of its range in each region, region by region. -/
def State.ctxCounters (s : State) (c : Nat) : List Nat :=
  (List.range 4).flatMap (fun r => (List.range (s.fld (SYN_CTX_RANGE_count c))).map
    (fun i => r * 16384 + s.fld (SYN_CTX_RANGE_base c) + i))

/-- Whether a counter is in the range of context `c`. -/
def State.inCtx (s : State) (c n : Nat) : Bool :=
  decide (s.fld (SYN_CTX_RANGE_base c) ≤ n % 16384) && decide (n % 16384 < s.fld (SYN_CTX_RANGE_base c) + s.fld (SYN_CTX_RANGE_count c))

/-- The watches of context `c`, in registration order within each region. -/
def State.ctxWatches (s : State) (c : Nat) : List Watch :=
  (List.range 4).flatMap (fun r => (s.syncUnit r).watches.filter (fun w => s.inCtx c w.counter))

/-- SAVE (R439, R441): the context's counters freeze; the area gets its header, counter records and watch records. The counters of every
region go in ascending local index, region by region. A second SAVE of a frozen context is one more save taken during the freeze (R440). -/
def saveAct (e : Nat) (d : List Byte) (s : State) : State :=
  let c := bitsOf (leAt d 17 1) 1 2
  let a := leAt d 32 8
  let ns := s.ctxCounters c
  let ws := s.ctxWatches c
  let data := s.saveHeader ns.length ws.length c (s.fld (SYN_CTX_RANGE_base c)) ++ ns.flatMap (fun n => counterRec (s.counter n)) ++
    s.watchRecs ws
  let f : Frozen := ⟨c, s.fld (SYN_CTX_RANGE_base c), s.fld (SYN_CTX_RANGE_count c), a, [0, 1, 2, 3]⟩
  let s1 := State.showFrozen { s with frozen := s.frozen ++ [f] }
  let x := s1.store (.unit (srcRing (s.jget e).ring)) a data
  if x.1 = .ok then x.2.okWith e else x.2.failWith e x.1.err

/-- SAVE (R439). It waits to start while maintenance mode is in effect (R30); its deadline is judged when it starts (R462). -/
def execSave (e : Nat) (s : State) : Host.Outcome State Fault Refusal :=
  .next (s.saveOp e 0x8 (fun d t => if t.flag HUB_MODULE_STATUS_maintenance_mode then t
    else if dDeadlineValid d ∧ dDeadline d ≤ t.tide.ns then t.complete e [.late] .none
    else saveAct e d t))

/-- Thaw context `c`: in each region where its counters are frozen, the deferred operations on them are applied in order (R439); a watch
that was registered in the freeze and already holds then fires (R423). -/
def State.thawCtx (s : State) (c : Nat) : State :=
  let s1 := State.showFrozen { s with frozen := s.frozen.filter (fun x => x.ctx != c) }
  let s2 := forUpTo 4 (fun r t => t.applyDeferred r ((t.syncUnit r).deferred.filter (fun o => t.inCtx c o.counter))) s1
  ((s2.ctxWatches c).foldl (fun (t : State) (w : Watch) => t.serve w.counter) s2).admitAll

/-- THAW (R439). -/
def execThaw (e : Nat) (s : State) : Host.Outcome State Fault Refusal :=
  .next (s.saveOp e 0xA (fun d t => (t.thawCtx (bitsOf (leAt d 17 1) 1 2)).okWith e))

/-- A saved watch (R442). -/
def watchOf (r : List Byte) : Watch :=
  let fl := leAt r 2 1
  let tg := bitsOf fl 3 2
  let chip := leAt r 8 2
  let tok := leAt r 12 4
  ⟨leAt r 0 2, bitOf fl 2, bitsOf fl 0 2, leAt r 4 4,
   if tg = 0 then .ring chip tok else if tg = 1 then .block chip tok else if tg = 2 then .vector chip tok else .internal chip tok,
   leAt r 16 8⟩

/-- Write a saved counter record back (R439). -/
def State.restoreCounter (s : State) (n : Nat) (r : List Byte) : State :=
  s.setCounter n ⟨BitVec.ofNat 32 (leAt r 0 4), ⟨leAt r 4 2, leAt r 6 2⟩, leAt r 8 8⟩

/-- Register a saved watch with its recorded waiter (R439): it takes a place, or waits for one (R420). -/
def State.registerHome (s : State) (w : Watch) : State :=
  let r := homeOf w.counter
  let u := s.syncUnit r
  if 8192 ≤ u.watches.length then
    (s.setSync r { u with waiting := u.waiting ++ [w] }).setFlag (SYN_RGN_STATUS_table_full r)
  else s.enterWatch w

/-- RESTORE (R439 to R441): a broken save changes nothing; a save of another module, context or range is a bad descriptor. -/
def restoreAct (e : Nat) (d : List Byte) (s : State) : State :=
  let c := bitsOf (leAt d 17 1) 1 2
  let a := leAt d 32 8
  let hd := s.load (.unit (srcRing (s.jget e).ring)) a 64
  let h := hd.1
  let ns := s.ctxCounters c
  if hd.2.1 ≠ .ok then hd.2.2.failWith e hd.2.1.err
  else if leAt h 24 2 ≠ s.chip ∨ bitsOf (leAt h 8 1) 1 2 ≠ c ∨ leAt h 12 2 ≠ s.fld (SYN_CTX_RANGE_base c) ∨ leAt h 0 4 ≠ ns.length then
    hd.2.2.bad e
  else if bitOf (leAt h 8 1) 0 then hd.2.2.failWith e .saveBroken
  else
    let nw := leAt h 4 4
    let x := hd.2.2.load (.unit (srcRing (s.jget e).ring)) (a + 64) (16 * ns.length + 32 * nw)
    if x.2.1 ≠ .ok then x.2.2.failWith e x.2.1.err
    else
      let s1 := (forUpTo 4 (fun r t => t.freeWatches r (fun w => t.inCtx c w.counter)) x.2.2).admitAll
      let s2 := forUpTo ns.length (fun i t => t.restoreCounter (ns.getD i 0) (bytesAt x.1 (16 * i) 16)) s1
      let s3 := forUpTo nw (fun i t => t.registerHome (watchOf (bytesAt x.1 (16 * ns.length + 32 * i) 32))) s2
      (s3.thawCtx c).okWith e

/-- RESTORE (R439, R440, R441). -/
def execRestore (e : Nat) (s : State) : Host.Outcome State Fault Refusal := .next (s.saveOp e 0x9 (restoreAct e))

/-- DUMP (R442). -/
def execDump (e : Nat) (s : State) : Host.Outcome State Fault Refusal :=
  .next (s.saveOp e 0xB (fun d t =>
    let x := t.dumpAt (leAt d 32 8)
    if x.1 = .ok then x.2.okWith e else x.2.failWith e x.1.err))

/-- WAITER_DEADLINE (R425, R437): the tide reaches the deadline of a WAIT. It completes with LATE, its watch's home gets a cancel, and units
that its CLAIM still takes are to be given back; with DUMP_ON_LATE the dump area is written. -/
def execWaiterDeadline (e : Nat) (s : State) : Host.Outcome State Fault Refusal :=
  .next (match SMap.find s.waits e with
    | none => s
    | some j =>
      let d := s.desc e
      if !dDeadlineValid d || dKind d != kindWait then s
      else
        let s1 := (s.atTide (dDeadline d)).cancel j.chip j.watch
        let s2 := if j.watch.claim then { s1 with gaveUp := s1.gaveUp ++ [j.token] } else s1
        let s3 := s2.complete e [.late] .none
        let area := s.fld SYN_DUMP_BASE_LO_base_lo + s.fld SYN_DUMP_BASE_HI_base_hi * 2 ^ 32
        if bitOf (leAt d 16 1) 3 && area != 0 then (s3.dumpAt area).2 else s3)

/-! ### SYN_SIGNAL and SYN_WAIT (R435) -/

/-- SYN_SIGNAL is legal (R435). -/
def synSignalLegal (_ : State) (_ : Launch) (w : Nat) : Bool :=
  iBits w 12 4 == 0 && (bitOf w 10 || iBits w 16 16 == 0) && (counterOf (gLocal (iBits w 64 64))).isSome &&
  gChip (iBits w 64 64) != 0xFFFF

/-- SYN_SIGNAL (R435): raised as it issues, which waits for what the context's earlier instructions write (R426). -/
def synSignalAct (s : State) (l : Launch) (w : Nat) : State :=
  let a := iBits w 64 64
  let gate := if bitOf w 10 then some (iBits w 16 16, s.startedCount (iBits w 16 16)) else none
  (s.raise (gChip a) ((counterOf (gLocal a)).getD 0) (iBits w 8 2) (iBits w 32 32) ⟨s.chip, srcBlock l.block⟩ none gate).advance l

/-- SYN_SIGNAL (R435, R102). -/
def execSynSignal (b : Fin 64) (c : Fin 4) (s : State) : Host.Outcome State Fault Refusal :=
  .next (s.issue b.val c.val opSynSignal synSignalLegal synSignalAct)

/-- SYN_WAIT is legal (R435). -/
def synWaitLegal (_ : State) (_ : Launch) (w : Nat) : Bool :=
  iBits w 11 21 == 0 && (counterOf (gLocal (iBits w 64 64))).isSome && gChip (iBits w 64 64) != 0xFFFF &&
  watchOk (iBits w 8 2) (iBits w 32 32) (bitOf w 10)

/-- SYN_WAIT (R435): issue of its context stops until its watch fires. -/
def synWaitAct (s : State) (l : Launch) (w : Nat) : State :=
  let a := iBits w 64 64
  let x := s.token
  let s1 := x.2.setLaunch { (s.launches.find? (fun y => y.entry == l.entry)).getD l with token := some x.1 }
  let wt : Watch := ⟨(counterOf (gLocal a)).getD 0, bitOf w 10, iBits w 8 2, iBits w 32 32, .block s.chip x.1, 0⟩
  (s1.advance l).register (gChip a) wt

/-- SYN_WAIT (R435, R102). -/
def execSynWait (b : Fin 64) (c : Fin 4) (s : State) : Host.Outcome State Fault Refusal :=
  .next (s.issue b.val c.val opSynWait synWaitLegal synWaitAct)

/-! ### Accesses to counter addresses (R418) -/

/-- The last-source code of a source (R638). -/
def Source.code : Sys2Proof.Source → Nat
  | .ring r => srcRing r.val % 65536
  | .block b => srcBlock b.val
  | .other k => srcOther k.val
  | .alarm n => srcAlarm n.val

/-- What a discarded counter load does to its maker (R418): the oldest started descriptor of a ring, or the program in the current context
of a block, fails with MEMORY_FAULT, or where the home region is fenced with REGION_FENCED (R512). -/
def State.failSource (s : State) (err : ErrCode) : Sys2Proof.Source → State
  | .ring r =>
    match (SMap.get qDefault s.ringQ r.val).find? (fun e => (s.working e).isSome) with
    | some e => s.failWith e err
    | none => s
  | .block b =>
    match s.launchAt b.val (s.blk b.val).current with
    | some l => s.endLaunch l [.faultFailed] err
    | none => s
  | _ => s

/-- COUNTER_LOAD (R418): 4 bytes at a counter's address return its value; any other load is discarded and poisoned,
and so is one of a counter whose home region is fenced (R23, R512). -/
def execCounterLoad (off : BitVec 19) (len : Nat) (src : Sys2Proof.Source) (s : State) : Host.Outcome State Fault Refusal :=
  let n := off.toNat / 8
  .next (if s.regionFenced (homeOf n) then { s.unmapped.failSource .regionFenced src with out := ⟨List.replicate len 0#8, true, false⟩ }
    else if off.toNat % 8 = 0 ∧ len = 4 then { s with out := ⟨leBytes 4 (s.counter n).value.toNat, false, false⟩ }
    else { (s.counterDiscard n).failSource .memoryFault src with out := ⟨List.replicate len 0#8, true, false⟩ })

/-- A store of 4 bytes at a counter: an operation on its way to its home; any other is discarded (R418). -/
def State.counterStore (s : State) (n op : Nat) (data : List Byte) (code : Nat) : State :=
  if data.length = 4 then s.toHome ⟨n, op, leNat data, ⟨s.chip, code⟩, none⟩ else s.counterDiscard n

/-- COUNTER_STORE_SET (R418): a store at offset 0. -/
def execCounterStoreSet (n : BitVec 16) (data : List Byte) (src : Sys2Proof.Source) (s : State) : Host.Outcome State Fault Refusal :=
  .next (s.counterStore n.toNat 1 data (Source.code src))

/-- COUNTER_STORE_ADD (R418): a store at offset 4. -/
def execCounterStoreAdd (n : BitVec 16) (data : List Byte) (src : Sys2Proof.Source) (s : State) : Host.Outcome State Fault Refusal :=
  .next (s.counterStore n.toNat 0 data (Source.code src))

/-! ### A home and its queues (R416, R420, R423, R425) -/

/-- COUNTER_OPERATION (R423): the oldest operation that waits at the home of region `r` reaches its counter. -/
def execCounterOperation (r : Fin 4) (s : State) : Host.Outcome State Fault Refusal :=
  let u := s.syncUnit r.val
  .next (match u.ops with
    | [] => s
    | o :: rest => (s.setSync r.val { u with ops := rest }).reachHome o)

/-- WATCH_REGISTER (R420, R423): the oldest registration that waits at the home of region `r`; one for a fenced region is lost (R435). -/
def execWatchRegister (r : Fin 4) (s : State) : Host.Outcome State Fault Refusal :=
  let u := s.syncUnit r.val
  .next (match u.regs with
    | [] => s
    | w :: rest =>
      let s1 := s.setSync r.val { u with regs := rest }
      if s.regionFenced r.val then s1.loseWaiter w.waiter else s1.registerHome w)

/-- WATCH_CANCEL (R425): the oldest cancel at the home of region `r` frees its watch, if it has not fired; a place that comes free is
taken. -/
def execWatchCancel (r : Fin 4) (s : State) : Host.Outcome State Fault Refusal :=
  let u := s.syncUnit r.val
  .next (match u.cancels with
    | [] => s
    | w :: rest =>
      let same := fun x : Watch => x.counter == w.counter && x.waiter == w.waiter
      let s1 := s.setSync r.val { u with
        cancels := rest
        watches := u.watches.filter (fun x => !same x)
        waiting := u.waiting.filter (fun x => !same x)
        regs := u.regs.filter (fun x => !same x) }
      let s2 := if w.claim && u.watches.any same then s1.serve w.counter else s1
      s2.admitWaiting r.val (s2.syncUnit r.val).waiting.length)

/-- Units that a CLAIM took after its waiter gave up go back to its counter (R425). -/
def State.returnClaim (s : State) (chip n units : Nat) : State :=
  (s.raise chip n 0 units ⟨s.chip, srcOther 1⟩ none none).bump (SYN_RGN_DROP_returned_claims (homeOf n))

/-- A fire message reaches its waiter (R424, R425): the WAIT completes with OK, the context resumes issue, the vector is sent, the unit
proceeds. One whose token names no waiter that still waits gives a late claim's units back, or is discarded and counted (R439). -/
def State.fireAt (s : State) (w : Waiter) (chip counter claimed : Nat) : State :=
  let lost := fun (t : Nat) (x : State) =>
    if x.gaveUp.contains t && claimed != 0 then
      ({ x with gaveUp := x.gaveUp.erase t }).returnClaim chip counter claimed
    else x.syncDrop (homeOf counter)
  match w with
  | .ring _ t =>
    match s.waits.find? (fun p => p.2.token == t) with
    | some p => s.okWith p.1
    | none => lost t s
  | .internal _ t =>
    match s.waits.find? (fun p => p.2.token == t) with
    | some p => { s with waits := SMap.erase s.waits p.1 }
    | none => lost t s
  | .block _ t =>
    match s.launches.find? (fun l => l.token == some t) with
    | some l => (s.setLaunch { l with token := none }).finishLaunch l.entry
    | none => lost t s
  | .vector _ t => s.msix (t % 2048)

/-- FIRE_MESSAGE_RECEIVE (R425): the oldest fire message on its way to a waiter of this module. -/
def execFireMessageReceive (s : State) : Host.Outcome State Fault Refusal :=
  .next (match s.fires with
    | [] => s
    | f :: rest => State.fireAt { s with fires := rest } f.waiter f.chip f.counter f.claimed)

/-! ### Sync messages between modules (R430 to R432) -/

/-- The sync messages of a cell (R63, R430): as many 16-byte messages as its length holds, at most 58. -/
def msgOf (b : List Byte) : SyncMsg :=
  ⟨BitVec.ofNat 8 (leAt b 0 1), BitVec.ofNat 8 (leAt b 1 1), BitVec.ofNat 16 (leAt b 2 2), BitVec.ofNat 32 (leAt b 4 4),
   BitVec.ofNat 16 (leAt b 8 2), BitVec.ofNat 16 (leAt b 10 2), BitVec.ofNat 16 (leAt b 12 2), BitVec.ofNat 16 (leAt b 14 2)⟩

/-- The 16 bytes of a sync message (R430). -/
def msgBytes (m : SyncMsg) : List Byte :=
  leBytes 1 m.mtype.toNat ++ leBytes 1 m.sub.toNat ++ leBytes 2 m.counter.toNat ++ leBytes 4 m.operand.toNat ++ leBytes 2 m.dst.toNat ++
  leBytes 2 m.src.toNat ++ leBytes 2 m.lo.toNat ++ leBytes 2 m.hi.toNat

/-- The messages of a sync cell. -/
def cellMsgs (c : Cell) : List SyncMsg :=
  (List.range (min 58 (c.hdr.length.toNat / 16))).map (fun i => msgOf (bytesAt c.payload (16 * i) 16))

/-- Whether a message is a gated signal for this module whose gate is closed, so that it needs a place (R428). -/
def State.needsPlace (s : State) (m : SyncMsg) : Bool :=
  m.mtype == 1#8 && m.dst.toNat == s.chip && bitOf m.sub.toNat 2 && !s.gateOpen m.lo.toNat m.hi.toNat

/-- The waiter that a message names (R424, R430); `chip` is the waiter's module. -/
def waiterOfMsg (m : SyncMsg) (chip : Nat) : Waiter :=
  let t := m.lo.toNat + 65536 * m.hi.toNat
  let k := bitsOf m.sub.toNat 3 2
  if k = 0 then .ring chip t else if k = 1 then .block chip t else if k = 2 then .vector chip t else .internal chip t

/-- A message addressed to this module acts (R430, R425); one with a reserved type or condition is discarded and counted. -/
def State.actMsg (s : State) (m : SyncMsg) : State :=
  let n := m.counter.toNat
  let sub := m.sub.toNat
  let w : Watch := ⟨n, bitOf sub 2, bitsOf sub 0 2, m.operand.toNat, waiterOfMsg m m.src.toNat, 0⟩
  let u := s.syncUnit (homeOf n)
  if m.mtype = 1#8 then
    if bitsOf sub 3 5 ≠ 0 then s.syncDrop (homeOf n)
    else s.arriveSignal ⟨n, bitsOf sub 0 2, m.operand.toNat, ⟨m.src.toNat, srcOther 2⟩, none⟩
      (if bitOf sub 2 then some (m.lo.toNat, m.hi.toNat) else none)
  else if (m.mtype = 2#8 ∨ m.mtype = 4#8) ∧ bitsOf sub 5 3 = 0 ∧ watchOk (bitsOf sub 0 2) m.operand.toNat (bitOf sub 2) then
    if m.mtype = 2#8 then s.setSync (homeOf n) { u with regs := u.regs ++ [w] }
    else s.setSync (homeOf n) { u with cancels := u.cancels ++ [w] }
  else if m.mtype = 3#8 ∧ bitsOf sub 5 3 = 0 then
    { s with fires := s.fires ++ [⟨waiterOfMsg m s.chip, n, if bitOf sub 2 then m.operand.toNat else 0, m.src.toNat⟩] }
  else s.syncDrop (homeOf n)

/-- A message of a landed sync cell: it acts here, waking the module when it is for a counter (R564), or waits to be forwarded (R432). -/
def State.takeMsg (s : State) (m : SyncMsg) : State :=
  if m.dst.toNat = s.chip then (if m.mtype = 3#8 then s else s.wakeBy 1).actMsg m else { s with syncFwd := s.syncFwd ++ [m] }

/-- SYNC_CELL_RECEIVE (R431, R67, R428): the next sync cell of the port's transfer lands and its messages are taken, once each; a duplicate is
discarded; a cell above the mark, or one that would need more places for gated signals than the hub has, is not landed and is asked for
again. -/
def execSyncCellReceive (p : Fin 18) (cell : Cell) (s : State) : Host.Outcome State Fault Refusal :=
  let u := s.port p.val
  let i := cell.hdr.index.toNat
  let ms := cellMsgs cell
  let back : Notice := .goBack 0#16 0#32 u.syncMark
  .next (if !s.portUp p.val then s
    else if i < u.syncMark then s.count (cntPort p.val 11)
    else if u.syncMark < i ∨ 1024 < s.gated.length + (ms.filter s.needsPlace).length then
      ((s.setPort p.val { u with ctlOut := u.ctlOut ++ [back] }).count (cntPort p.val 12)).count (cntPort p.val 9)
    else
      (ms.foldl State.takeMsg (s.setPort p.val { u with syncMark := u.syncMark + 1 })).count (cntPort p.val 16) ms.length)

/-- SYNC_MESSAGE_FORWARD (R432): the oldest message that waits to be forwarded goes toward its module. -/
def execSyncMessageForward (s : State) : Host.Outcome State Fault Refusal :=
  .next (match s.syncFwd with
    | [] => s
    | m :: rest => State.sendSync { s with syncFwd := rest } (m, none))

/-- A message raised here goes to its port. A registration that no port can carry has lost its home (R435, R437): its waiter is told. -/
def State.sendRaised (s : State) (m : SyncMsg × Option Nat) : State :=
  let s1 := s.sendSync m
  if m.1.mtype = 2#8 ∧ (s.routePort m.1.dst.toNat m.1.counter.toNat).isNone then s1.loseWaiter (waiterOfMsg m.1 s.chip) else s1

/-- REMOTE_SIGNAL_SEND (R31, R64): the oldest message raised here goes to slot 2 of the port toward its module. -/
def execRemoteSignalSend (s : State) : Host.Outcome State Fault Refusal :=
  .next (match s.syncRaise with
    | [] => s
    | m :: rest => State.sendRaised { s with syncRaise := rest } m)

/-! ### Context ranges (R445) -/

/-- Whether two ranges of local indices overlap. -/
def rangesMeet (a n b m : Nat) : Bool := n != 0 && m != 0 && decide (a < b + m) && decide (b < a + n)

/-- CTX_RANGE_WRITE (R445): a range past index 16,383 or over another context's is ignored and flagged. -/
def State.ctxRangeWrite (s : State) (c : Nat) (v : Word) : State :=
  let base := bitsOf v.toNat 0 14
  let n := bitsOf v.toNat 16 15
  if 16384 < base + n ∨ (List.range 4).any (fun k => k != c &&
      rangesMeet base n (s.fld (SYN_CTX_RANGE_base k)) (s.fld (SYN_CTX_RANGE_count k))) then
    s.setFlag SYN_STATUS_range_conflict
  else (s.setFld (SYN_CTX_RANGE_base c) base).setFld (SYN_CTX_RANGE_count c) n

/-- CTX_RANGE_WRITE (R445). -/
def execCtxRangeWrite (c : Fin 4) (v : Word) (s : State) : Host.Outcome State Fault Refusal := .next (s.ctxRangeWrite c.val v)

end Sys2Proof.Machine
end

