-- ==== Sys2Proof/Machine/Rings.lean ====
section
/-! DEFINITION. Descriptor rings (14_host_rings.md R449 to R484): doorbells, ring configuration, acceptance, dispatch, completion records,
retirement and interrupts. -/

namespace Sys2Proof.Machine

def State.ringBase (s : State) (r : Nat) : Nat := s.fld (RNG_BASE_LO_base_lo r) + s.fld (RNG_BASE_HI_base_hi r) * 2 ^ 32

/-! ### Doorbells (R455, R456) -/

def State.doorbellError (s : State) (r : Nat) : State := (s.setFlag (RNG_STATUS_doorbell_error r)).count (cntHub 5)

/-- A write to the doorbell slot of ring `r` (R455, R456): the new tail, or for a completion ring the new head. In a lower power state it is
recorded and starts a wake (R565); during a cold reset, before the BARs are assigned, it is not received (R620). -/
def State.doorbell (s : State) (r off : Nat) (data : List Byte) : State :=
  if s.fld HUB_BOOT_STATUS_phase = 0 then s else
  let s0 := (s.wakeBy 4).count (cntHub 4)
  let n := data.length
  if off ≠ 0 ∨ (n ≠ 4 ∧ n ≠ 8 ∧ n ≠ 16) then s0.doorbellError r
  else
    let m := s.ringMod r
    let x := leAt data 0 4
    let head := s.fld (RNG_HEAD_head r)
    let tail := s.fld (RNG_TAIL_tail r)
    let ok := if s.flag (RNG_CFG_cq r) then decide (subMod head x m ≤ subMod head tail m)
      else decide (subMod x head m ≤ s.ringSize r) && decide (subMod x tail m ≤ subMod x head m)
    if ok then s0.setFld (RNG_TAIL_tail r) (x % m) else s0.doorbellError r

/-- DESCRIPTOR_DOORBELL (R455, R456). -/
def execDescriptorDoorbell (r : Fin 65536) (off : BitVec 4) (data : List Byte) (s : State) : Host.Outcome State Fault Refusal :=
  .next (s.doorbell r.val off.toNat data)

/-- COMPLETION_DOORBELL (R455, R456). -/
def execCompletionDoorbell (r : Fin 65536) (off : BitVec 4) (data : List Byte) (s : State) : Host.Outcome State Fault Refusal :=
  .next (s.doorbell r.val off.toNat data)

/-! ### The ring table (R451, R454, R484) -/

/-- Whether a configuration of ring `r` may change: enable 0 and idle 1 (R454). -/
def State.ringFree (s : State) (r : Nat) : Bool := !s.flag (RNG_CFG_enable r) && s.ringIdle r

/-- Head, tail and W of a ring go to 0 (R454, R609). -/
def State.ringZero (s : State) (r : Nat) : State := (s.setFld (RNG_HEAD_head r) 0).setFld (RNG_TAIL_tail r) 0

/-- A write of a base word (R454): it takes effect only on a free ring when it changes the base. -/
def State.baseWrite (s : State) (r : Nat) (f : Fld) (v : Nat) : State :=
  if s.fld f = v then s
  else if s.ringFree r then (s.setFld f v).ringZero r
  else s.setFlag (RNG_STATUS_cfg_ignored r)

/-- The enable bit of a write (R451, R453): a descriptor ring needs an enabled completion ring. -/
def State.enableWrite (s : State) (r v : Nat) : State :=
  if v = 0 then s.setFld (RNG_CFG_enable r) 0
  else if s.flag (RNG_CFG_enable r) then s
  else
    let q := s.fld (RNG_CFG_cq_index r)
    if s.flag (RNG_CFG_cq r) then
      { s.setFld (RNG_CFG_enable r) 1 with cqPass := SMap.set (fun _ => 0) s.cqPass r 0 }
    else if s.flag (RNG_CFG_cq q) && s.flag (RNG_CFG_enable q) then s.setFld (RNG_CFG_enable r) 1
    else s.setFlag (RNG_STATUS_bind_error r)

/-- A write of RNG_CFG (R454, R484). -/
def State.cfgWrite (s : State) (r : Nat) (v : Word) : State :=
  let x := v.toNat
  let n := clampNat 4 20 (bitsOf x 0 5)
  let changes := n != s.fld (RNG_CFG_log2_size r) || bitsOf x 10 1 != s.fld (RNG_CFG_in_device r) ||
    bitsOf x 11 1 != s.fld (RNG_CFG_cq r) || bitsOf x 16 16 != s.fld (RNG_CFG_cq_index r)
  if changes && !s.ringFree r then s.setFlag (RNG_STATUS_cfg_ignored r)
  else
    let s1 := (s.setFld (RNG_CFG_priority r) (bitsOf x 5 3)).setFld (RNG_CFG_context r) (bitsOf x 8 2)
    let s2 := if changes then
        ((((s1.setFld (RNG_CFG_log2_size r) n).setFld (RNG_CFG_in_device r) (bitsOf x 10 1)).setFld (RNG_CFG_cq r) (bitsOf x 11 1)).setFld
          (RNG_CFG_cq_index r) (bitsOf x 16 16)).ringZero r
      else s1
    s2.enableWrite r (bitsOf x 12 1)

/-- A write of word 0, 1 or 2 of a ring table entry. -/
def State.ringWrite (s : State) (r reg : Nat) (v : Word) : State :=
  if reg = 0 then s.baseWrite r (RNG_BASE_LO_base_lo r) (v.toNat / 4096 * 4096)
  else if reg = 1 then s.baseWrite r (RNG_BASE_HI_base_hi r) v.toNat
  else s.cfgWrite r v

/-- RNG_CFG_WRITE (R454). -/
def execRngCfgWrite (r : Fin 65536) (reg : Fin 3) (v : Word) (s : State) : Host.Outcome State Fault Refusal :=
  .next (s.ringWrite r.val reg.val v)

/-- RING_ENABLE (R451): RNG_CFG written with enable 1. -/
def execRingEnable (r : Fin 65536) (v : Word) (s : State) : Host.Outcome State Fault Refusal :=
  .next (s.cfgWrite r.val (v ||| 0x1000#32))

/-- RING_DISABLE (R454): RNG_CFG written with enable 0. -/
def execRingDisable (r : Fin 65536) (v : Word) (s : State) : Host.Outcome State Fault Refusal :=
  .next (s.cfgWrite r.val (v &&& ~~~0x1000#32))

/-- A write of RNG_SEQ (R454). -/
def State.seqWrite (s : State) (r : Nat) (v : Word) : State :=
  if s.ringFree r then s.setFld (RNG_SEQ_next_seq r) v.toNat else s.setFlag (RNG_STATUS_cfg_ignored r)

/-- RNG_SEQ_WRITE (R454). -/
def execRngSeqWrite (r : Fin 65536) (v : Word) (s : State) : Host.Outcome State Fault Refusal := .next (s.seqWrite r.val v)

/-- The driver clears refused: acceptance resumes and the slot is fetched again (R460). -/
def State.clearRefused (s : State) (r : Nat) : State := s.setFld (RNG_STATUS_refused r) 0

/-- REFUSED_CLEAR (R460). -/
def execRefusedClear (r : Fin 65536) (s : State) : Host.Outcome State Fault Refusal := .next (s.clearRefused r.val)

/-! ### Completion records (R453, R475, R482) -/

/-- A record (R475) without its phase bit; `fl` holds bits 1 and 2 of byte 5. -/
def recordBytes (seq status fl err ring kind ctx tide c1 c2 : Nat) : List Byte :=
  leBytes 4 seq ++ leBytes 1 status ++ leBytes 1 fl ++ leBytes 2 err ++ leBytes 2 ring ++ leBytes 1 kind ++ leBytes 1 ctx ++
  leBytes 4 0 ++ leBytes 8 tide ++ leBytes 4 c1 ++ leBytes 4 c2

/-- Send the vector of a completion ring; the count and the timer of moderation restart (R482). -/
def State.ringIrq (s : State) (q : Nat) : State :=
  { s.msix (s.fld (RNG_NOTIFY_vector q)) with moder := SMap.erase s.moder q }

/-- Interrupt moderation after a record (R482): an INTERRUPT descriptor or the count threshold sends the vector at once. -/
def State.moderate (s : State) (q : Nat) (irq : Bool) : State :=
  if !s.flag (RNG_NOTIFY_irq_enable q) then s
  else
    let m := SMap.get (fun _ => (0, s.tide.ns)) s.moder q
    let s1 := { s with moder := SMap.insert s.moder q (m.1 + 1, m.2) }
    if irq || decide (s.fld (RNG_MODERATION_count_thr q) ≤ m.1 + 1) then s1.ringIrq q else s1

/-- Write a record at W of completion ring `q`, with the phase of the pass (R453): a pass is as many records as the ring has, counted from its
enable; W advances. -/
def State.writeRecord (s : State) (q : Nat) (bs : List Byte) (irq : Bool) : State :=
  let w := s.fld (RNG_HEAD_head q)
  let n := s.ringSize q
  let k := SMap.get (fun _ => 0) s.cqPass q
  let out := bs.take 5 ++ [BitVec.ofNat 8 (leAt bs 5 1 / 2 * 2 + 1 - k / n % 2)] ++ bs.drop 6
  let a := s.ringBase q + w % n * 32
  let s1 := if s.flag (RNG_CFG_in_device q) then (s.store (.unit (srcOther 1)) a out).2 else s.setHost a out
  let s2 := s1.setFld (RNG_HEAD_head q) ((w + 1) % (2 * n))
  (State.count { s2 with cqPass := SMap.set (fun _ => 0) s2.cqPass q (k + 1) } (cntHub 2)).moderate q irq

/-- The record of a completion (R475): the context is the ring's. A journalled one is the stored record with the marks of replay (R480). -/
def State.recordOf (s : State) (d : Done) : List Byte :=
  let j := s.jget d.entry
  if d.journalled then
    j.record.take 5 ++ [BitVec.ofNat 8 (2 * b2n (s.replayQ.contains d.entry) + 4 * b2n d.uncertain)] ++ j.record.drop 6
  else recordBytes (dSeq j.desc) d.status.code (2 * b2n (s.replayQ.contains d.entry) + 4 * b2n d.uncertain) d.err.code j.ring (dKind j.desc)
    (s.fld (RNG_CFG_context j.ring)) d.tide d.c1 d.c2

/-- Remove an entry from the completions that commit records owe (R349). -/
def State.dropOwed (s : State) (e : Nat) : State :=
  let cs := s.commits.map (fun c => { c with owed := c.owed.filter (fun m => m.entry != e) })
  { s with commits := cs.filter (fun c => !c.done || !c.owed.isEmpty) }

/-- Whether completion ring `q` takes a record: it is enabled (R454), and a ring in host memory needs the endpoint (R534). -/
def State.takesRecord (s : State) (q : Nat) : Bool := s.flag (RNG_CFG_enable q) && (s.flag (RNG_CFG_in_device q) || !s.tlpStop)

/-- Whether a completion can be written now: not journalled yet, or held for a completion ring that takes it (R454). -/
def State.doneReady (s : State) (d : Done) : Bool :=
  !d.journalled || s.takesRecord (s.fld (RNG_CFG_cq_index (s.jget d.entry).ring))

/-- SIGNAL_ON_DONE (R471, R436): marked in the journal, then an ADD of 1 to the ring's counter. -/
def State.signalDone (s : State) (e : Nat) : State :=
  let j := s.jget e
  if dSignal j.desc && !j.marked then
    (s.jput e { j with marked := true }).toHome
      ⟨s.fld (RNG_NOTIFY_signal_counter j.ring), 0, 1, ⟨s.chip, srcRing j.ring % 65536⟩, none⟩
  else s

/-- COMPLETION_WRITE (R470, R454, R471, R534): the oldest completion that can be written is journalled in state 3, and SIGNAL_ON_DONE acts; with its
completion ring enabled its record is written. A record whose TLP fails the endpoint's check is not sent and stays owed. -/
def execCompletionWrite (badTlp : Bool) (s : State) : Host.Outcome State Fault Refusal :=
  .next (match s.doneQ.find? s.doneReady with
    | none => s
    | some d =>
      let j := s.jget d.entry
      let q := s.fld (RNG_CFG_cq_index j.ring)
      let bs := s.recordOf d
      let s1 := (if d.journalled then s else (s.jput d.entry { j with state := 3, record := bs }).dropOwed d.entry).signalDone d.entry
      let held := { s1 with doneQ := s1.doneQ.map (fun x => if x = d then { x with journalled := true } else x) }
      if !s.takesRecord q then held
      else if badTlp && !s.flag (RNG_CFG_in_device q) then held.tlpFault
      else ({ s1 with doneQ := s1.doneQ.erase d }).writeRecord q bs (dInterrupt j.desc))

/-- DESCRIPTOR_RETIRE (R470): the record of entry `e` is known to have landed; the entry is free. -/
def execDescriptorRetire (e : Nat) (s : State) : Host.Outcome State Fault Refusal :=
  .next (if (s.jget e).state = 3 ∧ !s.doneQ.any (fun d => d.entry == e) then
      { s.jput e JEntry.free with replayQ := s.replayQ.filter (fun x => x != e) }
    else s)

/-- INTERRUPT_MODERATION (R482): time_us after the oldest record since the last interrupt. -/
def execInterruptModeration (r : Fin 65536) (s : State) : Host.Outcome State Fault Refusal :=
  .next (match SMap.find s.moder r.val with
    | some m =>
      if s.flag (RNG_NOTIFY_irq_enable r.val) && s.fld (RNG_MODERATION_time_us r.val) != 0 then
        (s.atTide (m.2 + 1000 * s.fld (RNG_MODERATION_time_us r.val))).ringIrq r.val
      else s
    | none => s)

/-- MSI-X vector `v` is unmasked: a message that fell due is sent (R448). -/
def State.unmask (s : State) (v : Nat) : State :=
  let s1 := s.setFld (MSIX_CTL_mask v) 0
  if s.flag (pbaFld v) then s1.msixMessage v else s1

/-- MSIX_UNMASK (R448). -/
def execMsixUnmask (v : Fin 2048) (s : State) : Host.Outcome State Fault Refusal := .next (s.unmask v.val)

/-! ### Acceptance (R450, R452, R460, R469, R474) -/

/-- Whether acceptance is open (R25, R534, R612, R615, R539, R540, R561): the endpoint has not stopped, start-up has ended, no reset is asked for, the hub is below its throttle
limit, and the module is in S0. -/
def State.accepting (s : State) : Bool :=
  !s.tlpStop && s.fld HUB_BOOT_STATUS_phase == 6 && s.warmReq.isNone && !s.coldReq && !s.flag HUB_MODULE_STATUS_acceptance_paused &&
  !s.flag SAF_STATUS_shutdown && !s.hubHot && s.fld PWR_STATUS_state == 0 && !s.flag PWR_STATUS_entering

/-- A refusal waits for an enabled completion ring, or no longer does (R460); the other reasons show by themselves (State.pauseReason). -/
def State.refusalWaits (s : State) (r : Nat) (on : Bool) : State :=
  (s.setFld (RNG_STATUS_paused r) (b2n on)).setFld (RNG_STATUS_pause_reason r) (b2n on)

/-- The lowest journal entry index that is free; `fuel` bounds the search. -/
def freeEntry (j : SMap JEntry) : Nat → Nat → Nat
  | 0, i => i
  | fuel + 1, i => match SMap.find j i with
    | none => i
    | some _ => freeEntry j fuel (i + 1)

/-- A descriptor is refused (R460): the ring stops, and its record is written. -/
def State.refuse (s : State) (r seq kind : Nat) (err : ErrCode) : State :=
  let s1 := (s.setFlag (RNG_STATUS_refused r)).setFld (RNG_REFUSED_index r) (s.fld (RNG_HEAD_head r))
  s1.writeRecord (s.fld (RNG_CFG_cq_index r))
    (recordBytes seq Status.faultFailed.code 0 err.code r kind (s.fld (RNG_CFG_context r)) s.tide.ns 0 0) false

/-- Fetch the slot at the head of ring `r` (R449, R460): 64 bytes, or none where the fetch fails. -/
def State.fetchDesc (s : State) (r : Nat) (fetchOk : Bool) : Option (List Byte) × State :=
  let a := s.ringBase r + s.fld (RNG_HEAD_head r) % s.ringSize r * 64
  if s.flag (RNG_CFG_in_device r) then
    if hbmTop < a + 64 then (none, s.unmapped)
    else
      let x := s.readPiece (.unit (srcOther 1)) a 64
      (if x.2.1 = .ok ∧ fetchOk then some x.1 else none, x.2.2)
  else (if fetchOk then some (s.hostBytes a 64) else none, s)

/-- DESCRIPTOR_ACCEPT (R469, R460, R452, R474, R25): the head descriptor of ring `r` is fetched and accepted, refused, or waits. -/
def execDescriptorAccept (r : Fin 65536) (fetchOk : Bool) (s : State) : Host.Outcome State Fault Refusal :=
  let i := r.val
  let q := s.fld (RNG_CFG_cq_index i)
  .next (if !s.flag (RNG_CFG_enable i) || s.flag (RNG_CFG_cq i) || s.flag (RNG_STATUS_refused i) ||
      s.fld (RNG_HEAD_head i) == s.fld (RNG_TAIL_tail i) then s
    else if journalSize ≤ s.journal.length then s.setFlag RNG_JOURNAL_STATUS_journal_full
    else if s.pauseReason i ≠ 0 || !s.accepting then s
    else
      let x := s.fetchDesc i fetchOk
      let s1 := x.2.refusalWaits i false
      match x.1 with
      | none =>
        if s.flag (RNG_CFG_enable q) then
          let k := s1.takeFree 8
          k.2.refuse i (s.fld (RNG_SEQ_next_seq i)) k.1 .memoryFault
        else s.refusalWaits i true
      | some d =>
        if dSeq d ≠ s.fld (RNG_SEQ_next_seq i) then
          if s.flag (RNG_CFG_enable q) then s1.refuse i (dSeq d) (dKind d) .badSequence else s.refusalWaits i true
        else
          let e := freeEntry s1.journal s1.journal.length 0
          let s2 := s1.jput e ⟨d, i, 1, false, s.tide.ns, s.acceptNo, []⟩
          let s3 := (s2.setFld (RNG_HEAD_head i) ((s.fld (RNG_HEAD_head i) + 1) % s.ringMod i)).wrapBump (RNG_SEQ_next_seq i)
          { ((s3.setFlagIf (decide (journalSize ≤ s.journal.length + 1)) RNG_JOURNAL_STATUS_journal_full).wrapBump (RNG_ACCEPTED_accepted i)).count (cntHub 1) with
            acceptNo := s.acceptNo + 1
            ringQ := SMap.modify qDefault s3.ringQ i (fun l => l ++ [e]) })

/-! ### Dispatch (R461 to R464, R481) -/

/-- Whether re-execution of a descriptor is honoured by its kind, were IDEMPOTENT set (R481). -/
def kindHonours (d : List Byte) : Bool :=
  let k := dKind d
  let b := leAt d 16 1
  if k = kindSolve then !bitOf b 3
  else if k = kindReduce then bitsOf b 0 2 == 0
  else if k = kindRingStep then false
  else if k = kindSignal then b == 1 || b == 2 || b == 3 || b == 0xB
  else if k = kindWait then !bitOf b 2
  else kinds.contains k

/-- Kinds that are honoured always (R481). -/
def kindAlways (k : Nat) : Bool := k == kindGroupBegin || k == kindGroupCommit || k == kindGroupAbort || k == kindConfig || k == kindNop

/-- Whether a descriptor is honoured as idempotent, and skips state 2 (R470, R481). -/
def honoured (d : List Byte) : Bool := kindAlways (dKind d) || (dIdempotent d && kindHonours d)

/-- The kinds that may name a commit group (R340), or name the group they act on (R341). -/
def kindGrouped (k : Nat) : Bool :=
  [kindUpdate, kindStats, kindRoot, kindWebTable, kindOwnerMap, kindSignal, kindGroupBegin, kindGroupCommit, kindGroupAbort].contains k

/-- The sub-operations of kinds that have several commands: a value that names none is a bad descriptor. -/
def subOk (d : List Byte) : Bool :=
  let k := dKind d
  let b := leAt d 16 1
  if k = kindSignal then decide (b ≤ 3) || (decide (8 ≤ b) && decide (b ≤ 0xB))
  else if k = kindStream then decide (b ≤ 1)
  else if k = kindBroadcast || k = kindReduce then decide (bitsOf b 0 2 ≤ 1)
  else true

/-- Kinds and roles whose own chapter says what a deadline does before the start (R462): a HARVEST's is its sluice (R363, R383), a GROUP_COMMIT's
is judged at the confirmation (R347), a SOLVE's only in setup and iteration (R299). -/
def ownDeadline (d : List Byte) : Bool :=
  dKind d == kindGroupCommit || dKind d == kindSolve || (dKind d == kindReduce && bitsOf (leAt d 16 1) 0 2 == 1)

/-- A descriptor whose deadline has been reached before it starts (R462). -/
def State.lateStart (s : State) (d : List Byte) : Bool := dDeadlineValid d && decide (dDeadline d ≤ s.tide.ns) && !ownDeadline d

/-- The header checks of R461. -/
def State.headerOk (s : State) (r : Nat) (d : List Byte) : Bool :=
  kinds.contains (dKind d) && dHeaderOk d && dContext d == s.fld (RNG_CFG_context r) && (dGroup d == 0 || kindGrouped (dKind d)) && subOk d

/-- Started and uncompleted descriptors of ring `r` (R464). -/
def State.startedIn (s : State) (r : Nat) : Nat := ((SMap.get qDefault s.ringQ r).filter (fun e => (s.working e).isSome)).length

/-- Whether a descriptor waits to start: a SAVE in maintenance mode (R30). -/
def State.waitsToStart (s : State) (d : List Byte) : Bool :=
  dKind d == kindSignal && leAt d 16 1 == 8 && s.flag HUB_MODULE_STATUS_maintenance_mode

/-- The descriptor of ring `r` that starts next, if it may start now (R464, R437, R30). -/
def State.nextOf (s : State) (r : Nat) : Option Nat :=
  let q := SMap.get qDefault s.ringQ r
  let before := q.takeWhile (fun e => (s.working e).isSome)
  match q.drop before.length with
  | [] => none
  | e :: _ =>
    if 4096 ≤ before.length then none
    else if dFence (s.desc e) && !before.isEmpty || s.waitsToStart (s.desc e) then none
    else if before.any (fun x => dKind (s.desc x) == kindWait) then none
    else some e

/-- The ring that dispatch serves next (R463): the highest class with a descriptor that may start, round robin within it. -/
def State.nextRing (s : State) : Option Nat :=
  let cands := (s.ringQ.map (·.1)).filter (fun r => (s.nextOf r).isSome)
  let cls := (List.range 8).find? (fun p => cands.any (fun r => s.fld (RNG_CFG_priority r) == p))
  match cls with
  | none => none
  | some p =>
    let l := cands.filter (fun r => s.fld (RNG_CFG_priority r) == p)
    match l.find? (fun r => decide (SMap.get (fun _ => 65536) s.rr p < r)) with
    | some r => some r
    | none => l.head?

/-- NOP (R468): a reserved body; completes with OK. -/
def execNop (e : Nat) (s : State) : Host.Outcome State Fault Refusal :=
  .next (if s.fresh e kindNop then (if dZero (s.desc e) 16 63 then s.okWith e else s.bad e) else s)

end Sys2Proof.Machine
end

