-- ==== Sys2Proof/Machine/Tide.lean ====
section
/-! DEFINITION. The tide unit (02_tide_and_web.md R39 to R62): offsets and steering, root and parent, lock, holdover, epoch loads, the
reference inputs, alarms and TIDE_OUT. Times inside are in units of 1/65,536 ns. -/

namespace Sys2Proof.Machine

def tportDefault : Nat → TidePort := fun _ => TidePort.zero
def State.tport (s : State) (p : Nat) : TidePort := SMap.get tportDefault s.tports p
def State.setTport (s : State) (p : Nat) (t : TidePort) : State := { s with tports := SMap.set tportDefault s.tports p t }

/-- Nanoseconds of a frame (R9). -/
def frameNs : Nat := 2048

/-- The frame number of the local tide. -/
def State.frame (s : State) : Nat := s.tide.ns / frameNs

/-- The tide with its fraction. -/
def State.fine (s : State) : Nat := s.tide.ns * 65536 + s.tide.frac

/-- A time of the local tide, moved with a coarse step of `d`. -/
def moveBy (d : Int) (t : Nat) : Nat := ((t : Int) + d).toNat

/-- The requests of a port keep their age over a coarse step of `d` ns. -/
def PortUnit.moveBy (u : PortUnit) (d : Int) : PortUnit :=
  { u with
    ctlReq := u.ctlReq.map (fun x => (Machine.moveBy d x.1, x.2))
    fencePend := u.fencePend.map (fun x => (x.1, Machine.moveBy d x.2))
    switchPend := u.switchPend.map (fun x => (x.1, Machine.moveBy d x.2))
    fwd := u.fwd.map (fun x => (x.1, Machine.moveBy d x.2)) }

/-- Set the tide to a fine value: a coarse step (R50, R54, R55). Deadlines, swap tides and alarms keep their values (R55); what measures a time
from an event keeps its age, and an echo of a cell sent before the step is no measurement (DEDUCED, notes/assumptions/131.md). -/
def State.stepTo (s : State) (x : Nat) : State :=
  let n : Nat := x / 65536 % 2 ^ 64
  let d : Int := (n : Int) - s.tide.ns
  let df : Int := Int.ofNat (n * 65536 + x % 65536) - s.fine
  let s1 := { s with
    tide := { s.tide with
      ns := n, frac := x % 65536, done := n / frameNs, refStart := s.tide.refStart + df, refLast := moveBy df s.tide.refLast
      ppsLast := moveBy df s.tide.ppsLast, outRise := s.tide.outRise.map (moveBy d) }
    holdReq := s.holdReq.map (fun r => (r.1, r.2.1, moveBy d r.2.2))
    errCoal := s.errCoal.map (fun r => (r.1, r.2.1, moveBy d r.2.2))
    moder := s.moder.map (fun r => (r.1, r.2.1, moveBy d r.2.2))
    lastExit := s.lastExit.map (moveBy d)
    trialAt := moveBy d s.trialAt }
  forUpTo 18 (fun p t => (t.setPort p ((t.port p).moveBy d)).setTport p { t.tport p with t1 := 0, t1Min := 0 }) s1

/-- Swaps whose frame lies in the past after a step are LATE: they do not take place (R88). -/
def State.dropPastSwaps (s : State) : State :=
  forUpTo 18 (fun p t =>
    let u := t.port p
    let keep := fun o : Option Nat => match o with
      | some x => if x < t.tide.ns then none else some x
      | none => none
    t.showSwap p { u with txSwap := keep u.txSwap, rxSwap := keep u.rxSwap }) s

/-- A signed rate in 0.01 ppm, held within ±200 ppm (R45). -/
def clampRate (r : Int) : Int := clampInt (-20000) 20000 r

/-- The rate that removes an error of `x` (1/65,536 ns) over 16 frames (R45): −x / (16 × 2,048 ns), in 0.01 ppm, rounded down (DESIGN CHOICE,
notes/assumptions/132.md). -/
def removeRate (x : Int) : Int := clampRate (-(x * 100000000) / (16 * 2048 * 65536))

def State.setRate (s : State) (r : Int) : State := s.setFld TID_RATE_ADJ_rate (toBits 32 (clampRate r))

/-- Lock state changes (R52, R56). -/
def State.achieveLock (s : State) : State :=
  let s1 := s.setFld TID_STATUS_locked 1
  { s1 with tide := { s1.tide with everLocked := true, mayStep := false } }

def State.loseLock (s : State) : State :=
  let s1 := ((s.setFld TID_STATUS_locked 0).setFlag TID_STATUS_lock_lost).count (cntHub 20)
  { s1 with tide := { s1.tide with lockRun := 0, lockFrame := 0 } }

/-- The pair of a root as one number; the lower wins (R46). -/
def rootPair (prio chip : Nat) : Nat := prio * 65536 + chip

def State.ownPair (s : State) : Nat := rootPair (s.fld TID_CTL_root_priority) s.chip

/-- The pairs that tide cells of trained ports announce, whose sequence has advanced in the last 64 frames (R46, R47). -/
def State.heardPairs (s : State) : List Nat :=
  ((List.range 18).filter (fun p => s.portUp p && (s.tport p).seen && decide ((s.tport p).seqAge ≤ 64) && (s.tport p).rootId != 0xFFFF)).map
    (fun p => rootPair (s.tport p).rootPrio (s.tport p).rootId)

/-- The lowest announced pair, this module's own included while it announces itself (R46). -/
def State.currentRoot (s : State) : Option Nat :=
  let l := (if s.flag TID_STATUS_is_root then [s.ownPair] else []) ++ s.heardPairs
  l.foldl (fun (a : Option Nat) x => match a with
    | none => some x
    | some y => some (min x y)) none

/-- The parent (R48): the port that names the current root at the lowest distance, whose sequence has advanced in the last 4 frames. -/
def State.chooseParent (s : State) : Option Nat :=
  match s.currentRoot with
  | none => none
  | some r =>
    let ok := (List.range 18).filter (fun p => s.portUp p && (s.tport p).seen && decide ((s.tport p).seqAge ≤ 4) &&
      rootPair (s.tport p).rootPrio (s.tport p).rootId == r)
    ok.foldl (fun (a : Option Nat) p => match a with
      | none => some p
      | some q => if (s.tport p).dist < (s.tport q).dist then some p else some q) none

/-- The rate of a root (R49, R51): the rate disciplined by TIDE_REF, where use_ref is set and the reference has been seen, plus the correction for
TIDE_PPS, held within ±200 ppm. In holdover the rate stays (R57). -/
def State.showRate (s : State) : State :=
  if s.flag TID_STATUS_holdover then s
  else s.setRate ((if s.flag TID_CTL_use_ref && s.tide.refSeen then s.tide.refRate else 0) + s.tide.ppsRate)

/-- The module announces itself as root (R47, R51, R52). -/
def State.announceRoot (s : State) : State :=
  let s1 := ((((s.setFld TID_STATUS_is_root 1).setFld TID_STATUS_parent_port 31).setFld TID_STATUS_root_distance 0).setFld
    TID_ROOT_ID_root_chip s.chip).setFld TID_ROOT_ID_root_prio (s.fld TID_CTL_root_priority)
  (s1.setFld TID_STATUS_holdover 0).achieveLock.showRate

/-- Show a parent, or none, and its distance plus 1 (R48). A change of parent breaks a run of frames toward lock (R52). -/
def State.setParent (s : State) (p d : Nat) : State :=
  let s1 := (s.setFld TID_STATUS_parent_port p).setFld TID_STATUS_root_distance d
  if s.fld TID_STATUS_parent_port = p then s1 else { s1 with tide := { s1.tide with lockRun := 0, lockFrame := 0 } }

/-- Show the current root and the parent of a module that is not the root (R46, R48). -/
def State.showParent (s : State) : State :=
  if s.flag TID_STATUS_is_root then s
  else
    let s1 := match s.currentRoot with
      | some r => (s.setFld TID_ROOT_ID_root_chip (r % 65536)).setFld TID_ROOT_ID_root_prio (r / 65536)
      | none => (s.setFld TID_ROOT_ID_root_chip 0xFFFF).setFld TID_ROOT_ID_root_prio 0xFF
    match s.chooseParent with
    | some p => s1.setParent p (min 255 ((s.tport p).dist + 1))
    | none => s1.setParent 31 255

/-- Whether a trained port's tide cells name a locked root (R57): its last tide cell, of whatever age (DESIGN CHOICE, notes/assumptions/133.md). -/
def State.namesLockedRoot (s : State) : Bool :=
  (List.range 18).any (fun p => s.portUp p && (s.tport p).seen && (s.tport p).locked && (s.tport p).rootId != 0xFFFF)

def State.enterHoldover (s : State) : State :=
  let s1 := s.setFld TID_STATUS_holdover 1
  { s1 with tide := { s1.tide with holdoverFrames := 0 } }

/-- A module that announces itself as root stops (R46, R57): it enters holdover when no trained port names a locked root, else it takes a
parent and stays locked. An armed epoch load stays armed (DESIGN CHOICE, notes/assumptions/134.md). -/
def State.resignRoot (s : State) : State :=
  let s0 := { s with tide := { s.tide with ppsRate := 0, ppsFrames := 0 } }
  let s1 := s0.setFld TID_STATUS_is_root 0
  if s1.namesLockedRoot then s1.showParent else s1.enterHoldover.showParent

/-- The choice of root (R46, R47): a root yields to a lower pair; a candidate with a lower pair than the current root's that has been locked
since its last reset announces itself. -/
def State.settleRoot (s : State) : State :=
  let low := s.heardPairs.foldl min (2 ^ 32)
  if s.flag TID_STATUS_is_root then
    if low < s.ownPair then (s.setFlag TID_STATUS_root_conflict).resignRoot
    else if !s.flag TID_CTL_root_enable then s.resignRoot
    else s
  else if s.flag TID_CTL_root_enable && s.tide.everLocked then
    if low = 2 ^ 32 then s.showParent
    else if s.ownPair < low then s.announceRoot
    else (if low < s.ownPair then s.setFlag TID_STATUS_root_conflict else s).showParent
  else s.showParent

/-- What a tide cell of the parent does (R45, R52, R54, R55, R56): `theta` is known once the peer has echoed a cell of ours. A locked module that
sees another epoch generation only notes the step that R55 makes at the next frame boundary (DEDUCED, notes/assumptions/131.md). -/
def State.fromParent (s : State) (p : Nat) (tx t4 : Nat) (theta : Option Int) (gen : Nat) : State :=
  let tp := s.tport p
  let locked := s.flag TID_STATUS_locked
  if s.tide.mayStep && !locked && tp.locked then
    let s1 := ((s.stepTo (tx + tp.linkDelay)).setFld TID_STATUS_epoch_gen gen).dropPastSwaps
    { s1 with tide := { s1.tide with mayStep := false, lockRun := 0, lockFrame := 0 } }
  else if locked && gen != s.fld TID_STATUS_epoch_gen then
    { s with tide := { s.tide with follow := some (gen, (tx : Int) + tp.delay - t4, s.tide.ns) } }
  else match theta with
    | none => s
    | some th =>
      let s1 := s.setFld TID_OFFSET_theta (toBits 32 (th / 4096))
      let s2 := if s.flag TID_STATUS_holdover then s1 else s1.setRate (removeRate th)
      if locked then (if 64 * 65536 < th.natAbs then s2.loseLock else s2)
      else
        let near := decide (th.natAbs ≤ 2 * 65536) && s2.tide.lockFrame != 2
        { s2 with tide := { s2.tide with lockFrame := if near then 1 else 2 } }

/-- Whether a tide cell of ours left at `t1` on the port, since its last training and the last coarse step: the peer's echo of it measures. -/
def TidePort.heardAt (tp : TidePort) (t1 : Nat) : Bool := tp.t1Min != 0 && decide (tp.t1Min ≤ t1) && decide (t1 ≤ tp.t1)

/-- TIDE_CELL_RECEIVE (R43 to R48, R52, R54 to R56): the measurements of the port, then root, parent, steering and lock. The first tide cell of a
port counts as an advance of the announce sequence, and later sequences are compared modulo 2^32 (DESIGN CHOICE, notes/assumptions/135.md). -/
def execTideCellReceive (p : Fin 18) (cell : Cell) (t4 : BitVec 64) (t4frac : BitVec 16) (s : State) : Host.Outcome State Fault Refusal :=
  .next (if !s.portUp p.val || cell.hdr.ctype != 2#8 then s
    else
      let s0 := s.atTide t4.toNat
      let b := cell.payload
      let rx := t4.toNat * 65536 + t4frac.toNat
      let t3 := leAt b 0 8 * 65536 + leAt b 8 2
      let t1 := leAt b 12 8 * 65536 + leAt b 30 2
      let t2 := leAt b 20 8 * 65536 + leAt b 28 2
      let asym : Int := sext 16 (s.fld (TID_PORT_ASYM_asym p.val)) * 8192
      let old := s0.tport p.val
      let seq := leAt b 36 4
      let gen := leAt b 41 1
      let adv := !old.seen || (seq != old.seq && decide (subMod seq old.seq (2 ^ 32) < 2 ^ 31))
      let known := old.heardAt t1
      let d : Int := (((t2 : Int) - t1) + ((rx : Int) - t3)) / 2
      let th : Int := (((t1 : Int) - t2) + ((rx : Int) - t3)) / 2 + asym
      let fl := leAt b 40 1
      let tp := { old with
        echoTx := t3, echoRx := rx, delay := if known && gen == s.fld TID_STATUS_epoch_gen then d else old.delay
        theta := if known then th else old.theta
        rootId := leAt b 32 2, rootPrio := leAt b 34 1, dist := leAt b 35 1, seq := seq, seqAge := if adv then 0 else old.seqAge
        locked := bitOf fl 0, epochGen := gen, seen := true }
      let s1 := (s0.setTport p.val tp).setFld (WEB_PORT_STATUS_peer_locked p.val) (b2n (bitOf fl 0))
      let s2 := if adv then
          State.setFld { s1 with tide := { s1.tide with quiet := 0 } } TID_STATUS_holdover
            (if s1.fld PWR_STATUS_state < 2 then 0 else s1.fld TID_STATUS_holdover)
        else s1
      let s3 := s2.settleRoot
      if !s3.flag TID_STATUS_is_root && s3.fld TID_STATUS_parent_port == p.val then
        s3.fromParent p.val t3 rx (if known then some th else none) gen
      else s3)

/-- The next frame boundary after the local tide (R41). -/
def State.nextBoundary (s : State) : Nat := (s.frame + 1) * frameNs

/-- The first frame boundary at least 32 ns after `t` (R41). -/
def boundaryAfter (t : Nat) : Nat := ceilDiv (t + 32) frameNs * frameNs

/-- EPOCH_FOLLOW (R55): at the next frame boundary the tide steps to the parent's and its epoch generation is taken. -/
def execEpochFollow (s : State) : Host.Outcome State Fault Refusal :=
  .next (match s.tide.follow with
    | none => s
    | some f =>
      let s1 := s.atTide (boundaryAfter f.2.2)
      let s2 := (s1.stepTo ((s1.fine : Int) + f.2.1).toNat).setFld TID_STATUS_epoch_gen f.1
      State.dropPastSwaps { s2 with tide := { s2.tide with follow := none } })

/-- ROOT_ANNOUNCE_TIMEOUT (R47): 64 frames with no advancing announce sequence on any trained port: a candidate announces itself. -/
def execRootAnnounceTimeout (s : State) : Host.Outcome State Fault Refusal :=
  .next (if s.flag TID_CTL_root_enable && !s.flag TID_STATUS_is_root && decide (64 ≤ s.tide.quiet) then s.announceRoot else s)

/-- HOLDOVER_ENTER (R57): 64 frames with no advancing announce sequence, or the module is in S2 or S3. The root is its own source. -/
def execHoldoverEnter (s : State) : Host.Outcome State Fault Refusal :=
  .next (if (decide (64 ≤ s.tide.quiet) && !s.flag TID_STATUS_is_root || decide (2 ≤ s.fld PWR_STATUS_state)) &&
      !s.flag TID_STATUS_holdover then s.enterHoldover else s)

/-- HOLDOVER_EXPIRY (R57): after 2,000 frames in holdover a locked module leaves lock. -/
def execHoldoverExpiry (s : State) : Host.Outcome State Fault Refusal :=
  .next (if s.flag TID_STATUS_holdover && s.flag TID_STATUS_locked && decide (2000 ≤ s.tide.holdoverFrames) then s.loseLock else s)

/-! ### The reference inputs (R49 to R51) -/

/-- TIDE_REF_EDGE (R49, R51): the reference is present; edges are counted from the one at which ref_ok became 1. -/
def execTideRefEdge (s : State) : Host.Outcome State Fault Refusal :=
  let first := !s.flag TID_STATUS_ref_ok
  .next (let s1 := s.setFld TID_STATUS_ref_ok 1
    { s1 with tide := { s1.tide with
        refSeen := true, refLast := s.fine
        refStart := if first then s.fine else s.tide.refStart
        refEdges := if first then 0 else s.tide.refEdges + 1 } })

/-- TIDE_REF_LOSS (R51): no edge for 10 µs; the root keeps its last disciplined rate (R49). -/
def execTideRefLoss (s : State) : Host.Outcome State Fault Refusal :=
  .next (if s.flag TID_STATUS_ref_ok then
      let s1 := (s.atTide (s.tide.refLast / 65536 + 10000)).setFld TID_STATUS_ref_ok 0
      { s1 with tide := { s1.tide with refEdges := 0 } }
    else s)

/-- The epoch load (R50): a coarse step on the root; its generation advances. -/
def State.loadEpoch (s : State) : State :=
  let x := (s.fld TID_EPOCH_SET_LO_epoch_lo + s.fld TID_EPOCH_SET_HI_epoch_hi * 2 ^ 32) * 65536
  (((s.stepTo x).setFld TID_CTL_epoch_arm 0).setFld TID_STATUS_epoch_gen (s.fld TID_STATUS_epoch_gen + 1)).dropPastSwaps

/-- Frames for which a rate (0.01 ppm) is kept to remove an error of `x` (1/65,536 ns), to the nearest frame (R49, notes/assumptions/127.md). -/
def removeFrames (x rate : Int) : Nat :=
  let d := rate.natAbs * (2048 * 65536)
  if d = 0 then 0 else (2 * x.natAbs * 100000000 + d) / (2 * d)

/-- TIDE_PPS_EDGE (R49, R50): an armed epoch is loaded; otherwise a root that uses TIDE_PPS forms its error and removes it by rate. -/
def execTidePpsEdge (s : State) : Host.Outcome State Fault Refusal :=
  let s1 := State.setFld { s with tide := { s.tide with ppsLast := s.fine } } TID_STATUS_pps_ok 1
  .next (if !s1.flag TID_STATUS_is_root then s1
    else if s1.flag TID_CTL_epoch_arm then s1.loadEpoch
    else if !s1.flag TID_CTL_use_pps then s1
    else
      let g := 1000000000 * 65536
      let m := s1.fine % g
      let e : Int := if 2 * m < g then (m : Int) else (m : Int) - g
      State.showRate { s1 with tide := { s1.tide with ppsRate := removeRate e, ppsFrames := removeFrames e (removeRate e) } })

/-- TIDE_PPS_LOSS (R51): no edge for 1.5 s. -/
def execTidePpsLoss (s : State) : Host.Outcome State Fault Refusal :=
  .next (if s.flag TID_STATUS_pps_ok then (s.atTide (s.tide.ppsLast / 65536 + 1500000000)).setFld TID_STATUS_pps_ok 0 else s)

/-- epoch_arm is written with 1 (R50): the root loads at once when use_pps is 0, else it waits for the edge; elsewhere it is ignored. -/
def State.armEpoch (s : State) : State :=
  if !s.flag TID_STATUS_is_root then s
  else if s.flag TID_CTL_use_pps then s.setFld TID_CTL_epoch_arm 1
  else s.loadEpoch

/-- EPOCH_ARM (R50). -/
def execEpochArm (s : State) : Host.Outcome State Fault Refusal := .next s.armEpoch

/-- TID_NOW_LO_READ (R42): the low half is returned and the high half of the same value latched; what it returns in the maintenance hold, where the
register cannot be read (R542, R635), is open. -/
def execTidNowLoRead (s : State) : Host.Outcome State Fault Refusal :=
  let x := if s.fld HUB_BOOT_STATUS_phase = 7 then s.takeFree 32 else ((s.readReg TID_NOW_LO).1.toNat, (s.readReg TID_NOW_LO).2)
  .next { x.2 with out := ⟨leBytes 4 x.1, false, false⟩ }

/-! ### Alarms and TIDE_OUT (R60 to R62) -/

/-- An alarm fires (R60, R61): it is disarmed, flagged, and its enabled actions are performed. In S2 and S3 a signal is held until the end of the
next exit (R570). -/
def State.fireAlarm (s : State) (n : Nat) (late : Bool) : State :=
  let s1 := ((s.setFld (TID_ALARM_CTL_armed n) 0).setFlag (TID_ALARM_CTL_fired n)).setFlagIf late (TID_ALARM_CTL_late n)
  let op : SyncOp := ⟨s.fld (TID_ALARM_TARGET_counter n), 0, 1, ⟨s.chip, srcAlarm n⟩, none⟩
  let s2 := if !s.flag (TID_ALARM_CTL_act_signal n) then s1
    else if s.fld PWR_STATUS_state < 2 then s1.toHome op
    else { s1 with heldAlarms := s1.heldAlarms ++ [op] }
  let s3 := if s.flag (TID_ALARM_CTL_act_wake n) then s2.wakeBy 5 else s2
  if s.flag (TID_ALARM_CTL_act_msix n) then s3.msix (s.fld (TID_ALARM_TARGET_vector n)) else s3

/-- A write to TID_ALARMn_CTL (R60, R92): its flags and enables; armed going from 0 to 1 takes the copy, and fires at once, late, when the
value has been reached. -/
def State.alarmWrite (s : State) (n : Nat) (v : Word) : State :=
  let x := v.toNat
  let clr := fun (t : State) (f : Fld) => if bitOf x f.lo then t.setFld f 0 else t
  let s1 := clr (clr s (TID_ALARM_CTL_fired n)) (TID_ALARM_CTL_late n)
  let s2 := ((s1.setFld (TID_ALARM_CTL_act_signal n) (bitsOf x 3 1)).setFld (TID_ALARM_CTL_act_msix n) (bitsOf x 4 1)).setFld
    (TID_ALARM_CTL_act_wake n) (bitsOf x 5 1)
  if !bitOf x 0 then s2.setFld (TID_ALARM_CTL_armed n) 0
  else if s.flag (TID_ALARM_CTL_armed n) then s2
  else
    let val := s.fld (TID_ALARM_LO_value_lo n) + s.fld (TID_ALARM_HI_value_hi n) * 2 ^ 32
    let s3 := s2.setFld (TID_ALARM_CTL_armed n) 1
    let s4 := { s3 with tide := { s3.tide with alarms := SMap.set (fun _ => 0) s3.tide.alarms n val } }
    if val ≤ s.tide.ns then s4.fireAlarm n true else s4

/-- ALARM_ARM (R60): the write that sets armed. -/
def execAlarmArm (n : Fin 16) (v : Word) (s : State) : Host.Outcome State Fault Refusal := .next (s.alarmWrite n.val (v ||| 1#32))

/-- ALARM_FIRE (R60): the tide reaches the copied value of an armed alarm. -/
def execAlarmFire (n : Fin 16) (s : State) : Host.Outcome State Fault Refusal :=
  .next (if s.flag (TID_ALARM_CTL_armed n.val) then
      (s.atTide (SMap.get (fun _ => 0) s.tide.alarms n.val)).fireAlarm n.val false
    else s)

/-- The period of TIDE_OUT in ns (R62). -/
def State.outPeriod (s : State) : Nat := s.fld TID_OUT_CTL_period_ms * 1000000

/-- TIDE_OUT_RISE (R62): at the next whole multiple of the period. -/
def execTideOutRise (s : State) : Host.Outcome State Fault Refusal :=
  .next (if s.flag TID_OUT_CTL_enable && !s.tide.outHigh && s.outPeriod != 0 then
      let t := ceilDiv s.tide.ns s.outPeriod * s.outPeriod
      let s1 := s.atTide t
      { s1 with tide := { s1.tide with outHigh := true, outRise := some t } }
    else s)

/-- TIDE_OUT_FALL (R62): width_us after the rise. -/
def execTideOutFall (s : State) : Host.Outcome State Fault Refusal :=
  .next (match s.tide.outRise with
    | some t =>
      let s1 := s.atTide (t + 1000 * s.fld TID_OUT_CTL_width_us)
      { s1 with tide := { s1.tide with outHigh := false, outRise := none } }
    | none => s)

end Sys2Proof.Machine
end

