-- ==== Sys2Proof/Machine/Port.lean ====
section
/-! DEFINITION. Link ports (15_link_ports.md) and the ends of transfers on a port (02_tide_and_web.md R69, R70, R82 to R87): web-table
entries, re-queueing, line blocks, training, the spare lane, the wake pattern and fences. -/

namespace Sys2Proof.Machine

/-! ### Web-table entries (R69, R70) -/

/-- BAR0 offset of a bank's entry in the window of port `p` (R94 window: TX bank 0, TX bank 1, RX bank 0, RX bank 1). -/
def bankAt (p : Nat) (rx : Bool) (bank slot : Nat) : Nat := 0x110000 + p * 0x1000 + b2n rx * 0x800 + bank * 0x400 + slot * 4

/-- The current bank of a direction. -/
def State.bank (s : State) (p : Nat) (rx : Bool) : Nat := s.fld (if rx then WEB_PORT_STATUS_bank_rx p else WEB_PORT_STATUS_bank_tx p)

/-- The entry of a slot in the current table. -/
def State.entry (s : State) (p : Nat) (rx : Bool) (slot : Nat) : Nat := (s.reg (bankAt p rx (s.bank p rx) slot)).toNat

def entryUse (e : Nat) : Nat := bitsOf e 0 2
def entryStream (e : Nat) : Nat := bitsOf e 2 16
def entryFwd (e : Nat) : Nat := bitsOf e 18 5

/-- Whether an entry of a direction schedules a stream at an endpoint or a transmit slot: collective or ring for transmit, deliver for
receive. -/
def entryHas (rx : Bool) (stream e : Nat) : Bool :=
  (if rx then entryUse e == 1 else entryUse e == 1 || entryUse e == 2) && entryStream e == stream

/-- Whether the current table of port `p` has a slot for the stream; only listed entries can. -/
def State.portHas (s : State) (p : Nat) (rx : Bool) (stream : Nat) : Bool :=
  let lo := bankAt p rx (s.bank p rx) 0
  s.regs.any (fun x => decide (lo ≤ x.1) && decide (x.1 < lo + 1024) && entryHas rx stream x.2.toNat)

/-- The ports whose current table has a slot for the stream. -/
def State.streamPorts (s : State) (rx : Bool) (stream : Nat) : List Nat := (List.range 18).filter (fun p => s.portHas p rx stream)

/-! ### Ending and re-queueing transfers (R86, R87) -/

/-- One more re-queue on port `p` (R86, R94). -/
def State.countRequeue (s : State) (p : Option Nat) : State :=
  match p with
  | none => s
  | some q => (s.bump (WEB_PORT_STATUS_requeue_count q)).count (cntPort q 17)

/-- The port of an outgoing transfer: the one on which its last cell left, else the one that carries it. -/
def State.txPort (s : State) (x : TxXfer) : Option Nat :=
  if x.port < 18 then some x.port
  else if x.loc then none
  else if x.be then s.routePort x.dst 0
  else (s.streamPorts false x.stream).head?

/-- The port of a transfer that arrives: the one on which its last cell came, else the one that carries the stream. -/
def State.rxPort (s : State) (stream port : Nat) : Option Nat :=
  if port < 18 then some port else (s.streamPorts true stream).head?

/-- Whether the cells of an outgoing transfer leave on port `p`. -/
def State.txOn (s : State) (p : Nat) (x : TxXfer) : Bool :=
  !x.loc && (if x.be then s.routePort x.dst 0 == some p else s.portHas p false x.stream)

/-- The transmitting end of a transfer ends and is re-queued from its start: it keeps its tag and sets RETRY (R86). -/
def State.requeueTx (s : State) (stream tag : Nat) (p : Option Nat) : State :=
  match s.tx.find? (fun x => x.stream == stream && x.tag == tag) with
  | none => s
  | some y =>
    State.countRequeue { s with tx := s.tx.map (fun x => if x.stream = stream ∧ x.tag = tag then
      { x with next := 0, gap := 0, moved := false, retry := true, queued := true } else x) } (match p with
        | some q => some q
        | none => s.txPort y)

/-- The receiving end of a transfer is re-queued: its receive is bound again, ahead of later ones, with its landed mark (R84, R86). -/
def State.requeueRx (s : State) (stream tag : Nat) (p : Option Nat) : State :=
  let r := s.rxOf stream
  match r.bound with
  | some b =>
    if b.tag = tag then
      (s.setRx stream { r with bound := some { b with gap := 0, moved := false, queued := true } }).countRequeue (match p with
        | some q => some q
        | none => s.rxPort stream b.port)
    else s
  | none => s

/-- The receiving end of a contribution (R85, R86): the window keeps its landed mark, and the HARVEST goes on (notes/assumptions/136.md). -/
def State.requeueWin (s : State) (stream tag : Nat) (p : Option Nat) : State :=
  let w := bitsOf tag 0 13
  match SMap.find s.wins w with
  | none => s
  | some x =>
    match x.xfers.find? (fun y => y.stream == stream && y.tag == tag) with
    | none => s
    | some y =>
      State.countRequeue { s with wins := SMap.insert s.wins w { x with xfers := x.xfers.map (fun z => if z.stream = stream ∧ z.tag = tag then
        { z with gap := 0, moved := false, queued := true } else z) } } (match p with
          | some q => some q
          | none => s.rxPort stream y.port)

/-- Every transfer on port `p` ends and is re-queued (R87); one that has moved no cell since it was last re-queued has ended already. -/
def State.endTransfers (s : State) (p : Nat) : State :=
  let s1 := (s.tx.filter (fun x => !x.queued && s.txOn p x)).foldl
    (fun (t : State) (x : TxXfer) => t.requeueTx x.stream x.tag (some p)) s
  let rs := s1.rx.filterMap (fun x => match x.2.bound with
    | some b => if s.portHas p true x.1 && !b.queued then some (x.1, b.tag) else none
    | none => none)
  let s2 := rs.foldl (fun (t : State) (x : Nat × Nat) => t.requeueRx x.1 x.2 (some p)) s1
  let ws := s2.wins.flatMap (fun x => (x.2.xfers.filter (fun y => y.stream != 0 && !y.done && !y.queued && s.portHas p true y.stream)).map
    (fun y => (y.stream, y.tag)))
  ws.foldl (fun (t : State) (x : Nat × Nat) => t.requeueWin x.1 x.2 (some p)) s2

/-! ### Hold and stop requests (R82, R93, R94) -/

/-- A write of hold_req and stop_req of a port, registered now; it takes effect at a frame boundary (R41, R82). -/
def State.webCtlWrite (s : State) (p hold stop : Nat) : State :=
  let s1 := (s.setFld (WEB_PORT_CTL_hold_req p) hold).setFld (WEB_PORT_CTL_stop_req p) stop
  s1.setPort p { s1.port p with ctlReq := (s1.port p).ctlReq ++ [(s.tide.ns, hold % 2 != 0, stop % 2 != 0)] }

/-- PORT_HOLD_REQUEST (R94): hold_req is written. -/
def execPortHoldRequest (p : Fin 18) (on : Bool) (s : State) : Host.Outcome State Fault Refusal :=
  .next (s.webCtlWrite p.val (b2n on) (s.fld (WEB_PORT_CTL_stop_req p.val)))

/-- PORT_STOP_REQUEST (R87): stop_req is written. -/
def execPortStopRequest (p : Fin 18) (on : Bool) (s : State) : Host.Outcome State Fault Refusal :=
  .next (s.webCtlWrite p.val (s.fld (WEB_PORT_CTL_hold_req p.val)) (b2n on))

/-- A write of WEB_STREAM_CTL, registered now (R93). -/
def State.streamReq (s : State) (stream : Nat) (on : Bool) : State := { s with holdReq := s.holdReq ++ [(stream, on, s.tide.ns)] }

/-- STREAM_HOLD (R93). -/
def execStreamHold (stream : BitVec 16) (s : State) : Host.Outcome State Fault Refusal := .next (s.streamReq stream.toNat true)
/-- STREAM_RESUME (R93). -/
def execStreamResume (stream : BitVec 16) (s : State) : Host.Outcome State Fault Refusal := .next (s.streamReq stream.toNat false)

/-! ### Fences and the port's state (R504 to R506) -/

/-- An error record about port `p` (R544): the chip level settles it. -/
def State.portRec (s : State) (severity p detail cause : Nat) : State :=
  s.error ⟨severity, 3, 0x0B, 0xFF, p, detail, cause, 0, 0xFFFF, 0⟩

/-- Show how many ports are up (R621). -/
def State.showPorts (s : State) : State := s.setFld HUB_BOOT_STATUS_ports_up ((List.range 18).filter s.portUp).length

/-- A fence cause arises (R504, R507): of two before one boundary, the lowest code is kept. -/
def State.fenceCause (s : State) (p cause : Nat) : State :=
  let u := s.port p
  let f := match u.fencePend with
    | some (c, t) => (min c cause, t)
    | none => (cause, s.tide.ns)
  s.setPort p { u with fencePend := some f }

/-- A port fences (R504, R505): its transfers end, its fence request and waiting lane switch go. -/
def State.fencePort (s : State) (p cause : Nat) : State :=
  let s1 := (((s.setFld (PRT_STATUS_state p) 3).setFld (PRT_STATUS_fence_cause p) cause).setFld (PRT_CTL_fence_req p) 0).bump
    (PRT_EVENT_COUNT_fences p)
  let s2 := s1.setPort p { s1.port p with fencePend := none, switchPend := none }
  let flag := if cause = 7 then (PRT_STATUS_peer_fence_seen p).cause else if cause = 5 then (PRT_STATUS_lane_fault p).cause else 0
  (((s2.setFld (WEB_PORT_STATUS_control_only p) 1).setFld (WEB_PORT_STATUS_peer_locked p) 0).endTransfers p |>.showParent).showPorts.portRec 3 p 0xFFFF flag

/-- PORT_FENCE (R504): at the first frame boundary under R41 after its cause. -/
def execPortFence (p : Fin 18) (s : State) : Host.Outcome State Fault Refusal :=
  .next (match (s.port p.val).fencePend with
    | none => s
    | some (c, t) => (s.atTide (boundaryAfter t)).fencePort p.val c)

/-- fence_req is written with 1 (R504, R508): it reads 1 until the fence takes effect. -/
def State.fenceRequest (s : State) (p : Nat) : State :=
  if s.fld (PRT_STATUS_state p) = 3 then s else (s.setFld (PRT_CTL_fence_req p) 1).fenceCause p 1

/-- FENCE_REQ (R504). -/
def execFenceReq (p : Fin 18) (s : State) : Host.Outcome State Fault Refusal := .next (s.fenceRequest p.val)

/-- A port starts training (R496, R506, R575): it takes its code from the booted set, is down meanwhile, and its lanes are assigned anew. -/
def State.startTraining (s : State) (p : Nat) : State :=
  let u := s.port p
  let s1 := (s.loadCode 6 p).setPort p { u with
    fencePend := none, switchPend := none, switchReq := 0, faulty := [], markerRun := [], laneCorr := [], laneOver := []
    unlockRun := 0, fenceRun := 0, malformed := [], parkFrames := 0, peerParked := false }
  let s2 := ((s1.setFld (PRT_STATUS_state p) 1).setFld (WEB_PORT_STATUS_control_only p) 1).setFld (WEB_PORT_STATUS_peer_locked p) 0
  (((s2.setFld (PRT_STATUS_fence_cause p) 0).setFld (PRT_LANE_tx_spare p) 0xF).setFld (PRT_LANE_rx_spare p) 0xF).showParent.showPorts

/-- unfence is written with 1 (R506): training starts on a fenced port, except after cause 2. -/
def State.unfencePort (s : State) (p : Nat) : State :=
  if s.fld (PRT_STATUS_state p) = 3 ∧ s.fld (PRT_STATUS_fence_cause p) ≠ 2 then s.startTraining p else s

/-- UNFENCE (R506). -/
def execUnfence (p : Fin 18) (s : State) : Host.Outcome State Fault Refusal := .next (s.unfencePort p.val)

/-- retrain is written with 1 (R506): an up port is taken down, its transfers end, and it trains. -/
def State.retrainPort (s : State) (p : Nat) : State := if s.portUp p then (s.endTransfers p).startTraining p else s

/-- RETRAIN (R506). -/
def execRetrain (p : Fin 18) (s : State) : Host.Outcome State Fault Refusal := .next (s.retrainPort p.val)

/-! ### Training (R496, R497, R488) -/

/-- How many of nine lanes pass. -/
def lanesIn (m : BitVec 9) : Nat := ((List.range 9).filter (fun i => bitOf m.toNat i)).length

/-- The logical lane that lane 8 carries after training (R497): 7 when another lane failed, none when all pass or lane 8 failed. -/
def spareAfter (m : BitVec 9) : Nat := if lanesIn m = 8 ∧ bitOf m.toNat 8 then 7 else 0xF

/-- Whether a port reports a direction other than the opposite one (R488); an unassigned direction has no opposite. -/
def miswiredDir (dir peer : Nat) : Bool := decide (dir < 6) && peer != dir + 1 - 2 * (dir % 2)

/-- PORT_TRAINING (R496, R497): one training of a port that is down, in training, or fenced with cause 7; it needs a chip ID (R616), and in
S2 and S3 it starts at the exit (R561). -/
def execPortTraining (p : Fin 18) (res : TrainResult) (s : State) : Host.Outcome State Fault Refusal :=
  let i := p.val
  let st := s.fld (PRT_STATUS_state i)
  .next (if s.chip = 0xFFFF ∨ 2 ≤ s.fld PWR_STATUS_state ∨ !(st == 0 || st == 1 || st == 5 || (st == 3 && s.fld (PRT_STATUS_fence_cause i) == 7)) then s
    else
      let s1 := (s.startTraining i).bump (PRT_EVENT_COUNT_trainings i)
      if !res.ok || decide (lanesIn res.rxPass < 8) || decide (lanesIn res.txPass < 8) then
        (((s1.setFld (PRT_STATUS_state i) 0).setFlag (PRT_STATUS_train_fail i)).bump (PRT_EVENT_COUNT_train_failures i)).showPorts
      else
        let s2 := s1.atTide s1.nextBoundary
        let s3 := ((s2.setFld (PRT_STATUS_state i) 2).setFld (PRT_STATUS_fence_cause i) 0).setFld (PRT_STATUS_miswired i)
          (b2n (miswiredDir (s.fld (PRT_CFG_direction i)) res.peerDir.toNat))
        let s4 := ((s3.setFld (PRT_LANE_tx_spare i) (spareAfter res.txPass)).setFld (PRT_LANE_rx_spare i) (spareAfter res.rxPass)).setFld
          (PRT_LANE_rx_ok i) res.rxPass.toNat
        let s5 := ((s4.setFld (PRT_PEER_peer_chip i) res.peerChip.toNat).setFld (PRT_PEER_peer_port i) res.peerPort.toNat).setFld
          (PRT_PEER_peer_dir i) res.peerDir.toNat
        let s6 := s5.setFlagIf (!bitOf res.rxPass.toNat 8) (PRT_STATUS_spare_bad i)
        ((s6.setTport i { TidePort.zero with linkDelay := res.delay, delay := res.delay }).showParent).showPorts)

/-! ### Lanes (R498 to R501) -/

/-- The receive lane that carries the logical lane `l` (R497): the passing lanes carry them in order, until a data lane is switched. -/
def State.rxLane (s : State) (p l : Nat) : Nat :=
  if (s.port p).faulty.isEmpty then ((List.range 9).filter (fun i => bitOf (s.fld (PRT_LANE_rx_ok p)) i)).getD l l else l

/-- A receive lane becomes faulty (R499, R501): the spare lane only sets spare_bad; a data lane is asked to be switched, or with the spare in
use fences the port. -/
def State.laneFaulty (s : State) (p l : Nat) : State :=
  if l = 8 then s.setFlag (PRT_STATUS_spare_bad p)
  else
    let u := s.port p
    if u.faulty.contains l then s
    else
      let s1 := (s.setFlag (PRT_STATUS_lane_fault p)).setFld (PRT_LANE_rx_ok p) (putBits (s.fld (PRT_LANE_rx_ok p)) (s.rxLane p l) 1 0)
      let used := s.fld (PRT_LANE_rx_spare p) != 0xF || !u.faulty.isEmpty
      let s2 := s1.setPort p { u with faulty := u.faulty ++ [l], switchReq := if used then u.switchReq else l + 1 }
      if used then s2.fenceCause p 5 else s2.portRec 1 p l (PRT_STATUS_lane_fault p).cause

/-- LANE_CDR_LOCK_LOSS (R499). -/
def execLaneCdrLockLoss (p : Fin 18) (lane : Fin 9) (s : State) : Host.Outcome State Fault Refusal :=
  .next (if s.portUp p.val then s.laneFaulty p.val lane.val else s)

/-- SPARE_LANE_SWITCH (R500, R507): at the first frame boundary at least 32 ns after the request; a fence due by then acts in its place. -/
def execSpareLaneSwitch (p : Fin 18) (s : State) : Host.Outcome State Fault Refusal :=
  let u := s.port p.val
  .next (match u.switchPend with
    | none => s
    | some (l, t) =>
      let b := boundaryAfter t
      let s1 := (s.atTide b).setPort p.val { u with switchPend := none }
      let fenced := match u.fencePend with
        | some (_, tf) => decide (boundaryAfter tf ≤ b)
        | none => false
      if fenced then s1
      else (s1.setFld (PRT_LANE_tx_spare p.val) l).bump (PRT_EVENT_COUNT_lane_switches p.val))

/-! ### Line blocks and the cell check (R489 to R494) -/

/-- The header of a cell as bytes, its crc field 0 (R65). -/
def hdrBytes (h : CellHdr) : List Byte :=
  [h.ctype, h.flags] ++ leBytes 2 h.stream.toNat ++ leBytes 4 h.frame.toNat ++ [h.slot, h.rsv9] ++ leBytes 2 h.epoch.toNat ++
  leBytes 4 h.tag.toNat ++ leBytes 4 h.index.toNat ++ leBytes 2 h.source.toNat ++ leBytes 2 h.length.toNat ++ leBytes 4 h.rsv24.toNat ++
  leBytes 4 0

/-- The CRC of a cell (R493). -/
def cellCrc (c : Cell) : Word := crc32c (hdrBytes c.hdr ++ c.payload)

/-- The type that R63 assigns to a slot among slots 0 to 3. -/
def slotType (slot : Nat) : Nat := if slot = 0 then 2 else if slot = 1 then 3 else if slot = 2 then 4 else 5

/-- Whether a cell that passed its CRC is malformed (R494). -/
def malformedCell (c : Cell) (slot : Nat) : Bool :=
  let h := c.hdr
  let t := h.ctype.toNat
  decide (6 < t) || (decide (slot < 4) && t != slotType slot) ||
  h.slot.toNat != slot || decide (928 < h.length.toNat) || (t == 0 && h.length == 0#16) ||
  !allZero (c.payload.drop (h.length.toNat + (if t = 6 then 8 else 0))) ||
  bitsOf h.flags.toNat 4 4 != 0 || h.rsv9 != 0#8 || h.rsv24 != 0#32

/-- A cell lost to FEC or to its CRC is recovered by R67; the loss is recorded. -/
def State.cellLost (s : State) (p : Nat) : State := s.portRec 1 p 0xFFFF 0

/-- A malformed cell (R494): counted; more than malformed_thr within 64 frames fence the port with cause 4. -/
def State.cellMalformed (s : State) (p : Nat) : State :=
  let u := s.port p
  let l := (u.malformed.filter (fun f => decide (s.frame < f + 64))) ++ [s.frame]
  let s1 := ((s.setPort p { u with malformed := l }).bump (PRT_MALFORMED_malformed p)).count (cntPort p 22)
  if s.fld (PRT_CFG_malformed_thr p) < l.length then s1.fenceCause p 4 else s1

/-- The check of one delivered cell (R494). -/
def State.checkCell (s : State) (p slot : Nat) (c : Cell) : State :=
  if c.hdr.crc ≠ cellCrc c then ((s.bump (PRT_CRC_ERR_crc_errors p)).count (cntPort p 21)).cellLost p
  else if malformedCell c slot then s.cellMalformed p
  else if c.hdr.ctype = 1#8 then s.count (cntPort p 3)
  else { s with movedNow := s.movedNow || decide (4 ≤ slot) }

/-- One decoded codeword (R492, R499): corrected symbols are counted by lane. -/
def State.takeWord (s : State) (p : Nat) : Codeword → State
  | .uncorrectable => ((s.bump (PRT_FEC_UNCORR_uncorrectable p)).count (cntPort p 20)).cellLost p
  | .ok [] => s
  | .ok ls =>
    let s1 := (s.bump (PRT_FEC_CORR_corrected p)).count (cntPort p 19)
    ls.foldl (fun (t : State) (l : Nat) =>
      let u := t.port p
      (t.bump (PRT_LANE_ERR_symbol_errors p (l % 8))).setPort p { u with laneCorr := SMap.modify (fun _ => 0) u.laneCorr (l % 8) (fun n => n + 1) }) s1

def wordGood : Codeword → Bool
  | .ok _ => true
  | .uncorrectable => false

/-- The lane markers of a block (R489, R498, R500, R504): fence markers, failed markers, block lock, and a spare that has been switched in. -/
def State.takeMarkers (s : State) (p : Nat) (ms : List Byte) : State :=
  let m := fun l => (ms.getD l 0#8).toNat
  let u := s.port p
  let fence := (List.range 8).all (fun l => m l / 16 == 5 || u.faulty.contains l)
  if fence then
    let s1 := (s.setPort p { u with fenceRun := u.fenceRun + 1 }).setFlag (PRT_STATUS_peer_fence_seen p)
    if 2 ≤ u.fenceRun + 1 then s1.fenceCause p 7 else s1
  else
    let sp := m 8 % 16
    let spared := m 8 / 16 == 10 && decide (sp < 8) && m sp == 0xAF
    let s0 := if spared && s.fld (PRT_LANE_rx_spare p) != sp then
        (s.setFld (PRT_LANE_rx_spare p) sp).bump (PRT_EVENT_COUNT_lane_switches p)
      else s
    let failed := (List.range 8).filter (fun l => m l != 0xA0 + l && !(spared && l == sp))
    let run := failed.foldl (fun (a : SMap Nat) l => SMap.set (fun _ => 0) a l (SMap.get (fun _ => 0) u.markerRun l + 1)) []
    let unlock := if 3 ≤ failed.length then u.unlockRun + 1 else 0
    let s1 := s0.setPort p { u with fenceRun := 0, markerRun := run, unlockRun := unlock }
    let s2 := if 2 ≤ unlock then s1.fenceCause p 6 else s1
    (run.filter (fun x => decide (2 ≤ x.2))).foldl (fun (t : State) (x : Nat × Nat) => t.laneFaulty p x.1) s2

/-- The block tag (R490, R499, R500, R501, R503). -/
def State.takeTag (s : State) (p : Nat) (blk : LineBlock) : State :=
  let u := s.port p
  let s1 := s.setPort p { u with
    peerParked := u.peerParked || blk.park
    switchReq := if blk.switchState.toNat = u.switchReq then 0 else u.switchReq }
  let r := blk.switchReq.toNat
  if r = 0 then s1
  else
    let l := r - 1
    let tx := s1.fld (PRT_LANE_tx_spare p)
    if tx = l then s1
    else if tx ≠ 0xF then s1.fenceCause p 5
    else match (s1.port p).switchPend with
      | some (k, _) => if k = l then s1 else s1.fenceCause p 5
      | none => s1.setPort p { s1.port p with switchPend := some (l, s.tide.ns) }

/-- LINE_BLOCK_RECEIVE (R489 to R494): markers, codewords, the copy of lane 8, the block tag, and the check of the two cells. A cell whose bits an
uncorrectable codeword holds is lost. The cells that pass reach their endpoints as the cell commands of their types. -/
def execLineBlockReceive (p : Fin 18) (blk : LineBlock) (s : State) : Host.Outcome State Fault Refusal :=
  let i := p.val
  .next (if !s.portUp i then s
    else
      let s1 := s.takeMarkers i blk.markers
      let s2 := (blk.words.take 3).foldl (fun (t : State) (w : Codeword) => t.takeWord i w) s1
      let s3 := if s2.fld (PRT_LANE_rx_spare i) = 0xF then s2.bump (PRT_LANE_ERR_symbol_errors i 8) blk.copyDiff else s2
      let g := fun k => wordGood (blk.words.getD k .uncorrectable)
      let s4 := if g 1 then s3.takeTag i blk else s3
      let slot := 2 * blk.tagPair.toNat
      let s5 := if g 0 && g 1 then s4.checkCell i slot blk.cell0 else s4
      if g 1 && g 2 then s5.checkCell i (slot + 1) blk.cell1 else s5)

/-! ### The wake pattern (R502) -/

/-- A write of 1 to wake sends the pattern and the port then starts training (R502, R508). -/
def State.sendWake (s : State) (p : Nat) : State := if s.fld (PRT_STATUS_state p) = 3 then s else (s.endTransfers p).startTraining p

/-- WAKE_PATTERN_SEND (R502). -/
def execWakePatternSend (p : Fin 18) (s : State) : Host.Outcome State Fault Refusal := .next (s.sendWake p.val)

/-- WAKE_PATTERN_DETECT (R502, R564): a port in wake-detect, or parked in S2, recognises the pattern and sets wake_seen, and the module wakes; in
any other state the pattern is ignored (R507). -/
def execWakePatternDetect (p : Fin 18) (s : State) : Host.Outcome State Fault Refusal :=
  .next (if s.fld (PRT_STATUS_state p.val) = 5 ∨ s.fld (PRT_STATUS_state p.val) = 4 then
      (s.setFlag (PRT_STATUS_wake_seen p.val)).wakeBy 2
    else s)

end Sys2Proof.Machine
end

