-- ==== Sys2Proof/Machine/Norm.lean ====
section
/-! DEFINITION. The scale history (05_numerics.md R188 to R194), the anchor rule and the norm contribution (11_reduction.md R354 to R357, R373,
R374, R378). -/

namespace Sys2Proof.Machine

/-! ### Scale-history records (R188) -/

def State.histAt (s : State) (i : Nat) : Nat := s.cfg.shAddr + 32 * i

/-- The record at an index of the table. -/
def State.hist (s : State) (i : Nat) : List Byte := s.bytes (s.histAt i) 32

def hTensor (b : List Byte) : Nat := leAt b 0 3
def hValid (b : List Byte) : Bool := bitOf (leAt b 3 1) 0
def hProbe (b : List Byte) : Bool := bitOf (leAt b 3 1) 1
def hRaised (b : List Byte) : Bool := bitOf (leAt b 3 1) 2
def hStep (b : List Byte) : Nat := leAt b 4 4
def hCount (b : List Byte) : Nat := min 16 (leAt b 8 1)
def hNewest (b : List Byte) : Nat := leAt b 9 1 % 16
def hE (b : List Byte) : Int := sext 8 (leAt b 10 1)
def hSlot (b : List Byte) (k : Nat) : Nat := leAt b (12 + k % 16) 1

/-- H of R191: the largest entry among the valid slots, minus 127; −126 when none is non-zero. -/
def hH (b : List Byte) : Int :=
  let m := (List.range (hCount b)).foldl (fun a k => max a (hSlot b (hNewest b + 16 - k))) 0
  if m = 0 then -126 else (m : Int) - 127

/-- The record of the norm (R357). -/
def hIsNorm (b : List Byte) : Bool := hTensor b == 0xFFFFFF

/-- Replace byte `i` of a record. -/
def putByte (b : List Byte) (i v : Nat) : List Byte := b.set i (BitVec.ofNat 8 v)

/-- The anchor rule of R356, and S of R191, applied to a record; `a` is anchor_offset. -/
def anchorRule (a : Int) (b : List Byte) : List Byte :=
  let eRule := clampInt (-126) 120 (hH b + 1 + (if hIsNorm b then 0 else a))
  let e := if hRaised b then max eRule (hE b - 1) else eRule
  let fl := if hRaised b && e == eRule then putBits (leAt b 3 1) 2 1 0 else leAt b 3 1
  let sc := clampInt (-127) 127 ((if Config.carriesE5 (hTensor b) then 14 else 7) - hH b)
  putByte (putByte (putByte b 3 fl) 10 (toBits 8 e)) 11 (toBits 8 sc)

/-- anchor_offset, signed (R389). -/
def State.anchorOffset (s : State) : Int := sext 8 (s.fld HRV_ANCHOR_CTL_anchor_offset)

def State.setHist (s : State) (i : Nat) (b : List Byte) : State := s.put (s.histAt i) b

/-- Record an entry of step `n` (R190). -/
def State.recordEntry (s : State) (i n v : Nat) : State :=
  let b := s.hist i
  let slot := (hNewest b + 1) % 16
  let b1 := putByte (putByte (putByte b (12 + slot) v) 8 (min 16 (hCount b + 1))) 9 slot
  s.setHist i (anchorRule s.anchorOffset (b1.take 4 ++ leBytes 4 n ++ b1.drop 8))

/-- Raise the anchor of a record whose amax byte is 0xFF (R378). -/
def State.raiseAnchor (s : State) (i : Nat) : State :=
  let b := s.hist i
  let s1 := if hE b = 120 then s.bump HRV_ANCHOR_COUNT_at_limit else s.bump HRV_ANCHOR_COUNT_raises
  s1.setHist i (putByte (putByte b 10 (toBits 8 (min (hE b + s.fld HRV_ANCHOR_CTL_raise) 120))) 3 (putBits (leAt b 3 1) 2 1 1))

/-- The scale history changes at confirmation (R378, R338): `code` is the verdict's, `r` the norm record. -/
def State.updateHistory (s : State) (code n : Nat) (r : List Byte) : State :=
  if code = 1 ∨ code = 2 then
    forUpTo s.cfg.shCount (fun i t => if hProbe (t.hist i) then t else t.recordEntry i n (leAt r (64 + i) 1)) s
  else if code = 3 then
    forUpTo s.cfg.shCount (fun i t => if leAt r (64 + i) 1 = 0xFF then t.raiseAnchor i else t) s
  else s

/-- The index of the norm record in the table (R357). -/
def State.normIndex (s : State) : Option Nat := (List.range s.cfg.shCount).find? (fun i => hIsNorm (s.hist i))

/-- A probe's result for the record at `i` (R194): bit 63 keeps probe_pending and marks the step. -/
def State.applyProbe (s : State) (i n w : Nat) : State :=
  let b := s.hist i
  if !hProbe b then s
  else
    let slot := (hNewest b + 1) % 16
    let b1 := putByte (putByte (putByte (putByte b (12 + slot) (bitsOf w 23 8)) 8 1) 9 slot) 3 (putBits (leAt b 3 1) 1 1 0)
    s.setHist i (anchorRule s.anchorOffset (b1.take 4 ++ leBytes 4 n ++ b1.drop 8))

/-! ### The restart check (R193) -/

/-- Whether the record at `i` is usable at a restart from step `n` (R193, R196). -/
def State.usable (s : State) (i n : Nat) : Bool :=
  let b := s.hist i
  hValid b && decide (1 ≤ leAt b 8 1) && (List.range s.cfg.shCount).all (fun k => k == i || hTensor (s.hist k) != hTensor b) &&
  decide (hStep b < n) && decide (n ≤ hStep b + 16)

/-- Merdy checks the restored table at the restart from step `n` (R193): a record that is not usable is to probe, and is counted. The restart is taken
as the first REDUCE or verdict-bound group after the table has been set (notes/assumptions/155.md). -/
def State.restartAt (s : State) (n : Nat) : State :=
  if s.restartDue then
    let bad := (List.range s.cfg.shCount).filter (fun i => !s.usable i n)
    bad.foldl (fun (t : State) (i : Nat) =>
      let b := t.hist i
      t.setHist i (putByte (putByte b 8 0) 3 (putBits (leAt b 3 1) 1 1 1))) { s with restartDue := false, restartReport := bad.length }
  else s

/-! ### The norm contribution (R373, R374) -/

/-- Max-merge an amax byte at a record index (R354). -/
def State.mergeAmax (s : State) (n i v : Nat) : State :=
  let a := s.normOf n
  s.setNorm n { a with amax := SMap.set (fun _ => 0) a.amax i (max v (SMap.get (fun _ => 0) a.amax i)) }

/-- The exact square, in units of 2^(−298), of a finite value (R373). -/
def squareUnits : FVal → Nat
  | .fin _ m e => m * m * 2 ^ (2 * e + 298).toNat
  | _ => 0

/-- A readout adds the square of an output (R373). -/
def State.addSquare (s : State) (n : Nat) (v : FVal) : State :=
  let a := s.normOf n
  if v.isFin then s.setNorm n { a with sum := a.sum + squareUnits v } else s.setNorm n { a with nonfinite := true }

/-- P_m as an exact value. -/
def normValue (a : NormAcc) : FVal := .fin false a.sum (-298)

/-- fp32_rne(P_m) (R357). -/
def normF32 (a : NormAcc) : Nat := Fmt.fp32.rne (normValue a)

/-- The norm contribution of step `n` as it stands, and the state after it is taken (R374): the accumulator is cleared. An exponent byte of 0xFF comes
with overflow (R354). -/
def State.takeContribution (s : State) (n : Nat) : List Byte × State :=
  let a0 := s.normOf n
  let ix := s.normIndex
  let es : Int := match ix with
    | some i => hE (s.hist i)
    | none => 0
  let q := toBrine 64 es (normValue a0)
  let merge := fun (i v : Nat) (t : State) => t.mergeAmax n i v
  let s1 := match ix with
    | some i => merge i (f32exp (normF32 a0)) (if f32exp (normF32 a0) = 0xFF then s.markOverflow n else s)
    | none => s
  let s2 := if q.overflow then
      (match ix with
        | some i => merge i 0xFF s1
        | none => s1).markOverflow n
    else s1
  let a := s2.normOf n
  let bytes := leBytes 8 (toBits 64 q.code) ++ leBytes 1 (b2n a.nonfinite) ++ leBytes 1 (b2n a.overflow) ++ leBytes 1 (b2n a.probe) ++
    List.replicate 53 0#8 ++ (List.range s.cfg.shCount).map (fun i => BitVec.ofNat 8 (SMap.get (fun _ => 0) a.amax i))
  let s3 := (s2.setFlagIf a.nonfinite HRV_NORM_STATUS_nonfinite_seen).setFlagIf a.overflow HRV_NORM_STATUS_overflow_seen
  (bytes, s3.setNorm n { a with sum := 0 })

end Sys2Proof.Machine
end

