-- ==== Sys2Proof/Machine/Harvest.lean ====
section
/-! DEFINITION. Harvest units and windows (11_reduction.md R358 to R372, R379 to R385): the REDUCE descriptor in its HARVEST role, cells landing in
windows, the sluice, the close, and the readout. -/

namespace Sys2Proof.Machine

def winDefault : Nat → Window := fun _ => Window.zero
def cellDefault : Nat → HCell := fun _ => HCell.zero

def State.win (s : State) (w : Nat) : Window := SMap.get winDefault s.wins w

/-- The unit of a window, as region and controller (R358). -/
def winUnit (w : Nat) : Nat := w / 256
def winR (w : Nat) : Nat := winUnit w / 6
def winC (w : Nat) : Nat := winUnit w % 6

/-- Write a window back, with its unit's count of windows that are not FREE (R390). -/
def State.setWin (s : State) (w : Nat) (x : Window) : State :=
  let s1 := { s with wins := SMap.set winDefault s.wins w x }
  s1.setFld (HRV_UNIT_STATUS_open (winR w) (winC w))
    ((s1.wins.filter (fun p => p.1 / 256 == winUnit w && p.2.state != 0)).length)

/-- The size of a visible cell (R359); in norm mode cells are bytes. -/
def cellSize (mode : Nat) : Nat := if mode = 1 ∨ mode = 3 then 8 else if mode = 4 then 1 else 4

/-- The anchor of the record at an index. -/
def State.anchorOf (s : State) (i : Nat) : Int := hE (s.hist i)

/-! ### REDUCE fields (R383, R384) -/

def rRole (d : List Byte) : Nat := bitsOf (leAt d 16 1) 0 2
def rMode (d : List Byte) : Nat := bitsOf (leAt d 16 1) 2 3
def rStep (d : List Byte) : Nat := leAt d 20 4
def rTensor (d : List Byte) : Nat := leAt d 24 3
def rFormat (d : List Byte) : Nat := leAt d 27 1
def rWindow (d : List Byte) : Nat := leAt d 28 2
def rElems (d : List Byte) : Nat := leAt d 32 4
def rRecord (d : List Byte) : Nat := leAt d 60 4
def hCarry (d : List Byte) : Bool := bitOf (leAt d 16 1) 6
def hGrace (d : List Byte) : Nat := leAt d 56 1
def hL (d : List Byte) : Nat := leAt d 57 1
def hExpected (d : List Byte) : Nat := leAt d 30 2

/-- Formats that a mode allows (R383, R384): source formats of a SEND, target formats of a HARVEST. -/
def sendFormatOk (mode f : Nat) : Bool :=
  if mode = 0 ∨ mode = 1 then f == 0 || f == 4 || f == 5
  else if mode = 2 then f == 0 || f == 4
  else f == 0
def targetFormatOk (mode f : Nat) : Bool := if mode = 3 ∨ mode = 4 then f == 0 else f == 0 || f == 1 || f == 4

/-- The target format of a HARVEST. -/
def targetFmt (f : Nat) : Fmt := if f = 0 then Fmt.bf16 else if f = 1 then Fmt.fp16 else Fmt.fp32

/-- Bytes of cell space that a HARVEST's window takes, its carry set included (R358). -/
def harvestSpan (d : List Byte) : Nat := rElems d * cellSize (rMode d) * (if hCarry d then 2 else 1)

/-- A HARVEST is as R384 allows. -/
def State.harvestOk (s : State) (d : List Byte) : Bool :=
  decide (rMode d ≤ 4) && targetFormatOk (rMode d) (rFormat d) && !bitOf (leAt d 16 1) 7 && (!hCarry d || decide (rMode d < 3)) &&
  decide (rWindow d ≤ 6143) && leAt d 36 4 % 64 == 0 && decide (leAt d 36 4 + harvestSpan d ≤ 0x400000) && dDeadlineValid d &&
  hGrace d != 0 && hL d != 0 && decide (hL d ≤ 128) && hExpected d != 0 && decide (rRecord d < s.cfg.shCount) && dGroup d == 0 &&
  leAt d 58 2 == 0 && isLocal (leAt d 40 8) && isLocal (leAt d 48 8)

/-! ### Cells -/

/-- The key of element `j` of a window; `c` names its carry set, which follows the main cells (R358). -/
def cellKey (w : Nat) (x : Window) (c : Bool) (j : Nat) : Nat :=
  winUnit w * 0x400000 + x.off + (if c then x.elems * cellSize x.mode else 0) + j * cellSize x.mode

def State.hcell (s : State) (k : Nat) : HCell := SMap.get cellDefault s.hcells k

/-- Store a cell and the word that a read of it shows (R358): the mark, the sum where its visible word holds it, else a value that the
manual does not give (notes/assumptions/1.md). -/
def State.setCell (s : State) (k mode : Nat) (c : HCell) : State :=
  let n := if mode = 1 ∨ mode = 3 then 8 else 4
  let s1 := { s with hcells := SMap.set cellDefault s.hcells k c }
  if mode = 2 ∨ mode = 3 then s1.setBytes (harvestBase + k) (leBytes n c.acc.toNat)
  else if c.mark then s1.setBytes (harvestBase + k) (leBytes n (2 ^ (8 * n - 1)))
  else if c.acc.natAbs < 2 ^ (8 * n - 1) then s1.setBytes (harvestBase + k) (leBytes n (toBits (8 * n) c.acc))
  else
    let f := s1.takeFree (8 * n)
    f.2.setBytes (harvestBase + k) (leBytes n f.1)

/-- Add one word to a cell (R359). -/
def addCell (mode : Nat) (c : HCell) (v : Nat) : HCell :=
  if mode = 2 then
    let r := f32add c.acc.toNat v
    ⟨r, false, c.ovf || (f32finite c.acc.toNat && f32finite v && r % 2 ^ 31 == f32inf)⟩
  else if mode = 3 then ⟨max c.acc v, false, false⟩
  else
    let w := if mode = 0 then 32 else 64
    let i := sext w v
    if i = brineMark w then { c with mark := true } else { c with acc := c.acc + i }

/-- Add the words of a payload at a byte offset of a window's main cells or carry set (R360); in norm mode bytes 0 to 7 are one q64 word and
the others are bytes (R359). -/
def State.addPayload (s : State) (w : Nat) (x : Window) (carry : Bool) (at' : Nat) (bs : List Byte) : State :=
  if x.mode = 4 then
    forUpTo bs.length (fun i t =>
      let j := at' + i
      let k := cellKey w x carry j
      if j = 0 then t.setCell k 1 (addCell 1 (t.hcell k) (leAt bs i 8))
      else if j < 8 then t
      else
        let v := max (t.hcell k).acc (leAt bs i 1 : Nat)
        { t with hcells := SMap.set cellDefault t.hcells k ⟨v, false, false⟩ }.setBytes (harvestBase + k) (leBytes 1 v.toNat)) s
  else
    let n := cellSize x.mode
    forUpTo (bs.length / n) (fun i t =>
      let k := cellKey w x carry (at' / n + i)
      t.setCell k x.mode (addCell x.mode (t.hcell k) (leAt bs (n * i) n))) s

/-- Clear a window's main cells or carry set. -/
def State.clearCells (s : State) (w : Nat) (x : Window) (carry : Bool) : State :=
  let lo := cellKey w x carry 0
  let n := x.elems * cellSize x.mode
  { s with hcells := SMap.clearRange s.hcells lo n, mem := SMap.clearRange s.mem (harvestBase + lo) n }

/-! ### Sums of a step (R382) -/

def State.stepSum (s : State) (n : Nat) : StepSum := SMap.get (fun _ => StepSum.zero) s.stepSums n
def State.setStepSum (s : State) (n : Nat) (x : StepSum) : State :=
  { s with stepSums := SMap.set (fun _ => StepSum.zero) s.stepSums n x }

/-! ### The carry set (R365 to R368) -/

/-- Late contributions of the step before that stand in the carry set, or were dropped. -/
def lateOf (x : Window) (step : Nat) : List WinXfer := x.xfers.filter (fun y => y.late && y.tag / 65536 == step % 65536)

/-- Discard the carry set of a window (R367): its contributors count as dropped. -/
def State.discardCarry (s : State) (w : Nat) : State :=
  let x := s.win w
  if x.hasCarry then
    let n := (lateOf x (if x.state = 3 then x.step else x.step + 65535)).length
    let s1 := ((s.clearCells w x true).bump (HRV_LATE_COUNT_dropped (winR w) (winC w)) n).setFlag
      (HRV_UNIT_STATUS_carry_discarded (winR w) (winC w))
    (s1.bump (HRV_EVENT_COUNT_carry_sets_discarded (winR w) (winC w))).setWin w { x with hasCarry := false }
  else s

/-- Release a window to FREE (R367). -/
def State.freeWindow (s : State) (w : Nat) : State := (s.discardCarry w).setWin w Window.zero

/-! ### Opening (R361, R383, R400) -/

/-- Whether a STRICT map with this tensor ID and layout epoch is installed (R400). -/
def State.strictMap (s : State) (tensor epoch : Nat) : Bool :=
  s.maps.any (fun p => p.2.strict && p.2.tensor == tensor && p.2.epoch == epoch)

/-- The windows of step `n` that are not read out yet take their anchor anew, once the entries of the step before are recorded or a probe has
set it (R190, R194, R378). -/
def State.refreshAnchors (s : State) (n : Nat) : State :=
  { s with wins := s.wins.map (fun (p : Nat × Window) =>
      if (p.2.state = 1 ∨ p.2.state = 2) ∧ p.2.step = n then (p.1, { p.2 with anchor := s.anchorOf (rRecord (s.desc p.2.entry)) }) else p) }

/-- A HARVEST opens its window (R361): from FREE or TRAIL; it waits while the window is OPEN or CLOSING (R384). A HARVEST of another step than
the next, or one that lays the window out anew, discards the carry set, which its entry shows. A carry set that then begins takes late contributions of the step before under the anchor that the record has at the
opening (notes/assumptions/156.md), and has this HARVEST's tensor and epoch. -/
def State.openWindow (s0 : State) (e : Nat) : State :=
  let d := s0.desc e
  let s := s0.restartAt (rStep d)
  let w := rWindow d
  let x := s.win w
  if x.state = 1 ∨ x.state = 2 then s
  else
    let follows := decide (x.state = 3 ∧ (x.step + 1) % 2 ^ 32 = rStep d)
    let next := follows && decide (x.off = leAt d 36 4 ∧ x.elems = rElems d ∧ x.mode = rMode d)
    let s1 := if next then s else s.discardCarry w
    let y := s1.win w
    let a := s1.anchorOf (rRecord d)
    let s2 := (s1.setWin w { y with
      state := 1, step := rStep d, entry := e, mode := rMode d, normAcc := bitOf (leAt d 16 1) 5, carry := hCarry d
      epoch := leAt d 18 2, tensor := rTensor d, anchor := a, sluice := dDeadline d
      strict := s1.strictMap (rTensor d) (leAt d 18 2), closeTide := 0, early := false, torn := false
      off := leAt d 36 4, elems := rElems d
      carryAnchor := if next then y.anchor else a, carryTensor := if next then y.tensor else rTensor d
      carryEpoch := if next then y.epoch else leAt d 18 2
      shed := !next && x.hasCarry, xfers := if follows then y.xfers else [] }).begun e
    let u := s2.stepSum (rStep d)
    s2.setStepSum (rStep d) (if u.sluice.isNone then { u with sluice := some (dDeadline d) } else u)

/-! ### Landing (R360, R362 to R365, R379) -/

/-- What a cell does at a window: it lands, is a duplicate, lies above the landed mark, or is held. -/
inductive Landing where
  | landed
  | duplicate
  | above
  | held
  deriving DecidableEq, Repr

/-- The contribution of a contributor with a tag, or a new one. -/
def winXfer (x : Window) (chip stream tag : Nat) : WinXfer :=
  match x.xfers.find? (fun y => y.chip == chip && y.tag == tag) with
  | some y => y
  | none =>
    { chip := chip, stream := stream, tag := tag, mark := 0, included := false, late := false, done := false, reject := false, gap := 0
      moved := true, port := 18, queued := false }

def putXfer (x : Window) (y : WinXfer) : Window :=
  if x.xfers.any (fun z => z.chip == y.chip && z.tag == y.tag) then
    { x with xfers := x.xfers.map (fun z => if z.chip = y.chip ∧ z.tag = y.tag then y else z) }
  else { x with xfers := x.xfers ++ [y] }

/-- Where R362 sends a cell: 0 main cells, 1 late, 2 stale, 3 held. `m` is the step in its tag. -/
def classify (x : Window) (m : Nat) (y : WinXfer) (now : Nat) : Nat :=
  let n := x.step % 65536
  let before := decide (now < x.sluice)
  if x.state = 0 then 3
  else if x.state = 1 ∧ before then
    (if m = n then 0 else if m = (n + 65535) % 65536 then 1 else if m = (n + 1) % 65536 then 3 else 2)
  else if x.state = 3 then (if m = n then 1 else if m = (n + 1) % 65536 then 3 else 2)
  else if m = n then (if y.included && !x.torn then 0 else 3)
  else if m = (n + 1) % 65536 then 3
  else 2

/-- The included contributions of the open step. -/
def includedOf (x : Window) : List WinXfer := x.xfers.filter (fun y => y.included && y.tag / 65536 == x.step % 65536)

/-- Whether R364 closes a window now, and whether that is an early close. -/
def State.closes (s : State) (w : Nat) : Option Bool :=
  let x := s.win w
  let inc := includedOf x
  if x.state ≠ 1 ∨ !inc.all (fun y => y.done) then none
  else if inc.length = hExpected (s.desc x.entry) then some true
  else if x.sluice ≤ s.tide.ns then some false
  else none

/-- A window closes (R364). -/
def State.closeWindow (s : State) (w : Nat) (early torn : Bool) : State :=
  s.setWin w { s.win w with state := 2, closeTide := s.tide.ns, early := early, torn := torn }

def State.tryClose (s : State) (w : Nat) : State :=
  match s.closes w with
  | some early => s.closeWindow w early false
  | none => s

/-- A contribution becomes late (R363, R365): once each; it counts as carried or as dropped (notes/assumptions/126.md). -/
def State.noteLate (s : State) (w : Nat) (x : Window) (y : WinXfer) : State :=
  if y.late then s
  else
    let s1 := s.setFlag (HRV_UNIT_STATUS_late (winR w) (winC w))
    if x.carry then s1.bump (HRV_LATE_COUNT_carried (winR w) (winC w)) else s1.bump (HRV_LATE_COUNT_dropped (winR w) (winC w))

/-- Brine words added by a harvest unit are counted (R601). -/
def State.countBrine (s : State) (w : Nat) (x : Window) (n : Nat) : State :=
  if x.mode ≤ 1 then s.count (cntCtrl (winUnit w) 3) (n / cellSize x.mode) else s

/-- A cell of a contribution reaches its window (R360, R362): what becomes of it, its landed mark, and the reject, late and carried bits that
its mark carries back. -/
def State.landInWindow (s : State) (stream tag chip epoch first index : Nat) (isLast : Bool) (data : List Byte) :
    Landing × WinXfer × State :=
  let w := bitsOf tag 0 13
  let x := s.win w
  let y := winXfer x chip stream tag
  if 6143 < w ∨ s.regionFenced (winR w) then (.held, y, s)
  else if index < y.mark then (.duplicate, y, s)
  else if y.mark < index then (.above, y, s)
  else
    let m := tag / 65536
    let k := classify x m y s.tide.ns
    let done := { y with mark := y.mark + 1, stream := stream, done := y.done || isLast }
    let at' := first * cellSize x.mode + index * 928
    if x.state = 0 then (.held, y, s)
    else if epoch ≠ x.epoch then
      let z := { done with reject := true }
      let s1 := ((s.setWin w { putXfer x z with rejected := x.rejected + 1 }).bump (HRV_REJECT_COUNT_rejected_cells (winR w) (winC w))).setFlag
        (HRV_UNIT_STATUS_rejected (winR w) (winC w))
      let u := s1.stepSum x.step
      (.landed, z, s1.setStepSum x.step { u with rejected := u.rejected + 1 })
    else if k = 3 then (.held, y, s)
    else if k = 2 then (.landed, done, (s.setWin w (putXfer x done)).bump (HRV_STALE_COUNT_stale_cells (winR w) (winC w)))
    else if x.elems * cellSize x.mode < at' + data.length then
      let z := if k = 0 then { done with included := true } else { done with late := true }
      let u := s.stepSum x.step
      (.landed, z, ((((s.setWin w (putXfer x z)).bump (HRV_REJECT_COUNT_rejected_cells (winR w) (winC w))).setStepSum x.step
        { u with rejected := u.rejected + 1 }).tryClose w))
    else if k = 0 then
      let z := { done with included := true }
      (.landed, z, (((s.countBrine w x data.length).setWin w (putXfer x z)).addPayload w x false at' data).tryClose w)
    else
      let z := { done with late := true }
      let s1 := (s.noteLate w x y).setWin w { putXfer x z with hasCarry := x.hasCarry || x.carry }
      (.landed, z, if x.carry then (s1.countBrine w x data.length).addPayload w x true at' data else s1)

/-- SLUICE_REACHED (R363, R364). -/
def execSluiceReached (win : Fin 6144) (s : State) : Host.Outcome State Fault Refusal :=
  .next (if (s.win win.val).state = 1 then (s.atTide (s.win win.val).sluice).tryClose win.val else s)

/-- GRACE_EXPIRY (R364): an included contribution that is still incomplete tears the window; the rest of it is late. -/
def execGraceExpiry (win : Fin 6144) (s : State) : Host.Outcome State Fault Refusal :=
  let w := win.val
  let x := s.win w
  .next (if x.state = 1 then
      let s1 := s.atTide (x.sluice + hGrace (s.desc x.entry) * 2048)
      let torn := (includedOf x).any (fun y => !y.done)
      let s2 := s1.closeWindow w false torn
      if torn then
        ((s2.setFlag (HRV_UNIT_STATUS_torn (winR w) (winC w))).bump (HRV_EVENT_COUNT_torn_windows (winR w) (winC w))).markNonfinite x.step
      else s2
    else s)

/-! ### The readout (R367 to R370, R375, R381, R385, R400) -/

/-- What a readout forms of one element: its bytes, its value, and whether it overflowed or is non-finite. -/
structure ReadOut where
  bytes : List Byte
  value : FVal
  overflow : Bool
  nonfinite : Bool

/-- The carry sum on the anchor of the main cells (R368). -/
def rescale (c : Int) (old new : Int) : Int := if new ≤ old then c * 2 ^ (old - new).toNat else rneShift c (new - old)

/-- One element of a readout (R370): main cell, carried sum, readout exponent, target. In fp32 mode the carried sum is added as any addend is
(R359, R367). A max64 word that cannot be read is the word of a non-finite contributor (R194; DEDUCED, notes/assumptions/157.md). -/
def readCell (x : Window) (f : Fmt) (sx : Int) (main : HCell) (carry : Int) (bad : Bool) : ReadOut :=
  if bad then ⟨if x.mode = 3 then leBytes 8 (2 ^ 63) else leBytes f.bytes f.nan, .nan, false, true⟩
  else if x.mode = 3 then ⟨leBytes 8 main.acc.toNat, .fin false 0 0, false, false⟩
  else if x.mode = 2 then
    let c := f32add main.acc.toNat carry.toNat
    let o := main.ovf || (f32finite main.acc.toNat && f32finite carry.toNat && !f32finite c)
    let r := f.round .rne ((Fmt.fp32.decode c).scale sx)
    ⟨leBytes f.bytes r.bits, f.decode r.bits, o || r.overflow, !f32finite c && !o⟩
  else if main.mark then ⟨leBytes f.bytes f.nan, .nan, false, true⟩
  else
    let lim : Int := if x.mode = 0 then 2 ^ 31 - 1 else 2 ^ 63 - 1
    let i := main.acc + carry
    let j := clampInt (-lim) lim i
    let r := f.round .rne (FVal.ofInt j (x.anchor - 24 + sx))
    ⟨leBytes f.bytes r.bits, f.decode r.bits, decide (i ≠ j) || r.overflow, false⟩

/-- Bit b of a bitmap of L × 64 bytes is chip ID b (R381). -/
def bitmap (l : Nat) (chips : List Nat) : List Byte :=
  (List.range (l * 64)).map (fun i => BitVec.ofNat 8 (((List.range 8).filter (fun b => chips.contains (8 * i + b))).map (fun b => 2 ^ b)).sum)

/-- The code of a confirmed verdict of a step, if it is confirmed on this module (R337). -/
def State.confirmedCode (s : State) (n : Nat) : Option Nat :=
  (s.verdicts.find? (fun v => v.step == n && v.phase == 3)).map (fun v => v.code)

/-- The step before a step, of 32 bits. -/
def prevStep (n : Nat) : Nat := (n + 2 ^ 32 - 1) % 2 ^ 32

/-- The verdict domain of a step, as its verdict-bound group or its record gives it; 0 where none does. -/
def State.domainOf (s : State) (n : Nat) : Nat :=
  match s.verdicts.find? (fun v => v.step == n) with
  | some v => v.domain
  | none => 0

/-- The norm record that a norm window reads out (R375). -/
def State.normRecordOf (s : State) (w : Nat) (x : Window) (included expected : Nat) (bad : List Nat) : List Byte :=
  let c := s.hcell (cellKey w x false 0)
  let by' := fun j => if bad.contains j then 1 else (s.hcell (cellKey w x false j)).acc.toNat
  let lim : Int := 2 ^ 63 - 1
  let j := clampInt (-lim) lim c.acc
  let short := decide (included < expected)
  let am := (List.range (x.elems - 64)).map (fun i => BitVec.ofNat 8 (by' (64 + i)))
  let am1 := if c.acc = j then am
    else match s.normIndex with
      | some i => am.set i 0xFF#8
      | none => am
  leBytes 8 (toBits 64 j) ++
  [BitVec.ofNat 8 (if short || c.mark || bad.contains 0 then 1 else by' 8), BitVec.ofNat 8 (if c.acc = j then by' 9 else 1), BitVec.ofNat 8 (by' 10),
   BitVec.ofNat 8 (toBits 8 x.anchor)] ++
  leBytes 4 x.step ++ leBytes 2 (s.domainOf x.step) ++ leBytes 2 included ++ leBytes 1 (b2n short) ++ List.replicate 43 0#8 ++ am1

/-- The elements of a readout, their bytes, and the indications that arose. -/
def State.readElems (s : State) (w : Nat) (x : Window) (useCarry : Bool) (bad : List Nat) : List ReadOut :=
  let d := s.desc x.entry
  let f := targetFmt (rFormat d)
  let sx : Int := sext 8 (leAt d 17 1)
  (List.range x.elems).map (fun j =>
    let k := (s.hcell (cellKey w x true j)).acc
    let c := if !useCarry then 0 else if x.mode = 2 then k else rescale k x.carryAnchor x.anchor
    readCell x f sx (s.hcell (cellKey w x false j)) c (bad.contains j))

/-- A carried mark discards the carry set (R367); in fp32 mode an infinity or NaN counts as one. -/
def State.carryBad (s : State) (w : Nat) (x : Window) : Bool :=
  let lo := cellKey w x true 0
  s.hcells.any (fun p => decide (lo ≤ p.1) && decide (p.1 < lo + x.elems * cellSize x.mode) &&
    (p.2.mark || (x.mode == 2 && !f32finite p.2.acc.toNat)))

/-- A step is marked under R400, and counted once (R415). -/
def State.strictStep (s : State) (n : Nat) : State :=
  let s1 := ((s.markNonfinite n).setFlag HUB_MAP_STATUS_strict_hit).bump HUB_MAP_COUNT_strict_hits (b2n (!(s.normOf n).strict))
  s1.setNorm n { s1.normOf n with strict := true }

/-- The readout of a closed window, after the verdict of the step before (R369), to the destination of its HARVEST; the 16 places of R377 are 16
such destinations (notes/assumptions/125.md). -/
def State.readout (s : State) (w : Nat) (bad : List Nat) : State :=
  let x := s.win w
  let d := s.desc x.entry
  let r := winR w
  let c := winC w
  let expected := hExpected d
  let inc := includedOf x
  let prev := lateOf x (x.step + 65535)
  let skipPrev := match s.confirmedCode (prevStep x.step) with
    | some k => k == 3 || k == 4
    | none => false
  let discard := x.hasCarry && (skipPrev || s.carryBad w x || x.carryTensor != x.tensor || x.carryEpoch != x.epoch)
  let use := x.hasCarry && !discard
  let nCarried := if use then prev.length else 0
  let nDropped := prev.length - nCarried
  let s0 := if discard then s.discardCarry w else s
  let es := if x.mode = 4 then [] else s0.readElems w x use bad
  let nf := es.any (fun o => o.nonfinite) || x.torn || (x.mode == 4 && (!bad.isEmpty || (s0.hcell (cellKey w x false 0)).mark))
  let ov := es.any (fun o => o.overflow) || (x.mode == 4 && decide (2 ^ 63 ≤ (s0.hcell (cellKey w x false 0)).acc.natAbs))
  let out := if x.mode = 4 then s0.normRecordOf w x inc.length expected bad else es.flatMap (fun o => o.bytes)
  let a := s0.store (.unit (srcOther 1)) (leAt d 40 8) out
  let s1 := if x.normAcc then es.foldl (fun (t : State) (o : ReadOut) => t.addSquare x.step o.value) a.2 else a.2
  let s2 := if nf && x.mode != 4 then s1.markNonfinite x.step else s1
  let s3 := if ov && x.mode != 4 then (s2.markOverflow x.step).mergeAmax x.step (rRecord d) 0xFF else s2
  let rescaled := use && x.carryAnchor != x.anchor
  let l := hL d
  let entry := leBytes 4 x.step ++ leBytes 3 x.tensor ++
    leBytes 1 (b2n x.early + 2 * b2n x.torn + 4 * b2n ov + 8 * b2n nf + 16 * b2n (discard || x.shed) + 32 * b2n rescaled + 64 * b2n use) ++
    leBytes 2 w ++ leBytes 2 x.epoch ++ leBytes 2 expected ++ leBytes 2 inc.length ++ leBytes 2 nCarried ++ leBytes 2 nDropped ++
    leBytes 4 x.rejected ++ leBytes 1 (toBits 8 x.anchor) ++ leBytes 1 l ++ leBytes 2 0 ++
    leBytes 8 x.closeTide ++ List.replicate 28 0#8 ++ bitmap l (inc.map (fun y => y.chip)) ++ bitmap l (prev.map (fun y => y.chip))
  let b := s3.store (.unit (srcOther 1)) (leAt d 48 8) entry
  let range := x.torn || ov || nf
  let strict := x.strict && (decide (inc.length < expected) || range && a.1 = .ok && b.1 = .ok)
  let s4 := if strict then b.2.strictStep x.step else b.2
  let s5 := (s4.setFlagIf ov (HRV_UNIT_STATUS_overflow r c)).setFlagIf nf (HRV_UNIT_STATUS_nonfinite r c)
  let s6 := (s5.setFlagIf (!bad.isEmpty) (HRV_UNIT_STATUS_ecc_fatal r c)).bump (HRV_EVENT_COUNT_overflow_windows r c) (b2n ov)
  let s7 := s6.bump (HRV_EVENT_COUNT_nonfinite_windows r c) (b2n nf)
  let u := s7.stepSum x.step
  let s8 := s7.setStepSum x.step { u with
    windows := u.windows + 1, included := u.included + inc.length, carried := u.carried + nCarried, dropped := u.dropped + nDropped }
  let s9 := if x.carry then (s8.clearCells w x false).clearCells w x true else s8.clearCells w x false
  let s10 := s9.setWin w { s9.win w with
    state := 3, hasCarry := false, rejected := 0, shed := false, xfers := x.xfers.filter (fun y => y.tag / 65536 == x.step % 65536) }
  s10.complete x.entry
    ((if a.1 = .ok ∧ b.1 = .ok then [] else [.faultFailed]) ++ (if range then [.range] else []) ++
      (if inc.length < expected then [.late] else []) ++ [.ok])
    (if a.1 = .ok then b.1.err else a.1.err) inc.length nCarried

/-- WINDOW_READOUT (R369): of a closed window, once the verdict of the step before is confirmed. -/
def execWindowReadout (win : Fin 6144) (badCells : List Nat) (s : State) : Host.Outcome State Fault Refusal :=
  let x := s.win win.val
  .next (if x.state = 2 ∧ (s.confirmedCode (prevStep x.step)).isSome then s.readout win.val badCells else s)

/-- REDUCE_HARVEST (R383, R384): a HARVEST opens its window, or waits for it to reach TRAIL. -/
def execReduceHarvest (e : Nat) (s : State) : Host.Outcome State Fault Refusal :=
  .next (if s.fresh e kindReduce ∧ rRole (s.desc e) = 1 then
      if s.harvestOk (s.desc e) then s.openWindow e else s.bad e
    else s)

end Sys2Proof.Machine
end

