-- ==== Sys2Proof/Machine/Transfer.lean ====
section
/-! DEFINITION. Transfers over the web (02_tide_and_web.md R65 to R68, R72, R73, R84 to R86; 14_host_rings.md R466; 10_update_engine.md R318 to R322;
11_reduction.md R355, R374, R383 to R386; 12_job_mapping.md R403 to R407): starting them, landing their cells, landed marks, and the STREAM, GATHER_WIDEN,
BROADCAST, RING_STEP and REDUCE SEND descriptors. -/

namespace Sys2Proof.Machine

/-! ### The fields of a COPY (R465) -/

def cpSrc (d : List Byte) : Nat := leAt d 16 8
def cpDst (d : List Byte) : Nat := leAt d 24 8
def cpLen (d : List Byte) : Nat := leAt d 32 8
def cpStream (d : List Byte) : Nat := leAt d 40 2
def cpSrcHost (d : List Byte) : Bool := bitOf (leAt d 43 1) 0
def cpDstHost (d : List Byte) : Bool := bitOf (leAt d 43 1) 1

/-! ### Outgoing transfers -/

/-- Payloads of 928 bytes (R65, R66). -/
def cellsOf (bs : List Byte) : List (List Byte) := chunksOf 928 (bs.length + 1) bs

/-- Payloads of best-effort cells (R66): the global destination address and up to 920 bytes. -/
def beCellsOf (addr : Nat) (bs : List Byte) : List (List Byte) :=
  (List.range (ceilDiv bs.length 920)).map (fun i => leBytes 8 (addr + 920 * i) ++ (bs.drop (920 * i)).take 920)

/-- A transfer that has sent nothing. The frame in which it starts is no whole frame of its gap (R85). -/
def TxXfer.new (stream tag hold : Nat) (owner : TxOwner) (cells : List (List Byte)) (dst : Nat) (loc : Bool) : TxXfer :=
  { stream := stream, tag := tag, epoch := 0, hold := hold, owner := owner, cells := cells, dst := dst, next := 0, landed := 0, gap := 0
    moved := true, retry := false, loc := loc, be := false, first := 0, late := false, carried := false, reject := false, more := false
    sheet := none, port := 18, queued := false, sent := 0 }

/-- A transfer starts: the started-transfer count of its stream advances (R427). -/
def State.startTx (s : State) (x : TxXfer) : State :=
  { s with
    tx := s.tx ++ [x]
    started := if x.be then s.started else SMap.set (fun _ => 0) s.started x.stream ((s.startedCount x.stream + 1) % 65536) }

/-- Whether the receiving endpoint of a stream is this module's own: no port has a transmit slot for it (R466, R360). -/
def State.isLocalStream (s : State) (stream : Nat) : Bool := (s.streamPorts false stream).isEmpty

/-- The hold limit in force (R85). -/
def State.holdLimit (s : State) (h : Nat) : Nat := if h = 0 then s.fld WEB_CTL_hold_default else h

/-! ### The end of a RING_STEP (R406) -/

/-- A RING_STEP completes once its send is covered and its receive has landed (R406). -/
def State.tryRingDone (s : State) (e : Nat) : State :=
  let j := s.ringJob e
  if (SMap.find s.ringJobs e).isSome && j.sendDone && j.recvDone then
    (((s.dropRingJob e).bump HUB_RING_COUNT_completed).count (cntHub 19)).okWith e j.sent j.landed
  else s

/-! ### The end of an outgoing transfer -/

/-- Every cell of a transfer has landed: its descriptor completes, or its part of it is done (R385, R406, R465, R466). -/
def State.txDone (s : State) (x : TxXfer) : State :=
  let s1 := { s with tx := s.tx.erase x }
  match x.owner with
  | .gather | .relay => s1
  | .entry e =>
    let k := dKind (s.desc e)
    if k = kindReduce then
      if x.reject then s1.complete e [.faultFailed] .epochRejected x.cells.length
      else if x.late then s1.complete e [.late] .none x.cells.length (if x.carried then 1 else 2)
      else s1.okWith e x.cells.length
    else if k = kindRingStep then (s1.setRingJob e { s1.ringJob e with sendDone := true, sent := x.cells.length }).tryRingDone e
    else if k = kindCopy then s1.okWith e (leAt (s.desc e) 32 8)
    else s1.okWith e

/-- The landed mark of a transfer comes back (R67, R68, R385). -/
def State.markTx (s : State) (x : TxXfer) (mark : Nat) (reject late carried : Bool) : State :=
  let fresh := decide (x.landed < mark)
  let y := { x with
    landed := min x.cells.length (max x.landed mark), next := max x.next (min x.cells.length mark)
    reject := x.reject || reject, late := x.late || late, carried := x.carried || carried
    moved := x.moved || fresh }
  let s1 := { s with tx := s.tx.map (fun z => if z = x then y else z) }
  if y.landed = y.cells.length ∧ !y.more then s1.txDone y else s1

/-! ### Receiving endpoints (R66, R67, R84, R321, R403 to R406, R466) -/

/-- What one landed cell writes: bytes at an offset of the destination. -/
def rxBytes (b : RxBind) (index : Nat) (data : List Byte) : Nat × List Byte :=
  match b.kind with
  | .widen =>
    let n := (data.length + 64) / 65
    let blocks := min 14 n
    (index * 1792, (List.range blocks).flatMap (fun k =>
      (List.range (min 64 (data.length - 14 - 64 * k))).flatMap (fun i =>
        leBytes 2 (widenGate (leAt data k 1) (leAt data (14 + 64 * k + i) 1)))))
  | _ => (index * 928, data)

/-- Write what lands, into memory or, for a RING_STEP, into the vat of every block of its fan-out mask (R404). -/
def State.rxWrite (s : State) (b : RxBind) (off : Nat) (bs : List Byte) : AccEnd × State :=
  match b.kind with
  | .ringStep =>
    (maskBlocks (gMask (s.desc b.entry))).foldl (fun (x : AccEnd × State) (blk : Nat) =>
      let y := x.2.store .remote (vatAt blk + b.base + off) bs
      (x.1.join y.1, y.2)) (.ok, s)
  | _ => s.store .remote (b.base + off) bs

/-- The next waiting receive of a stream binds (R466). -/
def State.bindNext (s : State) (stream : Nat) : State :=
  let r := s.rxOf stream
  match r.queue with
  | [] => s.setRx stream { r with bound := none }
  | q :: qs => s.setRx stream { r with bound := some q, queue := qs }

/-- Remember the landed mark of a transfer that a receive has closed. -/
def putMark (l : List (Nat × Nat × Bool)) (tag mark : Nat) (done : Bool) : List (Nat × Nat × Bool) :=
  l.filter (fun x => x.1 != tag) ++ [(tag, mark, done)]

/-- A probe result with bit 63 set turns a verdict of its step that is not confirmed to skip (R196); a veto stands. -/
def Verdict.probed (v : Verdict) (n : Nat) : Verdict :=
  if v.step = n ∧ (v.phase = 1 ∨ v.phase = 2) ∧ v.code ≠ 4 then { v with code := 3, reason := 4, factor := f32one } else v

/-- A probe of step `n` has met a non-finite value (R194, R196). -/
def State.probeSkip (s : State) (n : Nat) : State :=
  let s1 := State.setNorm { s with verdicts := s.verdicts.map (fun v => v.probed n) } n { s.normOf n with probe := true }
  if s.verdicts.any (fun v => v.probed n != v) && s.fld UPD_VERDICT_STEP_step == n then
    ((s1.setFld UPD_VERDICT_STATUS_code 3).setFld UPD_VERDICT_STATUS_reason 4).setFld UPD_CLIP_FACTOR_c f32one
  else s1

/-- A BROADCAST receive has landed (R386): a norm record is handed to the verdict unit, a probe's words set the anchors (R194). -/
def State.broadcastDone (s : State) (e : Nat) : State :=
  let d := s.desc e
  let fl := leAt d 16 1
  let bs := s.bytes (leAt d 32 8) (leAt d 24 4)
  let s1 := if bitOf fl 2 then { s with normIn := s.normIn ++ [bs] } else s
  let n := leAt d 20 4
  if bitOf fl 3 then
    (forUpTo s.cfg.shCount (fun i t =>
      let w := leAt bs (8 * i) 8
      if !hProbe (t.hist i) then t
      else if bitOf w 63 then t.probeSkip n
      else t.applyProbe i n w) s1).refreshAnchors n
  else s1

/-- A bound receive closes: its descriptor completes or its part is done, and the next one binds (R406, R466). -/
def State.closeRx (s : State) (stream : Nat) (b : RxBind) (done clamped : Bool) (err : AccEnd) : State :=
  let r := s.rxOf stream
  let s1 := (s.setRx stream { r with bound := none, marks := putMark r.marks b.tag b.mark done }).bindNext stream
  if err ≠ .ok then
    match b.kind with
    | .ringStep => s1.failRing b.entry .faultFailed err.err
    | _ => s1.failWith b.entry err.err
  else match b.kind with
  | .ringStep =>
    let n := leAt (s.desc b.entry) 56 2
    let s2 := s1.toHome ⟨n, 0, 1, s.entryOrigin b.entry, none⟩
    (s2.setRingJob b.entry { s2.ringJob b.entry with recvDone := true, landed := b.mark }).tryRingDone b.entry
  | .broadcast => (s1.broadcastDone b.entry).okWith b.entry
  | .widen => s1.okWith b.entry
  | .plain =>
    if dKind (s.desc b.entry) = kindStream then s1.complete b.entry [if clamped then .clamped else .ok] .none b.written b.excess
    else s1.okWith b.entry

/-- A transfer on a stream has landed whole: the landed-transfer count advances, and gated signals may pass (R427). -/
def State.countLanded (s : State) (stream : Nat) : State :=
  let r := s.rxOf stream
  (s.setRx stream { r with count := (r.count + 1) % 65536 }).releaseGated stream

/-- Cells of a BROADCAST are relayed (R386): the landed payload joins the relay transfer of each relay stream. -/
def State.relay (s : State) (b : RxBind) (isLast : Bool) (data : List Byte) : State :=
  let d := s.desc b.entry
  let streams := ([leAt d 42 2, leAt d 44 2, leAt d 46 2]).filter (fun x => x != 0)
  streams.foldl (fun (t : State) (st : Nat) =>
    let mine := fun x : TxXfer => x.owner == TxOwner.relay && x.stream == st && x.tag == b.tag && x.more
    if t.tx.any mine then
      { t with tx := t.tx.map (fun x => if mine x then { x with cells := x.cells ++ [data], more := !isLast } else x) }
    else t.startTx { TxXfer.new st b.tag b.hold .relay [data] 0xFFFF false with more := !isLast }) s

/-- A RING_STEP tag `a` is later than `b` (R405). -/
def tagLater (a b : Nat) : Bool :=
  if a / 2 ^ 24 = b / 2 ^ 24 then decide (b % 2 ^ 24 < a % 2 ^ 24)
  else
    let k := subMod (a / 2 ^ 24) (b / 2 ^ 24) 256
    decide (1 ≤ k) && decide (k ≤ 127)

/-- A cell with a tag that no bound receive has (R387, R405, R466): a duplicate of a closed transfer, the rest of one that its receive did not
take, or a cell that is not landed. -/
def State.landClosed (s : State) (stream tag index : Nat) (isLast : Bool) : Landing × Nat × State :=
  let r := s.rxOf stream
  match r.marks.find? (fun x => x.1 == tag) with
  | none => (.held, 0, s)
  | some (_, mark, done) =>
    if index < mark then (.duplicate, mark, s)
    else if done ∨ mark < index then (.above, mark, s)
    else
      let s1 := s.setRx stream { r with marks := putMark r.marks tag (mark + 1) isLast }
      (.landed, mark + 1, if isLast then s1.countLanded stream else s1)

/-- The cell that the landed mark waits for lands in the bound receive `b` of a stream: `w` is where its bytes go and what they are. -/
def State.landBound (s : State) (stream : Nat) (b : RxBind) (w : Nat × List Byte) (isLast : Bool) (data : List Byte) : Landing × Nat × State :=
  let put := w.2.take (b.len - w.1)
  let x := s.rxWrite b w.1 put
  let b1 := { b with
    mark := b.mark + 1, written := b.written + put.length, excess := b.excess + (w.2.length - put.length), moved := true }
  let s1 := x.2.setRx stream { s.rxOf stream with bound := some b1 }
  let s2 := if b.kind = .broadcast then s1.relay b isLast data else s1
  let full := decide (b.len ≤ w.1 + w.2.length)
  let s3 := if isLast ∨ full ∨ x.1 ≠ .ok then s2.closeRx stream b1 isLast (full && (!isLast || b1.excess != 0)) x.1 else s2
  (.landed, b1.mark, if isLast && stream != 0 then s3.countLanded stream else s3)

/-- A data cell reaches the endpoint of a stream (R66, R67, R84, R404, R405, R466): what becomes of it and the landed mark of its tag. -/
def State.landOnStream (s : State) (stream tag index : Nat) (isLast : Bool) (data : List Byte) : Landing × Nat × State :=
  let r := s.rxOf stream
  match r.bound with
  | none => s.landClosed stream tag index isLast
  | some b =>
    if b.tag ≠ tag then
      if b.kind = .ringStep then
        if tagLater tag b.tag then (.held, 0, s) else (.duplicate, 0, s.bump HUB_RING_STALE_stale_cells)
      else s.landClosed stream tag index isLast
    else if index < b.mark then (.duplicate, b.mark, s)
    else if b.kind = .ringStep ∧ !(s.ringJob b.entry).isOpen then (.held, b.mark, s.setFlag HUB_RING_STATUS_held)
    else if b.mark < index then (.above, b.mark, s)
    else
      let w := rxBytes b index data
      if b.kind ≠ .ringStep ∧ (s.panHeld (b.base + w.1) w.2.length).isSome then (.held, b.mark, s)
      else s.landBound stream b w isLast data

/-- The GATHER_WIDEN whose cells module `chip` sends by best-effort DMA with a tag, to an address in its destination (R318): of the receives of
stream 0, in any order. -/
def State.gatherBind (s : State) (chip tag a : Nat) : Option RxBind :=
  let r := s.rxOf 0
  (r.bound.toList ++ r.queue).find? (fun b => b.tag == tag && gChip (leAt (s.desc b.entry) 16 8) == chip && decide (b.base ≤ a) &&
    decide (a < b.base + b.len))

/-- Receive `b` of stream 0 becomes the bound one. -/
def State.focusRx (s : State) (b : RxBind) : State :=
  let r := s.rxOf 0
  if r.bound = some b then s else s.setRx 0 { r with bound := some b, queue := r.bound.toList ++ r.queue.erase b }

/-- A best-effort cell of a gather lands (R318, R321): widened at its place in the destination, or at its address. -/
def State.landGather (s : State) (b : RxBind) (index : Nat) (isLast : Bool) (a : Nat) (data : List Byte) : Landing × Nat × State :=
  let w := if b.kind = .widen then rxBytes b index data else (a - b.base, data)
  if index < b.mark then (.duplicate, b.mark, s)
  else if b.mark < index then (.above, b.mark, s)
  else if (s.panHeld (b.base + w.1) w.2.length).isSome then (.held, b.mark, s)
  else (s.focusRx b).landBound 0 b w isLast data

/-- A best-effort cell for this module lands at its address (R66, R67), one of a gather in the GATHER_WIDEN that waits for it (R318). The first cell of a
transfer that is no resend takes the place of a transfer of the same tag that has landed whole (notes/assumptions/137.md). -/
def State.landBestEffort (s : State) (chip tag index : Nat) (isLast retry : Bool) (payload : List Byte) (n : Nat) : Landing × Nat × State :=
  let key := chip * 2 ^ 32 + tag
  let a := gLocal (leAt payload 0 8)
  let m := match (s.rxOf 0).marks.find? (fun x => x.1 == key) with
    | some (_, mark, done) => if done && index == 0 && !retry then 0 else mark
    | none => 0
  match s.gatherBind chip tag a with
  | some b => s.landGather b index isLast a (bytesAt payload 8 n)
  | none =>
    if index < m then (.duplicate, m, s)
    else if m < index then (.above, m, s)
    else if (s.panHeld a n).isSome then (.held, m, s)
    else
      let s1 := (s.store .remote a (bytesAt payload 8 n)).2
      (.landed, m + 1, s1.setRx 0 { s1.rxOf 0 with marks := putMark (s1.rxOf 0).marks key (m + 1) isLast })

/-! ### The scan and the conversion of a SEND (R353 to R355) -/

/-- Bytes of a source element. -/
def srcSize (mode f : Nat) : Nat := if mode = 3 then 8 else if f = 0 then 2 else 4

/-- The exact value of a source element (R353, R354); none for the non-finite mark of a q32 word. -/
def srcValue (f : Nat) (anchor : Int) (x : Nat) : FVal :=
  if f = 0 then Fmt.bf16.decode x else if f = 4 then Fmt.fp32.decode x else fromBrine 32 anchor (sext 32 x)

/-- The word that a SEND carries for an element (R353, R359). -/
def sendWord (mode f : Nat) (anchor : Int) (x : Nat) : List Byte :=
  if mode = 3 then leBytes 8 x
  else if mode = 2 then leBytes 4 (Fmt.fp32.rne (srcValue f anchor x))
  else
    let w := if mode = 0 then 32 else 64
    if f = 5 ∧ mode = 0 then leBytes 4 x else leBytes (w / 8) (toBits w (toBrine w anchor (srcValue f anchor x)).code)

/-- The scan of R355: the amax byte (R354), and the module's overflow and non-finite indications. -/
def State.scan (s : State) (n rec' mode f : Nat) (anchor : Int) (xs : List Nat) : State :=
  if 3 ≤ mode then s
  else
    let vs := xs.map (srcValue f anchor)
    let sat := mode != 2 && f != 5 && vs.any (fun v => v.isFin && (toBrine (if mode = 0 then 32 else 64) anchor v).overflow)
    let amax := vs.foldl (fun (a : FVal) v => if v.isFin then a.max v.abs else a) (.fin false 0 0)
    let s1 := s.mergeAmax n rec' (if sat then 0xFF else f32exp (Fmt.fp32.rne amax))
    let s2 := if sat then s1.markOverflow n else s1
    if vs.any (fun v => !v.isFin) then s2.markNonfinite n else s2

/-- A SEND that has been re-queued reads and scans its source again before its first cell leaves (R355); any other transfer sends the payloads it
took at its start (notes/assumptions/54.md). A source that cannot be read any more ends the SEND. -/
def State.rescan (s : State) (x : TxXfer) : Option TxXfer × State :=
  match x.owner with
  | .entry e =>
    let d := s.desc e
    let m := rMode d
    let f := rFormat d
    let k := srcSize m f
    if !x.queued ∨ x.next ≠ 0 ∨ dKind d ≠ kindReduce ∨ 3 ≤ m then (some x, s)
    else
      let r := s.load (.unit (srcRing (s.jget e).ring)) (leAt d 40 8) (rElems d * k)
      if r.2.1 ≠ .ok then (none, State.failWith { r.2.2 with tx := r.2.2.tx.erase x } e r.2.1.err)
      else
        let a := s.anchorOf (rRecord d)
        let xs := (List.range (rElems d)).map (fun i => leAt r.1 (k * i) k)
        let y := { x with cells := cellsOf (xs.flatMap (sendWord m f a)) }
        let s1 := r.2.2.scan (rStep d) (rRecord d) m f a xs
        (some y, { s1 with tx := s1.tx.map (fun z => if z = x then y else z) })
  | _ => (some x, s)

/-! ### Transfers over the region crossbar (R360, R466) -/

/-- Offer the next cell of a local transfer to its endpoint, and go on while cells land. -/
def State.drainOne (s : State) (x : TxXfer) : Nat → State
  | 0 => s
  | fuel + 1 =>
    match x.cells[x.next]? with
    | none => s
    | some data =>
      let isLast := decide (x.next + 1 = x.cells.length) && !x.more
      let put := fun (t : State) (y : TxXfer) => { t with tx := t.tx.map (fun z => if z = x then y else z) }
      let go := fun (t : State) (y : TxXfer) (mark : Nat) (rj lt cr : Bool) =>
        if mark = x.cells.length ∧ !x.more then (put t y).markTx y mark rj lt cr
        else
          let y' := { y with landed := mark, next := mark, moved := true, reject := y.reject || rj, late := y.late || lt, carried := y.carried || cr }
          State.drainOne (put t y') y' fuel
      if 0xC000 ≤ x.stream then
        let r := s.landInWindow 0 x.tag s.chip x.epoch x.first x.next isLast data
        match r.1 with
        | .landed | .duplicate =>
          go r.2.2 x (if r.1 = .landed then r.2.1.mark else x.next + 1) r.2.1.reject r.2.1.late
            (r.2.1.late && (r.2.2.win (bitsOf x.tag 0 13)).carry)
        | _ => r.2.2
      else
        let r := s.landOnStream x.stream x.tag x.next isLast data
        match r.1 with
        | .landed | .duplicate => go r.2.2 x (x.next + 1) false false false
        | _ => r.2.2

/-- Every local transfer moves as far as its endpoint lets it. -/
def State.drainLocal (s : State) : State :=
  (s.tx.filter (fun x => x.loc)).foldl (fun (t : State) (x : TxXfer) =>
    if !x.queued then t.drainOne x (x.cells.length + 1)
    else
      let r := t.rescan x
      match r.1 with
      | none => r.2
      | some y =>
        let z := { y with queued := false }
        ({ r.2 with tx := r.2.tx.map (fun w => if w = y then z else w) }).drainOne z (z.cells.length + 1)) s

/-! ### Cells from a port -/

/-- A mismatch (R72, R73): counted, and flagged for the port. -/
def State.webMismatch (s : State) (p : Nat) : State := (s.setFlag (WEB_PORT_STATUS_stream_mismatch p)).count (cntPort p 13)

def State.addCtl (s : State) (p : Nat) (n : Notice) : State :=
  s.setPort p { s.port p with ctlOut := (s.port p).ctlOut ++ [n] }

/-- A notice for slot 1 of the next frame. -/
def State.addCtlNext (s : State) (p : Nat) (n : Notice) : State :=
  s.setPort p { s.port p with ctlNext := (s.port p).ctlNext ++ [n] }

/-- What a landing does at its port (R67, R601): counts, and a go-back request for a cell above the landed mark. -/
def State.noteLanding (s : State) (p : Nat) (l : Landing) (stream tag : BitVec 32) (mark n : Nat) : State :=
  match l with
  | .landed =>
    let s1 := (s.count (cntPort p 1)).countBytes (cntPort p 8) n
    { s1.setPort p { s1.port p with bwRx := (s1.port p).bwRx + n } with movedNow := true }
  | .duplicate => s.count (cntPort p 11)
  | .above =>
    ((s.count (cntPort p 12)).count (cntPort p 9)).addCtl p (.goBack (stream.setWidth 16) tag mark)
  | .held => s

/-- Conversions of the widening gate that saturate in a cell (R601, R166). -/
def widenSat (data : List Byte) : Nat :=
  ((List.range (data.length - 14)).filter (fun i =>
    let x := leAt data (i / 64) 1
    x != 0 && (Fmt.bf16.round .rne ((Fmt.fp8e4.decode (leAt data (14 + i) 1)).scale ((x : Int) - 127))).overflow)).length

/-- A cell of the transfer bound to a stream has arrived on port `p` (R85). Of a STREAM only a landed cell counts (R466), and a held cell never
does (R362, R404). -/
def State.noteArrival (s : State) (p stream tag : Nat) (l : Landing) : State :=
  let r := s.rxOf stream
  match r.bound with
  | some b =>
    if b.tag ≠ tag ∨ l = .held ∨ (l ≠ .landed ∧ dKind (s.desc b.entry) = kindStream) then s
    else s.setRx stream { r with bound := some { b with moved := true, port := p, queued := false } }
  | none => s

/-- A cell of a contribution has arrived on port `p` (R85). -/
def State.noteWinArrival (s : State) (p stream chip tag : Nat) (l : Landing) : State :=
  let w := bitsOf tag 0 13
  match SMap.find s.wins w with
  | none => s
  | some x =>
    if l = .held then s
    else { s with wins := SMap.insert s.wins w { x with xfers := x.xfers.map (fun z => if z.chip = chip ∧ z.stream = stream ∧ z.tag = tag then
      { z with moved := true, port := p, queued := false } else z) } }

/-- Saturations are counted where a gather's cell lands. -/
def State.countWiden (s : State) (p stream : Nat) (data : List Byte) : State :=
  match (s.rxOf stream).bound with
  | some b => if b.kind = .widen then s.count (cntPort p 25) (widenSat data) else s
  | none => s

/-- DATA_CELL_RECEIVE (R66, R67, R72, R73, R84, R360): a cell in slots 4 to 255 that has passed the check of R494. Outside S0 a cell that is to
land here wakes the module and is not landed (R564). -/
def execDataCellReceive (p : Fin 18) (cell : Cell) (first : BitVec 32) (s : State) : Host.Outcome State Fault Refusal :=
  let i := p.val
  let h := cell.hdr
  let ent := s.entry i true h.slot.toNat
  let use := entryUse ent
  let n := min 928 h.length.toNat
  let isLast := bitOf h.flags.toNat 1
  .next (if !s.portUp i ∨ h.slot.toNat < 4 then s
    else if h.ctype = 6#8 then
      if use ≠ 0 ∧ !bitOf h.flags.toNat 2 then s.webMismatch i
      else
        let s1 := s.count (cntPort i 6)
        let dst := gChip (leAt cell.payload 0 8)
        if dst ≠ s.chip then
          match s1.routePort dst 0 with
          | none => s1.webMismatch i
          | some q =>
            { s1.setPort q { s1.port q with fwd := (s1.port q).fwd ++ [(cell, s.tide.ns)] } with
              relayed := SMap.insert s1.relayed h.tag.toNat i }
        else
          if !s.inS0 then s.wakeBy 1 else
          let r := s1.landBestEffort h.source.toNat h.tag.toNat h.index.toNat isLast (bitOf h.flags.toNat 3) cell.payload (min 920 n)
          let s2 := r.2.2.noteLanding i r.1 0 h.tag r.2.1 n
          if r.1 = .landed ∨ r.1 = .duplicate then s2.addCtl i (.landed 0 h.tag r.2.1 false false false) else s2
    else if h.ctype ≠ 0#8 then s
    else if use = 3 ∨ (if use = 0 then h.stream ≠ 0#16 else h.stream.toNat ≠ entryStream ent) then s.webMismatch i
    else if use = 2 then
      let q := entryFwd ent
      if q < 18 ∧ s.portHas q false h.stream.toNat then s.setPort q { s.port q with fwd := (s.port q).fwd ++ [(cell, s.tide.ns)] }
      else s.webMismatch i
    else if !s.inS0 then s.wakeBy 1
    else if 0xC000 ≤ h.stream.toNat then
      let r := s.landInWindow h.stream.toNat h.tag.toNat h.source.toNat h.epoch.toNat first.toNat h.index.toNat isLast (cell.payload.take n)
      (r.2.2.noteWinArrival i h.stream.toNat h.source.toNat h.tag.toNat r.1).noteLanding i r.1 (h.stream.setWidth 32) h.tag r.2.1.mark n
    else
      let d := cell.payload.take n
      let r := s.landOnStream h.stream.toNat h.tag.toNat h.index.toNat isLast d
      let t := (if r.1 = .landed then (s.countWiden i h.stream.toNat d).landOnStream h.stream.toNat h.tag.toNat h.index.toNat isLast d else r).2.2
      (t.noteArrival i h.stream.toNat h.tag.toNat r.1).noteLanding i r.1 (h.stream.setWidth 32) h.tag r.2.1 n)

/-! ### Control cells (R63, R67, R68) -/

/-- A notice that is for no transfer of this module goes on toward the sender, by the way its stream's cells came. -/
def State.passNotice (s : State) (p : Nat) (stream tag : Nat) (n : Notice) : State :=
  if stream = 0 then
    match SMap.find s.relayed tag with
    | some q => s.addCtl q n
    | none => s
  else
    match (List.range 18).find? (fun q => (List.range 256).any (fun k =>
      let e := s.entry q true k
      entryUse e == 2 && entryStream e == stream && entryFwd e == p)) with
    | some q => s.addCtl q n
    | none => s

/-- The landed mark of the sync cells of a port (R431): cells below it are dropped, and the SIGNALs whose messages they carried complete. -/
def State.syncMarked (s : State) (p mark : Nat) : State :=
  let u := s.port p
  let gone := u.syncSent.filter (fun x => decide (x.1 < mark))
  let s1 := s.setPort p { u with syncSent := u.syncSent.filter (fun x => decide (mark ≤ x.1)) }
  (gone.flatMap (fun x => x.2.filterMap (fun m => m.2))).foldl (fun (t : State) (e : Nat) =>
    if dKind (t.desc e) = kindCopy then t.okWith e (leAt (t.desc e) 32 8) else t.okWith e) s1

/-- One notice of a control cell. -/
def State.takeNotice (p : Nat) (s : State) (n : Notice) : State :=
  match n with
  | .landed st tag mark rj lt cr =>
    if st = 0#16 ∧ tag = 0#32 then s.syncMarked p mark
    else match s.tx.find? (fun x => !x.loc && x.stream == st.toNat && x.tag == tag.toNat) with
      | some x => s.markTx x mark rj lt cr
      | none => s.passNotice p st.toNat tag.toNat n
  | .goBack st tag mark =>
    let s1 := s.count (cntPort p 10)
    if st = 0#16 ∧ tag = 0#32 then (s1.syncMarked p mark).setPort p { (s1.syncMarked p mark).port p with syncNext := mark }
    else match s1.tx.find? (fun x => !x.loc && x.stream == st.toNat && x.tag == tag.toNat) with
      | some x => { s1 with tx := s1.tx.map (fun z => if z = x then { z with next := min mark z.cells.length } else z) }
      | none => s1.passNotice p st.toNat tag.toNat n
  | .query _ => s
  | .hold _ => s

/-- CONTROL_CELL_RECEIVE (R67, R68): the notices of slot 1, in order. -/
def execControlCellReceive (p : Fin 18) (cell : Cell) (s : State) : Host.Outcome State Fault Refusal :=
  .next (if s.portUp p.val ∧ cell.hdr.ctype = 3#8 then cell.notices.foldl (State.takeNotice p.val) s else s)

/-- TRANSFER_REQUEUE (R85, R86): the gap of a transfer at one of its ends exceeds the hold limit; a contribution's receiving end has no limit of
its own and takes hold_default (notes/assumptions/136.md). -/
def execTransferRequeue (d : Dir) (stream : BitVec 16) (tag : BitVec 32) (s : State) : Host.Outcome State Fault Refusal :=
  .next (match d with
    | .tx =>
      match s.tx.find? (fun x => x.stream == stream.toNat && x.tag == tag.toNat) with
      | some x => if s.holdLimit x.hold < x.gap then s.requeueTx stream.toNat tag.toNat none else s
      | none => s
    | .rx =>
      if 0xC000 ≤ stream.toNat then
        match (s.win (bitsOf tag.toNat 0 13)).xfers.find? (fun y => y.stream == stream.toNat && y.tag == tag.toNat && !y.done) with
        | some y => if s.holdLimit 0 < y.gap then s.requeueWin stream.toNat tag.toNat none else s
        | none => s
      else
        match (s.rxOf stream.toNat).bound with
        | some b => if b.tag = tag.toNat ∧ s.holdLimit b.hold < b.gap then s.requeueRx stream.toNat tag.toNat none else s
        | none => s)

/-! ### Binding a receive (R466, R387) -/

/-- The step of BROADCAST tag `a` is later than that of tag `b` (R386, R387). -/
def laterStep (a b : Nat) : Bool :=
  let k := subMod (a / 65536) (b / 65536) 65536
  decide (1 ≤ k) && decide (k ≤ 32767)

/-- Bind a receive to its stream, or let it wait in acceptance order. A BROADCAST receive of a transfer that has landed already completes at
once, and one of a later step lets the marks of earlier steps go (R387). -/
def State.bind (s : State) (stream : Nat) (b : RxBind) : State :=
  let r := s.rxOf stream
  let keep := if b.kind = .broadcast then r.marks.find? (fun x => x.1 == b.tag) else none
  match keep with
  | some (_, mark, true) => (s.setRx stream { r with marks := putMark r.marks b.tag mark true }).okWith b.entry
  | _ =>
    let b1 := match keep with
      | some (_, mark, false) => { b with mark := mark }
      | _ => b
    let r1 := { r with marks := r.marks.filter (fun x => x.1 != b.tag && !(b.kind == RxKind.broadcast && laterStep b.tag x.1)) }
    let later := fun x : RxBind => decide ((s.jget b.entry).order < (s.jget x.entry).order)
    (match r.bound with
      | none => s.setRx stream { r1 with bound := some b1 }
      | some _ => s.setRx stream { r1 with queue := r1.queue.filter (fun x => !later x) ++ b1 :: r1.queue.filter later }).drainLocal

def RxBind.new (entry : Nat) (kind : RxKind) (tag base len hold : Nat) : RxBind :=
  { entry := entry, kind := kind, tag := tag, base := base, len := len, hold := hold, mark := 0, written := 0, excess := 0, gap := 0, moved := true
    poison := false, port := 18, queued := false }

/-! ### STREAM (R466) -/

def streamOk (d : List Byte) : Bool :=
  decide (1 ≤ leAt d 18 2) && decide (leAt d 18 2 ≤ 0xBFFF) && decide (1 ≤ leAt d 24 8) && decide (leAt d 24 8 ≤ 2 ^ 36) &&
  isLocal (leAt d 32 8) && dZero d 40 63

/-- A send of [a, a + n) by entry `e`: it waits for held pan rows (R153), fails where the read fails (R512, R520), else its transfer starts. -/
def State.sendFrom (s : State) (e a n : Nat) (start : List Byte → State → State) : State :=
  match s.entryHeld e a n with
  | some x => s.waitPan e x
  | none =>
    let x := s.load (.unit (srcRing (s.jget e).ring)) a n
    if x.2.1 ≠ .ok then x.2.2.failWith e x.2.1.err else (start x.1 (x.2.2.begun e)).drainLocal

/-- STREAM_SEND (R466). -/
def execStreamSend (e : Nat) (s : State) : Host.Outcome State Fault Refusal :=
  let d := s.desc e
  .next (if s.fresh e kindStream ∧ leAt d 16 1 = 0 then
      if streamOk d then
        s.sendFrom e (leAt d 32 8) (leAt d 24 8) (fun bs t =>
          let st := leAt d 18 2
          t.startTx (TxXfer.new st (leAt d 20 4) (leAt d 17 1) (.entry e) (cellsOf bs) 0xFFFF (s.isLocalStream st)))
      else s.bad e
    else s)

/-- STREAM_RECEIVE (R466). -/
def execStreamReceive (e : Nat) (s : State) : Host.Outcome State Fault Refusal :=
  let d := s.desc e
  .next (if s.fresh e kindStream ∧ leAt d 16 1 = 1 then
      if streamOk d then
        (s.begun e).bind (leAt d 18 2) (RxBind.new e .plain (leAt d 20 4) (leAt d 32 8) (leAt d 24 8) (leAt d 17 1))
      else s.bad e
    else s)

/-! ### GATHER_WIDEN (R318 to R322) -/

/-- The size of a sheet (R316): n64 is n rounded up to 64, each part is rounded up to 4 KiB. -/
def sheetSize (n : Nat) (bittern : Bool) : Nat :=
  let n64 := ceilDiv n 64 * 64
  let pg := fun x => ceilDiv x 4096 * 4096
  pg 64 + pg (2 * n64) + 2 * (pg n64 + pg (n64 / 64)) + (if bittern then pg n64 else 0)

/-- A sheet's address within a shard state area (R315): sheet A at 4,096, sheet B after it. -/
def sheetAt (area n : Nat) (bittern b : Bool) : Nat := area + 4096 + (if b then sheetSize n bittern else 0)

/-- The committed sheet is B when the version is odd (R315). -/
def State.shardVersion (s : State) (area : Nat) : Nat := s.le area 8
def State.shardN (s : State) (area : Nat) : Nat := s.le (area + 12) 4
def State.shardBittern (s : State) (area : Nat) : Bool := bitOf (s.le (area + 11) 1) 1

/-- The cells of a gather in format fp8e4/64 (R321): 14 blocks of 64 elements each, exponents first. -/
def narrowCells (ws : List Nat) : List (List Byte) :=
  let blocks := (List.range (ceilDiv ws.length 64)).map (fun k => (ws.drop (64 * k)).take 64)
  (List.range (ceilDiv blocks.length 14)).map (fun i =>
    let bl := (blocks.drop (14 * i)).take 14
    let xs := bl.map (fun b => fp8BlockExp b)
    xs.map (fun x => BitVec.ofNat 8 x) ++ List.replicate (14 - xs.length) 0#8 ++
    (bl.flatMap (fun b => b.map (fun w => BitVec.ofNat 8 (fp8BlockCode (fp8BlockExp b) w)))))

/-- The owner's side of a gather (R319, R320): the version is read once, and every element comes from the sheet it names. On stream 0 the cells go by
best-effort DMA and carry the address that they are for (R318); one that no way leads to is not started. -/
def State.gatherStart (s : State) (requester area first count : Nat) (fmt8 : Bool) (stream tag dst hold : Nat) : State :=
  let b := s.shardVersion area % 2 == 1
  let n := s.shardN area
  let w := sheetAt area n (s.shardBittern area) b + 4096 + 2 * first
  let x := s.load (.unit (srcOther 1)) w (2 * count)
  let ws := (List.range count).map (fun i => Fmt.conv Fmt.bf16 Fmt.fp32 (leAt x.1 (2 * i) 2))
  let loc := requester == s.chip
  let be := stream == 0 && !loc
  let a := requester * 2 ^ 48 + dst
  let cells := if be then (if fmt8 then (narrowCells ws).zipIdx.map (fun c => leBytes 8 (a + 1792 * c.2) ++ c.1) else beCellsOf a x.1)
    else if fmt8 then narrowCells ws else cellsOf x.1
  if x.2.1 ≠ .ok then x.2.2
  else (x.2.2.startTx { TxXfer.new stream tag hold .gather cells requester loc with sheet := some (area, b), be := be }).drainLocal

def gatherOk (d : List Byte) : Bool :=
  decide (leAt d 42 1 ≤ 1) && dZero d 44 47 && dZero d 56 63 && isLocal (leAt d 32 8) && leAt d 28 4 != 0 && decide (leAt d 40 2 < 0xC000) &&
  gChip (leAt d 16 8) != 0xFFFF

/-- GATHER_WIDEN (R318, R321, R322): the requester binds the destination; a local owner starts at once when its version serves. The tag is the
descriptor's sequence number. -/
def execGatherWiden (e : Nat) (s : State) : Host.Outcome State Fault Refusal :=
  let d := s.desc e
  let owner := gChip (leAt d 16 8)
  let area := gLocal (leAt d 16 8)
  let n := leAt d 28 4
  let ragged := owner = s.chip ∧ (s.shardN area < leAt d 24 4 + n ∨ (n % 64 ≠ 0 ∧ leAt d 24 4 + n ≠ s.shardN area))
  .next (if s.fresh e kindGather then
      if !gatherOk d ∨ ragged then s.bad e
      else
        let k := leAt d 42 1
        let s1 := (s.begun e).bind (leAt d 40 2) (RxBind.new e (if k = 0 then .widen else .plain) (dSeq d) (leAt d 32 8) (2 * n) (leAt d 43 1))
        if owner = s.chip ∧ leAt d 48 8 ≤ s.shardVersion area then
          s1.gatherStart s.chip area (leAt d 24 4) n (k == 0) (leAt d 40 2) (dSeq d) (leAt d 32 8) (leAt d 43 1)
        else s1
    else s)

/-- GATHER_START (R319, R320): a request at the owner, once the shard's version is at least the minimum. -/
def execGatherStart (requester : BitVec 16) (shard : BitVec 48) (first count : BitVec 32) (fmt8 : Bool) (stream : BitVec 16) (tag : BitVec 32)
    (dst : BitVec 48) (hold : Byte) (minVersion : BitVec 64) (s : State) : Host.Outcome State Fault Refusal :=
  .next (if minVersion.toNat ≤ s.shardVersion shard.toNat then
      s.gatherStart requester.toNat shard.toNat first.toNat count.toNat fmt8 stream.toNat tag.toNat dst.toNat hold.toNat
    else s)

/-! ### BROADCAST (R386) -/

def broadcastOk (d : List Byte) : Bool :=
  bitsOf (leAt d 16 1) 4 4 == 0 && decide (1 ≤ leAt d 24 4) && decide (leAt d 24 4 ≤ 16777216) && dZero d 28 31 && dZero d 48 63 &&
  isLocal (leAt d 32 8) && decide (1 ≤ leAt d 18 2) && decide (leAt d 18 2 < 0xC000)

def broadcastTag (d : List Byte) : Nat := leAt d 20 4 % 65536 * 65536

/-- BROADCAST_SEND (R386). -/
def execBroadcastSend (e : Nat) (s : State) : Host.Outcome State Fault Refusal :=
  let d := s.desc e
  .next (if s.fresh e kindBroadcast ∧ bitsOf (leAt d 16 1) 0 2 = 0 then
      if broadcastOk d then
        s.sendFrom e (leAt d 32 8) (leAt d 24 4) (fun bs t =>
          let st := leAt d 18 2
          t.startTx (TxXfer.new st (broadcastTag d) (leAt d 17 1) (.entry e) (cellsOf bs) 0xFFFF (s.isLocalStream st)))
      else s.bad e
    else s)

/-- BROADCAST_RECEIVE (R386, R387). -/
def execBroadcastReceive (e : Nat) (s : State) : Host.Outcome State Fault Refusal :=
  let d := s.desc e
  .next (if s.fresh e kindBroadcast ∧ bitsOf (leAt d 16 1) 0 2 = 1 then
      if broadcastOk d then
        (s.begun e).bind (leAt d 18 2) (RxBind.new e .broadcast (broadcastTag d) (leAt d 32 8) (leAt d 24 4) (leAt d 17 1))
      else s.bad e
    else s)

/-! ### RING_STEP (R403 to R408) -/

/-- A RING_STEP is as R408 allows. -/
def ringStepOk (d : List Byte) : Bool :=
  let z := leAt d 30 1
  let m := maskBlocks (gMask d)
  dDeadlineValid d && dGroup d == 0 && (gSendStream d != 0 || gRecvStream d != 0) && decide (2 ≤ z) && decide (z ≤ 255) &&
  decide (leAt d 29 1 < z) && dZero d 31 31 && dZero d 46 47 && decide (1 ≤ gBytes d) && decide (gBytes d ≤ 4194304) && (gSendStream d == 0 || isLocal (leAt d 32 8)) &&
  decide (gSendStream d < 0xC000) && decide (gRecvStream d < 0xC000) &&
  (gRecvStream d == 0 || (!m.isEmpty && m.all (fun b => b / 16 == m.headD 0 / 16) && decide (leAt d 40 4 * 64 + gBytes d ≤ vatSize)))

/-- RING_STEP (R403, R404): the send starts, the receive binds, and the free counter is watched; the 512th waits (R415). -/
def execRingStep (e : Nat) (s : State) : Host.Outcome State Fault Refusal :=
  let d := s.desc e
  .next (if s.fresh e kindRingStep then
      if !ringStepOk d then s.failRing e .faultFailed .badDescriptor
      else if 511 ≤ s.ringJobs.length then s
      else
        let ss := gSendStream d
        let rs := gRecvStream d
        let x := if ss = 0 then ([], .ok, s) else s.load (.unit (srcRing (s.jget e).ring)) (leAt d 32 8) (gBytes d)
        if x.2.1 ≠ .ok then x.2.2.failRing e .faultFailed x.2.1.err
        else
          let s1 := (x.2.2.begun e).setRingJob e ⟨ss == 0, rs == 0, 0, 0, false⟩
          let s2 := if ss = 0 then s1
            else s1.startTx (TxXfer.new ss (gTag d) (leAt d 28 1) (.entry e) (cellsOf x.1) 0xFFFF (s.isLocalStream ss))
          let s3 := if rs = 0 then s2
            else (s2.waitFor e s.chip (leAt d 58 2) 0 (leAt d 60 4) false true).bind rs
              (RxBind.new e .ringStep (gTag d) (leAt d 40 4 * 64) (gBytes d) (leAt d 28 1))
          s3.drainLocal
    else s)

/-- RING_STEP_LANDING_OPEN (R404): the free threshold has been met; landing begins, and go-back to the landed mark is requested in slot 1 of the
next frame. -/
def execRingStepLandingOpen (e : Nat) (s : State) : Host.Outcome State Fault Refusal :=
  let d := s.desc e
  .next (match SMap.find s.ringJobs e with
    | none => s
    | some j =>
      if j.isOpen ∨ j.recvDone ∨ (SMap.find s.waits e).isSome then s
      else
        let s1 := s.setRingJob e { j with isOpen := true }
        let mark := match (s.rxOf (gRecvStream d)).bound with
          | some b => b.mark
          | none => 0
        ((s.streamPorts true (gRecvStream d)).foldl (fun (t : State) (p : Nat) =>
          (t.addCtlNext p (.goBack (BitVec.ofNat 16 (gRecvStream d)) (BitVec.ofNat 32 (gTag d)) mark)).count (cntPort p 9)) s1).drainLocal)

/-- RING_STEP_DEADLINE (R407): also of one that waits for a place among those in execution. The home of a free counter that it still watches gets a
cancel (R425). -/
def execRingStepDeadline (e : Nat) (s : State) : Host.Outcome State Fault Refusal :=
  .next (if (SMap.find s.ringJobs e).isSome ∨ s.fresh e kindRingStep ∧ dDeadlineValid (s.desc e) = true then
      let s1 := s.atTide (dDeadline (s.desc e))
      (match SMap.find s.waits e with
        | some j => s1.cancel j.chip j.watch
        | none => s1).failRing e .late .none
    else s)

/-! ### REDUCE SEND (R353 to R355, R374, R383 to R385) -/

def sendOk (s : State) (d : List Byte) : Bool :=
  decide (rMode d ≤ 4) && sendFormatOk (rMode d) (rFormat d) && bitsOf (leAt d 16 1) 5 3 == 0 && bitsOf (leAt d 17 1) 3 5 == 0 &&
  decide (rWindow d ≤ 6143) && decide (rRecord d < s.cfg.shCount) && dGroup d == 0 && dZero d 51 59 && isLocal (leAt d 40 8) &&
  (leAt d 48 2 == s.chip || decide (0xC000 ≤ leAt d 30 2)) && (rMode d != 4 || leAt d 40 8 == 0)

/-- The tag of a contribution (R360). -/
def sendTag (d : List Byte) : Nat := rWindow d % 8192 + bitsOf (leAt d 17 1) 0 3 * 8192 + rStep d % 65536 * 65536

/-- The transfer of a SEND starts (R360, R379, R383); one of no elements has no cell to land and is complete (R385). -/
def State.startSend (s : State) (e : Nat) (bs : List Byte) : State :=
  let d := s.desc e
  let loc := leAt d 48 2 == s.chip
  let x := TxXfer.new (if loc then 0xC000 else leAt d 30 2) (sendTag d) (leAt d 50 1) (.entry e) (cellsOf bs) (leAt d 48 2) loc
  if bs.isEmpty then s.okWith e else ((s.begun e).startTx { x with epoch := leAt d 18 2, first := leAt d 36 4 }).drainLocal

/-- Whether the record at `i` has no anchor yet for step `n`: the bound verdict of the step before is not confirmed (R190), or the record is to probe and the
probe of the step has no result yet (R194). -/
def State.unanchored (s : State) (i n : Nat) : Bool :=
  s.verdicts.any (fun v => v.step == prevStep n && v.bound && v.phase != 3) || hProbe (s.hist i) && !(s.normOf n).probe

/-- REDUCE_SEND (R355, R383): scan, convert and send. In a brine mode it waits for the anchor of its step. A max64 SEND of the norm record sends the
module's probe word (R376). -/
def execReduceSend (e : Nat) (s0 : State) : Host.Outcome State Fault Refusal :=
  let d := s0.desc e
  .next (if s0.fresh e kindReduce ∧ rRole d = 0 ∧ rMode d ≠ 4 then
      let s := if sendOk s0 d then s0.restartAt (rStep d) else s0
      if sendOk s d && decide (rMode d < 2) && s.unanchored (rRecord d) (rStep d) then s
      else if sendOk s d then
        let m := rMode d
        let f := rFormat d
        let k := srcSize m f
        if m = 3 ∧ s.normIndex = some (rRecord d) then s.startSend e (leBytes 8 (normF32 (s.normOf (rStep d))))
        else match s.entryHeld e (leAt d 40 8) (rElems d * k) with
        | some x => s.waitPan e x
        | none =>
          let x := s.load (.unit (srcRing (s.jget e).ring)) (leAt d 40 8) (rElems d * k)
          if x.2.1 ≠ .ok then x.2.2.failWith e x.2.1.err
          else
            let a := s.anchorOf (rRecord d)
            let xs := (List.range (rElems d)).map (fun i => leAt x.1 (k * i) k)
            (x.2.2.scan (rStep d) (rRecord d) m f a xs).startSend e (xs.flatMap (sendWord m f a))
      else s.bad e
    else s0)

/-- Whether a SEND of step `n` that was accepted before entry `e` is still to be scanned (R374). -/
def State.unscanned (s : State) (e n : Nat) : Bool :=
  s.journal.any (fun p => decide (p.2.order < (s.jget e).order) && decide (p.2.state < 3) && dKind p.2.desc == kindReduce && rRole p.2.desc == 0 && rMode p.2.desc != 4 &&
    rStep p.2.desc == n &&
    ((s.working p.1).isNone && !s.doneQ.any (fun x => x.entry == p.1) || s.fresh p.1 kindReduce))

/-- NORM_SEND (R374, R376, R387): the norm contribution as it stands, once every earlier SEND of the step has been scanned and the norm record
has an anchor. A module that has lost a window of the step sends none. -/
def execNormSend (e : Nat) (s : State) : Host.Outcome State Fault Refusal :=
  let d := s.desc e
  .next (if s.fresh e kindReduce ∧ rRole d = 0 ∧ rMode d = 4 then
      if !sendOk s d then s.bad e
      else if s.unscanned e (rStep d) then s
      else if (s.normOf (rStep d)).lost then s.failWith e .windowLost
      else if (match s.normIndex with
        | some i => s.unanchored i (rStep d)
        | none => false) then s
      else
        let c := s.takeContribution (rStep d)
        c.2.startSend e c.1
    else s)

/-- REDUCE_SEND_DEADLINE (R383): the deadline of a SEND ends a transfer of which no cell has been sent, or a SEND that waits to be converted. -/
def execReduceSendDeadline (e : Nat) (s : State) : Host.Outcome State Fault Refusal :=
  .next (match s.tx.find? (fun x => x.owner == TxOwner.entry e) with
    | none =>
      if s.fresh e kindReduce ∧ rRole (s.desc e) = 0 ∧ dDeadlineValid (s.desc e) then
        State.complete (s.atTide (dDeadline (s.desc e))) e [.late] .none
      else s
    | some x =>
      if dKind (s.desc e) = kindReduce ∧ dDeadlineValid (s.desc e) ∧ x.sent = 0 ∧ x.landed = 0 then
        State.complete { s.atTide (dDeadline (s.desc e)) with tx := s.tx.erase x } e [.late] .none
      else s)

/-! ### Dispatch (R461 to R464) -/

/-- DESCRIPTOR_DISPATCH (R463, R470, R461, R462, R477): the next descriptor starts. One that fails the header checks is a bad descriptor; one whose
deadline has been reached completes with LATE; a RING_STEP that ends so marks its step (R401); one that is not honoured as idempotent is journalled
in state 2. -/
def execDescriptorDispatch (s : State) : Host.Outcome State Fault Refusal :=
  .next (if s.fld HUB_BOOT_STATUS_phase ≠ 6 ∨ s.flag SAF_STATUS_shutdown ∨ !s.inS0 then s
    else match s.nextRing with
    | none => s
    | some r =>
      match s.nextOf r with
      | none => s
      | some e =>
        let d := s.desc e
        let s0 := { s with rr := SMap.insert s.rr (s.fld (RNG_CFG_priority r)) r }
        let ring := dKind d == kindRingStep
        if !s.headerOk r d then (if ring then s0.failRing e .faultFailed .badDescriptor else s0.failMember e .badDescriptor)
        else if s.lateStart d then
          (if ring then s0.failRing e .late .none else (s0.lateMember e).setFlagIf (dKind d == kindSnapshot) CNT_STATUS_snap_late)
        else
          let s1 := if dIdempotent d && !honoured d then s0.setFlag (RNG_STATUS_ignored_idempotent r) else s0
          let s2 := if honoured d then s1 else s1.jput e { s1.jget e with state := 2 }
          s2.setWork e ⟨dKind d, r, false, 0⟩)

end Sys2Proof.Machine
end

