-- ==== Sys2Proof/Machine/Web.lean ====
section
/-! DEFINITION. Web tables and slots (02_tide_and_web.md R41, R43, R49, R57 to R59, R63, R64, R67 to R88; 15_link_ports.md R495, R503): staging and swapping
banks, what a port sends in a slot, and what happens at a frame boundary. -/

namespace Sys2Proof.Machine

/-! ### Web tables (R71, R75 to R81) -/

/-- An entry as it is staged (R69 to R71), and whether that altered it. -/
def stagedEntry (rx : Bool) (slot v : Nat) : Nat × Bool :=
  if slot < 4 then (3, false)
  else if entryUse v = 3 ∨ (rx ∧ entryUse v = 2 ∧ 17 < entryFwd v) then (0, true)
  else (v % 2 ^ (if rx then 23 else 18), false)

/-- The entries of a table as staged. -/
def stagedTable (rx : Bool) (bs : List Byte) : List (Nat × Bool) := (List.range 256).map (fun k => stagedEntry rx k (leAt bs (4 * k) 4))

/-- Write a table into a bank. -/
def State.writeBank (s : State) (p : Nat) (rx : Bool) (bank : Nat) (t : List Nat) : State :=
  forUpTo 256 (fun k x => x.setReg (bankAt p rx bank k) (BitVec.ofNat 32 (t.getD k 0))) s

/-- The ports and directions that a WEB_TABLE names, in the order of its tables (R75). -/
def webNamed (d : List Byte) : List (Nat × Bool) :=
  ((List.range 18).filter (fun p => bitOf (leAt d 16 4) p)).flatMap (fun p =>
    (if bitOf (leAt d 20 1) 0 then [(p, false)] else []) ++ (if bitOf (leAt d 20 1) 1 then [(p, true)] else []))

def webTableOk (d : List Byte) : Bool :=
  bitsOf (leAt d 16 4) 18 14 == 0 && bitsOf (leAt d 20 1) 4 4 == 0 && dZero d 21 23 && dZero d 40 63 && isLocal (leAt d 32 8)

/-- The next frame boundary at or after a tide. -/
def roundFrame (t : Nat) : Nat := ceilDiv t frameNs * frameNs

/-- Whether a direction has a pending swap, or a table that a commit group has staged for it. -/
def State.swapBusy (s : State) (p : Nat) (rx : Bool) : Bool := (s.swapOf p rx).isSome || (s.stagedOf p rx).isSome

/-- Whether a WEB_TABLE accepted earlier on the ring of entry `e` still waits for a direction that `e` names (R78). -/
def State.webBehind (s : State) (e : Nat) : Bool :=
  ((SMap.get qDefault s.ringQ (s.jget e).ring).takeWhile (fun x => x != e)).any (fun x =>
    dKind (s.desc x) == kindWebTable && ((s.working x).isNone || s.fresh x kindWebTable) && !bitOf (leAt (s.desc x) 20 1) 3 &&
    (webNamed (s.desc x)).any (fun n => (webNamed (s.desc e)).contains n))

/-- WEB_TABLE (R75 to R78, R71): the tables go into the banks that are not current and are armed for the swap tide, or, in a group, are armed by
its commit. -/
def execWebTable (e : Nat) (s : State) : Host.Outcome State Fault Refusal :=
  let d := s.desc e
  let named := webNamed d
  let swap := roundFrame (leAt d 24 8)
  .next (if s.fresh e kindWebTable ∧ !bitOf (leAt d 20 1) 3 then
      if !webTableOk d then s.failMember e .badDescriptor
      else if named.any (fun x => s.swapBusy x.1 x.2) ∨ s.webBehind e then s
      else if swap < s.tide.ns + 2 * frameNs then s.lateMember e
      else if dGroup d ≠ 0 ∧ (s.openGroup (dGroup d)).isNone then s.failWith e .groupClosed
      else
        let one := bitOf (leAt d 20 1) 2
        let x := s.load (.unit (srcRing (s.jget e).ring)) (leAt d 32 8) (1024 * (if one then 1 else named.length))
        if x.2.1 ≠ .ok then x.2.2.failMember e x.2.1.err
        else
          let tabs := (List.range named.length).map (fun i =>
            let n := named.getD i (0, false)
            (n, stagedTable n.2 (bytesAt x.1 (if one then 0 else 1024 * i) 1024)))
          let altered := (tabs.map (fun t => (t.2.filter (fun z => z.2)).length)).sum
          let st : List Status := if altered ≠ 0 ∨ swap ≠ leAt d 24 8 then [.clamped] else [.ok]
          let s1 := tabs.foldl (fun (t : State) z =>
            t.writeBank z.1.1 z.1.2 (1 - t.bank z.1.1 z.1.2) (z.2.map (fun v => v.1))) x.2.2
          if dGroup d = 0 then
            (named.foldl (fun (t : State) z => t.setSwap z.1 z.2 (some swap)) s1).complete e st .none altered
          else
            let s2 := s1.stage e (tabs.map (fun z => .bank z.1.1 z.1.2 (z.2.flatMap (fun v => leBytes 4 v.1)) swap)) ⟨e, st, altered, 0⟩
              (some (swap - 3 * frameNs))
            if s2.doing e kindWebTable then named.foldl (fun (t : State) z => t.setStaged z.1 z.2 (some e)) s2 else s2
    else s)

/-- WEB_TABLE_CANCEL (R79): pending swaps whose frames have not begun are removed. In a group it has no banks to arm: it is a member without an
effect (R340). -/
def execWebTableCancel (e : Nat) (s : State) : Host.Outcome State Fault Refusal :=
  let d := s.desc e
  .next (if s.fresh e kindWebTable ∧ bitOf (leAt d 20 1) 3 then
      if !webTableOk d then s.failMember e .badDescriptor
      else
        let hit := (webNamed d).filter (fun x => match s.swapOf x.1 x.2 with
          | some t => decide (s.tide.ns < t)
          | none => false)
        let s1 := hit.foldl (fun (t : State) z => t.setSwap z.1 z.2 none) s
        if hit.isEmpty then s1.lateMember e
        else if dGroup d = 0 then s1.okWith e
        else if (s.openGroup (dGroup d)).isNone then s.failWith e .groupClosed
        else s1.stage e [] ⟨e, [.ok], 0, 0⟩ none
    else s)

/-- BANK_SWAP (R80): at its frame boundary the staged bank of a direction becomes current. -/
def execBankSwap (p : Fin 18) (d : Dir) (s : State) : Host.Outcome State Fault Refusal :=
  let rx := d == .rx
  .next (match s.swapOf p.val rx with
    | none => s
    | some t =>
      let s1 := (s.atTide t).setSwap p.val rx none
      s1.setFld (if rx then WEB_PORT_STATUS_bank_rx p.val else WEB_PORT_STATUS_bank_tx p.val) (1 - s1.bank p.val rx))

/-! ### Cells that a port sends (R63, R65, R74, R83, R495) -/

/-- A header with this module as its source, sent now in a slot. -/
def State.header (s : State) (ctype flags slot stream epoch tag index length : Nat) : CellHdr :=
  { ctype := BitVec.ofNat 8 ctype, flags := BitVec.ofNat 8 flags, stream := BitVec.ofNat 16 stream, frame := BitVec.ofNat 32 s.frame
    slot := BitVec.ofNat 8 slot, rsv9 := 0, epoch := BitVec.ofNat 16 epoch, tag := BitVec.ofNat 32 tag, index := BitVec.ofNat 32 index
    source := BitVec.ofNat 16 s.chip, length := BitVec.ofNat 16 length, rsv24 := 0, crc := 0 }

/-- A cell with its CRC (R65). -/
def sealCell (h : CellHdr) (payload : List Byte) (ns : List Notice) : Cell :=
  let c : Cell := ⟨h, padTo 928 payload, ns⟩
  { c with hdr := { h with crc := cellCrc c } }

/-- A port sends a cell. -/
def State.emit (s : State) (p : Nat) (c : Cell) : State :=
  { s.setPort p { s.port p with emitted := some c } with
    movedNow := s.movedNow || (decide (4 ≤ c.hdr.slot.toNat) && c.hdr.ctype != 1#8) }

/-- The first transfer with a cell to send that a slot may take. -/
def State.nextTx (s : State) (ok : TxXfer → Bool) : Option TxXfer :=
  s.tx.find? (fun x => !x.loc && decide (x.next < x.cells.length) && ok x)

/-- The tag and index of the next cell due on a stream at port `p` (R83): of a forwarded cell that waits, else of the first transfer that has a cell
to send, or 0. -/
def State.nextDue (s : State) (p stream : Nat) : Nat × Nat :=
  if stream = 0 then (0, 0)
  else match (s.port p).fwd.find? (fun f => f.1.hdr.ctype == 0#8 && f.1.hdr.stream.toNat == stream) with
    | some f => (f.1.hdr.tag.toNat, f.1.hdr.index.toNat)
    | none => match s.tx.find? (fun x => !x.loc && !x.be && x.stream == stream && (decide (x.next < x.cells.length) || x.more)) with
      | some x => (x.tag, x.next)
      | none => (0, 0)

/-- An empty-slot mark (R83). -/
def State.emptyMark (s : State) (p slot stream : Nat) : State :=
  let d := s.nextDue p stream
  (s.count (cntPort p 2)).emit p (sealCell (s.header 1 0 slot stream 0 d.1 d.2 0) [] [])

/-- A transfer's next cell leaves on port `p` in a slot of stream `st` (R65, R74). A cell that leaves for the first time ends the gap of R85; one
sent again does so only when the landed mark then advances (R362, R404, R466). -/
def State.sendTx (s : State) (p slot st : Nat) (x : TxXfer) (lent : Bool) : State :=
  let data := x.cells.getD x.next []
  let isLast := decide (x.next + 1 = x.cells.length) && !x.more
  let len := if x.be then data.length - 8 else data.length
  let fl := b2n (x.next == 0) + 2 * b2n isLast + 4 * b2n lent + 8 * b2n x.retry
  let h := s.header (if x.be then 6 else 0) fl slot st x.epoch x.tag x.next len
  let slow := match x.owner with
    | .entry e => dKind (s.desc e) == kindStream
    | _ => false
  let y := { x with
    next := x.next + 1, sent := max x.sent (x.next + 1), moved := x.moved || (decide (x.sent ≤ x.next) && !slow), port := p, queued := false }
  let s1 := { s with tx := s.tx.map (fun z => if z = x then y else z), movedNow := true }
  let u := s1.port p
  let s2 := (s1.setPort p { u with bwTx := u.bwTx + len }).countBytes (cntPort p 7) len
  let s3 := if lent then s2.count (cntPort p 4) else s2
  (s3.count (cntPort p (if x.be then 5 else 0))).emit p (sealCell h data [])

/-- A re-queued transfer starts again where it is a SEND (R355): its source is read and scanned again. -/
def State.sendAgain (s : State) (p slot st : Nat) (x : TxXfer) (lent : Bool) : State :=
  let r := s.rescan x
  match r.1 with
  | some y => r.2.sendTx p slot st y lent
  | none => r.2.emptyMark p slot st

/-- A forwarded cell leaves on port `p` in a slot of stream `st` (R65, R73): it carries the frame and the slot in which it leaves. -/
def State.sendForward (s : State) (p slot st : Nat) (lent : Bool) (f : Cell × Nat) : State :=
  let u := s.port p
  let h := f.1.hdr
  let c := sealCell { h with
    flags := BitVec.ofNat 8 (putBits h.flags.toNat 2 1 (b2n lent)), stream := BitVec.ofNat 16 st, frame := BitVec.ofNat 32 s.frame
    slot := BitVec.ofNat 8 slot } f.1.payload f.1.notices
  { ((s.setPort p { u with fwd := u.fwd.erase f }).count (cntPort p 14)).emit p c with movedNow := true }

/-- Whether a port carries scheduled traffic (R58, R82). -/
def State.carries (s : State) (p : Nat) : Bool :=
  s.portUp p && !s.flag (WEB_PORT_STATUS_control_only p) && !s.flag (WEB_PORT_STATUS_held p) && !s.flag (WEB_PORT_STATUS_stopped p)

/-- The first slot of the current frame, from 4 on, whose transmit entry passes and that begins at tide `t` or later. -/
def State.slotFrom (s : State) (p t : Nat) (ok : Nat → Bool) : Option Nat :=
  (List.range 256).find? (fun k => decide (4 ≤ k) && decide (t ≤ s.frame * frameNs + 8 * k) && ok (s.entry p false k))

/-- CELL_FORWARD (R73): the first cell that waits leaves on port `p` in the first transmit slot of its stream that begins at least 16 ns after it
arrived, a best-effort cell in a best-effort slot, or, where lend_idle allows it, LENT in a scheduled one. It waits where the frame has no such slot
left, or while the port or the stream carries no data (R58, R82); it is discarded where the table has no slot for its stream any more. -/
def execCellForward (p : Fin 18) (s : State) : Host.Outcome State Fault Refusal :=
  .next (match (s.port p.val).fwd with
    | [] => s
    | f :: rest =>
      let st := f.1.hdr.stream.toNat
      let t := max s.tide.ns (f.2 + 16)
      if f.1.hdr.ctype = 0#8 then
        if !s.portHas p.val false st then (s.setPort p.val { s.port p.val with fwd := rest }).webMismatch p.val
        else if !s.carries p.val ∨ s.held.contains st then s
        else match s.slotFrom p.val t (entryHas false st) with
          | some k => (s.atTide (s.frame * frameNs + 8 * k)).sendForward p.val k st false f
          | none => s
      else if !s.carries p.val then s
      else match s.slotFrom p.val t (fun e => entryUse e == 0) with
        | some k => (s.atTide (s.frame * frameNs + 8 * k)).sendForward p.val k 0 false f
        | none =>
          if !s.flag WEB_CTL_lend_idle then s
          else match s.slotFrom p.val t (fun e => (entryUse e == 1 || entryUse e == 2) && !s.held.contains (entryStream e)) with
            | some k => (s.atTide (s.frame * frameNs + 8 * k)).sendForward p.val k (entryStream (s.entry p.val false k)) true f
            | none => s)

/-- BROADCAST_RELAY (R386): the next landed cell of a stream that waits to be relayed leaves in the first slot of the relay stream that begins at
least 16 ns after it landed. It waits as a forwarded cell does. -/
def execBroadcastRelay (stream : BitVec 16) (s : State) : Host.Outcome State Fault Refusal :=
  .next (match s.nextTx (fun x => x.owner == TxOwner.relay && x.stream == stream.toNat) with
    | none => s
    | some x =>
      if s.held.contains stream.toNat then s
      else match (s.streamPorts false stream.toNat).find? (fun p => s.carries p) with
        | none => s
        | some p =>
          match s.slotFrom p (s.tide.ns + 16) (entryHas false stream.toNat) with
          | some k => (s.atTide (s.frame * frameNs + 8 * k)).sendTx p k stream.toNat x false
          | none => s)

/-- Slot 0 (R43). -/
def State.tideCell (s : State) (p : Nat) : State :=
  let tp := s.tport p
  let st := fun f => s.fld f
  let seq := if s.flag TID_STATUS_is_root then s.tide.announce
    else match s.chooseParent with
      | some q => (s.tport q).seq
      | none => 0
  let f := s.fine
  let body := leBytes 8 s.tide.ns ++ leBytes 2 s.tide.frac ++ leBytes 2 0 ++ leBytes 8 (tp.echoTx / 65536) ++ leBytes 8 (tp.echoRx / 65536) ++
    leBytes 2 (tp.echoRx % 65536) ++ leBytes 2 (tp.echoTx % 65536) ++ leBytes 2 (st TID_ROOT_ID_root_chip) ++ leBytes 1 (st TID_ROOT_ID_root_prio) ++
    leBytes 1 (st TID_STATUS_root_distance) ++ leBytes 4 seq ++
    leBytes 1 (st TID_STATUS_locked + 2 * st TID_STATUS_holdover + 4 * st TID_STATUS_is_root + 8 * st TID_STATUS_ref_ok) ++
    leBytes 1 (st TID_STATUS_epoch_gen)
  (s.setTport p { tp with t1 := f, t1Min := if tp.t1Min = 0 then f else tp.t1Min }).emit p (sealCell (s.header 2 0 0 0 0 0 0 42) body [])

/-- The landed marks that port `p` returns (R68): of every receive bound or closed on a stream of its receive table, and of every contribution. -/
def State.marksFor (s : State) (p : Nat) : List Notice :=
  let mk := fun (st tag mark : Nat) (rj lt cr : Bool) => Notice.landed (BitVec.ofNat 16 st) (BitVec.ofNat 32 tag) mark rj lt cr
  let rs := s.rx.filter (fun x => x.1 != 0 && s.portHas p true x.1)
  let ws := s.wins.flatMap (fun w => (w.2.xfers.filter (fun y => y.stream != 0 && s.portHas p true y.stream)).map
    (fun y => mk y.stream y.tag y.mark y.reject y.late (y.late && w.2.carry)))
  rs.flatMap (fun x => (x.2.marks.map (fun m => mk x.1 m.1 m.2.1 false false false)) ++
    (match x.2.bound with
      | some b => [mk x.1 b.tag b.mark false false false]
      | none => [])) ++ ws

/-- Slot 1 (R63, R68): notices queued, landed marks, and whether the port is held. The bytes of the payload have no layout in the manual. -/
def State.controlCell (s : State) (p : Nat) : State :=
  let u := s.port p
  let x := s.takeFree 7424
  let ns := u.ctlOut ++ s.marksFor p ++ [.landed 0 0 u.syncMark false false false, .hold (s.flag (WEB_PORT_STATUS_held p) || s.flag (WEB_PORT_STATUS_stopped p))]
  (x.2.setPort p { u with ctlOut := [] }).emit p (sealCell (s.header 3 0 1 0 0 0 0 928) (leBytes 928 x.1) ns)

/-- Slot 2 (R31, R64, R431): the sync cell that is due again, or a new one with up to 58 of the messages that waited when the frame began. -/
def State.syncCell (s : State) (p : Nat) : State :=
  let u := s.port p
  let old := u.syncSent.find? (fun x => x.1 == u.syncNext)
  let ms := match old with
    | some x => x.2
    | none => u.syncOut.take (min 58 u.syncDue)
  let u' := match old with
    | some _ => { u with syncNext := u.syncNext + 1 }
    | none => { u with syncOut := u.syncOut.drop (min 58 u.syncDue), syncDue := u.syncDue - 58, syncSent := u.syncSent ++ [(u.syncNext, ms)], syncNext := u.syncNext + 1 }
  let s1 := if old.isNone then s.count (cntPort p 15) ms.length else s
  (s1.setPort p u').emit p (sealCell (s.header 4 0 2 0 0 0 u.syncNext (16 * ms.length)) (ms.flatMap (fun m => msgBytes m.1)) [])

/-- The payload of a verdict cell (R333). -/
def verdictBytes (v : Verdict) (code reason chip : Nat) : List Byte :=
  leBytes 4 v.step ++ leBytes 1 code ++ leBytes 1 reason ++ leBytes 2 chip ++ leBytes 4 v.factor ++ leBytes 4 v.norm ++ leBytes 8 v.digest ++
  leBytes 2 v.domain ++ List.replicate 6 0#8 ++ leBytes 8 v.vtide

/-- A veto that is to be sent in this frame: of a step in its window, after frame V (R335). -/
def State.vetoDue (s : State) : Option Verdict :=
  s.verdicts.find? (fun v => v.phase == 2 && v.code == 4 && decide (v.vtide / frameNs < s.frame) && decide (s.frame ≤ v.vtide / frameNs + v.window))

/-- Slot 3 (R333, R335, R337): a verdict cell or answer that waits, a veto, or an empty verdict cell. -/
def State.verdictCell (s : State) (p : Nat) : State :=
  let u := s.port p
  let body := match u.vOut with
    | some b => b
    | none => match s.vetoDue with
      | some v => verdictBytes v 4 v.reason v.origin
      | none => []
  (s.setPort p { u with vOut := none }).emit p (sealCell (s.header 5 0 3 0 0 0 0 body.length) body [])

/-- A slot from 4 on (R58, R63, R73, R74, R83). -/
def State.dataSlot (s : State) (p slot : Nat) : State :=
  let ent := s.entry p false slot
  let st := if entryUse ent = 1 ∨ entryUse ent = 2 then entryStream ent else 0
  let ready := fun f : Cell × Nat => decide (f.2 + 16 ≤ s.tide.ns)
  let fwd := fun (ok : Cell → Bool) => (s.port p).fwd.find? (fun f => ok f.1 && ready f)
  let best := s.nextTx (fun x => x.be && s.routePort x.dst 0 == some p)
  if !s.carries p ∨ (st ≠ 0 ∧ s.held.contains st) then s.emptyMark p slot st
  else if st = 0 then
    match fwd (fun c => c.hdr.ctype == 6#8), best with
    | some f, _ => s.sendForward p slot 0 false f
    | none, some x => s.sendAgain p slot 0 x false
    | none, none => s.emptyMark p slot 0
  else match fwd (fun c => c.hdr.ctype == 0#8 && c.hdr.stream.toNat == st), s.nextTx (fun x => !x.be && x.stream == st) with
    | some f, _ => s.sendForward p slot st false f
    | none, some x => s.sendAgain p slot st x false
    | none, none =>
      if !s.flag WEB_CTL_lend_idle then s.emptyMark p slot st
      else match fwd (fun c => c.hdr.ctype == 6#8), best with
        | some f, _ => s.sendForward p slot st true f
        | none, some x => s.sendAgain p slot st x true
        | none, none => s.emptyMark p slot st

/-- The transmit checker replaces a cell that was wrongly formed (R495); the fourth of one frame fences the port. -/
def State.replaceCell (s : State) (p slot : Nat) : State :=
  let u := s.port p
  let s1 := ((s.setPort p { u with txFails := u.txFails + 1 }).bump (PRT_MALFORMED_tx_replaced p)).count (cntPort p 23)
  let s2 := s1.emit p (sealCell (s1.header 1 0 slot 0 0 0 0 0) [] [])
  if u.txFails + 1 = 4 then s2.fenceCause p 3 else s2

/-- Whether a cell is what the transmit table allows in a slot (R63, R495): a cell flagged LENT counts as best-effort. -/
def entryAllows (e : Nat) (h : CellHdr) : Bool :=
  h.ctype == 1#8 ||
  (if entryUse e = 1 ∨ entryUse e = 2 then
    (h.ctype == 0#8 && h.stream.toNat == entryStream e && !bitOf h.flags.toNat 2) || (h.ctype == 6#8 && bitOf h.flags.toNat 2)
  else h.ctype == 6#8)

/-- The transmit checker (R495): the CRC, the conditions of R494, and the table entry of the slot. -/
def State.txCheck (s : State) (p slot : Nat) (c : Cell) : Bool :=
  c.hdr.crc == cellCrc c && !malformedCell c slot && (decide (slot < 4) || entryAllows (s.entry p false slot) c.hdr)

/-- SLOT_TRANSMIT (R63, R495): a port that is up sends the cell of the slot, at the slot's place in the frame. The operand is the cell that an upset
cell generator hands to the transmit checker in its place, if any. -/
def execSlotTransmit (p : Fin 18) (slot : Fin 256) (wrong : Option Cell) (s : State) : Host.Outcome State Fault Refusal :=
  .next (if !s.portUp p.val then s
    else
      let s0 := s.atTide (s.frame * frameNs + 8 * slot.val)
      let s1 := match slot.val with
        | 0 => s0.tideCell p.val
        | 1 => s0.controlCell p.val
        | 2 => s0.syncCell p.val
        | 3 => s0.verdictCell p.val
        | k => s0.dataSlot p.val k
      match wrong with
      | none => s1
      | some c => if s1.txCheck p.val slot.val c then s1.emit p.val c else s1.replaceCell p.val slot.val)

/-! ### The frame boundary (R41, R49, R57, R59, R82, R85, R87, R503) -/

/-- Requests registered at least 32 ns before the boundary at `b` (R41): the last of them, and the rest. -/
def dueAt {α : Type} (b : Nat) (tide : α → Nat) (l : List α) : List α × List α := l.partition (fun x => decide (tide x + 32 ≤ b))

/-- The corrected symbols of the frame that ends (R499): a lane with more than lane_thr of them in each of 4 consecutive frames is faulty. -/
def State.laneBoundary (s : State) (p : Nat) : State :=
  let u := s.port p
  let hot := (List.range 8).filter (fun l => decide (s.fld (PRT_CFG_lane_thr p) < SMap.get (fun _ => 0) u.laneCorr l))
  let run := hot.foldl (fun (a : SMap Nat) l => SMap.set (fun _ => 0) a l (SMap.get (fun _ => 0) u.laneOver l + 1)) []
  let s1 := s.setPort p { u with laneCorr := [], laneOver := run }
  if s.portUp p then (run.filter (fun x => decide (4 ≤ x.2))).foldl (fun (t : State) (x : Nat × Nat) => t.laneFaulty p x.1) s1 else s1

/-- The frame boundary that is acted on now. -/
def State.boundary (s : State) : Nat := s.tide.done * frameNs

/-- A port at a frame boundary: its lanes (R499), hold and stop requests (R82, R87), control-only (R55, R58, R59), a parked peer (R503), the sync
messages and the verdict answer of the frame that begins (R31, R337), and its counts. -/
def State.portBoundary (s0 : State) (p : Nat) : State :=
  let s := s0.laneBoundary p
  let u := s.port p
  let q := dueAt s.boundary (fun x => x.1) u.ctlReq
  let s1 := s.setPort p { u with
    ctlReq := q.2, txFails := 0, parkFrames := u.parkFrames - 1, peerParked := false, syncDue := u.syncOut.length, vNext := none
    ctlOut := u.ctlOut ++ u.ctlNext, ctlNext := []
    vOut := if u.vNext.isSome then u.vNext else u.vOut }
  let s2 := match q.1.getLast? with
    | some (_, h, st) =>
      let t := (s1.setFld (WEB_PORT_STATUS_held p) (b2n h)).setFld (WEB_PORT_STATUS_stopped p) (b2n st)
      if st && !s.flag (WEB_PORT_STATUS_stopped p) then t.endTransfers p else t
    | none => s1
  let s3 := if u.peerParked && s2.portUp p then ((s2.endTransfers p).setFld (PRT_STATUS_state p) 0).showPorts else s2
  let s4 := if u.parkFrames = 1 then ((s3.endTransfers p).setFld (PRT_STATUS_state p) (if s.fld PWR_STATUS_state = 3 then 5 else 4)).showPorts
    else s3
  let co := !(s4.flag TID_STATUS_locked && s4.flag (WEB_PORT_STATUS_peer_locked p) && s4.portUp p &&
    (s4.tport p).epochGen == s4.fld TID_STATUS_epoch_gen)
  let s5 := s4.setFld (WEB_PORT_STATUS_control_only p) (b2n co)
  let s6 := if s5.flag (WEB_PORT_STATUS_held p) && s5.portUp p then s5.count (cntPort p 18) else s5
  if co && s6.portUp p then s6.count (cntPort p 24) else s6

/-- Stream holds and resumes (R82, R93). -/
def State.streamBoundary (s : State) : State :=
  let q := dueAt s.boundary (fun x => x.2.2) s.holdReq
  q.1.foldl (fun (t : State) x =>
    let rest := t.held.filter (fun y => y != x.1)
    { t with held := if x.2.1 then rest ++ [x.1] else rest }) { s with holdReq := q.2 }

/-- The gaps of transfers at both ends (R85). -/
def State.gapBoundary (s : State) : State :=
  { s with
    tx := s.tx.map (fun x => { x with gap := if x.moved then 0 else x.gap + 1, moved := false })
    rx := s.rx.map (fun r => (r.1, { r.2 with bound := match r.2.bound with
      | some b => some { b with gap := if b.moved then 0 else b.gap + 1, moved := false }
      | none => none }))
    wins := s.wins.map (fun w => (w.1, { w.2 with xfers := w.2.xfers.map (fun y =>
      if y.done || y.stream == 0 then y else { y with gap := if y.moved then 0 else y.gap + 1, moved := false }) })) }

/-- The tide unit at a frame boundary: ages and the parent (R47, R48), a run of frames toward lock (R52), holdover (R57), and the discipline of a
root to its reference and to TIDE_PPS (R49); in holdover the rate stays. -/
def State.tideBoundary (s : State) : State :=
  let root := s.flag TID_STATUS_is_root
  let s1 := forUpTo 18 (fun p t => if (t.tport p).seen then t.setTport p { t.tport p with seqAge := min 255 ((t.tport p).seqAge + 1) } else t) s
  let hold := s1.flag TID_STATUS_holdover
  let e : Int := ((s1.fine : Int) - s1.tide.refStart) - 100 * 65536 * s1.tide.refEdges
  let disc := root && !hold && s1.flag TID_CTL_use_ref && s1.flag TID_STATUS_ref_ok
  let run := if s1.tide.lockFrame = 1 then s1.tide.lockRun + 1 else 0
  let s2 := { s1 with tide := { s1.tide with
    quiet := s1.tide.quiet + 1, announce := if root then (s1.tide.announce + 1) % 2 ^ 32 else s1.tide.announce
    holdoverFrames := if hold then s1.tide.holdoverFrames + 1 else s1.tide.holdoverFrames
    lockRun := run, lockFrame := 0
    refRate := if disc then removeRate e else s1.tide.refRate
    ppsRate := if hold then s1.tide.ppsRate else if s1.tide.ppsFrames ≤ 1 then 0 else s1.tide.ppsRate
    ppsFrames := if hold then s1.tide.ppsFrames else s1.tide.ppsFrames - 1 } }
  let s3 := if hold then s2.count (cntHub 21) else s2
  let s4 := if !root && !s.flag TID_STATUS_locked && decide (8 ≤ run) then s3.achieveLock else s3
  (if root && (disc || s1.tide.ppsFrames != 0) then s4.showRate else s4).showParent

/-- The boundary that FRAME_BOUNDARY stands for: that of the current frame where it is still to be acted on, else the next. -/
def State.dueBoundary (s : State) : Nat := if s.tide.done < s.frame then s.frame * frameNs else s.nextBoundary

/-- The verdict ports and the window of a verdict are latched once, at the start of frame V (R334, R336). -/
def State.latchVerdict (s : State) (v : Verdict) : Verdict :=
  if v.latched then v
  else { v with
    latched := true, window := s.fld UPD_VERDICT_CTL_window
    ports := (List.range 18).filter (fun p => s.portUp p && !s.flag (WEB_PORT_STATUS_control_only p)) }

/-- Verdicts whose frame V begins at tide `b`. -/
def State.latchVerdicts (s : State) (b : Nat) : State :=
  { s with verdicts := s.verdicts.map (fun v => if v.bound && decide (v.phase < 2) && v.vtide == b then s.latchVerdict v else v) }

/-- FRAME_BOUNDARY (R41): the tide reaches a frame boundary, unless another event of that boundary has taken it there already (R88). -/
def execFrameBoundary (s : State) : Host.Outcome State Fault Refusal :=
  let b := s.dueBoundary
  let s0 := s.atTide b
  let s1 := State.count { s0 with tide := { s0.tide with done := b / frameNs % 2 ^ 53 } } (cntHub 0)
  let s2 := ((forUpTo 18 (fun p t => t.portBoundary p) s1.streamBoundary).gapBoundary).tideBoundary
  .next (State.drainLocal { s2.latchVerdicts b with movedLast := s2.movedNow, movedNow := false })

end Sys2Proof.Machine
end

