-- ==== Sys2Proof/Machine/Maps.lean ====
section
/-! DEFINITION. Owner maps (12_job_mapping.md R392 to R399): checking a table, installing and removing maps. -/

namespace Sys2Proof.Machine

/-- The run of owner `k` under the default rule (R392): start and length. -/
def defaultRun (l d k : Nat) : Nat × Nat := (k * (l / d) + min k (l % d), l / d + b2n (decide (k < l % d)))

/-- The runs of a map table (R393, R394). -/
def tableRuns (h : List Byte) (entries : List Byte) : List (Nat × Nat × Nat × Nat) :=
  let d := leAt h 12 2
  (List.range d).map (fun k =>
    let r := bytesAt entries (16 * k) 16
    let run := if bitOf (leAt h 7 1) 1 then defaultRun (leAt h 8 4) d k else (leAt r 0 4, leAt r 4 4)
    (run.1, run.2, leAt r 8 2, leAt r 10 1))

/-- Each run starts where the one before ends, the first at 0, and the lengths sum to the extent (R394). -/
def runsOk : Nat → Nat → List (Nat × Nat × Nat × Nat) → Bool
  | at', l, [] => at' == l
  | at', l, r :: rs => r.1 == at' && runsOk (at' + r.2.1) l rs

/-- A map as its table gives it. -/
def mapOf (h entries : List Byte) : OwnerMap :=
  ⟨leAt h 2 2, leAt h 4 3, bitOf (leAt h 7 1) 0, leAt h 8 4, leAt h 14 1, tableRuns h entries⟩

/-- A table is as R393, R394 and R399 allow, its map ID that of the body. -/
def tableOk (h entries : List Byte) (id : Nat) : Bool :=
  let m := mapOf h entries
  leAt h 0 2 == id && decide (id ≤ 1023) && bitsOf (leAt h 7 1) 2 6 == 0 && leAt h 12 2 != 0 && decide (leAt h 14 1 ≤ 5) && leAt h 15 1 == 0 &&
  leAt h 16 48 == 0 && m.extent != 0 && (!m.strict || m.tensor != 0) && m.runs.all (fun r => r.2.2.1 != 0xFFFF) && runsOk 0 m.extent m.runs &&
  (List.range m.runs.length).all (fun k => leAt entries (16 * k + 11) 5 == 0)

/-- Epoch `a` is newer than `b` (R395). -/
def epochNewer (a b : Nat) : Bool := decide (1 ≤ subMod a b 65536) && decide (subMod a b 65536 ≤ 32767)

/-- Whether a map may replace another (R396): with its epoch unchanged only chip IDs and logical blocks may differ. -/
def mayReplace (new old : OwnerMap) : Bool :=
  epochNewer new.epoch old.epoch ||
  new.runs.map (fun r => (r.1, r.2.1)) == old.runs.map (fun r => (r.1, r.2.1)) && new == { old with runs := new.runs }

/-- The map that an OWNER_MAP of an ID with activation tide `t` is judged against when it executes: the last pending one that activates by then, else
the installed one. -/
def State.mapNow (s : State) (id t : Nat) : Option OwnerMap :=
  match (s.mapPend.filter (fun c => c.id == id && decide (c.tide ≤ t))).getLast? with
  | some c => if c.remove then none else some c.map
  | none => SMap.find s.maps id

/-- Entries that the map store holds (R395). -/
def mapEntries (l : List OwnerMap) : Nat := (l.map (fun m => m.runs.length)).sum

/-- Whether the map store holds a map more (R399). -/
def State.mapFits (s : State) (id : Nat) (m : OwnerMap) : Bool :=
  let rest := SMap.erase s.maps id
  decide (rest.length < 1024) && decide (mapEntries (rest.map (·.2)) + m.runs.length ≤ 262144)

/-- Install a map, or remove it (R398). -/
def State.setMap (s : State) (remove : Bool) (id : Nat) (m : OwnerMap) : State :=
  let s1 := { s with maps := if remove then SMap.erase s.maps id else SMap.insert s.maps id m }
  let s2 := ((s1.setFld HUB_MAP_STATUS_maps s1.maps.length).bump HUB_MAP_COUNT_installs).count (cntHub 18)
  if remove then s2 else s2.setFld HUB_MAP_STATUS_last_epoch m.epoch

/-- An OWNER_MAP fails under R399. -/
def State.badMap (s : State) (e : Nat) : State := (s.setFlag HUB_MAP_STATUS_bad_map).failMember e .badDescriptor

def ownerMapOk (d : List Byte) : Bool := bitsOf (leAt d 26 1) 1 7 == 0 && dZero d 27 31 && dZero d 40 63 && decide (leAt d 24 2 ≤ 1023)

/-- A checked OWNER_MAP goes on (R398): at once, at its activation tide, where it stands in acceptance order (R414), or with its group. -/
def State.placeMap (s : State) (e : Nat) (remove : Bool) (m : OwnerMap) : State :=
  let d := s.desc e
  let id := leAt d 24 2
  let t := roundFrame (leAt d 32 8)
  let clamped := decide (t ≠ leAt d 32 8)
  let st : List Status := if clamped then [.clamped] else [.ok]
  if t ≠ 0 ∧ t < s.tide.ns + frameNs then s.lateMember e
  else if dGroup d ≠ 0 then s.stage e [.map remove id m t] ⟨e, st, 0, 0⟩ (if t = 0 then none else some (t - frameNs))
  else if t = 0 then (s.setMap remove id m).okWith e
  else
    let later := fun c : MapChange => match c.entry with
      | some k => decide ((s.jget e).order < (s.jget k).order)
      | none => false
    State.begun { s with mapPend := s.mapPend.filter (fun c => !later c) ++ ⟨some e, remove, id, m, t, clamped⟩ :: s.mapPend.filter later } e

/-- OWNER_MAP (R393 to R399): the table is copied and checked when it executes. -/
def execOwnerMap (e : Nat) (s : State) : Host.Outcome State Fault Refusal :=
  let d := s.desc e
  .next (if s.fresh e kindOwnerMap ∧ !bitOf (leAt d 26 1) 0 then
      let a := leAt d 16 8
      let w : Who := .unit (srcOther 1)
      let h := s.load w a 64
      if !ownerMapOk d ∨ a % 64 ≠ 0 ∨ hbmTop ≤ a then s.badMap e
      else if h.2.1 ≠ .ok then h.2.2.failMember e h.2.1.err
      else
        let x := h.2.2.load w (a + 64) (16 * leAt h.1 12 2)
        let m := mapOf h.1 x.1
        if x.2.1 ≠ .ok then x.2.2.failMember e x.2.1.err
        else if !tableOk h.1 x.1 (leAt d 24 2) ∨ !x.2.2.mapFits (leAt d 24 2) m then x.2.2.badMap e
        else match x.2.2.mapNow (leAt d 24 2) (roundFrame (leAt d 32 8)) with
          | some old => if mayReplace m old then x.2.2.placeMap e false m else x.2.2.badMap e
          | none => x.2.2.placeMap e false m
    else s)

/-- OWNER_MAP with REMOVE (R397, R398): it names its map by ID alone. -/
def execOwnerMapRemove (e : Nat) (s : State) : Host.Outcome State Fault Refusal :=
  let d := s.desc e
  .next (if s.fresh e kindOwnerMap ∧ bitOf (leAt d 26 1) 0 then
      if !ownerMapOk d then s.badMap e else s.placeMap e true ⟨0, 0, false, 0, 0, []⟩
    else s)

/-- The change whose activation tide comes first; of two at one tide the older. -/
def nextChange (l : List MapChange) : Option MapChange :=
  l.foldl (fun (a : Option MapChange) c => match a with
    | none => some c
    | some x => if c.tide < x.tide then some c else some x) none

/-- MAP_ACTIVATE (R398, R414): the next map change takes effect at its activation tide; a second one for the same ID is judged against the
first. -/
def execMapActivate (s : State) : Host.Outcome State Fault Refusal :=
  .next (match nextChange s.mapPend with
    | none => s
    | some c =>
      let s1 := State.atTide { s with mapPend := s.mapPend.erase c } c.tide
      let ok := c.remove || s.mapFits c.id c.map && (match SMap.find s.maps c.id with
        | some old => mayReplace c.map old
        | none => true)
      match c.entry with
      | none => if ok then s1.setMap c.remove c.id c.map else s1
      | some e =>
        if ok then (s1.setMap c.remove c.id c.map).complete e [if c.clamped then .clamped else .ok] .none else s1.badMap e)

end Sys2Proof.Machine
end

