-- ==== Sys2Proof/Machine/Verdict.lean ====
section
/-! DEFINITION. The verdict unit (10_update_engine.md R332 to R338, R345; 11_reduction.md R375, R377, R378, R382): forming a verdict from the norm
record, agreeing on it with the neighbours, and confirming it. -/

namespace Sys2Proof.Machine

def State.verdictOf (s : State) (n : Nat) : Option Verdict := s.verdicts.find? (fun v => v.step == n)

/-- Keep a verdict: of the confirmed ones the last 16 (R337). -/
def State.putVerdict (s : State) (v : Verdict) : State :=
  let l := s.verdicts.filter (fun x => x.step != v.step) ++ [v]
  let conf := l.filter (fun x => x.phase == 3)
  { s with verdicts := if 16 < conf.length then l.erase (conf.headD v) else l }

/-- Show the newest verdict (R352). -/
def State.showVerdict (s : State) (v : Verdict) : State :=
  let s1 := (((s.setFld UPD_VERDICT_STEP_step v.step).setFld UPD_CLIP_FACTOR_c v.factor).setFld UPD_NORM_norm v.norm).setFld
    UPD_VERDICT_STATUS_state (v.phase + 1)
  let s2 := (s1.setFld UPD_VERDICT_STATUS_code v.code).setFld UPD_VERDICT_STATUS_reason v.reason
  if v.code = 4 then
    ((s2.setFld UPD_VETO_SOURCE_origin v.origin).setFld UPD_VETO_SOURCE_port v.fromPort).setFld UPD_VETO_SOURCE_reason v.reason
  else s2

def State.keepVerdict (s : State) (v : Verdict) : State := (s.putVerdict v).showVerdict v

/-! ### The verdict of a norm record (R332) -/

/-- The starting value of a digest. -/
def digestStart : DWord := 0x5645524449435400#64

/-- The digest over step, record, latched clip and ceiling, and domain (R332). -/
def digestOf (step domain clip ceil : Nat) (r : List Byte) : DWord :=
  let flag := leAt r 8 1 % 2 + 2 * (leAt r 9 1 % 2) + 4 * (leAt r 10 1 % 2)
  ([BitVec.ofNat 64 step, BitVec.ofNat 64 (leAt r 0 8), BitVec.ofInt 64 (sext 8 (leAt r 11 1)), BitVec.ofNat 64 flag, BitVec.ofNat 64 clip,
    BitVec.ofNat 64 ceil, BitVec.ofNat 64 domain] : List DWord).foldl mix digestStart

/-- Code, reason, factor and norm (R332). -/
def judge (clip ceil : Nat) (r : List Byte) : Nat × Nat × Nat × Nat :=
  let sum := Fmt.fp32.rne (FVal.ofInt (sext 64 (leAt r 0 8)) (sext 8 (leAt r 11 1) - 24))
  let norm := f32sqrt sum
  if leAt r 8 1 ≠ 0 then (3, 1, f32one, norm)
  else if leAt r 9 1 ≠ 0 then (3, 2, f32one, norm)
  else if leAt r 10 1 ≠ 0 then (3, 4, f32one, norm)
  else if f32lt ceil norm then (3, 3, f32one, norm)
  else if f32lt clip norm then (2, 0, f32div clip norm, norm)
  else (1, 0, f32one, norm)

/-- A verdict turns to veto (R334, R335); the first veto stands. -/
def Verdict.veto (v : Verdict) (reason origin port : Nat) : Verdict :=
  if v.code = 4 then v else { v with code := 4, reason := reason, origin := origin, fromPort := port }

/-- The module turns to veto. -/
def State.turnVeto (s : State) (v : Verdict) (reason origin port : Nat) : State :=
  (s.setFlagIf (v.code != 4) UPD_VERDICT_STATUS_veto_seen).keepVerdict (v.veto reason origin port)

/-- NORM_RECORD_LAND (R375, R332, R533): the verdict unit takes a landed norm record; one that lands once frame V's slot 3 has begun is late. -/
def execNormRecordLand (split : Bool) (s : State) : Host.Outcome State Fault Refusal :=
  .next (match s.normIn with
    | [] => s
    | r :: rest =>
      let n := leAt r 12 4
      let s1 := State.setFlagIf { s with normIn := rest } (bitOf (leAt r 20 1) 0) HRV_NORM_STATUS_incomplete_seen
      let v := (s.verdictOf n).getD { Verdict.zero with step := n, domain := leAt r 16 2 }
      if 2 ≤ v.phase ∨ (v.bound ∧ v.vtide + 24 ≤ s.tide.ns) then s1.putVerdict { v with record := r }
      else
        let clip := s.fld UPD_NORM_CLIP_clip
        let ceil := s.fld UPD_NORM_CEILING_ceiling
        let j := judge clip ceil r
        let v1 := { v with
          phase := 1, record := r, clip := clip, ceil := ceil, code := j.1, reason := j.2.1, factor := j.2.2.1, norm := j.2.2.2
          digest := (digestOf n v.domain clip ceil r).toNat, origin := s.chip }
        if split then s1.turnVeto v1 8 s.chip 0x1F else s1.keepVerdict v1)

/-! ### The window (R333 to R336) -/

/-- The cell of frame V of port `p` has come. -/
def Verdict.heard (v : Verdict) (p : Nat) : Verdict := { v with ports := v.ports.filter (fun x => x != p) }

/-- VERDICT_CELL_SEND (R333, R334, R336): slot 3 of frame V. A module without its norm record sends code none with reason 7 and turns to veto. -/
def execVerdictCellSend (step : BitVec 32) (s : State) : Host.Outcome State Fault Refusal :=
  .next (match s.verdictOf step.toNat with
    | none => s
    | some v =>
      if !v.bound ∨ 2 ≤ v.phase then s
      else
        let s0 := s.atTide (v.vtide + 24)
        let v1 := { s.latchVerdict v with phase := 2 }
        let none' := v.phase == 0
        let bytes := if none' then verdictBytes v1 0 7 s.chip else verdictBytes v1 v.code v.reason v.origin
        let s1 := ((List.range 18).filter s.portUp).foldl (fun (t : State) (p : Nat) => t.setPort p { t.port p with vOut := some bytes }) s0
        if none' then s1.turnVeto v1 7 s.chip 0x1F else s1.keepVerdict v1)

/-- A cell of frame V is compared with the module's own verdict, whatever step it names (R334). -/
def State.compareCell (s : State) (v : Verdict) (p : Nat) (b : List Byte) : State :=
  let code := leAt b 4 1
  if v.code = 4 then s.putVerdict (v.heard p)
  else if code = 0 ∨ code = 4 then s.turnVeto (v.heard p) 5 (leAt b 6 2) p
  else
    let own := verdictBytes v v.code v.reason v.origin
    if b.take 6 = own.take 6 ∧ bytesAt b 8 16 = bytesAt own 8 16 then s.putVerdict (v.heard p)
    else s.turnVeto (v.heard p) 5 s.chip 0x1F

/-- The verdicts for which port `p` is a verdict port whose cell of this frame V has not come (R334). -/
def State.awaited (s : State) (p : Nat) : List Verdict :=
  s.verdicts.filter (fun v => v.phase == 2 && v.vtide / frameNs == s.frame && v.ports.contains p)

/-- A veto of a step that comes after its frame V (R335, R336): within the window the module turns to veto, afterwards late_veto is set. -/
def State.laterVeto (s : State) (v : Verdict) (p : Nat) (b : List Byte) : State :=
  let f := v.vtide / frameNs
  if leAt b 4 1 ≠ 4 ∨ leAt b 24 2 ≠ v.domain then s
  else if v.phase = 3 ∨ v.phase = 2 ∧ f + v.window < s.frame then s.setFlag UPD_VERDICT_STATUS_late_veto
  else if v.phase = 2 ∧ f < s.frame then s.turnVeto v (leAt b 5 1) (leAt b 6 2) p
  else s

/-- VERDICT_CELL_RECEIVE (R334 to R336): in frame V the comparison, afterwards vetoes; cells of another domain are ignored, and their port is no
verdict port. -/
def execVerdictCellReceive (p : Fin 18) (cell : Cell) (crcBad : Bool) (s : State) : Host.Outcome State Fault Refusal :=
  let i := p.val
  let b := cell.payload
  .next (if !s.portUp i then s
    else if crcBad then
      (s.awaited i).foldl (fun (t : State) (v : Verdict) => t.turnVeto (v.heard i) 8 s.chip 0x1F) s
    else if cell.hdr.ctype ≠ 5#8 ∨ cell.hdr.length = 0#16 ∨ bitOf (leAt b 4 1) 7 then s
    else match s.awaited i with
      | [] => (match s.verdictOf (leAt b 0 4) with
        | none => s
        | some v => s.laterVeto v i b)
      | vs => vs.foldl (fun (t : State) (v : Verdict) => if leAt b 24 2 = v.domain then t.compareCell v i b else t.putVerdict (v.heard i)) s)

/-- VERDICT_MISSING_CELL (R334): no cell arrived on a verdict port in frame V. -/
def execVerdictMissingCell (p : Fin 18) (step : BitVec 32) (s : State) : Host.Outcome State Fault Refusal :=
  .next (match s.verdictOf step.toNat with
    | some v =>
      if v.phase = 2 ∧ v.ports.contains p.val then
        (s.atTide (v.vtide + frameNs)).turnVeto (v.heard p.val) 6 s.chip 0x1F
      else s
    | none => s)

/-! ### Confirmation (R336, R338, R345, R367, R378, R382) -/

/-- The step record (R382); with no veto its origin reads 0 (notes/assumptions/165.md). -/
def State.stepRecord (s : State) (v : Verdict) : List Byte :=
  let r := v.record
  let u := s.stepSum v.step
  leBytes 4 v.step ++ leBytes 1 v.code ++ leBytes 1 v.reason ++ leBytes 2 (if v.code = 4 then v.origin else 0) ++ leBytes 4 v.norm ++ leBytes 4 v.factor ++
  leBytes 8 (leAt r 0 8) ++ leBytes 1 (leAt r 11 1) ++
  leBytes 1 (leAt r 8 1 % 2 + 2 * (leAt r 9 1 % 2) + 4 * (leAt r 10 1 % 2) + 8 * (leAt r 20 1 % 2) + 16 * b2n v.byQuery) ++
  leBytes 2 v.domain ++ leBytes 4 u.windows ++ leBytes 4 u.included ++ leBytes 4 u.carried ++ leBytes 4 u.dropped ++ leBytes 4 u.rejected ++
  leBytes 8 v.vtide ++ leBytes 4 (u.sluice.getD 0) ++ leBytes 4 0

/-- The step record is written into the step ring (R382). -/
def State.writeStepRecord (s : State) (v : Verdict) : State :=
  let a := s.fld HRV_STEP_BASE_LO_base_lo + s.fld HRV_STEP_BASE_HI_base_hi * 2 ^ 32 + v.step % 2 ^ s.fld HRV_STEP_LEN_log2_entries * 64
  let s1 := (s.store (.unit (srcOther 1)) a (s.stepRecord v)).2
  { s1 with stepSums := SMap.erase s1.stepSums v.step }

/-- Windows in TRAIL of the step before that no HARVEST has opened are released (R361, R367). -/
def State.releaseTrail (s : State) (n : Nat) : State :=
  ((s.wins.filter (fun p => p.2.state == 3 && (p.2.step + 1) % 2 ^ 32 == n)).map (·.1)).foldl State.freeWindow s

/-- The second count of a member that is an UPDATE is the verdict code (R331). -/
def State.memberCode (s : State) (code : Nat) (m : Member) : Member := if dKind (s.desc m.entry) = kindUpdate then { m with c2 := code } else m

/-- A group is skipped (R345): what it has staged is discarded, and its members, the started UPDATEs and STATS that have not staged among them,
complete with SKIPPED. -/
def State.skipGroup (s : State) (g code : Nat) : State :=
  match s.openGroup g with
  | none => s
  | some x =>
    let s1 := State.dropGroup { s with groups := SMap.insert s.groups g { x with members := x.members.map (s.memberCode code) } } g .skipped []
    let rest := s1.work.filter (fun p => !p.2.done && (p.2.kind == kindUpdate || p.2.kind == kindStats) && dGroup (s1.desc p.1) == g)
    rest.foldl (fun (t : State) (p : Nat × Work) => t.complete p.1 [.skipped] .none 0 (if p.2.kind = kindUpdate then code else 0)) s1

/-- Groups bound to a step whose verdict is skip or veto are skipped (R345). -/
def State.skipGroups (s : State) (n code : Nat) : State :=
  ((s.groups.filter (fun p => match p.2.bound with
    | some b => b.1 == n
    | none => false)).map (·.1)).foldl (fun (t : State) (g : Nat) => t.skipGroup g code) s

/-- A verdict is confirmed on the module (R336, R338). -/
def State.confirm (s : State) (v : Verdict) : State :=
  let s1 := s.keepVerdict { v with phase := 3, conf := s.tide.ns }
  let s2 := ((s1.updateHistory v.code v.step v.record).refreshAnchors ((v.step + 1) % 2 ^ 32)).writeStepRecord v
  let s3 := (s2.releaseTrail v.step).count (cntHub (10 + v.code))
  if v.code = 3 ∨ v.code = 4 then
    ((s3.bump UPD_SKIP_COUNT_skips).bump UPD_SKIP_COUNT_vetoes (b2n (v.code == 4))).skipGroups v.step v.code
  else s3

/-- VERDICT_CONFIRM (R336, R337): the start of frame V + W + 1; a verdict port whose cell never came counts as missing (R334). -/
def execVerdictConfirm (step : BitVec 32) (s : State) : Host.Outcome State Fault Refusal :=
  .next (match s.verdictOf step.toNat with
    | some v =>
      if v.phase = 2 then
        let s1 := s.atTide (v.vtide + (v.window + 1) * frameNs)
        if v.ports.isEmpty then s1.confirm v
        else (s1.setFlagIf (v.code != 4) UPD_VERDICT_STATUS_veto_seen).confirm (v.veto 6 s.chip 0x1F)
      else s
    | none => s)

/-! ### Queries (R337, R377) -/

/-- VERDICT_QUERY_SEND (R337): once locked again, a module asks its neighbours in slot 1. -/
def execVerdictQuerySend (step : BitVec 32) (s : State) : Host.Outcome State Fault Refusal :=
  .next (if s.flag TID_STATUS_locked && (s.confirmedCode step.toNat).isNone then
      ((List.range 18).filter s.portUp).foldl (fun (t : State) (p : Nat) => t.addCtl p (.query step)) (s.setFlag UPD_VERDICT_STATUS_query_sent)
    else s)

/-- VERDICT_QUERY_RECEIVE (R337): a neighbour that holds the confirmed verdict answers in slot 3 of the following frame. -/
def execVerdictQueryReceive (p : Fin 18) (step : BitVec 32) (s : State) : Host.Outcome State Fault Refusal :=
  .next (match s.verdictOf step.toNat with
    | some v =>
      if v.phase = 3 then s.setPort p.val { s.port p.val with vNext := some (verdictBytes v (v.code + 128) v.reason v.origin) } else s
    | none => s)

/-- VERDICT_ANSWER_RECEIVE (R337, R377): the answer is the confirmed verdict; the norm record is read from the owner's ring before the scale history
changes. -/
def execVerdictAnswerReceive (p : Fin 18) (cell : Cell) (rec : List Byte) (s : State) : Host.Outcome State Fault Refusal :=
  let b := cell.payload
  .next (if !s.portUp p.val ∨ cell.hdr.ctype ≠ 5#8 ∨ !bitOf (leAt b 4 1) 7 ∨ (s.confirmedCode (leAt b 0 4)).isSome then s
    else
      let v := (s.verdictOf (leAt b 0 4)).getD { Verdict.zero with step := leAt b 0 4, domain := leAt b 24 2, vtide := leAt b 32 8 }
      (s.setFlag HRV_NORM_STATUS_ring_read).confirm { v with
        record := rec, code := leAt b 4 1 % 128, reason := leAt b 5 1, origin := leAt b 6 2, fromPort := p.val, factor := leAt b 8 4
        norm := leAt b 12 4, digest := leAt b 16 8, byQuery := true })

end Sys2Proof.Machine
end

