-- ==== Sys2Proof/Machine/Commit.lean ====
section
/-! DEFINITION. Commit groups (10_update_engine.md R339 to R347): opening, committing, aborting, and the deadline. -/

namespace Sys2Proof.Machine

/-- A GROUP_BEGIN is as R339 and R341 allow: its group is not open, and a verdict-bound one agrees with the open groups of its step. -/
def State.groupBeginOk (s : State) (d : List Byte) : Bool :=
  let g := dGroup d
  let bound := bitOf (leAt d 20 1) 0
  let clash := s.groups.any (fun p => match p.2.bound with
    | some b => b.1 == leAt d 24 4 && (b.2.1 != leAt d 22 2 || b.2.2 != leAt d 32 8)
    | none => false)
  g != 0 && (s.groupOf g).isNone && decide (1 ≤ leAt d 16 4) && decide (leAt d 16 4 ≤ 4096) && bitsOf (leAt d 20 1) 1 7 == 0 && dZero d 21 21 &&
  dZero d 28 31 && dZero d 40 63 && (!bound || (leAt d 32 8 % frameNs == 0 && !clash))

/-- GROUP_BEGIN (R339, R341): a group opens; a verdict-bound one names its step, domain and verdict tide. -/
def execGroupBegin (e : Nat) (s : State) : Host.Outcome State Fault Refusal :=
  let d := s.desc e
  let g := dGroup d
  let bound := bitOf (leAt d 20 1) 0
  let n := leAt d 24 4
  let v := leAt d 32 8
  let dom := leAt d 22 2
  .next (if s.fresh e kindGroupBegin then
      if !s.groupBeginOk d then s.bad e
      else
        let x : Group := { Group.zero with begin_ := e, expected := leAt d 16 4, bound := if bound then some (n, dom, v) else none }
        let s1 := State.showGroups { (if bound then s.restartAt n else s) with groups := SMap.insert s.groups g x }
        let s2 := if bound then
            (match s1.verdictOf n with
              | some y => if y.phase < 2 then s1.putVerdict { y with bound := true, domain := dom, vtide := v
                                                                     digest := if y.phase = 1 then (digestOf n dom y.clip y.ceil y.record).toNat else y.digest }
                else s1
              | none => (s1.putVerdict { Verdict.zero with step := n, domain := dom, bound := true, vtide := v }).setFld UPD_VERDICT_STATUS_state 1)
          else s1
        s2.okWith e
    else s)

/-- GROUP_COMMIT (R343): accepted for an open group that has no other. One that replay re-executes finds itself there (R481). -/
def execGroupCommit (e : Nat) (s : State) : Host.Outcome State Fault Refusal :=
  let g := dGroup (s.desc e)
  .next (if s.fresh e kindGroupCommit then
      if !dZero (s.desc e) 16 63 then s.bad e
      else match s.groupOf g with
        | none => s.failWith e .groupClosed
        | some x =>
          if x.commit.isSome ∧ x.commit ≠ some e then s.bad e
          else State.begun { s with groups := SMap.insert s.groups g { x with commit := some e } } e
    else s)

/-- One effect of a committed group (R340, R343). -/
def State.makeEffect (s : State) (f : Effect) : State :=
  match f with
  | .write a bs => (s.store (.unit (srcOther 1)) a bs).2
  | .signal chip n op x o gate => s.raise chip n op x o none gate
  | .bank p rx bs t => (s.writeBank p rx (1 - s.bank p rx) ((List.range 256).map (fun k => leAt bs (4 * k) 4))).setStaged p rx none |>.setSwap p rx (some t)
  | .map remove id m t => if t = 0 then s.setMap remove id m else { s with mapPend := s.mapPend ++ [⟨none, remove, id, m, t, false⟩] }

/-- Whether the verdict that a group is bound to lets it commit (R343). -/
def State.verdictAllows (s : State) (x : Group) : Bool :=
  match x.bound with
  | none => true
  | some b => s.confirmedCode b.1 == some 1 || s.confirmedCode b.1 == some 2

/-- The deadline of a group (R347), that of its GROUP_COMMIT. -/
def State.groupDeadline (s : State) (x : Group) : Option Nat :=
  match x.commit with
  | some e => if dDeadlineValid (s.desc e) then some (dDeadline (s.desc e)) else none
  | none => none

/-- The commit record write of a group begins (R343): from here the group commits. -/
def State.beginRecord (s : State) (g : Nat) (x : Group) (e : Nat) : State :=
  let ms := match x.bound with
    | some b => x.members.map (s.memberCode ((s.confirmedCode b.1).getD 0))
    | none => x.members
  { s with commits := s.commits ++ [⟨g, e, x.effects, 0, 0, false, ms ++ [⟨e, [.ok], 0, 0⟩]⟩] }

/-- Put back the record of a group that is being committed. -/
def State.putRec (s : State) (c : CommitRec) : State :=
  { s with commits := s.commits.map (fun y => if y.group == c.group && !y.done then c else y) }

/-- A committed group whose effects are made is freed. -/
def State.freeCommitted (s : State) (c : CommitRec) : State :=
  State.showGroups { (s.putRec { c with done := true }) with groups := SMap.erase s.groups c.group }

/-- One step of the commit (R343): the record is written in a mirror, waiting while a mirror is lost (R25); with both written the group is
committed, and its effects are made in staging order; then the members and the GROUP_COMMIT complete and the entry is freed. -/
def State.commitStep (s : State) (c : CommitRec) : State :=
  if c.mirrors < 2 then
    if !(s.mirrorAOk && s.mirrorBOk) then s
    else
      let s1 := s.putRec { c with mirrors := c.mirrors + 1 }
      if c.mirrors = 0 then s1 else ((s1.count (cntHub 3)).bump UPD_GROUP_COUNT_commits).count (cntHub 15)
  else match c.effects[c.made]? with
    | some f => ((s.putRec { c with made := c.made + 1 }).count (cntHub 17)).makeEffect f
    | none => c.owed.foldl (fun (t : State) (m : Member) => t.complete m.entry m.status .blockError m.c1 m.c2) (s.freeCommitted c)

/-- `k` steps of the commit of group `g`, as far as it has steps left. -/
def State.commitRun : Nat → Nat → State → State
  | 0, _, s => s
  | k + 1, g, s => match s.recOf g with
    | some c => State.commitRun k g (s.commitStep c)
    | none => s

/-- The members whose limit has passed when the commit record write would begin (R346, R398). -/
def State.lateMembers (s : State) (x : Group) : List Nat := (x.limits.filter (fun l => decide (l.1 < s.tide.ns))).map (·.2)

/-- The commit record write of a group begins, if the group may commit and neither its deadline nor a limit has passed (R343, R346, R347, R398). A
group bound to a step that is confirmed as skip or veto is skipped (R345). -/
def State.tryCommit (s : State) (g : Nat) (x : Group) (e : Nat) : State :=
  let code := match x.bound with
    | some b => (s.confirmedCode b.1).getD 0
    | none => 0
  let late := s.lateMembers x
  if code = 3 ∨ code = 4 then s.skipGroup g code
  else if x.members.length ≠ x.expected ∨ !s.verdictAllows x then s
  else if (match s.groupDeadline x with
    | some t => decide (t ≤ s.tide.ns)
    | none => false) then s.abortGroup g [e]
  else if late ≠ [] then (s.setFlagIf (late.any (fun m => dKind (s.desc m) == kindOwnerMap)) HUB_MAP_STATUS_map_late).abortGroup g late
  else s.beginRecord g x e

/-- GROUP_COMMIT_EXECUTE (R343 to R347, R398): the commit record write of a group begins, or goes on. The command makes `upTo` steps of the commit,
or all of them. -/
def execGroupCommitExecute (g : CommitTurn) (s : State) : Host.Outcome State Fault Refusal :=
  let s1 := match s.openGroup g.group.val with
    | some x => (match x.commit with
      | some e => s.tryCommit g.group.val x e
      | none => s)
    | none => s
  .next (match s1.recOf g.group.val with
    | some c => State.commitRun (min (g.upTo.getD (c.effects.length + 3)) (c.effects.length + 3)) g.group.val s1
    | none => s1)

/-- GROUP_ABORT (R344): too late once the commit record write has begun. -/
def execGroupAbort (e : Nat) (s : State) : Host.Outcome State Fault Refusal :=
  let g := dGroup (s.desc e)
  .next (if s.fresh e kindGroupAbort then
      if !dZero (s.desc e) 16 63 then s.bad e
      else if (s.recOf g).isSome then s.complete e [.late] .none
      else match s.groupOf g with
        | none => s.failWith e .groupClosed
        | some _ => (s.abortGroup g []).okWith e
    else s)

/-- The tide at which the deadline `t` of a group is judged (R347): for a verdict-bound one not before the start of its confirmation frame
V + W + 1. -/
def State.judgedAt (s : State) (x : Group) (t : Nat) : Nat :=
  match x.bound with
  | none => t
  | some b => max t (b.2.2 + (((s.verdictOf b.1).filter (fun v => v.latched)).elim (s.fld UPD_VERDICT_CTL_window) (fun v => v.window) + 1) * frameNs)

/-- GROUP_DEADLINE (R347): the deadline of a group whose commit record write has not begun is judged. -/
def execGroupDeadline (g : Fin 4096) (s : State) : Host.Outcome State Fault Refusal :=
  .next (match s.openGroup g.val with
    | none => s
    | some x =>
      match s.groupDeadline x with
      | none => s
      | some t => (s.atTide (s.judgedAt x t)).abortGroup g.val x.commit.toList)

end Sys2Proof.Machine
end

