-- ==== Sys2Proof/Machine/Curve.lean ====
section
/-! DEFINITION. What STATS, ROOT and UPDATE share: the geometry of factor areas (07_curvature_statistics.md R234 to R236) and preconditioner
areas (08_matrix_function_unit.md R268, R269), products in the array's order (05_numerics.md R184, R185), the order of descriptors of a kind, and staged or
direct publication (10_update_engine.md R340, R342). -/

namespace Sys2Proof.Machine

/-- The units of the module other than rings and blocks, as the source of an access (R638). -/
def devUnit : Who := .unit (srcOther 1)

def up4k (x : Nat) : Nat := ceilDiv x 4096 * 4096

/-! ### Factor blocks (R234) -/

/-- Dimension rounded up to a multiple of 128. -/
def padDim (d : Nat) : Nat := ceilDiv d 128 * 128

/-- How many factor blocks a factor of dimension `d` has with block size `b`. -/
def blockCount (d b : Nat) : Nat := ceilDiv (padDim d) b

/-- The dimension of factor block `q`. -/
def blockDim (d b q : Nat) : Nat := min b (padDim d - q * b)

/-- The header of a factor area (R235): version, tensor ID, block size, dimension, updates, step. -/
def faVersion (h : List Byte) : Nat := leAt h 0 8
def faTensor (h : List Byte) : Nat := leAt h 8 3
def faB (h : List Byte) : Nat := leAt h 11 1 * 128
def faD (h : List Byte) : Nat := leAt h 12 4

/-- The size of one copy of a factor (R235). -/
def copySize (d b : Nat) : Nat := up4k (((List.range (blockCount d b)).map (fun q => 2 * blockDim d b q ^ 2)).sum)

/-- Address of factor block `q` in copy `v` of a factor area (R235). -/
def factorAt (area d b v q : Nat) : Nat := area + 64 + v % 2 * copySize d b + 2 * b ^ 2 * q

/-- The upper tiles (c, c') of a factor block of `c` chunks, in row-major order (R236). -/
def upperTiles (c : Nat) : List (Nat × Nat) := (List.range c).flatMap (fun i => (List.range (c - i)).map (fun j => (i, i + j)))

/-- The number of the upper tile (i, j) among those of `c` chunks. -/
def tileIndex (c i j : Nat) : Nat := i * c - i * (i - 1) / 2 + (j - i)

/-! ### Preconditioner areas (R268) -/

def paB (h : List Byte) : Nat := leAt h 8 1 * 128
def paD (h : List Byte) : Nat := leAt h 4 4
def paCount (h : List Byte) : Nat := leAt h 9 2

/-- The size of one copy of a factor block of `c` chunks. -/
def rootSize (c : Nat) : Nat := up4k (c ^ 2) + 32768 * c ^ 2

/-- Address of the block record of factor block `q`. -/
def recordAt (area q : Nat) : Nat := area + 64 + 64 * q

/-- Address of copy `v` of factor block `q`. -/
def rootAt (area d b v q : Nat) : Nat :=
  up4k (area + 64 + 64 * blockCount d b) + 2 * rootSize (b / 128) * q + v % 2 * rootSize (blockDim d b q / 128)

/-- The tile exponent s_ij of a copy at `a` (R269). -/
def State.tileExp (s : State) (a c i j : Nat) : Int := sext 8 (s.le (a + i * c + j) 1)

/-- The code of element (i, j) of a copy at `a` of dimension 128 × c. -/
def State.rootCode (s : State) (a c i j : Nat) : Nat :=
  s.le (a + up4k (c ^ 2) + ((i / 128 * c + j / 128) * 16384 + i % 128 * 128 + j % 128) * 2) 2

/-! ### Products in the order of the array (R184, R185) -/

def bf (x : Nat) : FVal := Fmt.bf16.decode x
def toBf (x : Nat) : Nat := Fmt.fp32.conv Fmt.bf16 x
def toF32 (x : Nat) : Nat := Fmt.bf16.conv Fmt.fp32 x

/-- The fp32 sum over k < n of x k × y k, chunk by chunk of 128, each chunk scaled by 2^(ex c) as it leaves the array. -/
def arrDot (n : Nat) (ex : Nat → Int) (x y : Nat → FVal) : Nat :=
  (List.range (ceilDiv n 128)).foldl (fun acc c =>
    let o := (arrOut Fmt.fp32 ((List.range (min 128 (n - 128 * c))).map (fun k => (x (128 * c + k)).mul (y (128 * c + k)))) (ex c)).bits
    if c = 0 then o else f32add acc o) 0

/-- A dense matrix of `r` rows and `c` columns, row by row. -/
def buildMat (r c : Nat) (g : Nat → Nat → Nat) : List Nat := (List.range (r * c)).map (fun t => g (t / c) (t % c))

def matAt (c : Nat) (l : List Nat) (i j : Nat) : Nat := l.getD (i * c + j) 0

/-- A matrix of which only the upper tiles are kept, the lower tiles read transposed (R249). -/
def symTiles (n : Nat) (l : List Nat) : List Nat :=
  buildMat n n (fun i j => if i / 128 ≤ j / 128 then matAt n l i j else matAt n l j i)

/-- The product of two n × n matrices of bf16 codes, drained to bf16 (R249). -/
def matMul (n : Nat) (a b : List Nat) : List Nat :=
  buildMat n n (fun i j => toBf (arrDot n (fun _ => 0) (fun k => bf (matAt n a i k)) (fun k => bf (matAt n b k j))))

/-! ### Order and publication -/

/-- Whether entry `e` is accepted and has not completed. -/
def State.unfinished (s : State) (e : Nat) : Bool := decide ((s.jget e).state ∈ [1, 2]) && !s.doneQ.any (fun d => d.entry == e)

/-- Whether another descriptor of kind `k` that was accepted before `e` (R331, R244, R264, R305), started or not, has not completed and satisfies
`ok`. -/
def State.earlier (s : State) (e k : Nat) (ok : List Byte → Bool) : Bool :=
  s.journal.any (fun p => decide (p.2.order < (s.jget e).order) && dKind p.2.desc == k && s.unfinished p.1 && ok p.2.desc)

/-- A descriptor ends with a publishing write, or with none: it stages in its group, or acts and completes (R342). -/
def State.finish (s : State) (e : Nat) (fx : List Effect) (st : List Status) (err : ErrCode) (c1 c2 : Nat) : State :=
  if dGroup (s.desc e) = 0 then (fx.foldl State.makeEffect s).complete e st err c1 c2 else s.stage e fx ⟨e, st, c1, c2⟩ none

/-- Why a descriptor that names logical block `b` cannot run there (R21, R23). -/
def State.placeErr (s : State) (b : Nat) : ErrCode :=
  if s.regionFenced (b / 16) then .regionFenced else if s.absent b then .blockAbsent else .none

/-- A lane mismatch of an update engine (R531): the pass is repeated; a second one is a block error of the block, and the descriptor runs again
there or on the spare (R22, R349). Answers the status that this adds, if the descriptor can go on. -/
def State.laneUpset (s : State) (e b : Nat) (u : LaneUpset) : List Status × State :=
  match u with
  | .none => ([], s)
  | .once => ([.replayed], s.error ⟨1, 1, 6, b / 16, s.phys b, 0xFFFF, 0, 0, (s.jget e).ring, dSeq (s.desc e)⟩)
  | .twice => ([.faultRetried], s.blockError b none 6 (UPD_ENGINE_STATUS_retried b).cause)

end Sys2Proof.Machine
end

