-- ==== Sys2Proof/Machine/Firmware.lean ====
section
/-! DEFINITION. Firmware update and attestation (19_firmware.md R572 to R597): the flash, the update state record, staging, abort, trial, and the
attestation report. The boot chain is in Machine/Resets.lean. -/

namespace Sys2Proof.Machine

/-! ### Flash (R572) -/

/-- What a flash byte that nothing has written reads as: erased (notes/assumptions/40.md). -/
def flashDefault : Nat → Byte := fun _ => 0xFF#8

def State.flashByte (s : State) (a : Nat) : Byte := SMap.get flashDefault s.flash a
def State.flashBytes (s : State) (a n : Nat) : List Byte := (List.range n).map (fun i => s.flashByte (a + i))

def State.setFlash (s : State) (a : Nat) (bs : List Byte) : State :=
  { s with flash := forUpTo bs.length (fun i m => SMap.set flashDefault m (a + i) (bs.getD i 0#8)) s.flash }

def updAt (k : Nat) : Nat := 0x0800000 + k * 0x10000
def boardAt (k : Nat) : Nat := 0x0820000 + k * 0x10000
def imageAt : Nat := 0x1000000
def deltaAt : Nat := 0x7000000
def sectorSize : Nat := 65536
/-- Sectors of the image area (R572). -/
def imageSectors : Nat := 1536

/-! ### The update state record (R582) -/

/-- The update state record (R582). -/
structure Upd where
  seq : Nat
  state : Nat
  boots : Nat
  cause : Nat
  written : Nat
  digest : List Byte
  floor : Nat
  deriving DecidableEq, Repr

def updBody (u : Upd) : List Byte :=
  leBytes 1 u.state ++ leBytes 1 u.boots ++ leBytes 1 u.cause ++ leBytes 1 0 ++ leBytes 4 u.written ++ padTo 32 u.digest ++ leBytes 8 u.floor ++
  leBytes 8 0

def updOf (b : List Byte) : Upd := ⟨leAt b 0 4, leAt b 8 1, leAt b 9 1, leAt b 10 1, leAt b 12 4, bytesAt b 16 32, leAt b 48 8⟩

/-- Whether copy `k` of the record verifies. -/
def State.updOk (s : State) (k : Nat) : Bool :=
  let b := s.flashBytes (updAt k) 64
  leAt b 4 4 == (crc32c (b.drop 8)).toNat

/-- The copy in use: the one with the higher sequence number that verifies; with neither, state 0 (R582, R586). -/
def State.upd (s : State) : Upd :=
  let a := updOf (s.flashBytes (updAt 0) 64)
  let b := updOf (s.flashBytes (updAt 1) 64)
  if s.updOk 0 then (if s.updOk 1 ∧ a.seq < b.seq then b else a) else if s.updOk 1 then b else ⟨0, 0, 0, 0, 0, List.replicate 32 0#8, 0⟩

/-- Show the record in the registers (R597). -/
def State.showUpd (s : State) : State :=
  (s.setFld HUB_FW_STATUS_state s.upd.state).setFld HUB_FW_TRIAL_boots s.upd.boots

/-- Write the record into the copy with the older sequence number (R572, R582). -/
def State.putUpd (s : State) (u : Upd) : State :=
  let qa := if s.updOk 0 then leNat (s.flashBytes (updAt 0) 4) + 1 else 0
  let qb := if s.updOk 1 then leNat (s.flashBytes (updAt 1) 4) + 1 else 0
  let body := updBody u
  (s.setFlash (updAt (if qa ≤ qb then 0 else 1)) (leBytes 4 (max qa qb) ++ leBytes 4 (crc32c body).toNat ++ body)).showUpd

/-! ### Images and packages (R576 to R580) -/

/-- A byte of the image area as installed. -/
def State.imageByte (s : State) (i : Nat) : Byte := s.flashByte (imageAt + i)

/-- Bytes [off, off + n) of an image. -/
def imgBytes (img : Nat → Byte) (off n : Nat) : List Byte := (List.range n).map (fun i => img (off + i))

/-- The digest of a manifest: of its bytes 0 to 4,095 (R574). -/
def manifestDigest (img : Nat → Byte) : List Byte := sha3 (imgBytes img 0 4096)

def manVersion (img : Nat → Byte) : Nat := leNat (imgBytes img 8 8)
def manFloor (img : Nat → Byte) : Nat := leNat (imgBytes img 16 8)

/-- Part entry `i` of a manifest (R576). -/
def partEntry (img : Nat → Byte) (i : Nat) : List Byte := imgBytes img (160 + 64 * i) 64

/-- The verified parts are copied into the booted-set area, and the hub, the command processors and the HBM controllers load their code from there
(R574, R575). -/
def State.bootCopy (s : State) : State :=
  let s1 := { s with booted := (List.range 8).map (partEntry s.imageByte) }
  forUpTo 24 (fun k t => t.loadHbmCode k) (forUpTo 4 (fun r t => t.loadCode (2 + r) 0) (s1.loadCode 1 0))

/-- Whether the part that entry `i` names has the recorded digest (R579). -/
def partOk (img : Nat → Byte) (i : Nat) : Bool :=
  let p := partEntry img i
  decide (leAt p 4 4 + leAt p 8 4 ≤ imageSectors * sectorSize) && sha3 (imgBytes img (leAt p 4 4) (leAt p 8 4)) == bytesAt p 16 32

/-- What a manifest must keep to (R577), with the digests of its parts (R574): one part of each type, none over another or over the manifest. -/
def manifestOk (img : Nat → Byte) : Bool :=
  let ps := (List.range 8).map (partEntry img)
  let off := fun i => leAt (ps.getD i []) 4 4
  let fin := fun i => leAt (ps.getD i []) 4 4 + leAt (ps.getD i []) 8 4
  (List.range 8).all (fun k => (ps.filter (fun p => leAt p 0 1 == k + 1)).length == 1) &&
  (List.range 8).all (fun i => decide (8192 ≤ off i) && (List.range 8).all (fun j => i == j || decide (fin i ≤ off j) || decide (fin j ≤ off i))) &&
  (List.range 8).all (partOk img)

/-- The image area passes the checks of its own contents (R574, R577). As delivered, with nothing written to it since, it holds an installed set
that this model does not list (notes/assumptions/40.md). -/
def State.setIntact (s : State) : Bool :=
  !s.flash.any (fun p => decide (imageAt ≤ p.1) && decide (p.1 < imageAt + imageSectors * sectorSize)) || manifestOk s.imageByte

/-- A record of a forward delta (R578): op, target and source sector, and where its data lie in the package. -/
structure DeltaRec where
  op : Nat
  target : Nat
  source : Nat
  data : Nat
  deriving DecidableEq, Repr

/-- The records of a forward delta of `n` records from `off` on, or none when the package is malformed; `get` reads the package. -/
def deltaRecs (get : Nat → Byte) (len : Nat) : Nat → Nat → Option (List DeltaRec)
  | 0, off => if off = len then some [] else none
  | n + 1, off =>
    let h := imgBytes get off 16
    let r : DeltaRec := ⟨leAt h 0 1, leAt h 4 4, leAt h 8 4, off + 16⟩
    let next := off + 16 + (if r.op = 0 then sectorSize else 0)
    if len < next ∨ 2 < r.op ∨ imageSectors ≤ r.target ∨ (r.op = 1 ∧ imageSectors ≤ r.source) ∨ leAt h 1 3 ≠ 0 ∨ leAt h 12 4 ≠ 0 then none
    else (deltaRecs get len n next).map (fun l => r :: l)

/-- The image that a delta makes of an installed one (R578, R579): copies read old sectors. -/
def expandDelta (old get : Nat → Byte) (rs : List DeltaRec) (i : Nat) : Byte :=
  match (rs.reverse).find? (fun r => r.target == i / sectorSize) with
  | none => old i
  | some r =>
    if r.op = 0 then get (r.data + i % sectorSize)
    else if r.op = 1 then old (r.source * sectorSize + i % sectorSize)
    else 0xFF#8

/-- The package that the registers name (R578, R579): the new image and the base digest of a delta, or the error of its check. -/
def State.package (s : State) : (Nat → Byte) × Option (List Byte) × Nat :=
  let src := s.fld HUB_FW_SRC_LO_src_lo / 64 * 64 + s.fld HUB_FW_SRC_HI_src_hi * 2 ^ 32
  let len := s.fld HUB_FW_LEN_length
  let get := fun i => s.byte (src + i)
  let h := imgBytes get 0 64
  let n := leAt h 4 4
  let most := imageSectors * sectorSize + 64 + (if leAt h 0 1 = 2 then 16 * n else 0)
  if hbmTop < src + len ∨ len < 64 ∨ s.anyPoison src (min len 64) ∨ leAt h 1 3 ≠ 0 ∨ leAt h 40 24 ≠ 0 then (get, none, 1)
  else if leAt h 0 1 = 1 then
    if most < len then (get, none, 5)
    else if len ≠ most ∨ leAt h 8 32 ≠ 0 ∨ s.anyPoison src len then (get, none, 1)
    else (fun i => get (64 + i), none, 0)
  else if leAt h 0 1 = 2 then
    if most < len then (get, none, 5)
    else if s.anyPoison src len then (get, none, 1)
    else match deltaRecs get len n 64 with
      | none => (get, none, 1)
      | some rs => (expandDelta s.imageByte get rs, some (bytesAt h 8 32), 0)
  else (get, none, 1)

/-- The refusal of a stage command, 0 for none (R579). -/
def State.stageError (s : State) (p : (Nat → Byte) × Option (List Byte) × Nat) : Nat :=
  if p.2.2 ≠ 0 then p.2.2
  else if (match p.2.1 with
      | some d => d != manifestDigest s.imageByte
      | none => false) then 2
  else if !(List.range 8).all (partOk p.1) then 3
  else if manVersion p.1 < s.upd.floor then 4
  else 0

/-- The image sectors in which two images differ. -/
def changedSectors (old new : Nat → Byte) : List Nat :=
  (List.range imageSectors).filter (fun k => (List.range sectorSize).any (fun i => old (k * sectorSize + i) != new (k * sectorSize + i)))

/-- The writes of the reverse delta (R580): its table, then the old contents of each changed sector. -/
def reverseWrites (old : Nat → Byte) (ks : List Nat) : List (State → State) :=
  let sec := fun k => imgBytes old (k * sectorSize) sectorSize
  let table := manifestDigest old ++ leBytes 4 ks.length ++ List.replicate 28 0#8 ++
    ks.flatMap (fun k => leBytes 2 k ++ leBytes 2 0 ++ leBytes 4 (crc32c (sec k)).toNat)
  (fun (t : State) => t.setFlash deltaAt (padTo sectorSize table)) ::
    (List.range ks.length).map (fun i (t : State) => t.setFlash (deltaAt + (i + 1) * sectorSize) (sec (ks.getD i 0)))

/-- The writes of a staging in order (R580): state 1, the reverse delta, state 2, each changed sector with the count written, and state 3. -/
def State.stageWrites (s : State) (new : Nat → Byte) : List (State → State) :=
  let ks := changedSectors s.imageByte new
  let u : Upd := { s.upd with state := 1, boots := 0, cause := 0, written := 0, digest := manifestDigest new }
  (fun (t : State) => t.putUpd u) :: reverseWrites s.imageByte ks ++ (fun (t : State) => t.putUpd { u with state := 2 }) ::
  (List.range ks.length).map (fun i (t : State) =>
    (t.setFlash (imageAt + ks.getD i 0 * sectorSize) (imgBytes new (ks.getD i 0 * sectorSize) sectorSize)).putUpd { u with state := 2, written := i + 1 }) ++
  [fun (t : State) => t.putUpd { u with state := 3, written := ks.length }]

/-- Apply the reverse delta: every sector of its table returns to its old contents (R581, R585, R586). -/
def State.applyReverse (s : State) : State :=
  let n := leNat (s.flashBytes (deltaAt + 32) 4)
  forUpTo (min n imageSectors) (fun i t =>
    t.setFlash (imageAt + leNat (s.flashBytes (deltaAt + 64 + 8 * i) 2) * sectorSize) (s.flashBytes (deltaAt + (i + 1) * sectorSize) sectorSize)) s

/-- Mark the reverse-delta area empty (R584): its table counts no sector. -/
def State.emptyReverse (s : State) : State := s.setFlash (deltaAt + 32) (leBytes 4 0)

/-- A stage command (R579, R580, R581): refused, with flash unchanged, or carried out as far as it gets (`Config.stagingEnd`). One that is cut leaves the service busy,
until the reset that cuts it (R620). -/
def State.stageSet (s : State) : State :=
  if s.upd.state ≠ 0 ∨ s.flag HUB_FW_STATUS_busy = true then s.setFld HUB_FW_STATUS_error 6
  else
    let p := s.package
    let err := s.stageError p
    if err ≠ 0 then s.setFld HUB_FW_STATUS_error err
    else
      let ws := s.stageWrites p.1
      let go := fun k => (ws.take k).foldl (fun (t : State) w => w t) { s with free := s.free + 1 }
      match Config.stagingEnd s.free with
      | .whole => ((go ws.length).setFlag HUB_FW_STATUS_staged).setFld HUB_FW_STATUS_error 0
      | .fault k => (go (min k (ws.length - 1))).setFld HUB_FW_STATUS_error 7
      | .cut k =>
        let n := min k (ws.length - 1)
        (((go n).setFld HUB_FW_STATUS_busy 1).setFld HUB_FW_STATUS_progress (100 * n / ws.length)).setFld HUB_FW_STATUS_error 0

/-- FW_STAGE (R579, R580, R596, R597). -/
def execFwStage (s : State) : Host.Outcome State Fault Refusal := .next s.stageSet

/-- An abort command (R581, R596). -/
def State.abortUpdate (s : State) : State :=
  let u := s.upd
  let done := { u with state := 0, cause := 6 }
  if s.flag HUB_FW_STATUS_busy = true then s.setFld HUB_FW_STATUS_error 6
  else if u.state = 1 then (s.emptyReverse.putUpd done).setFld HUB_FW_STATUS_error 0
  else if u.state = 2 ∨ u.state = 3 then (s.applyReverse.putUpd done).setFld HUB_FW_STATUS_error 0
  else s.setFld HUB_FW_STATUS_error 6

/-- FW_ABORT (R581). -/
def execFwAbort (s : State) : Host.Outcome State Fault Refusal := .next s.abortUpdate

/-! ### Trial (R583 to R585) -/

/-- A write of HUB_HEALTH_CONFIRM (R584). -/
def State.healthConfirm (s : State) (code : Word) : State :=
  let u := s.upd
  if u.state = 4 ∧ code.toNat = leAt u.digest 0 4 then
    let s1 := (s.putUpd { u with state := 0, boots := 0, floor := max u.floor (manFloor s.imageByte) }).emptyReverse
    { (s1.setFld HUB_FW_TRIAL_remaining_s 0).bump HUB_FW_COUNT_updates with fallDue := none }
  else s.bump HUB_FW_COUNT_bad_confirms

/-- HEALTH_CONFIRM (R584, R596). -/
def execHealthConfirm (code : Word) (s : State) : Host.Outcome State Fault Refusal := .next (s.healthConfirm code)

/-- TRIAL_EXPIRY (R585): the timer reaches 0 in state 4 and a fallback starts. -/
def execTrialExpiry (s : State) : Host.Outcome State Fault Refusal :=
  .next (if s.fld HUB_FW_STATUS_state = 4 ∧ s.fallDue = none then
      let s1 := (s.atTide (s.trialAt + s.fld HUB_FW_TRIAL_remaining_s * 1000000000)).setFld HUB_FW_TRIAL_remaining_s 0
      { s1 with fallDue := some 4 }
    else s)

/-! ### Attestation (R593 to R595) -/

/-- Bytes 0 to 831 of a report (R595). -/
def State.reportBody (s : State) (nonce : List Byte) : List Byte :=
  leBytes 2 1 ++ leBytes 2 0 ++ leBytes 2 s.chip ++ leBytes 2 11 ++ padTo 32 nonce ++ leBytes 8 s.tide.ns ++ padTo 32 s.logValue ++
  padTo 32 Sys2Proof.Config.deviceIdentity ++ padTo 16 s.serial ++ padTo 704 s.logEntries.flatten

/-- The request of a report (R595): an address that is not in open memory sets error. -/
def State.attest (s : State) : State :=
  let na := s.fld HUB_ATTEST_NONCE_LO_addr_lo / 32 * 32 + s.fld HUB_ATTEST_NONCE_HI_addr_hi * 2 ^ 32
  let da := s.fld HUB_ATTEST_DST_LO_addr_lo / 4096 * 4096 + s.fld HUB_ATTEST_DST_HI_addr_hi * 2 ^ 32
  let x := s.load devUnit na 32
  let body := x.2.2.reportBody x.1
  let y := x.2.2.store devUnit da (body ++ padTo 3309 (Sys2Proof.Config.signature (sha3 body) 3309) ++ padTo 5261 Sys2Proof.Config.certificate)
  if x.2.1 ≠ .ok then x.2.2.setFlag HUB_ATTEST_STATUS_error
  else if y.1 ≠ .ok then y.2.setFlag HUB_ATTEST_STATUS_error
  else y.2.setFlag HUB_ATTEST_STATUS_done

/-- ATTEST_START (R595). -/
def execAttestStart (s : State) : Host.Outcome State Fault Refusal := .next s.attest

end Sys2Proof.Machine
end

