-- ==== Sys2Proof/Machine/ModuleIf.lean ====
section
/-! DEFINITION. Maintenance mode (01_architecture.md R30), and the board's side interfaces: the I3C target and the test access port
(22_module_interface.md R632, R633). -/

namespace Sys2Proof.Machine

/-! ### Maintenance mode (R30, R35) -/

/-- MAINT_REQUEST (R30). -/
def execMaintRequest (s : State) : Host.Outcome State Fault Refusal := .next (s.maintWrite true)

/-- MAINT_MODE_ENTER (R30): a pending request takes effect. -/
def execMaintModeEnter (s : State) : Host.Outcome State Fault Refusal :=
  .next (if s.flag HUB_MAINT_CTL_maint_pending && s.maintReady then
      State.showMaint { s.setFld HUB_MAINT_CTL_maint_pending 0 with maintEnd := false }
    else s.settleMaint)

/-- MAINT_RELEASE (R30). -/
def execMaintRelease (s : State) : Host.Outcome State Fault Refusal := .next (s.maintWrite false)

/-! ### I3C and SMBus (R633) -/

/-- Byte `i` of the mailbox (R633): the monitor's registers, 8 bytes of 0, and the newest error records. -/
def State.mailboxByte (s : State) (i : Nat) : Byte :=
  if i < 0x38 then (leBytes 4 (s.view (0x800000 + i / 4 * 4)).toNat).getD (i % 4) 0#8
  else if i < 0x40 then 0#8
  else ((s.errNew[(i - 0x40) / 64]?).getD []).getD ((i - 0x40) % 64) 0#8

/-- `n` bytes of the mailbox; past its end the manual gives none, so they are free values. -/
def State.mailboxRead (s : State) (i : Nat) : Nat → List Byte × State
  | 0 => ([], s)
  | n + 1 =>
    if i < 4096 then
      let y := State.mailboxRead s (i + 1) n
      (s.mailboxByte i :: y.1, y.2)
    else
      let f := s.takeFree 8
      let y := State.mailboxRead f.2 (i + 1) n
      (BitVec.ofNat 8 f.1 :: y.1, y.2)

/-- I3C_MAILBOX_READ (R633): a 2-byte write sets the offset; one of another length sets none, and of more than 2 bytes is discarded. -/
def execI3cMailboxRead (offset : List Byte) (len : Nat) (s : State) : Host.Outcome State Fault Refusal :=
  .next (if s.unpowered then s
    else
      let s1 := if offset.length = 2 then { s with i3cOff := leNat offset } else s
      let x := s1.mailboxRead s1.i3cOff len
      { x.2 with out := ⟨x.1, false, false⟩ })

/-- I3C_CCC (R633): an address is assigned, a status returned, or a reset action taken down; what the status holds is open. -/
def execI3cCcc (code : Ccc) (s : State) : Host.Outcome State Fault Refusal :=
  .next (if s.unpowered then s
    else match code with
      | .entdaa a => { s with i3cAddr := a.toNat }
      | .setdasa a => { s with i3cAddr := a.toNat }
      | .getstatus =>
        let f := s.takeFree 16
        { f.2 with out := ⟨leBytes 2 f.1, false, false⟩ }
      | .rstact a => { s with i3cRst := a.toNat })

/-! ### The test access port (R632) -/

/-- Whether the TAP is powered (R632, R569). -/
def State.tapOn (s : State) : Bool := !s.unpowered && s.fld PWR_STATUS_state != 3

/-- The 3.3 V pins of R623 in the order PERST#, WAKE#, PWR_BRAKE#, THERM_ALERT#, I3C_SCL, I3C_SDA, TIDE_PPS, TIDE_OUT; `pins` gives what the board
drives. -/
def State.pinLevels (s : State) (pins : Nat) : Nat :=
  b2n (!s.perstLow) + 2 * b2n (bitOf pins 1 && !s.wakeLow) + 4 * b2n (!s.brakeLow) + 8 * b2n (!s.flag PWR_STATUS_therm_alert) +
  bitsOf pins 4 3 * 16 + 128 * b2n s.tide.outHigh

/-- EXTEST (R632, R637): the chain drives its pins only while PERST# is asserted; at any other time it samples. -/
def execExtest (pins : BitVec 8) (s : State) : Host.Outcome State Fault Refusal :=
  .next (if !s.tapOn then s
    else if s.perstLow then { s with tap := 2, chain := pins.toNat, driven := some pins.toNat }
    else { s with tap := 2, chain := s.pinLevels pins.toNat, driven := none })

/-- SAMPLE_PRELOAD (R632): the chain samples the pins. -/
def execSamplePreload (pins : BitVec 8) (s : State) : Host.Outcome State Fault Refusal :=
  let x := s.pinLevels pins.toNat
  .next (if !s.tapOn then s else { s with tap := 1, chain := x, driven := none, out := ⟨leBytes 1 x, false, false⟩ })

/-- BYPASS (R632): TDI passes to TDO. -/
def execBypass (tdi : Bool) (s : State) : Host.Outcome State Fault Refusal :=
  .next (if !s.tapOn then s else { s with tap := 0, driven := none, out := ⟨leBytes 1 (b2n tdi), false, false⟩ })

end Sys2Proof.Machine
end

