-- ==== Sys2Proof/Machine/Counters.lean ====
section
/-! DEFINITION. Performance counters (20_counters.md R598 to R608): reads, wraps, port bandwidth windows and snapshots. -/

namespace Sys2Proof.Machine

/-- Whether the catalogue defines counter index `k` (R601). -/
def counterDefined (k : Nat) : Bool :=
  if k < 24 then true
  else if k < 0x100 then false
  else if k < 0x100 + 18 * 32 then decide ((k - 0x100) % 32 < 26)
  else if k < 0x340 then false
  else if k < 0x3A0 then decide ((k - 0x340) % 24 < 13)
  else if k < 0x400 then true
  else if k < 0x400 + 64 * 48 then decide ((k - 0x400) % 48 < 47)
  else false

/-- The value of event counter `k`. -/
def State.cntVal (s : State) (k : Nat) : Nat := SMap.get (fun _ => 0) s.cnt k

/-- Bits [47:32] and the overflow bit of counter `k`, as CNT_VALUE_HI shows them (R600, R608). -/
def State.cntHigh (s : State) (k : Nat) : Nat := s.cntVal k / 2 ^ 32 + b2n (s.flag (CNT_VALUE_HI_overflow k)) * 2 ^ 16

/-- The number of a reading agent: the host, or a management core. -/
def agentNo : Agent → Nat
  | .host => 0
  | .core k => k.val + 1

/-- A read of CNT_VALUE_LOk by an agent latches the high part of the same value for it (R600). -/
def State.readCntLo (s : State) (k who : Nat) : Nat × State :=
  (s.cntVal k % 2 ^ 32, { s with cntLatch := SMap.set (fun _ => 0) s.cntLatch (k * 5 + who) (s.cntHigh k) })

/-- Whether a register can be read in the maintenance hold of R542: the hub's own and the safety monitor's (R635). -/
def holdReadable (a : Nat) : Bool := decide (a < 0x100000) || (decide (0x800000 ≤ a) && decide (a < 0xC00000))

/-- What the host reads from the register at `a`: the counters through its own latch (R600), the others as they stand; in the maintenance hold what a
register shows that cannot be read is open. -/
def State.hostReg (s : State) (a : Nat) : Nat × State :=
  if s.fld HUB_BOOT_STATUS_phase = 7 ∧ holdReadable a = false then s.takeFree 32
  else if 0xC10000 ≤ a ∧ a < 0xC18000 then
    let k := (a - 0xC10000) / 8
    if a % 8 = 0 then s.readCntLo k 0 else (SMap.get (fun _ => 0) s.cntLatch (k * 5), s)
  else
    let x := s.readReg a
    (x.1.toNat, x.2)

/-- COUNTER_WRAP (R599): an advance that carries a counter past 2^48 − 1. -/
def execCounterWrap (k : Fin 4096) (n : Nat) (s : State) : Host.Outcome State Fault Refusal :=
  .next (if counterDefined k.val ∧ 2 ^ 48 ≤ s.cntVal k.val + n then s.count k.val n else s)

/-- A port latches what it moved in the window that ends (R604). -/
def State.latchBw (s : State) (p : Nat) : State :=
  let u := s.port p
  ((s.setFld (CNT_PORT_BW_TX_bytes64 p) (u.bwTx / 64)).setFld (CNT_PORT_BW_RX_bytes64 p) (u.bwRx / 64)).setPort p
    { u with bwTx := 0, bwRx := 0 }

/-- The next end of a bandwidth window of W frames that has not been taken (R604). -/
def State.windowEnd (s : State) : Nat :=
  let w := frameNs * max 1 s.bwWindow
  let t := max w (ceilDiv s.tide.ns w * w)
  if (t / frameNs - 1) % 2 ^ 32 = s.fld CNT_WINDOW_END_frame ∧ s.fld CNT_WINDOW_END_frame ≠ 0 then t + w else t

/-- PORT_BW_WINDOW_END (R604): every port latches; a written window takes effect. -/
def execPortBwWindowEnd (s : State) : Host.Outcome State Fault Refusal :=
  let t := s.windowEnd
  let s1 := (forUpTo 18 (fun p x => x.latchBw p) (s.atTide t)).setFld CNT_WINDOW_END_frame (t / frameNs - 1)
  .next { s1 with bwWindow := s.fld CNT_CTL_window }

/-! ### Snapshots (R605, R606) -/

def snTide (d : List Byte) : Nat := leAt d 16 8
def snFirst (d : List Byte) : Nat := leAt d 24 2
def snCount (d : List Byte) : Nat := leAt d 26 2
def snDst (d : List Byte) : Nat := leAt d 32 8

/-- The checks of R605. -/
def snapshotOk (d : List Byte) : Bool :=
  decide (1 ≤ snCount d) && decide (snFirst d + snCount d ≤ 4096) && dZero d 28 31 && snDst d % 64 == 0 && isLocal (snDst d) && dZero d 40 63

/-- The entry of one counter (R606). -/
def State.snapEntry (s : State) (k : Nat) : List Byte := leBytes 8 (s.cntVal k + b2n (s.flag (CNT_VALUE_HI_overflow k)) * 2 ^ 48)

/-- What a snapshot writes (R606). -/
def State.snapBytes (s : State) (d : List Byte) : List Byte :=
  leBytes 8 s.tide.ns ++ leBytes 2 s.chip ++ leBytes 2 (snFirst d) ++ leBytes 2 (snCount d) ++ leBytes 2 0 ++ leBytes 4 s.frame ++
  leBytes 44 0 ++ (List.range (snCount d)).flatMap (fun i => s.snapEntry (snFirst d + i))

/-- Show how many SNAPSHOTs are uncaptured (R608). -/
def State.showSnaps (s : State) : State := s.setFld CNT_STATUS_pending s.snaps.length

/-- The captures are made; then each is written and completes (R606). -/
def State.capture (s : State) (es : List Nat) : State :=
  let got := es.map (fun e => (e, s.snapBytes (s.desc e),
    ((List.range (snCount (s.desc e))).filter (fun i => s.flag (CNT_VALUE_HI_overflow (snFirst (s.desc e) + i)))).length))
  let s1 := State.showSnaps { s with snaps := s.snaps.filter (fun e => !es.contains e) }
  got.foldl (fun (t : State) (x : Nat × List Byte × Nat) =>
    let w := t.store devUnit (snDst (t.desc x.1)) x.2.1
    if w.1 = .ok then w.2.okWith x.1 (snCount (t.desc x.1)) x.2.2 else w.2.failWith x.1 w.1.err) s1

/-- SNAPSHOT (R605, R606): checked; captured at once with tide 0; LATE with a tide already reached; else it waits for its tide, if fewer than 16
do and none accepted earlier waits for a place. -/
def execSnapshot (e : Nat) (s : State) : Host.Outcome State Fault Refusal :=
  let d := s.desc e
  .next (if !s.fresh e kindSnapshot then s
    else if !snapshotOk d then s.bad e
    else if snTide d = 0 then s.capture [e]
    else if snTide d ≤ s.tide.ns then (s.complete e [.late] .none).setFlag CNT_STATUS_snap_late
    else if 16 ≤ s.snaps.length ∨ s.work.any (fun p => !p.2.done && p.2.kind == kindSnapshot && p.2.phase == 0 && decide ((s.jget p.1).order < (s.jget e).order)) then s
    else (State.showSnaps { s with snaps := s.snaps ++ [e] }).begun e)

/-- SNAPSHOT_CAPTURE (R606, R607): the tide of `e` is reached; SNAPSHOTs of one tide capture the same values. -/
def execSnapshotCapture (e : Nat) (s : State) : Host.Outcome State Fault Refusal :=
  let t := snTide (s.desc e)
  .next (if s.snaps.contains e then (s.atTide t).capture (s.snaps.filter (fun x => snTide (s.desc x) == t)) else s)

end Sys2Proof.Machine
end

