-- ==== Sys2Proof/Machine/Solver.lean ====
section
/-! DEFINITION. The sparse iterative solver (09_sparse_solver.md R280 to R311): LOAD, UPDATE, conjugate gradient and MINRES in fixed point, and how a
solve ends. -/

namespace Sys2Proof.Machine

def solverDefault : Nat → Solver := fun _ => Solver.zero
def State.solver (s : State) (r : Nat) : Solver := SMap.get solverDefault s.solvers r

/-- Keep a region's solver and show it (R311). -/
def State.setSolver (s : State) (r : Nat) (x : Solver) : State :=
  let s1 := { s with solvers := SMap.set solverDefault s.solvers r x }
  let s2 := (((s1.setFld (SIS_STATUS_sys_valid r) (b2n x.valid)).setFld (SIS_SYSTEM_ID_system_id r) x.id).setFld (SIS_ROWS_n r) x.n).setFld
    (SIS_NNZ_nnz r) x.entries.length
  (((s2.setFld (SIS_RANGE_f r) x.f).setFld (SIS_RANGE_h r) x.h).setFld (SIS_RANGE_g_max r) (toBits 8 x.gmax)).setFld (SIS_RANGE_f_bound r)
    (clampInt 0 31 (31 - x.h - x.gmax)).toNat

/-- The region has no system (R283, R309, R310). -/
def State.dropSystem (s : State) (r : Nat) : State := s.setSolver r { Solver.zero with gather := (s.solver r).gather }

/-! ### The descriptor (R302, R303) -/

def slOp (d : List Byte) (i : Nat) : Bool := bitOf (leAt d 16 1) i
def slMethod (d : List Byte) : Nat := leAt d 17 1 % 4
def slGroup (d : List Byte) : Nat := bitsOf (leAt d 17 1) 2 5 + 1
def slRegion (d : List Byte) : Nat := leAt d 18 1 % 4
def slHead (d : List Byte) : Nat := leAt d 19 1
def slId (d : List Byte) : Nat := leAt d 20 4
def slCount (d : List Byte) : Nat := leAt d 24 4
def slKmax (d : List Byte) : Nat := leAt d 28 2 + 1
def slTol (d : List Byte) : FVal := Fmt.bf16.decode (leAt d 30 2)
def slWork (d : List Byte) : Nat := leAt d 56 8

/-- The checks of R303 that the descriptor alone decides. -/
def solveOk (d : List Byte) : Bool :=
  let al := fun o k => isLocal (leAt d o 8) && leAt d o 8 % k == 0
  leAt d 16 1 % 8 != 0 && !(slOp d 0 && slOp d 1) && bitsOf (leAt d 16 1) 4 4 == 0 && dGroup d == 0 && (slMethod d == 2 || slGroup d == 1) &&
  !bitOf (leAt d 17 1) 7 && bitsOf (leAt d 18 1) 2 6 == 0 && decide (slHead d ≤ 30) && (!slOp d 1 || slCount d != 0) && slId d != 0 &&
  decide (slCount d ≤ 4194304) && (slTol d).isFin && (FVal.fin false 0 0).lt (slTol d) && al 32 64 && al 40 64 && al 48 64 && al 56 4096

/-- n rounded up to a multiple of 1,024 (R304). -/
def padN (n : Nat) : Nat := ceilDiv n 1024 * 1024

/-- Offset of the preconditioner and of the undo log in the workspace, and the s of R304. -/
def groupOf' (d : List Byte) : Nat := if slMethod d = 2 then slGroup d else if slMethod d = 1 then 1 else 0
def precOff (n : Nat) : Nat := 8192 + 36 * padN n
def undoOff (d : List Byte) (n : Nat) : Nat := 8192 + (36 + 8 * groupOf' d) * padN n

/-! ### Rows and the row rule (R281, R284, R285) -/

def colOf (w : Nat) : Nat := bitsOf w 0 22
def lastOf (w : Nat) : Bool := bitOf w 22

/-- Entries cut into rows at their last flags. -/
def rowsOf {α : Type} (word : α → Nat) : List α → List α → List (List α)
  | [], [] => []
  | [], acc => [acc]
  | e :: es, acc => if lastOf (word e) then (acc ++ [e]) :: rowsOf word es [] else rowsOf word es (acc ++ [e])

/-- The magnitude sum of row `i`: off the diagonal, plus the diagonal with λ (R284). -/
def rowMag (lam : FVal) (i : Nat) (row : List (FVal × Nat)) : FVal :=
  row.foldl (fun a e => a.add ((if colOf e.2 = i then e.1.add lam else e.1).abs)) (.fin false 0 0)

/-- The smallest g with the sum at most 2^g, clamped to −128..127 (R284). -/
def gOf (v : FVal) : Int :=
  match v with
  | .fin _ m e => if m = 0 then -128 else clampInt (-128) 127 ((Nat.log2 m : Int) + e + b2n (m != 2 ^ Nat.log2 m))
  | _ => 127

/-- Whether a row of codes keeps the row rule (R285). -/
def rowRule (h : Nat) (lam : Int) (i : Nat) (row : List (Int × Nat)) : Bool :=
  decide ((row.map (fun e => if colOf e.2 = i then (e.1 + lam).natAbs else e.1.natAbs)).sum ≤ 2 ^ (31 - h))

/-- Whether every row of a system keeps the row rule. -/
def rulesHold (h : Nat) (lam : Int) (es : List (Int × Nat)) : Bool :=
  ((rowsOf (·.2) es []).zipIdx).all (fun x => rowRule h lam x.2 x.1)

/-- A conversion to sq32 at f by RNE: the code, and whether it saturated; a non-finite value has none (R173). -/
def toSq (f : Nat) (v : FVal) : Option (Int × Bool) :=
  match v with
  | .fin neg m e =>
    let n := ((rneGrid m (e + f) 0).1 : Int)
    some (sqSat (if neg then -n else n))
  | _ => none

/-- The f bound (R286). -/
def fBound (h : Nat) (g : Int) : Int := min 31 (31 - h - g)

/-! ### How a solve ends (R298, R300, R301) -/

/-- The solve record (R304); its system ID is the one that the descriptor names. -/
def solveRecord (m : Solver) (d : List Byte) (reason iters rel : Nat) : List Byte :=
  leBytes 1 reason ++ leBytes 1 (slMethod d) ++ leBytes 1 m.f ++ leBytes 1 m.h ++ leBytes 4 iters ++ leBytes 4 rel ++ leBytes 4 (slId d) ++
  leBytes 48 0

/-- A SOLVE descriptor with the SOLVE op ends with a stop reason: the record is written (R300), the registers follow (R311). `rel` is ‖r‖ / ‖b‖, and
`sat` says that a saturation came. -/
def State.endSolve (s : State) (e reason iters rel : Nat) (sat : Bool) (st : List Status) (err : ErrCode) : State :=
  let d := s.desc e
  let r := slRegion d
  let s0 := ((s.store devUnit (slWork d) (solveRecord (s.solver r) d reason iters rel)).2).setFld (SIS_STATUS_method r) (slMethod d)
  let s1 := (((s0.setFld (SIS_STATUS_busy r) 0).setFld (SIS_STATUS_phase r) 0).setFld (SIS_STATUS_last_reason r) reason).setFld (SIS_ITER_iterations r) iters
  let s2 := (s1.bump (SIS_COUNT_solves r)).bump (SIS_EVENT_range_ends r) (b2n (reason == 3))
  let s3 := (s2.bump (SIS_EVENT_breakdowns r) (b2n (reason == 4))).setFlagIf (reason == 4) (SIS_STATUS_breakdown r)
  let s4 := (s3.bump (SIS_EVENT_late_ends r) (b2n (reason == 2))).setFlagIf (reason == 2) (SIS_STATUS_late r)
  let s5 := (s4.setFlagIf sat (SIS_STATUS_range_sat r)).count (cntRegion r 10) iters
  s5.complete e st err iters reason

/-- A descriptor without the SOLVE op ends with a count and f (R301). -/
def State.endOps (s : State) (e : Nat) (st : List Status) (err : ErrCode) (count : Nat) : State :=
  let r := slRegion (s.desc e)
  ((s.setFld (SIS_STATUS_busy r) 0).setFld (SIS_STATUS_phase r) 0).complete e st err count (s.solver r).f

/-- A descriptor fails at LOAD or UPDATE, or before them: the rest is skipped. No residual has been formed, so that the record of a solve holds a free
value for it (notes/assumptions/153.md). -/
def State.solveFail (s : State) (e reason : Nat) (st : Status) (err : ErrCode) : State :=
  if slOp (s.desc e) 2 then
    let k := s.takeFree 32
    k.2.endSolve e reason 0 k.1 false [st] err
  else s.endOps e [st] err 0

/-- A descriptor fails before any effect (R301, R303). -/
def State.solveBad (s : State) (e : Nat) (err : ErrCode) : State :=
  if slOp (s.desc e) 2 then s.failWith e err else s.complete e [.faultFailed] err 0 (s.solver (slRegion (s.desc e))).f

/-- Values refused at LOAD or UPDATE (reason 5). -/
def State.refuseValues (s : State) (e : Nat) : State :=
  let r := slRegion (s.desc e)
  ((s.setFlag (SIS_STATUS_batch_refused r)).bump (SIS_EVENT_refusals r)).solveFail e 5 .range .none

/-- The error record of a solver fault (R544). -/
def State.solverRec (s : State) (sev r cause : Nat) (e : Option Nat) : ErrRec :=
  match e with
  | some x => ⟨sev, 1, 7, r, 0xFF, 0xFFFF, cause, 0, (s.jget x).ring, dSeq (s.desc x)⟩
  | none => ⟨sev, 1, 7, r, 0xFF, 0xFFFF, cause, 0, 0xFFFF, 0⟩

/-- What the region records of an upset that ends a descriptor with reason 6 (R309, R544). -/
def State.solverNote (s : State) (r : Nat) (e : Option Nat) (u : SolverUpset) : State :=
  if u = .fatal then (s.setFlag (SIS_STATUS_ecc_fatal r)).error (s.solverRec 2 r (SIS_STATUS_ecc_fatal r).cause e)
  else s.error (s.solverRec 2 r 0 e)

/-- An upset of the stores or lanes (R309): what it does, the status it adds, and whether it ends the descriptor with reason 6. -/
def State.solverUpset (s : State) (r : Nat) (e : Option Nat) : SolverUpset → Bool × List Status × State
  | .none => (false, [], s)
  | .corrected =>
    (false, [], ((s.setFlag (SIS_STATUS_ecc_corrected r)).bump (SIS_COUNT_ecc_corrected_count r)).error
      (s.solverRec 0 r (SIS_STATUS_ecc_corrected r).cause e))
  | .lane => (false, [.replayed], s.error (s.solverRec 1 r 0 e))
  | .laneTwice => (true, [], (s.dropSystem r).solverNote r e .laneTwice)
  | .fatal => (true, [], (s.dropSystem r).solverNote r e .fatal)

/-- Whether a SOLVE may act now: of the kind, and the oldest of its region (R305). -/
def State.solveTurn (s : State) (e : Nat) : Bool := s.doing e kindSolve && !s.earlier e kindSolve (fun z => slRegion z == slRegion (s.desc e))

/-- After LOAD or UPDATE: the SOLVE op follows with its setup, or the descriptor completes (R301, R302). -/
def State.opDone' (s : State) (e count : Nat) (add : List Status) : State :=
  let r := slRegion (s.desc e)
  if slOp (s.desc e) 2 then ((s.setFld (SIS_STATUS_busy r) 1).setFld (SIS_STATUS_phase r) 3).begun e (if add.isEmpty then 1 else 2)
  else s.endOps e (add ++ [.ok]) .none count

/-! ### LOAD (R282 to R286) -/

/-- The row table (R304): the first structure index of each row, then N. -/
def rowTable (es : List (Int × Nat)) : List Byte :=
  let rows := rowsOf (·.2) es []
  ((rows.foldl (fun (a : List Nat × Nat) r => (a.1 ++ [a.2], a.2 + r.length)) ([], 0)).1 ++ [es.length]).flatMap (leBytes 4)

/-- The checks of R283 on an image: rows as (column words). -/
def structOk (n nn : Nat) (hdr : List Byte) (es : List (Nat × Nat)) : Bool :=
  let rows := rowsOf (·.2) es []
  decide (1 ≤ n) && decide (n ≤ 4194304) && decide (n ≤ nn) && decide (nn ≤ 8388608) && dZero hdr 12 63 &&
  (es.filter (fun e => lastOf e.2)).length == n && (match es.getLast? with
    | some e => lastOf e.2
    | none => false) &&
  es.all (fun e => decide (colOf e.2 < n) && bitsOf e.2 23 9 == 0) &&
  rows.zipIdx.all (fun x => (x.1.map (fun e => colOf e.2)).contains x.2 && decide (x.1.map (fun e => colOf e.2)).Nodup)

/-- SOLVER_LOAD (R282 to R286): `f` is what Merdy sets, clamped to the bound. -/
def execSolverLoad (e : Nat) (f : Nat) (upset : SolverUpset) (s : State) : Host.Outcome State Fault Refusal :=
  let d := s.desc e
  let r := slRegion d
  .next (if !s.fresh e kindSolve then s
    else if !solveOk d then s.solveBad e .badDescriptor
    else if !slOp d 0 ∨ !s.solveTurn e then s
    else if s.regionFenced r then s.solveBad e .regionFenced
    else
      let u := s.solverUpset r (some e) upset
      if u.1 then (u.2.2.dropSystem r).solveFail e 6 .faultFailed .storeFault
      else
        let x := u.2.2.load devUnit (leAt d 32 8) 64
        let n := leAt x.1 0 4
        let nn := leAt x.1 4 4
        let y := x.2.2.load devUnit (leAt d 32 8 + 64) (if nn ≤ 8388608 then 8 * nn else 0)
        let raw := (List.range nn).map (fun i => (leAt y.1 (8 * i) 4, leAt y.1 (8 * i + 4) 4))
        let s1 := y.2.2.dropSystem r
        if x.2.1.join y.2.1 ≠ .ok then s1.solveFail e 6 .faultFailed (x.2.1.join y.2.1).err
        else if 8388608 < nn then s1.solveFail e 7 .faultFailed .badDescriptor
        else if !structOk n nn x.1 raw then s1.solveFail e 7 .faultFailed .badDescriptor
        else
          let vals := raw.map (fun t => (Fmt.fp32.decode t.1, t.2))
          let lam := Fmt.fp32.decode (leAt x.1 8 4)
          if vals.any (fun t => !t.1.isFin) || !lam.isFin then s1.refuseValues e
          else
            let g := ((rowsOf (·.2) vals []).zipIdx.map (fun t => gOf (rowMag lam t.2 t.1))).foldl max (-128)
            let bnd := fBound (slHead d) g
            if bnd < 0 then s1.refuseValues e
            else
              let f' := min f bnd.toNat
              let es := vals.map (fun t => (((toSq f' t.1).getD (0, false)).1, t.2))
              let l := ((toSq f' lam).getD (0, false)).1
              if !rulesHold (slHead d) l es then s1.refuseValues e
              else
                let s2 := s1.setSolver r ⟨true, slId d, slWork d, n, f', slHead d, g, l, es, (s.solver r).gather⟩
                let s3 := (s2.store devUnit (slWork d + 4096 + 32 * padN n) (rowTable es)).2
                (s3.count (cntRegion r 9) nn).opDone' e nn u.2.1)

/-! ### UPDATE (R289 to R291) -/

/-- Replace the code of one entry, or λ (R289). -/
def applyRecord (f : Nat) (x : Int × List (Int × Nat)) (rec' : Nat × FVal) : Int × List (Int × Nat) :=
  let c := ((toSq f rec'.2).getD (0, false)).1
  if rec'.1 = 0xFFFFFFFF then (c, x.2)
  else match x.2[rec'.1]? with
    | some t => (x.1, x.2.set rec'.1 (c, t.2))
    | none => x

/-- A batch applied at f: λ and entries, and whether it stands (R290). -/
def applyBatch (h f : Nat) (x : Int × List (Int × Nat)) (b : List (Nat × FVal)) : (Int × List (Int × Nat)) × Bool :=
  let y := b.foldl (applyRecord f) x
  (y, b.all (fun t => match toSq f t.2 with
    | some c => !c.2
    | none => false) && rulesHold h y.1 y.2)

/-- The largest g that the rows reach with a batch in force, taking its values as they are (R291). -/
def batchG (f : Nat) (lam : Int) (es : List (Int × Nat)) (b : List (Nat × FVal)) : Int :=
  let val := fun (i : Nat) (c : Int) => match (b.reverse.find? (fun t => t.1 == i)) with
    | some t => t.2
    | none => FVal.ofInt c (-(f : Int))
  let l := val 0xFFFFFFFF lam
  ((rowsOf (·.2) (es.zipIdx.map (fun t => (val t.2 t.1.1, t.1.2))) []).zipIdx.map (fun t => gOf (rowMag l t.2 t.1))).foldl max (-128)

/-- Codes shifted right by `k` with RNE (R291). -/
def shiftCodes (k : Nat) (x : Int × List (Int × Nat)) : Int × List (Int × Nat) :=
  (rneShift x.1 k, x.2.map (fun t => (rneShift t.1 k, t.2)))

/-- Whether UPDATE and SOLVE meet the resident system they name (R298 reason 7). -/
def systemOk (x : Solver) (d : List Byte) : Bool := x.valid && x.id == slId d

/-- Whether they name another workspace than the LOAD of that system did (R303). -/
def wrongWork (x : Solver) (d : List Byte) : Bool := systemOk x d && x.ws != slWork d

/-- SOLVER_UPDATE (R289 to R291): `f` is what Merdy sets when the batch does not fit. -/
def execSolverUpdate (e : Nat) (f : Nat) (upset : SolverUpset) (s : State) : Host.Outcome State Fault Refusal :=
  let d := s.desc e
  let r := slRegion d
  let x := s.solver r
  .next (if !s.fresh e kindSolve then s
    else if !solveOk d then s.solveBad e .badDescriptor
    else if !slOp d 1 ∨ !s.solveTurn e then s
    else if s.regionFenced r then s.solveBad e .regionFenced
    else if !systemOk x d then s.solveFail e 7 .faultFailed .badDescriptor
    else if wrongWork x d then s.solveBad e .badDescriptor
    else
      let u := s.solverUpset r (some e) upset
      if u.1 then u.2.2.solveFail e 6 .faultFailed .storeFault
      else
        let y := u.2.2.load devUnit (leAt d 32 8) (8 * slCount d)
        let b := (List.range (slCount d)).map (fun i => (leAt y.1 (8 * i) 4, Fmt.fp32.decode (leAt y.1 (8 * i + 4) 4)))
        if y.2.1 ≠ .ok then y.2.2.solveFail e 6 .faultFailed y.2.1.err
        else if b.any (fun t => decide (x.entries.length ≤ t.1) && t.1 != 0xFFFFFFFF) then y.2.2.solveFail e 7 .faultFailed .badDescriptor
        else
          let n := 8 * slCount d
          let k := y.2.2.takeFree (8 * n)
          let s1 := (k.2.store devUnit (slWork d + undoOff d x.n) (leBytes n k.1)).2
          let a := applyBatch x.h x.f (x.lam, x.entries) b
          if a.2 then (s1.setSolver r { x with lam := a.1.1, entries := a.1.2 }).opDone' e (slCount d) u.2.1
          else if b.any (fun t => !t.2.isFin) then s1.refuseValues e
          else
            let g := max x.gmax (batchG x.f x.lam x.entries b)
            let bnd := fBound x.h g
            if bnd < 0 then s1.refuseValues e
            else
              let f' := min (min f bnd.toNat) x.f
              let a2 := applyBatch x.h f' (shiftCodes (x.f - f') (x.lam, x.entries)) b
              if !a2.2 then s1.refuseValues e
              else
                ((s1.setSolver r { x with f := f', gmax := g, lam := a2.1.1, entries := a2.1.2 }).bump (SIS_COUNT_rescales r)).opDone' e (slCount d)
                  u.2.1)

/-! ### Scalars and vectors (R287, R288) -/

/-- A value rounded once to a normal pair, kept as the value of the pair; whether its shift left −128..127. -/
def spRound : FVal → FVal × Bool
  | .fin neg m e =>
    if m = 0 then (.fin false 0 0, false)
    else
      let g := (Nat.log2 m : Int) + e - 30
      let k := (rneGrid m e g).1
      let t := if k = 2 ^ 31 then g + 1 else g
      (.fin neg k g, decide (t < -128 ∨ 127 < t))
  | v => (v, true)

/-- Pairs: a value and whether anything it came from saturated. -/
abbrev SPair := FVal × Bool

def spOf (v : FVal) : SPair := spRound v
def spMul (a b : SPair) : SPair := ((spRound (a.1.mul b.1)).1, (spRound (a.1.mul b.1)).2 || a.2 || b.2)
def spAdd (a b : SPair) : SPair := ((spRound (a.1.add b.1)).1, (spRound (a.1.add b.1)).2 || a.2 || b.2)
def spNeg (a : SPair) : SPair := (a.1.negate, a.2)
def spSub (a b : SPair) : SPair := spAdd a (spNeg b)
def spSqrt (a : SPair) : SPair := ((spRound a.1.sqrt).1, (spRound a.1.sqrt).2 || a.2)

/-- A quotient; 0 / 0, of which the manual states no result, is the free value `z`. -/
def spDiv (z : FVal) (a b : SPair) : SPair :=
  if a.1.isZero && b.1.isZero then (z, a.2 || b.2) else ((spRound (a.1.div b.1)).1, (spRound (a.1.div b.1)).2 || a.2 || b.2)

/-- Vectors of codes, and whether a saturation has come (R288). -/
abbrev Vec := List Int × Bool

/-- A product of an element and a pair, rounded once to the grid of f. -/
def scaleElem (p : FVal) (c : Int) : Int :=
  match p with
  | .fin neg m e =>
    let k := ((rneGrid (c.natAbs * m) e 0).1 : Int)
    if (decide (c < 0)) != neg then -k else k
  | _ => 0

/-- Saturate every element of a result. -/
def satVec (l : List Int) (prev : Bool) : Vec := (l.map (fun c => (sqSat c).1), prev || l.any (fun c => (sqSat c).2))

/-- u + v·p, with one saturation at the end. -/
def axpy (u v : List Int) (p : FVal) (prev : Bool) : Vec := satVec (List.zipWith (fun a b => a + scaleElem p b) u v) prev

def dot (u v : List Int) : Int := (List.zipWith (fun a b => a * b) u v).foldl (· + ·) 0

/-- The value of a dot product (R288). -/
def dotVal (f : Nat) (u v : List Int) : FVal := FVal.ofInt (dot u v) (-2 * (f : Int))

/-- The sq32 product of the matrix, λ added to each diagonal, with a vector (R293, R297). -/
def matVec (x : Solver) (p : List Int) : Vec :=
  satVec ((rowsOf (·.2) x.entries []).zipIdx.map (fun r =>
    rneShift ((r.1.map (fun e => (if colOf e.2 = r.2 then e.1 + x.lam else e.1) * p.getD (colOf e.2) 0)).foldl (· + ·) 0) x.f)) false

/-! ### Preconditioners (R294) -/

/-- The entry (i, j) of the matrix with λ, as a value. -/
def entryVal (x : Solver) (rows : List (List (Int × Nat))) (i j : Nat) : FVal :=
  match (rows.getD i []).find? (fun e => colOf e.2 == j) with
  | some e => FVal.ofInt (if i = j then e.1 + x.lam else e.1) (-(x.f : Int))
  | none => .fin false 0 0

/-- The factors of one group: the rows of L below the diagonal, the pivots, and whether every pivot was positive. -/
structure GroupFac where
  base : Nat
  size : Nat
  l : List (List SPair)
  d : List SPair
  good : Bool
  sat : Bool
  deriving DecidableEq, Repr

def spZero : SPair := (.fin false 0 0, false)
def spOne : SPair := (.fin false (2 ^ 30) (-30), false)
def lAt (l : List (List SPair)) (i k : Nat) : SPair := (l.getD i []).getD k spZero

/-- Factor one group as L D Lᵀ, column by column (R294). -/
def factorGroup (z : FVal) (a : Nat → Nat → FVal) (base size : Nat) : GroupFac :=
  forUpTo size (fun j (g : GroupFac) =>
    let v := (List.range j).map (fun k => spMul (lAt g.l j k) (g.d.getD k spZero))
    let piv := (List.range j).foldl (fun acc k => spSub acc (spMul (lAt g.l j k) (v.getD k spZero))) (spOf (a (base + j) (base + j)))
    let rows := (List.range size).map (fun i =>
      let old := g.l.getD i []
      if i ≤ j then old
      else old ++ [spDiv z ((List.range j).foldl (fun acc k => spSub acc (spMul (lAt g.l i k) (v.getD k spZero))) (spOf (a (base + i) (base + j)))) piv])
    { g with
      l := rows, d := g.d ++ [piv], good := g.good && (FVal.fin false 0 0).lt piv.1
      sat := g.sat || piv.2 || rows.any (fun r => r.any (·.2)) })
    ⟨base, size, List.replicate size [], [], true, false⟩

/-- The solution of one group for the residual codes of its rows. -/
def solveGroup (z : FVal) (f : Nat) (g : GroupFac) (r : List Int) : List SPair :=
  let y := forUpTo g.size (fun i (acc : List SPair) =>
    acc ++ [(List.range i).foldl (fun t k => spSub t (spMul (lAt g.l i k) (acc.getD k spZero)))
      (spOf (FVal.ofInt (r.getD (g.base + i) 0) (-(f : Int))))]) []
  let w := (List.range g.size).map (fun i => spDiv z (y.getD i spZero) (g.d.getD i spZero))
  forUpTo g.size (fun t (acc : List SPair) =>
    let i := g.size - 1 - t
    ((List.range acc.length).foldl (fun u k => spSub u (spMul (lAt g.l (i + 1 + k) i) (acc.getD k spZero))) (w.getD i spZero)) :: acc) []

/-- A preconditioner as setup leaves it. -/
inductive Prec where
  | none
  | jacobi (d : List SPair)
  | block (g : List GroupFac)
  deriving DecidableEq, Repr

/-- Setup (R294): the preconditioner, whether it broke down, and whether it saturated. -/
def setupPrec (z : FVal) (x : Solver) (method size : Nat) : Prec × Bool × Bool :=
  let rows := rowsOf (·.2) x.entries []
  if method = 1 then
    let dg := (List.range x.n).map (fun i => entryVal x rows i i)
    let ds := dg.map (fun v => spDiv z spOne (v, false))
    (.jacobi ds, dg.any (fun v => !(FVal.fin false 0 0).lt v), ds.any (·.2))
  else if method = 2 then
    let gs := (List.range (ceilDiv x.n size)).map (fun g => factorGroup z (entryVal x rows) (g * size) (min size (x.n - g * size)))
    (.block gs, gs.any (fun g => !g.good), gs.any (·.sat))
  else (.none, false, false)

/-- The code nearest to a value at f. -/
def codeAt (f : Nat) (v : FVal) : Int :=
  match v with
  | .fin neg m e => if neg then -((rneGrid m (e + f) 0).1 : Int) else (rneGrid m (e + f) 0).1
  | _ => 0

def Prec.apply (z : FVal) (f : Nat) (p : Prec) (r : List Int) : Vec :=
  match p with
  | .none => (r, false)
  | .jacobi d => satVec (List.zipWith (fun c q => scaleElem q.1 c) r d) false
  | .block gs =>
    let xs := gs.flatMap (fun g => solveGroup z f g r)
    satVec (xs.map (fun q => codeAt f q.1)) (xs.any (·.2))

/-! ### The methods (R293, R295, R296) -/

/-- How a solve went: solution of the last complete iteration, iterations, reason, the residual norm squared over 2^(−2f) for methods 0 to 2 or the
pair φ̄ for method 3, and the vector multiplied last. -/
structure Solved where
  x : List Int
  iters : Nat
  reason : Nat
  rr : Int
  phi : FVal
  mul : List Int
  deriving DecidableEq, Repr

structure CgState where
  x : List Int
  r : List Int
  p : List Int
  rz : Int
  rr : Int
  deriving DecidableEq, Repr

/-- The loop of conjugate gradient from iteration `k` on. -/
def cgLoop (z : FVal) (m : Solver) (pc : Prec) (thr : Int) : Nat → Nat → CgState → Solved
  | 0, k, c => ⟨c.x, k - 1, 1, c.rr, .fin false 0 0, c.p⟩
  | fuel + 1, k, c =>
    let stop := fun reason => (⟨c.x, k - 1, reason, c.rr, .fin false 0 0, c.p⟩ : Solved)
    let q := matVec m c.p
    let pq := dot c.p q.1
    let alpha := spDiv z (FVal.ofInt c.rz 0, false) (FVal.ofInt pq 0, false)
    let x := axpy c.x c.p alpha.1 false
    let r := axpy c.r q.1 alpha.1.negate false
    let rr := dot r.1 r.1
    if q.2 then stop 3
    else if pq ≤ 0 then stop 4
    else if alpha.2 || x.2 || r.2 then stop 3
    else if rr ≤ thr then ⟨x.1, k, 0, rr, .fin false 0 0, c.p⟩
    else
      let zv := pc.apply z m.f r.1
      let rz := dot r.1 zv.1
      let beta := spDiv z (FVal.ofInt rz 0, false) (FVal.ofInt c.rz 0, false)
      let p := axpy zv.1 c.p beta.1 false
      if zv.2 || beta.2 || p.2 then stop 3 else cgLoop z m pc thr fuel (k + 1) ⟨x.1, r.1, p.1, rz, rr⟩

/-- Methods 0 to 2 (R293). -/
def cg (z : FVal) (m : Solver) (method size kmax : Nat) (tol : FVal) (b x : List Int) (warm : Bool) : Solved :=
  let pc := setupPrec z m method size
  let r := if warm then
      (let q := matVec m x
       let d := satVec (List.zipWith (fun u v => u - v) b q.1) q.2
       d)
    else (b, false)
  let zv := pc.1.apply z m.f r.1
  let rr := dot r.1 r.1
  let thr := codeAt 0 ((tol.mul tol).mul (FVal.ofInt (dot b b) 0))
  let stop := fun reason => (⟨x, 0, reason, rr, .fin false 0 0, zv.1⟩ : Solved)
  if pc.2.1 then stop 4
  else if pc.2.2 || r.2 || zv.2 then stop 3
  else if rr ≤ thr then stop 0
  else cgLoop z m pc.1 thr kmax 1 ⟨x, r.1, zv.1, dot r.1 zv.1, rr⟩

structure MrState where
  x : List Int
  uOld : List Int
  u : List Int
  w : List Int
  wOld : List Int
  beta : SPair
  betaOld : SPair
  cs : SPair
  sn : SPair
  dbar : SPair
  eps : SPair
  phibar : SPair
  deriving DecidableEq, Repr

/-- The loop of MINRES (R295). -/
def minresLoop (z : FVal) (m : Solver) (thr : FVal) : Nat → Nat → MrState → Solved
  | 0, k, c => ⟨c.x, k - 1, 1, 0, c.phibar.1, c.u⟩
  | fuel + 1, k, c =>
    let stop := fun reason => (⟨c.x, k - 1, reason, 0, c.phibar.1, c.u⟩ : Solved)
    let zero := c.u.map (fun _ => (0 : Int))
    let ib := spDiv z spOne c.beta
    let v := axpy zero c.u ib.1 ib.2
    let av := matVec m v.1
    let bb := spDiv z c.beta c.betaOld
    let y0 := if k = 1 then av else axpy av.1 c.uOld bb.1.negate (av.2 || bb.2)
    let alpha := spOf (dotVal m.f v.1 y0.1)
    let ab := spDiv z alpha c.beta
    let y := axpy y0.1 c.u ab.1.negate (y0.2 || ab.2)
    let beta := spSqrt (dotVal m.f y.1 y.1, false)
    let delta := spAdd (spMul c.cs c.dbar) (spMul c.sn alpha)
    let gbar := spSub (spMul c.sn c.dbar) (spMul c.cs alpha)
    let eps := spMul c.sn beta
    let dbar := spNeg (spMul c.cs beta)
    let gamma := spSqrt (spAdd (spMul gbar gbar) (spMul beta beta))
    if v.2 || y.2 || alpha.2 || beta.2 || delta.2 || gbar.2 || eps.2 || dbar.2 || gamma.2 then stop 3
    else if gamma.1.isZero then stop 4
    else
      let cs := spDiv z gbar gamma
      let sn := spDiv z beta gamma
      let phi := spMul cs c.phibar
      let phibar := spMul sn c.phibar
      let ig := spDiv z spOne gamma
      let inner := List.zipWith (fun a t => a - t) (List.zipWith (fun a o => a - scaleElem c.eps.1 o) v.1 c.wOld)
        (c.w.map (fun t => scaleElem delta.1 t))
      let w := satVec (inner.map (fun t => scaleElem ig.1 t)) ig.2
      let x := axpy c.x w.1 phi.1 phi.2
      if cs.2 || sn.2 || phibar.2 || w.2 || x.2 then stop 3
      else if phibar.1.le thr then ⟨x.1, k, 0, 0, phibar.1, v.1⟩
      else minresLoop z m thr fuel (k + 1) ⟨x.1, c.u, y.1, w.1, c.w, beta, c.beta, cs, sn, dbar, eps, phibar⟩

/-- Method 3 (R295). -/
def minres (z : FVal) (m : Solver) (kmax : Nat) (tol : FVal) (b x : List Int) (warm : Bool) : Solved :=
  let zero := b.map (fun _ => (0 : Int))
  let u := if warm then
      (let q := matVec m x
       satVec (List.zipWith (fun a v => a - v) b q.1) q.2)
    else (b, false)
  let beta := spSqrt (dotVal m.f u.1 u.1, u.2)
  let thr := spMul (tol, false) (spSqrt (dotVal m.f b b, false))
  let stop := fun reason => (⟨x, 0, reason, 0, beta.1, u.1⟩ : Solved)
  if beta.2 || thr.2 then stop 3
  else if beta.1.le thr.1 then stop 0
  else minresLoop z m thr.1 kmax 1 ⟨x, zero, u.1, zero, zero, beta, spZero, spNeg spOne, spZero, spZero, spZero, beta⟩

/-! ### SOLVE (R298 to R301, R304) -/

/-- ‖r‖ / ‖b‖ as fp32 (R304); of 0 / 0 the free value `z32`. -/
def relResidual (m : Solver) (method : Nat) (o : Solved) (b : List Int) (z32 : Nat) : Nat :=
  let bb := FVal.ofInt (dot b b) 0
  if bb.isZero then z32
  else if method = 3 then Fmt.fp32.rne (((o.phi.mul o.phi).scale (2 * (m.f : Int))).div bb).sqrt
  else Fmt.fp32.rne ((FVal.ofInt o.rr 0).div bb).sqrt

/-- The status of a stop reason (R298). -/
def reasonStatus (reason : Nat) : Status := if reason ≤ 1 then .ok else if reason = 2 then .late else .range

/-- What stops a solve from outside: nothing; the deadline in setup; the deadline, or an uncorrectable fault, with so many iterations
complete (R299, R309). -/
inductive SolveEnd where
  | free
  | setup
  | deadline (done : Nat)
  | fault (u : SolverUpset) (done : Nat)
  deriving DecidableEq, Repr

/-- How a solve goes that something may stop; `run k` is the solve with `k` iterations allowed. In the iteration of the deadline a saturation still
counts (R310); one that converges or breaks down before is not stopped. -/
def stopped (run : Nat → Solved) (kmax : Nat) : SolveEnd → Solved
  | .free => run kmax
  | .setup =>
    let o := run 0
    if o.reason ≤ 1 then { o with reason := 2 } else o
  | .deadline n =>
    let o := run (min n kmax)
    if o.reason ≠ 1 ∨ kmax ≤ n then o
    else
      let next := run (n + 1)
      if next.reason = 3 then next else { o with reason := 2, mul := next.mul }
  | .fault _ n =>
    let o := run (min n kmax)
    if o.reason ≠ 1 ∨ kmax ≤ n then o else { o with reason := 6, mul := (run (n + 1)).mul }

/-- What the region records of a fault that ends the solve. -/
def State.solveHit (s : State) (r e : Nat) : SolveEnd → State
  | .fault u _ => s.solverNote r (some e) u
  | _ => s

/-- Run the SOLVE op, which `stop` may end. -/
def State.runSolve (s : State) (e : Nat) (stop : SolveEnd) (add : List Status) : State :=
  let d := s.desc e
  let r := slRegion d
  let m := s.solver r
  let x := s.load devUnit (leAt d 40 8) (4 * m.n)
  let y := if slOp d 3 then x.2.2.load devUnit (leAt d 48 8) (4 * m.n) else ([], .ok, x.2.2)
  if x.2.1.join y.2.1 ≠ .ok then y.2.2.solveFail e 6 .faultFailed (x.2.1.join y.2.1).err
  else
    let k := y.2.2.takeFree 96
    let z := (spRound (FVal.ofInt (sext 32 (k.1 % 2 ^ 32)) (sext 8 (k.1 / 2 ^ 32)))).1
    let w := k.2.takeFree (32 * m.n)
    let fb := (List.range m.n).map (fun i => toSq m.f (Fmt.fp32.decode (leAt x.1 (4 * i) 4)))
    let b := fb.map (fun c => (c.getD (0, false)).1)
    let x0 : List Int := (List.range m.n).map (fun i =>
      if slOp d 3 then
        match toSq m.f (Fmt.fp32.decode (leAt y.1 (4 * i) 4)) with
        | some c => c.1
        | none => sqRead (bitsOf w.1 (32 * i) 32)
      else 0)
    let badB := fb.any (fun c => match c with
      | some q => q.2
      | none => true)
    let run := fun kmax =>
      if slMethod d = 3 then minres z m kmax (slTol d) b x0 (slOp d 3) else cg z m (slMethod d) (slGroup d) kmax (slTol d) b x0 (slOp d 3)
    let o : Solved := if badB then ⟨x0, 0, 3, 0, .fin false 0 0, b⟩ else stopped run (slKmax d) stop
    let s1 := w.2.setSolver r { m with gather := o.mul }
    let vn := 32 * padN m.n
    let v := s1.takeFree (8 * vn)
    let s2 := (v.2.store devUnit (slWork d + 4096) (leBytes vn v.1)).2
    let pn := 8 * groupOf' d * padN m.n
    let p := s2.takeFree (8 * pn)
    let s3 := (p.2.store devUnit (slWork d + precOff m.n) (leBytes pn p.1)).2
    let s4 := if badB || o.reason == 6 then s3 else
      (s3.store devUnit (leAt d 48 8) (o.x.flatMap (fun c => leBytes 4 (Fmt.fp32.rne (FVal.ofInt c (-(m.f : Int))))))).2
    let free := bitsOf k.1 64 32
    let rel := if badB || o.reason == 6 then free else relResidual m (slMethod d) o b free
    let s5 := s4.count (cntRegion r 9) (m.entries.length * o.iters)
    if o.reason = 6 then ((s5.solveHit r e stop).dropSystem r).endSolve e 6 o.iters rel false (.faultFailed :: add) .storeFault
    else s5.endSolve e o.reason o.iters rel (o.reason == 3 && !badB) (reasonStatus o.reason :: add) .none

/-- Whether the SOLVE op of `e` comes next: it has no LOAD or UPDATE, or they have run. -/
def State.solveNext (s : State) (e : Nat) : Bool :=
  slOp (s.desc e) 2 && s.solveTurn e && (match s.working e with
    | some w => if leAt (s.desc e) 16 1 % 4 = 0 then true else w.phase != 0
    | none => false)

/-- The statuses that an earlier op of the descriptor added. -/
def State.solveAdd (s : State) (e : Nat) : List Status :=
  match s.working e with
  | some w => if w.phase = 2 then [.replayed] else []
  | none => []

/-- Whether the deadline of a descriptor has been reached. -/
def State.deadlinePast (s : State) (d : List Byte) : Bool := dDeadlineValid d && decide (dDeadline d ≤ s.tide.ns)

/-- SOLVER_SOLVE (R293 to R301). A fatal upset, or a second lane error in one iteration, comes with `done` iterations complete (R309); where the solve has
ended by then, it meets no solve. -/
def execSolverSolve (e : Nat) (upset : SolveUpset) (s : State) : Host.Outcome State Fault Refusal :=
  let d := s.desc e
  let r := slRegion d
  .next (if s.fresh e kindSolve ∧ !solveOk d then s.solveBad e .badDescriptor
    else if !s.solveNext e then s
    else if s.regionFenced r then s.solveBad e .regionFenced
    else if !systemOk (s.solver r) d then s.solveFail e 7 .faultFailed .badDescriptor
    else if wrongWork (s.solver r) d then s.solveBad e .badDescriptor
    else if s.deadlinePast d then s.runSolve e .setup (s.solveAdd e)
    else match upset.endsAt with
      | some done => s.runSolve e (.fault upset.kind done) (s.solveAdd e)
      | none =>
        let u := s.solverUpset r (some e) upset.kind
        u.2.2.runSolve e .free (s.solveAdd e ++ u.2.1))

/-- SOLVE_DEADLINE (R299): the deadline comes in setup, with `none`, or within the iteration after so many complete ones. A deadline that has passed
before the solve starts comes in its setup. -/
def execSolveDeadline (e : Nat) (done : Option Nat) (s : State) : Host.Outcome State Fault Refusal :=
  let d := s.desc e
  .next (if s.solveNext e ∧ solveOk d = true ∧ dDeadlineValid d = true ∧ systemOk (s.solver (slRegion d)) d = true ∧
      wrongWork (s.solver (slRegion d)) d = false ∧ ¬ s.regionFenced (slRegion d) = true then
      (s.atTide (dDeadline d)).runSolve e (if s.deadlinePast d then .setup else done.elim .setup .deadline) (s.solveAdd e)
    else s)

/-- The SOLVE descriptor that runs in a region, if any: one whose first op has run. -/
def State.solveRunning (s : State) (r : Nat) : Option Nat :=
  (s.work.find? (fun p => !p.2.done && p.2.kind == kindSolve && p.2.phase != 0 && slRegion (s.desc p.1) == r)).map (·.1)

/-- STRUCTURE_SCRUB (R309, R310): an error found in the background. -/
def execStructureScrub (r : Fin 4) (upset : SolverUpset) (s : State) : Host.Outcome State Fault Refusal :=
  let x := s.solveRunning r.val
  let u := s.solverUpset r.val x (match upset with
    | .lane => .none
    | .laneTwice => .fatal
    | y => y)
  .next (match x with
    | some e => if u.1 then u.2.2.solveFail e 6 .faultFailed .storeFault else u.2.2
    | none => u.2.2)

end Sys2Proof.Machine
end

