-- ==== Sys2Proof/Machine/Power.lean ====
section
/-! DEFINITION. Power (18_power.md R553 to R571): the operating point and PWR_BRAKE#, requests for a lower state and their refusers, entry,
wake and exit, and what a lower state loses. -/

namespace Sys2Proof.Machine

/-! ### What a reset and a lower state lose (R133, R559, R610, R611) -/

/-- A register whose RW and W1C fields return to their reset values (R610). -/
def resetFieldsOf (a : Nat) (v : Word) : Word :=
  BitVec.ofNat 32 ((fieldsAt a).foldl (fun x f =>
    if f.acc = .rw ∨ f.acc = .w1c then putBits x f.lo f.width (bitsOf (regReset a).toNat f.lo f.width) else x) v.toNat)

/-- RW and W1C fields of the registers in [lo, lo + n) return to their reset values (R610). -/
def State.resetFields (s : State) (lo n : Nat) : State :=
  { s with regs := s.regs.filterMap (fun p =>
      if lo ≤ p.1 ∧ p.1 < lo + n then
        (if resetFieldsOf p.1 p.2 = regReset p.1 then none else some (p.1, resetFieldsOf p.1 p.2))
      else some p) }

/-- A block loses its stores and stops (R133, R559, R611): its RW and W1C fields are reset, its units are idle, and its rows are as the
repair record has them. -/
def State.loseBlock (s : State) (b : Nat) : State :=
  let s1 := ((s.clearBlock b).clearVat b).resetFields (blkBase b) 0x10000
  let s2 := (s1.setFld (PAN_DBG_CTL_dbg_active b) 0).setTieCounts b [] (List.range' 1 15)
  let s3 := (s2.setFld (MFU_STATUS_busy b) 0).setFld (MFU_STATUS_phase b) 0
  ((s3.setFld (UPD_ENGINE_STATUS_busy b) 0).setFld (UPD_ENGINE_STATUS_pass b) 0).programRows b

/-- The harvest units and the solver of a region lose what they hold (R559, R611): windows go to FREE and their carry sets are discarded and
counted under R367, and no system is resident. -/
def State.loseUnits (s : State) (r : Nat) : State :=
  let s1 := (s.wins.filter (fun p => winR p.1 == r)).foldl (fun (t : State) (p : Nat × Window) => t.freeWindow p.1) s
  let s2 := s1.setSolver r Solver.zero
  ((s2.setFld (SIS_STATUS_busy r) 0).setFld (SIS_STATUS_phase r) 0).resetFields (rgnBase r + 0x2000) 0x2000

/-- Everything that the compute dies hold and that power gating or a warm reset loses. -/
def State.loseCompute (s : State) : State :=
  forUpTo 4 (fun r t => t.loseUnits r) (forUpTo 64 (fun b t => t.loseBlock b) s)

/-- HBM loses its contents, and with them the ring journal and the booted-set area (R473, R559, R575, R610). -/
def State.loseHbm (s : State) : State :=
  let s1 := { s with
    mem := SMap.clearRange s.mem 0 hbmTop, poison := [], mirrorA := [], mirrorB := [], shadow := [], commits := [], replayQ := []
    doneQ := [], ringQ := [], booted := [] }
  (s1.setFld RNG_JOURNAL_USED_used 0).setFld RNG_JOURNAL_STATUS_replaying 0

/-- Merdy builds an empty journal and advances its generation (R473). -/
def State.newJournal (s : State) : State := s.wrapBump RNG_JOURNAL_GEN_generation

/-- Show whether every HBM stack of the module is trained. -/
def State.setTrained (s : State) (on : Bool) : State :=
  forUpTo 24 (fun k t => t.setFld (RGN_HBM_STATUS_trained (k / 6) (k % 6)) (b2n on)) s

/-! ### The operating point and PWR_BRAKE# (R553 to R555) -/

/-- The effective cap (R553). -/
def State.effectiveCap (s : State) : Nat :=
  if s.flag PWR_STATUS_brake_active then min (s.fld PWR_LIMIT_cap_w) (s.fld PWR_LIMIT_brake_w) else s.fld PWR_LIMIT_cap_w

/-- POWER_GOVERNOR_SAMPLE (R553, R555): the hub governor engages above the effective cap and lets go at 50 W below it; the stop that
PWR_BRAKE# made ends when the 20 µs average is at most brake_w. -/
def execPowerGovernorSample (avg peak : BitVec 12) (s : State) : Host.Outcome State Fault Refusal :=
  let cap := s.effectiveCap
  .next { s with
    governing := if cap < avg.toNat then true else if avg.toNat + 50 ≤ cap then false else s.governing
    brakeStop := s.brakeStop && decide (s.fld PWR_LIMIT_brake_w < peak.toNat) }

/-- A Merdy setting that a limit of the safety monitor overrides is counted as vetoed (R25, R554). -/
def State.veto (s : State) : State := (s.setFlag HUB_MODULE_STATUS_safety_veto).bump SAF_COUNT_vetoes

/-- A written limit (R554): clamped to 600 to 2,400 W; above 2,400 W it is vetoed. -/
def State.limitWrite (s : State) (f : Fld) (x : Nat) : State :=
  let s1 := s.setFld f (clampNat 600 2400 x)
  if 2400 < x then s1.veto else s1

/-- A write of PWR_LIMIT. -/
def State.limitsWrite (s : State) (v : Word) : State :=
  (s.limitWrite PWR_LIMIT_cap_w (bitsOf v.toNat 0 12)).limitWrite PWR_LIMIT_brake_w (bitsOf v.toNat 16 12)

/-- PWR_LIMIT_WRITE (R554, R570): the effective cap follows at once. -/
def execPwrLimitWrite (v : Word) (s : State) : Host.Outcome State Fault Refusal := .next (s.limitsWrite v)

/-- The brake acts (R555): issue stops in every block, and from then on the hub governs under the lower cap. -/
def State.brakeActs (s : State) : State := { s.setFld PWR_STATUS_brake_active 1 with brakeStop := true }

/-- PWR_BRAKE_ASSERT (R555): two consecutive low samples. Outside S0 the assertion is recorded and acts from the end of the next exit. -/
def execPwrBrakeAssert (s : State) : Host.Outcome State Fault Refusal :=
  let s1 := { s with brakeLow := true }
  .next (if s.brakeLow || !s.inS0 then s1 else s1.brakeActs)

/-- PWR_BRAKE_RELEASE (R555): 1 ms after the pin has returned high. -/
def execPwrBrakeRelease (s : State) : Host.Outcome State Fault Refusal :=
  .next { s.setFld PWR_STATUS_brake_active 0 with brakeLow := false }

/-! ### Requests (R560, R562, R563, R567) -/

/-- The rings whose table entries have been written. -/
def State.knownRings (s : State) : List Nat :=
  ((s.regs.filter (fun p => decide (0x400000 ≤ p.1) && decide (p.1 < 0x800000))).map (fun p => (p.1 - 0x400000) / 0x40)).dedup

/-- Refuser 1: an enabled descriptor ring has head ≠ tail, or the journal holds an entry that has not retired. -/
def State.ringBusy (s : State) : Bool :=
  !s.journal.isEmpty ||
  s.knownRings.any (fun r => s.flag (RNG_CFG_enable r) && !s.flag (RNG_CFG_cq r) && s.fld (RNG_HEAD_head r) != s.fld (RNG_TAIL_tail r))

/-- Refuser 6: a throttle or trip is in force, a shutdown cause has not cleared, or the last exit from S2 or S3 is less than 10 ms ago. -/
def State.monitorVeto (s : State) : Bool :=
  s.flag SAF_STATUS_power_throttle || s.flag SAF_STATUS_thermal_throttle || s.flag SAF_STATUS_shutdown || s.monStop || s.hubHot ||
  (match s.lastExit with
    | some t => decide (s.tide.ns < t + 10000000)
    | none => false)

/-- Whether refuser `code` of R562 holds. -/
def State.refuses (s : State) (code : Nat) : Bool :=
  if code = 1 then s.ringBusy
  else if code = 2 then s.flag UPD_GROUP_STATUS_open
  else if code = 3 then !s.gated.isEmpty || (List.range 4).any (fun r => !(s.syncUnit r).watches.isEmpty)
  else if code = 4 then s.movedLast
  else if code = 5 then !s.retrainDue.isEmpty
  else s.monitorVeto

/-- The refusers that hold for the state `k` (R562). -/
def State.refusers (s : State) (k : Nat) : List Nat := (if k = 1 then [1, 4, 6] else [1, 2, 3, 4, 5, 6]).filter s.refuses

/-- The count of a refuser (R571). -/
def refuserCount (code : Nat) : Fld :=
  if code = 1 then PWR_REFUSE_COUNT0_ring_nonempty
  else if code = 2 then PWR_REFUSE_COUNT0_open_group
  else if code = 3 then PWR_REFUSE_COUNT1_watch_pending
  else if code = 4 then PWR_REFUSE_COUNT1_link_traffic
  else if code = 5 then PWR_REFUSE_COUNT2_hbm_training
  else PWR_REFUSE_COUNT2_safety_veto

/-- A request is judged in S0 (R562, R563): it is refused, with the counts of all that held and the lowest code, or the entry begins. -/
def State.judge (s : State) (k : Nat) : State :=
  match s.refusers k with
  | [] => { s.setFld PWR_STATUS_entering 1 with entryTo := k, wakePend := none }
  | c :: cs => (((c :: cs).foldl (fun (t : State) (x : Nat) => t.bump (refuserCount x)) s).setFld PWR_STATUS_last_refuser c).setFlag
      PWR_STATUS_refused

/-- A request for state `k` (R560): honoured from S0; from S1 a deeper one is judged after an exit; any other is ignored. -/
def State.request (s : State) (k : Nat) : State :=
  if s.inS0 then s.judge k
  else if s.fld PWR_STATUS_state = 1 ∧ 1 < k ∧ !s.flag PWR_STATUS_exiting then
    { (s.setFld PWR_STATUS_exiting 1).bump PWR_WAKE_COUNT_wakes with reqPend := k }
  else s.setFlag PWR_STATUS_req_ignored

/-- REQUEST_S1 (R560). -/
def execRequestS1 (s : State) : Host.Outcome State Fault Refusal := .next (s.request 1)
/-- REQUEST_S2 (R560). -/
def execRequestS2 (s : State) : Host.Outcome State Fault Refusal := .next (s.request 2)
/-- REQUEST_S3 (R560). -/
def execRequestS3 (s : State) : Host.Outcome State Fault Refusal := .next (s.request 3)

/-- AUTO_IDLE (R567): none of the refusers of S1 has held for idle_us. -/
def execAutoIdle (s : State) : Host.Outcome State Fault Refusal :=
  .next (if s.flag PWR_CTL_auto_idle && s.inS0 && (s.refusers 1).isEmpty then s.request 1 else s)

/-- HBM_INTERFACE_RETRAINING (R562): controller `k` is due or in progress, or its retraining has ended. -/
def execHbmInterfaceRetraining (k : Fin 24) (on : Bool) (s : State) : Host.Outcome State Fault Refusal :=
  let rest := s.retrainDue.filter (fun x => x != k.val)
  .next (if on then { s.loadHbmCode k.val with retrainDue := rest ++ [k.val] } else { s with retrainDue := rest })

/-! ### Entry (R559, R561, R563, R566) -/

/-- A port when the module enters S2 or S3 (R503, R557): an up port parks for 4 frames and then stops; any other but a fenced one is parked, in S3
in wake-detect. -/
def State.parkPort (s : State) (p k : Nat) : State :=
  if s.portUp p then s.setPort p { s.port p with parkFrames := 4 }
  else if s.fld (PRT_STATUS_state p) = 3 then s
  else s.setFld (PRT_STATUS_state p) (if k = 3 then 5 else 4)

/-- What S2 and S3 lose (R559). -/
def State.loseFor (s : State) (k : Nat) : State :=
  if k < 2 then s
  else
    let s1 := forUpTo 18 (fun p t => t.parkPort p k) s.loseCompute
    let s2 := if s1.flag TID_STATUS_holdover then s1 else s1.enterHoldover
    if k = 3 then (State.loseHbm { s2 with counters := [] }).setTrained false else s2

/-- An entry is aborted (R563, R570, R555): the module is back in S0, a brake recorded meanwhile acts, and a wake that came is recorded. -/
def State.abortEntry (s : State) (code : Nat) : State :=
  let s1 := ((s.setFld PWR_STATUS_entering 0).bump PWR_ENTRY_COUNT_aborted).bump (refuserCount code)
  let s2 := (s1.setFld PWR_STATUS_last_refuser code).setFlag PWR_STATUS_aborted_flag
  let s3 := if s2.brakeLow && !s2.flag PWR_STATUS_brake_active then s2.brakeActs else s2
  match s.wakePend with
  | some w => { s3.setFld PWR_STATUS_last_wake w with wakePend := none, entryTo := 0 }
  | none => { s3 with entryTo := 0 }

/-- An entry completes (R561, R566): what the state loses is lost, the state is reached, and with a wake pending the exit begins at once. -/
def State.completeEntry (s : State) : State :=
  let k := s.entryTo
  let s1 := { s.loseFor k with entryTo := 0, wakePend := none }
  let s2 := ((s1.setFld PWR_STATUS_entering 0).setFld PWR_STATUS_state k).bump PWR_ENTRY_COUNT_entries
  match s.wakePend with
  | some w => s2.startExit w
  | none => s2

/-- The refuser that aborts an entry to `k` (R563): 5 or 6, from the hardware or arisen since the request; 5 bears on S2 and S3 only. -/
def State.entryRefuser (s : State) (k : Nat) (abort : Option (Fin 2)) : Option Nat :=
  if 1 < k ∧ (s.refuses 5 ∨ abort = some 0) then some 5
  else if s.refuses 6 ∨ abort = some 1 then some 6
  else none

/-- POWER_ENTRY (R561, R563): the entry under way runs to its end, or refuser 5 or 6 aborts it before its commit point. -/
def execPowerEntry (abort : Option (Fin 2)) (s : State) : Host.Outcome State Fault Refusal :=
  .next (if !s.flag PWR_STATUS_entering then s
    else match s.entryRefuser s.entryTo abort with
      | some c => s.abortEntry c
      | none => s.completeEntry)

/-! ### Wake and exit (R564, R566, R568, R570) -/

/-- Whether wake source `src` exists in state `k` (R564). -/
def wakeValid (k src : Nat) : Bool := if k = 1 then src != 2 else if k = 2 then true else if k = 3 then src != 1 else false

/-- WAKE (R564, R566): source `src` + 1 is detected. -/
def execWake (src : Fin 5) (s : State) : Host.Outcome State Fault Refusal :=
  let k := if s.flag PWR_STATUS_entering then s.entryTo else s.fld PWR_STATUS_state
  .next (if wakeValid k (src.val + 1) then s.wakeBy (src.val + 1) else s)

/-- The return from S2 or S3 (R54, R559, R561): the block map and row repair come from the repair record again, after S3 the journal is new and the booted set is
copied again (notes/assumptions/154.md), ports train, and one coarse step of the tide is allowed. -/
def State.leaveDeep (s : State) (k : Nat) : State :=
  let s1 := forUpTo 64 (fun b t => t.programRows b) { s with lastExit := some s.tide.ns, tide := { s.tide with mayStep := s.tide.mayStep || !s.flag TID_STATUS_locked } }
  let s1 := if s1.flag TID_STATUS_is_root || decide (s1.tide.quiet < 64) then s1.setFld TID_STATUS_holdover 0 else s1
  let s2 := if k = 3 then s1.bootCopy.newJournal.setTrained true else s1
  if s2.chip = 0xFFFF then s2
  else forUpTo 18 (fun p t => if t.fld (PRT_STATUS_state p) = 3 then t else t.startTraining p) s2

/-- POWER_EXIT (R561, R568, R570, R555): S0 is reached and acceptance is open; held alarm signals are applied, a recorded brake acts, and a
request that waited for the exit is judged. -/
def execPowerExit (s : State) : Host.Outcome State Fault Refusal :=
  let k := s.fld PWR_STATUS_state
  .next (if !s.flag PWR_STATUS_exiting then s
    else
      let s1 := (s.setFld PWR_STATUS_exiting 0).setFld PWR_STATUS_state 0
      let s2 := if 2 ≤ k then s1.leaveDeep k else s1
      let s3 := s2.heldAlarms.foldl State.toHome { s2 with heldAlarms := [] }
      let s4 := if s3.brakeLow && !s3.flag PWR_STATUS_brake_active then s3.brakeActs else s3
      if s4.reqPend = 0 then s4 else ({ s4 with reqPend := 0 }).judge s4.reqPend)

/-- WAKE_HOST_RELEASE (R568): at the first TLP from the host, or after 100 ms. -/
def execWakeHostRelease (s : State) : Host.Outcome State Fault Refusal := .next { s with wakeLow := false }

end Sys2Proof.Machine
end

