-- ==== Sys2Proof/Machine/Memory.lean ====
section
/-! DEFINITION. Memory upsets, patrol scrub and repair (16_memory.md R518 to R524), the repair record (17_reliability.md R536, R537, R639), the
host window (R517), accesses of another form to BAR0 (R634), and the error ring's registers (R546 to R548). -/

namespace Sys2Proof.Machine

/-! ### Lines, dies and rows (R518 to R524) -/

/-- Lines of a stack (R509). -/
def linesPerStack : Nat := 36 * 2 ^ 30 / 64

/-- Local address of line `i` of stack `k` (R509). -/
def lineAddr (k i : Nat) : Nat := k / 6 * 0x003600000000 + (i / 64 * 6 + k % 6) * 4096 + i % 64 * 64

/-- An error record of an HBM controller (R544). -/
def hbmRec (sev k detail cause addr : Nat) : ErrRec := ⟨sev, 2, 9, k / 6, k, detail, cause, addr, 0xFFFF, 0⟩

/-- The controller logs the address of an error (R519, R520). -/
def State.logLine (s : State) (k a : Nat) (bad : Bool) : State :=
  ((s.setFld (RGN_HBM_ERR_LO_addr_lo (k / 6) (k % 6)) a).setFld (RGN_HBM_ERR_HI_addr_hi (k / 6) (k % 6)) (a / 2 ^ 32)).setFld
    (RGN_HBM_ERR_HI_uncorr (k / 6) (k % 6)) (b2n bad)

/-- A die has reached die_thr in a scrub pass (R522): the first one is marked; a second one degrades the stack. -/
def State.markDie (s : State) (k die : Nat) : State :=
  let r := k / 6
  let c := k % 6
  let m := s.fld (RGN_HBM_STATUS_marked_die r c)
  if m = die ∨ s.flag (RGN_HBM_STATUS_degraded r c) = true then s
  else if m = 0xF then
    { ((s.setFld (RGN_HBM_STATUS_marked_die r c) die).setFlag (RGN_HBM_STATUS_die_marked r c)).error
        (hbmRec 0 k die (RGN_HBM_STATUS_die_marked r c).cause 0) with repairPend := true }
  else (s.setFld (RGN_HBM_STATUS_degraded r c) 1).error (hbmRec 2 k die 0 0)

/-- A row has reached row_thr corrected reads in a scrub pass (R524): soft repair, or spare_exhausted. -/
def State.repairRow (s : State) (k ch ps bank row : Nat) (spare : Bool) : State :=
  let r := k / 6
  let c := k % 6
  if spare then
    { (s.setFlag (RGN_HBM_STATUS_row_repaired r c)).bump (RGN_HBM_REPAIR_soft_repairs r c) with
      softRep := s.softRep ++ [[k, ch, ps, bank, row]], repairPend := true }
  else s.setFlag (RGN_HBM_STATUS_spare_exhausted r c)

/-- A row of a stack as one number. -/
def rowKey (k ch ps bank row : Nat) : Nat := (((k * 256 + ch) * 256 + ps) * 256 + bank) * 2 ^ 24 + row

/-- A corrected read (R519, R524): counted, logged, and counted for its row; `scrub` counts it for its die as well (R522). -/
def State.correctedRead (s : State) (k a die ch ps bank row : Nat) (spare scrub : Bool) : State :=
  let r := k / 6
  let c := k % 6
  let s1 := ((s.setFlag (RGN_HBM_STATUS_corrected r c)).bump (RGN_HBM_CORR_corrected_reads r c)).count (cntCtrl k 2)
  let s2 := (s1.logLine k a false).error (hbmRec 0 k die (RGN_HBM_STATUS_corrected r c).cause a)
  let nd := SMap.get (fun _ => 0) s2.scrubDie (k * 16 + die % 16) + 1
  let s3 := if scrub then { s2 with scrubDie := SMap.set (fun _ => 0) s2.scrubDie (k * 16 + die % 16) nd } else s2
  let s4 := if scrub && decide (s.fld (RGN_SCRUB_CTL_die_thr r) ≤ nd) then s3.markDie k (die % 16) else s3
  let nr := SMap.get (fun _ => 0) s4.scrubRow (rowKey k ch ps bank row) + 1
  let full := decide (s.fld (RGN_SCRUB_CTL_row_thr r) ≤ nr)
  let s5 := { s4 with scrubRow := SMap.set (fun _ => 0) s4.scrubRow (rowKey k ch ps bank row) (if full && spare then 0 else nr) }
  if full then s5.repairRow k ch ps bank row spare else s5

/-- What the controller of stack `k` finds when it reads the line at `a` (R519, R520); a poisoned line reads as poisoned. -/
def State.lineOutcome (s : State) (k a : Nat) (scrub : Bool) : LineOutcome → State
  | .clean => s
  | .corrected die ch ps bank row spare => if s.poisoned a then s else s.correctedRead k a die ch ps bank row spare scrub
  | .uncorrectable =>
    if s.poisoned a then s
    else ((s.poisonLine a).logLine k a true).error
      (hbmRec 2 k 0xFFFF (RGN_HBM_STATUS_uncorrectable (k / 6) (k % 6)).cause a)

/-- Progress of region `r`'s scrub (R528): passes that all six stacks have completed, and the place of the slowest stack. -/
def State.showScrub (s : State) (r : Nat) : State :=
  let ps := (List.range 6).map (fun c => SMap.get (fun _ => 0) s.scrubPass (6 * r + c))
  let low := ps.foldl min (ps.headD 0)
  let pos := ((List.range 6).filter (fun c => SMap.get (fun _ => 0) s.scrubPass (6 * r + c) == low)).map
    (fun c => SMap.get (fun _ => 0) s.scrubPos (6 * r + c))
  (s.setFld (RGN_SCRUB_STATUS_passes r) (min 65535 low)).setFld (RGN_SCRUB_STATUS_progress r)
    (pos.foldl min (pos.headD 0) * 100 / linesPerStack)

/-- The scrub of stack `k` goes on; after its last line a new pass begins. -/
def State.scrubNext (s : State) (k : Nat) : State :=
  let z : Nat → Nat := fun _ => 0
  let i := SMap.get z s.scrubPos k + 1
  if i < linesPerStack then ({ s with scrubPos := SMap.set z s.scrubPos k i }).showScrub (k / 6)
  else
    State.showScrub { s with
      scrubPos := SMap.set z s.scrubPos k 0
      scrubPass := SMap.modify z s.scrubPass k (fun n => n + 1)
      scrubDie := SMap.clearRange s.scrubDie (k * 16) 16
      scrubRow := SMap.clearRange s.scrubRow (rowKey k 0 0 0 0) (2 ^ 48) } (k / 6)

/-- Whether the stacks are in self-refresh or powered off (R523, R540, R557). -/
def State.hbmIdle (s : State) : Bool := decide (2 ≤ s.fld PWR_STATUS_state) || s.flag SAF_STATUS_shutdown

/-- PATROL_SCRUB (R523, R519 to R524). -/
def execPatrolScrub (k : Fin 24) (out : LineOutcome) (s : State) : Host.Outcome State Fault Refusal :=
  let i := SMap.get (fun _ => 0) s.scrubPos k.val
  .next (if s.hbmIdle then s
    else ((s.noteLineRead (lineAddr k.val i / 64)).lineOutcome k.val (lineAddr k.val i) true out).scrubNext k.val)

/-! ### The repair record (R536, R537, R639) -/

/-- The marked die of a stack as the record has it. -/
def State.dieByte (s : State) (k : Nat) : Byte :=
  let m := s.fld (RGN_HBM_STATUS_marked_die (k / 6) (k % 6))
  if m = 0xF then 0xFF#8 else BitVec.ofNat 8 m

/-- A soft repair as the record has it. -/
def softBytes (l : List Nat) : List Byte :=
  leBytes 1 (l.getD 0 0) ++ leBytes 1 (l.getD 1 0) ++ leBytes 1 (l.getD 2 0) ++ leBytes 1 (l.getD 3 0) ++ leBytes 3 (l.getD 4 0) ++ leBytes 5 0

/-- Bytes 8 to 4,095 of the repair record: what the hardware now has. -/
def State.repairBody (s : State) : List Byte :=
  leBytes 2 1 ++ leBytes 2 0 ++ (List.range 64).map (fun b => BitVec.ofNat 8 (s.fld (mapFld b))) ++
  padTo 72 ((List.range 68).map (fun p => BitVec.ofNat 8 (s.quarOf p).length)) ++
  (List.range 68).flatMap (fun p => (List.range 3).map (fun i => BitVec.ofNat 8 ((s.quarOf p).getD i 0xFF))) ++
  (List.range 24).map s.dieByte ++
  (List.range 256).flatMap (fun i => match s.softRep[i]? with
    | some l => softBytes l
    | none => List.replicate 12 0xFF#8) ++ List.replicate 648 0#8

/-- Whether a copy of the record verifies (R536, R639). -/
def repairOk (c : List Byte) : Bool :=
  c.length == 4096 && leAt c 4 4 == (crc32c (c.drop 8)).toNat &&
  (List.range 64).all (fun b => decide (bitsOf (leAt c (12 + b) 1) 0 5 ≤ 16)) &&
  (List.range 64).all (fun b => (List.range 16).all (fun i =>
    let b' := b / 16 * 16 + i
    b' == b || bitOf (leAt c (12 + b) 1) 7 || bitOf (leAt c (12 + b') 1) 7 ||
    bitsOf (leAt c (12 + b) 1) 0 5 != bitsOf (leAt c (12 + b') 1) 0 5))

/-- Write the copy with the older sequence number (R536). -/
def State.writeRepair (s : State) : State :=
  let qa := if repairOk s.repairA then leAt s.repairA 0 4 + 1 else 0
  let qb := if repairOk s.repairB then leAt s.repairB 0 4 + 1 else 0
  let body := s.repairBody
  let new := leBytes 4 (max qa qb) ++ leBytes 4 (crc32c body).toNat ++ body
  if qa ≤ qb then { s with repairA := new, repairPend := false } else { s with repairB := new, repairPend := false }

/-- REPAIR_RECORD_WRITE (R536, R538): a repair that has taken effect is recorded. -/
def execRepairRecordWrite (s : State) : Host.Outcome State Fault Refusal := .next (if s.repairPend then s.writeRepair else s)

/-! ### The host window (R517) -/

/-- Why the window refuses an access at `a`: the region is fenced, or the address is unmapped or the mirror's. -/
def State.windowBars (s : State) (a : Nat) : Option Bool :=
  match s.openAt a with
  | .fenced => some true
  | .fault => some false
  | .ok => match (placeOf a).1 with
    | .mirror _ => some false
    | _ => none

/-- A counter whose home region is fenced is refused like the region's other places on a read (R23, R517; DESIGN CHOICE, notes/assumptions/158.md);
a store to it is a signal that its unit discards (R419). -/
def State.windowBarsRead (s : State) (a : Nat) : Option Bool :=
  match (placeOf a).1 with
  | .counter i _ => if s.regionFenced (homeOf i) then some true else s.windowBars a
  | _ => s.windowBars a

/-- A refused window access is counted, once. -/
def State.refuseWindow (s : State) : State := s.bump HUB_ADDR_COUNT_window_refusals

/-- A window read, piece by piece: bytes, whether they are poisoned, and why it is refused. -/
def State.windowRead (s : State) (a n : Nat) : Nat → List Byte × Bool × Option Bool × State
  | 0 => ([], false, none, s)
  | fuel + 1 =>
    if n = 0 then ([], false, none, s)
    else match s.windowBarsRead a with
      | some f => ([], false, some f, s)
      | none =>
        let k := max 1 (pieceLen a n)
        let x := s.readPiece (.unit (srcOther 0)) a k
        let y := State.windowRead x.2.2 (a + k) (n - k) fuel
        (x.1 ++ y.1, x.2.1 != .ok || y.2.1, y.2.2.1, y.2.2.2)

/-- A window write, piece by piece, with why a piece was refused. -/
def State.windowWrite (s : State) (a : Nat) (bs : List Byte) : Nat → Option Bool × State
  | 0 => (none, s)
  | fuel + 1 =>
    if bs.isEmpty then (none, s)
    else
      let k := max 1 (pieceLen a bs.length)
      let x := match s.windowBars a with
        | some f => (some f, s)
        | none => (none, (s.writePiece noMirror (.unit (srcOther 0)) a (bs.take k)).2)
      let y := State.windowWrite x.2 (a + k) (bs.drop k) fuel
      ((match x.1, y.1 with
        | some true, _ => some true
        | _, some true => some true
        | some false, _ => some false
        | none, z => z), y.2)

/-- The flags and the count of a refusal. -/
def State.noteRefusal (s : State) : Option Bool → State
  | none => s
  | some f => (s.setFlagIf f HUB_ADDR_STATUS_window_fenced).refuseWindow

/-- The local address of window offset `w`, which lies within the window (R485, R517). -/
def State.windowAddr (s : State) (w : Nat) : Nat := s.windowBase + w % 2 ^ s.barLog

/-- All ones in every 4-byte word that [a, a + n) covers. -/
def onesFor (a n : Nat) : List Byte := List.replicate (if n = 0 then 0 else ((a + n - 1) / 4 - a / 4 + 1) * 4) 0xFF#8

/-- Whether BAR0 offset `a` is answered at once in S1, S2 and S3 (R565, R635). -/
def answeredAsleep (a : Nat) : Bool := decide (a < 0x200000) || (decide (0x800000 ≤ a) && decide (a < 0xC00000))

/-- A window access outside S0 (R565): it wakes the module; a write is discarded and counted, a read completes with ones. -/
def State.windowAsleep (s : State) (off : Nat) (n : Nat) (write : Bool) : State :=
  let s1 := s.wakeBy 4
  if write then s1.refuseWindow else { s1 with out := ⟨onesFor off n, false, false⟩ }

/-- In S0 a host access that would not be answered outside S0 is a wake while an entry is under way (R566). -/
def State.hostTouch (s : State) (a : Nat) : State := if answeredAsleep a then s else s.wakeBy 4

/-- The block and the offset of an open pan window that holds all of [a, a + n) (R152, R517). -/
def State.windowPan (s : State) (a n : Nat) : Option (Nat × Nat) :=
  match placeOf a with
  | (.pan b off, k) => if n ≤ k ∧ (s.windowBars a).isNone then some (b, off) else none
  | _ => none

/-- BAR4_WINDOW_READ (R517, R520, R418, R565, R566); one of a pan row that is held waits (R153). During an entry it is a wake. -/
def execBar4WindowRead (off : BitVec 40) (len : Nat) (s : State) : Host.Outcome State Fault Refusal :=
  .next (if s.fld PWR_STATUS_state ≠ 0 then s.windowAsleep off.toNat len false
    else
      match s.windowPan (s.windowAddr off.toNat) len with
      | some p => (s.wakeBy 4).winAccess p.1 ⟨p.2, len, none, none⟩
      | none =>
        let x := (s.wakeBy 4).windowRead (s.windowAddr off.toNat) len (len + 1)
        match x.2.2.1 with
        | some f => { x.2.2.2.noteRefusal (some f) with out := ⟨[], false, true⟩ }
        | none => { x.2.2.2 with out := ⟨x.1, x.2.1, false⟩ })

/-- BAR4_WINDOW_WRITE (R517, R521, R418, R565, R566); one to a pan row that is held waits (R153). During an entry it is a wake. -/
def execBar4WindowWrite (off : BitVec 40) (data : List Byte) (s : State) : Host.Outcome State Fault Refusal :=
  .next (if s.fld PWR_STATUS_state ≠ 0 then s.windowAsleep off.toNat data.length true
    else
      match s.windowPan (s.windowAddr off.toNat) data.length with
      | some p => (s.wakeBy 4).winAccess p.1 ⟨p.2, data.length, some data, none⟩
      | none =>
        let x := (s.wakeBy 4).windowWrite (s.windowAddr off.toNat) data (data.length + 1)
        x.2.noteRefusal x.1)

/-- CNT_VALUE_LO_READ (R600). Outside S0 the host's read wakes the module instead (R565), and in the maintenance hold what it reads is open (R635). -/
def execCntValueLoRead (k : Fin 4096) (who : Agent) (s : State) : Host.Outcome State Fault Refusal :=
  .next (if who = .host ∧ s.fld PWR_STATUS_state ≠ 0 then s.windowAsleep (CNT_VALUE_LO k.val) 4 false
    else
      let x := if who = .host then (s.hostTouch (CNT_VALUE_LO k.val)).hostReg (CNT_VALUE_LO k.val) else s.readCntLo k.val (agentNo who)
      { x.2 with out := ⟨leBytes 4 x.1, false, false⟩ })

/-! ### Accesses of other forms to BAR0 (R634) -/

/-- BAR0_MISALIGNED_ACCESS (R634): a read returns all ones, a write is discarded, either is counted. One 4-byte or 8-byte aligned read is no such
access: it returns its registers, the lower first. Outside S0 a register that is not answered wakes the module, and during an entry it is a wake (R565, R566). -/
def execBar0MisalignedAccess (a : BitVec 26) (len : Nat) (write : Bool) (s : State) : Host.Outcome State Fault Refusal :=
  let x := a.toNat
  .next (if len = 0 then s
    else if s.fld PWR_STATUS_state ≠ 0 ∧ answeredAsleep x = false then s.windowAsleep x len write
    else if len = 4 ∧ x % 4 = 0 ∨ len = 8 ∧ x % 8 = 0 then
      if write then s
      else
        let lo := (s.hostTouch x).hostReg x
        if len = 4 then { lo.2 with out := ⟨leBytes 4 lo.1, false, false⟩ }
        else
          let hi := lo.2.hostReg (x + 4)
          { hi.2 with out := ⟨leBytes 4 lo.1 ++ leBytes 4 hi.1, false, false⟩ }
    else
      let s1 := (s.hostTouch x).bump HUB_ADDR_COUNT_unmapped_accesses
      if write then s1 else { s1 with out := ⟨onesFor x len, false, false⟩ })

/-! ### The error ring and the redundancy settings (R546 to R548) -/

/-- ERROR_COALESCE_EXPIRY (R546): 1,000 ms after its first occurrence a severity 0 record is written with its count. -/
def execErrorCoalesceExpiry (s : State) : Host.Outcome State Fault Refusal :=
  .next (match s.errCoal with
    | [] => s
    | (r, n, t) :: rest =>
      let s1 := s.atTide (t + 1000000000)
      State.writeErr { s1 with errCoal := rest, errSeq := (s.errSeq + 1) % 2 ^ 32 } 0 (errBytes s.errSeq r s1.tide.ns n))

/-- A write of HUB_ERR_HEAD (R546, R547): records consumed free places for those that wait. -/
def State.errHeadWrite (s : State) (v : Word) : State :=
  let s1 := s.setFld HUB_ERR_HEAD_head (v.toNat % 2 ^ (s.fld HUB_ERR_CFG_log2_size + 1))
  s1.drainErr s1.errBuf.length

/-- HUB_ERR_HEAD_WRITE (R546, R547). -/
def execHubErrHeadWrite (v : Word) (s : State) : Host.Outcome State Fault Refusal := .next (s.errHeadWrite v)

/-- A write of HUB_REDUN_CTL (R548, R551): sample of every present block follows abft_sample; without mirror_depth no shadow is kept. -/
def State.redunWrite (s : State) (v : Word) : State :=
  let x := v.toNat
  let s1 := ((s.setFld HUB_REDUN_CTL_abft_sample (bitsOf x 0 1)).setFld HUB_REDUN_CTL_dup_roots (min 2 (bitsOf x 1 2))).setFld
    HUB_REDUN_CTL_mirror_depth (bitsOf x 3 1)
  let s2 := forUpTo 64 (fun b t => if t.absent b then t else t.setFld (BLK_ABFT_CTL_sample b) (bitsOf x 0 1)) s1
  if bitOf x 3 then s2 else { s2 with shadow := [] }

/-- ABFT_SAMPLE_WRITE (R548). -/
def execAbftSampleWrite (v : Word) (s : State) : Host.Outcome State Fault Refusal := .next (s.redunWrite v)

end Sys2Proof.Machine
end

