-- ==== Sys2Proof/Machine/Stats.lean ====
section
/-! DEFINITION. STATS (07_curvature_statistics.md R234 to R244): folding the tile sums of a step into a factor's moving average. -/

namespace Sys2Proof.Machine

/-- One element of a factor (R238), as a bf16 code rounded with SR word `w`. -/
def statsElement (fOld gSum n beta : Nat) (init : Bool) (w : Nat) : Nat :=
  let invN := Fmt.fp32.rne ((FVal.ofInt 1 0).div (FVal.ofInt n 0))
  let g := f32mul gSum invN
  let v := if init then g else f32add (f32mul beta (toF32 fOld)) (f32mul (f32sub f32one beta) g)
  (Fmt.bf16.round (.sr w) (Fmt.fp32.decode v)).bits

/-- The descriptor's fields (R237). -/
def stTensor (d : List Byte) : Nat := leAt d 16 3
def stInit (d : List Byte) : Bool := bitOf (leAt d 19 1) 0
def stBlock (d : List Byte) : Nat := bitsOf (leAt d 20 1) 0 6
def stRegion (d : List Byte) : Nat := bitsOf (leAt d 20 1) 6 2
def stFirst (d : List Byte) : Nat := leAt d 24 2
def stCount (d : List Byte) : Nat := leAt d 26 2 + 1
def stArea (d : List Byte) : Nat := leAt d 48 8

/-- The checks of R241 that the descriptor alone decides. -/
def statsOk (d : List Byte) : Bool :=
  bitsOf (leAt d 19 1) 2 6 == 0 && dZero d 21 23 && dZero d 56 63 && leAt d 28 4 != 0 && unitRange32 (leAt d 32 4) && isLocal (leAt d 40 8) &&
  isLocal (stArea d)
where
  /-- 0 ≤ β < 1. -/
  unitRange32 (x : Nat) : Bool := f32le 0 x && f32lt x f32one

/-- The checks of R241 on the factor area's header. -/
def statsHeaderOk (d h : List Byte) : Bool :=
  faTensor h == stTensor d && faB h != 0 && decide (1 ≤ faD h) && decide (stFirst d + stCount d ≤ blockCount (faD h) (faB h))

/-- Bytes of tile sums of factor block `q`, and the offset of its sums from those of the first block named (R236). -/
def sumSize (h : List Byte) (q : Nat) : Nat := (upperTiles (blockDim (faD h) (faB h) q / 128)).length * 65536
def sumOff (d h : List Byte) (q : Nat) : Nat := ((List.range (q - stFirst d)).map (fun k => sumSize h (stFirst d + k))).sum

/-- The sum of element (i, j), i ≤ j, of factor block `q` (R228, R236). -/
def State.tileSum (s : State) (d h : List Byte) (q i j : Nat) : Nat :=
  let c := blockDim (faD h) (faB h) q / 128
  s.le (leAt d 40 8 + sumOff d h q + tileIndex c (i / 128) (j / 128) * 65536 + i % 128 * 512 + j % 128 * 4) 4

/-- The elements i ≤ j of a factor block. -/
def upperElems (n : Nat) : List (Nat × Nat) := (List.range n).flatMap (fun i => (List.range (n - i)).map (fun k => (i, i + k)))

/-- Whether the tile sums of factor block `q` are all finite (R240). -/
def State.sumsFinite (s : State) (d h : List Byte) (q : Nat) : Bool :=
  (upperElems (blockDim (faD h) (faB h) q)).all (fun x => f32finite (s.tileSum d h q x.1 x.2))

/-- The bytes of a factor block in the copy that is written (R238, R240). -/
def State.newFactor (s : State) (d h : List Byte) (q : Nat) : List Byte :=
  let n := blockDim (faD h) (faB h) q
  let a := factorAt (stArea d) (faD h) (faB h) (faVersion h) q
  if q < stFirst d ∨ stFirst d + stCount d ≤ q ∨ !s.sumsFinite d h q then s.bytes a (2 * n ^ 2)
  else (List.range (n * n)).flatMap (fun t =>
    let i := min (t / n) (t % n)
    let j := max (t / n) (t % n)
    let w := srWord s.cfg.seed (leAt d 36 4) (stTensor d) 3 ((q * faB h + i) * padDim (faD h) + (q * faB h + j))
    leBytes 2 (statsElement (s.le (a + 2 * (i * n + j)) 2) (s.tileSum d h q i j) (leAt d 28 4) (leAt d 32 4) (stInit d) w))

/-- Whether a factor block is block-local (R236). -/
def blockLocal (h : List Byte) (q : Nat) : Bool := decide (blockDim (faD h) (faB h) q ≤ 1536)

/-- The factor blocks that a STATS names. -/
def stBlocks (d : List Byte) : List Nat := (List.range (stCount d)).map (fun k => stFirst d + k)

/-- Whether factor block `q` is updated by the named logical block (R236, R237): it is block-local, or REGION does not give the larger ones their
region-sharded placement (DESIGN CHOICE, notes/assumptions/150.md). -/
def statsLocal (d h : List Byte) (q : Nat) : Bool := blockLocal h q || !bitOf (leAt d 19 1) 1

/-- Which logical block updates how many elements of factor block `q` (R236, R239): all of a local one, and of a sharded one tile t by present
block t mod B. -/
def State.statsShares (s : State) (d h : List Byte) (q : Nat) : List (Nat × Nat) :=
  let n := blockDim (faD h) (faB h) q
  if statsLocal d h q then [(stBlock d, n ^ 2)]
  else
    let bs := s.presentBlocks (stRegion d)
    (upperTiles (n / 128)).zipIdx.map (fun x => (bs.getD (x.2 % bs.length) (16 * stRegion d), if x.1.1 = x.1.2 then 16384 else 32768))

/-- Why the blocks that R236 names cannot run a STATS (R239). -/
def State.statsPlace (s : State) (d h : List Byte) : ErrCode :=
  let loc := (stBlocks d).any (statsLocal d h)
  let reg := (stBlocks d).any (fun q => !statsLocal d h q)
  if loc ∧ s.regionFenced (stBlock d / 16) then .regionFenced
  else if loc ∧ s.absent (stBlock d) then .blockAbsent
  else if reg ∧ (s.regionFenced (stRegion d) ∨ s.presentBlocks (stRegion d) = []) then .regionFenced
  else .none

/-- The header after the version write (R239). -/
def statsHeader (d h : List Byte) : List Byte :=
  leBytes 8 (faVersion h + 1) ++ bytesAt h 8 8 ++ leBytes 4 (min (2 ^ 32 - 1) (leAt h 16 4 + 1)) ++ leBytes 4 (leAt d 36 4) ++ bytesAt h 24 40

/-- The engine that a lane mismatch of a STATS falls on: of the blocks that have a share of it, an open one. -/
def State.statsEngine (s : State) (bs : List Nat) (upset : LaneUpset) : Nat × State :=
  if upset = .none ∨ bs.length ≤ 1 then (bs.headD 0, s)
  else
    let k := s.takeFree 6
    (bs.getD (k.1 % bs.length) 0, k.2)

/-- The work of a STATS on the confirmed verdict apply or clip (R238 to R240). After a block error the tiles are dealt again (R244). -/
def State.runStats (s : State) (e : Nat) (h : List Byte) (upset : LaneUpset) : State :=
  let d := s.desc e
  let n := blockCount (faD h) (faB h)
  let left := (stBlocks d).filter (fun q => !s.sumsFinite d h q)
  let done := (stBlocks d).filter (fun q => s.sumsFinite d h q)
  let s1 := s.put (factorAt (stArea d) (faD h) (faB h) (faVersion h + 1) 0) ((List.range n).flatMap (fun q => s.newFactor d h q))
  let x := s1.statsEngine (((stBlocks d).flatMap (s1.statsShares d h)).map (·.1)).dedup upset
  let u := x.2.laneUpset e x.1 upset
  let count := (done.map (fun q => blockDim (faD h) (faB h) q ^ 2)).sum
  if u.2.statsPlace d h ≠ .none then u.2.failMember e (u.2.statsPlace d h)
  else
    let t := (done.flatMap (u.2.statsShares d h)).foldl (fun (t : State) (x : Nat × Nat) => t.count (cntBlock x.1 30) x.2) u.2
    t.finish e [.write (stArea d) (statsHeader d h)] (u.1 ++ [if left.isEmpty then .ok else .range]) .blockError count left.length

/-- Whether the deadline of a STATS comes before its verdict (R244). -/
def State.statsLate (s : State) (d : List Byte) : Bool :=
  dDeadlineValid d && (match s.verdicts.find? (fun v => v.step == leAt d 36 4 && v.phase == 3) with
    | some v => decide (dDeadline d < v.conf)
    | none => decide (dDeadline d ≤ s.tide.ns))

/-- A STATS of a step that is skipped writes nothing (R240); its group has gone with the verdict (R345). -/
def State.statsSkip (s : State) (e : Nat) : State :=
  if (s.openGroup (dGroup (s.desc e))).isNone then s.complete e [.skipped] .none else s.finish e [] [.skipped] .none 0 0

/-- STATS (R237 to R244): it waits for the confirmed verdict of its step and for earlier STATS on the same area. -/
def execStats (e : Nat) (upset : LaneUpset) (s : State) : Host.Outcome State Fault Refusal :=
  let d := s.desc e
  .next (if !s.fresh e kindStats then s
    else if !statsOk d then s.failMember e .badDescriptor
    else if s.statsLate d then s.lateMember e
    else if s.earlier e kindStats (fun z => stArea z == stArea d) || s.work.any (fun p => !p.2.done && p.2.kind == kindStats && p.1 != e &&
        p.2.phase != 0 && stArea (s.desc p.1) == stArea d) then s
    else
      let x := s.load devUnit (stArea d) 64
      if x.2.1 ≠ .ok then x.2.2.failMember e x.2.1.err
      else if !statsHeaderOk d x.1 then x.2.2.failMember e .badDescriptor
      else if s.statsPlace d x.1 ≠ .none then x.2.2.failMember e (s.statsPlace d x.1)
      else match s.confirmedCode (leAt d 36 4) with
        | none => s
        | some code =>
          if code = 3 ∨ code = 4 then x.2.2.statsSkip e
          else
            let c := copySize (faD x.1) (faB x.1)
            let y := x.2.2.load devUnit (factorAt (stArea d) (faD x.1) (faB x.1) (faVersion x.1) 0) c
            let z := y.2.2.load devUnit (leAt d 40 8) (sumOff d x.1 (stFirst d + stCount d))
            let bad := y.2.1.join z.2.1
            if bad ≠ .ok then z.2.2.failMember e bad.err else z.2.2.runStats e x.1 upset)

/-- STATS_DEADLINE (R244): the deadline comes before the verdict. -/
def execStatsDeadline (e : Nat) (s : State) : Host.Outcome State Fault Refusal :=
  let d := s.desc e
  .next (if s.fresh e kindStats ∧ dDeadlineValid d = true ∧ (s.confirmedCode (leAt d 36 4)).isNone then (s.atTide (dDeadline d)).lateMember e else s)

end Sys2Proof.Machine
end

