-- ==== Sys2Proof/Machine/Update.lean ====
section
/-! DEFINITION. The update engine (10_update_engine.md R315 to R317, R323 to R331, R350; 05_numerics.md R168, R169, R181 to R183): the moments,
the direction, the new weights, and the staged header write. -/

namespace Sys2Proof.Machine

/-- The hyperparameter record (R323), as fp32 patterns. -/
structure Hyper where
  lr : Nat
  beta1 : Nat
  omb1 : Nat
  beta2 : Nat
  omb2 : Nat
  eps : Nat
  wd : Nat
  bc1 : Nat
  bc2 : Nat
  graftEps : Nat
  deriving DecidableEq, Repr

def hyperOf (b : List Byte) : Hyper :=
  let w := fun i => leAt b (4 * i) 4
  ⟨w 0, w 1, w 2, w 3, w 4, w 5, w 6, w 7, w 8, w 9⟩

/-- 0 ≤ x < 1. -/
def unitRange (x : Nat) : Bool := f32le 0 x && f32lt x f32one

/-- The checks of R330 on the hyperparameter values. -/
def Hyper.ok (h : Hyper) : Bool :=
  [h.lr, h.beta1, h.omb1, h.beta2, h.omb2, h.eps, h.wd, h.bc1, h.bc2, h.graftEps].all f32finite && unitRange h.beta1 && unitRange h.beta2 &&
  f32lt 0 h.eps && f32le 0 h.graftEps

/-- The shard header (R315). -/
structure Shard where
  version : Nat
  tensor : Nat
  compensated : Bool
  bittern : Bool
  n : Nat
  base : Nat
  rows : Nat
  cols : Nat
  left : Nat
  right : Nat
  leftBlock : Nat
  rightBlock : Nat
  pitch : Nat
  deriving DecidableEq, Repr

def shardOf (b : List Byte) : Shard :=
  ⟨leAt b 0 8, leAt b 8 3, bitOf (leAt b 11 1) 0, bitOf (leAt b 11 1) 1, leAt b 12 4, leAt b 16 6, leAt b 24 4, leAt b 28 4, leAt b 32 8, leAt b 40 8,
   leAt b 52 2, leAt b 54 2, leAt b 56 4⟩

/-- Offsets in a sheet (R316) of the weights, moment codes and exponents, and the bittern. -/
structure SheetMap where
  weights : Nat
  m1 : Nat
  x1 : Nat
  m2 : Nat
  x2 : Nat
  bitt : Nat
  deriving DecidableEq, Repr

def sheetMap (n : Nat) : SheetMap :=
  let n64 := ceilDiv n 64 * 64
  let a := 4096 + up4k (2 * n64)
  let p := up4k n64
  let q := up4k (n64 / 64)
  ⟨4096, a, a + p, a + p + q, a + 2 * p + q, a + 2 * (p + q)⟩

/-- The SR index of the element at position `k` of the shard (R315). -/
def Shard.index (x : Shard) (k : Nat) : Nat := x.base + k / x.cols * x.pitch + k % x.cols

/-- What the first pass forms of an element (R324): new moments, the corrected first moment, and the plain direction. -/
structure Moment where
  m : Nat
  v : Nat
  mh : Nat
  a : Nat
  deriving DecidableEq, Repr

def moments (h : Hyper) (c m1 m2 gIn : Nat) : Moment :=
  let g := f32mul gIn c
  let m := f32add (f32mul h.beta1 m1) (f32mul h.omb1 g)
  let v := f32add (f32mul h.beta2 m2) (f32mul h.omb2 (f32mul g g))
  let mh := f32mul m h.bc1
  let vh := f32mul v h.bc2
  ⟨m, v, mh, f32div mh (f32add (f32sqrt vh) h.eps)⟩

/-- The norm of a graft unit (R325): squares and partial sums in fp32. -/
def graftNorm (l : List Nat) : Nat := f32sqrt (l.foldl (fun s x => f32add s (f32mul x x)) 0)

/-- Grafting over one unit (R325), and whether np was 0. -/
def graft (eps : Nat) (p a : List Nat) : List Nat × Bool :=
  let np := graftNorm p
  if (Fmt.fp32.decode np).isZero then (a, true)
  else
    let sc := f32div (graftNorm a) (f32add np eps)
    (p.map (fun x => f32mul x sc), false)

/-! ### Mode 1 (R325, R326) -/

/-- A side of a Kronecker preconditioner: its area, dimension, block size, first block and, block by block, the extent it covers and the address
of the copy it is read from. -/
structure Side where
  on : Bool
  b : Nat
  spans : List (Nat × Nat × Nat)
  copies : List RecCopy
  deriving DecidableEq, Repr

/-- Extents (start, length) of the factor blocks from block `q` on that cover `len` features of a dimension `d`. -/
def spansOf (d b q len : Nat) : List (Nat × Nat) :=
  ((List.range (blockCount d b - q)).map (fun k => (k * b, min b (d - (q + k) * b)))).filter (fun x => decide (x.1 < len))

/-- Whether `len` rows or columns cover whole factor blocks (R330). -/
def coversWhole (d b q len : Nat) : Bool := b != 0 && decide (q < blockCount d b) && ((spansOf d b q len).map (·.2)).sum == len

/-- The version of block `q` of a preconditioner area that entry `e` reads (R326): the one it has recorded, else the current one. -/
def State.copyVersion (s : State) (e area q : Nat) : Nat :=
  match s.copies.find? (fun c => c.entry == e && c.area == area && c.block == q) with
  | some c => c.version
  | none => s.le (recordAt area q) 8

/-- A side as the UPDATE `e` starts (R326): the copies that it has recorded, or that the versions of its block records name. The manual gives the
sheet header one version of a side, and each block has its own: the first block's goes there, and all of them stay recorded until the group has
resolved (DESIGN CHOICE, notes/assumptions/151.md). A side whose flag is clear is one span over everything. -/
def State.side (s : State) (e : Nat) (on : Bool) (area first len : Nat) : Side :=
  if !on then ⟨false, 0, [(0, len, 0)], []⟩
  else
    let h := s.bytes area 64
    let b := paB h
    let ps := (spansOf (paD h) b first len).zipIdx
    ⟨true, b, ps.map (fun x => (x.1.1, x.1.2, rootAt area (paD h) b (s.copyVersion e area (first + x.2)) (first + x.2))),
     ps.map (fun x => ⟨e, area, first + x.2, s.copyVersion e area (first + x.2)⟩)⟩

/-- The version of a side that the sheet header shows (R316). -/
def Side.version (x : Side) : Nat := match x.copies with
  | c :: _ => c.version
  | [] => 0

/-- Element (i, k) of the preconditioner of a side, as bf16 code, and the tile exponent of chunk pair (i, k) within the block at `a`. -/
def State.sideDot (s : State) (sd : Side) (a i len : Nat) (col : Nat → Nat) : Nat :=
  let c := sd.b / 128
  let c' := min c (ceilDiv len 128)
  toBf (arrDot len (fun k => s.tileExp a c' (i / 128) k) (fun k => bf (s.rootCode a c' i k)) (fun k => bf (col k)))

/-- The span that holds position `i`. -/
def spanOf (sd : Side) (i : Nat) : Nat × Nat × Nat :=
  (sd.spans.find? (fun x => decide (x.1 ≤ i) && decide (i < x.1 + x.2.1))).getD (0, 0, 0)

/-- T = bf16(mh) · R_R and P = R_L · T (R326). -/
def State.kronecker (s : State) (rows cols : Nat) (l r : Side) (mh : List Nat) : List Nat × List Nat :=
  let t := if r.on then buildMat rows cols (fun i j =>
      let x := spanOf r j
      s.sideDot r x.2.2 (j - x.1) x.2.1 (fun k => matAt cols mh i (x.1 + k)))
    else mh
  let p := if l.on then buildMat rows cols (fun i j =>
      let x := spanOf l i
      s.sideDot l x.2.2 (i - x.1) x.2.1 (fun k => matAt cols t (x.1 + k) j))
    else t
  (t, p)

/-- The graft units of mode 1 (R325), each as the positions it holds in row-major order. -/
def graftUnits (cols : Nat) (l r : Side) : List (List Nat) :=
  l.spans.flatMap (fun x => r.spans.map (fun y =>
    (List.range (x.2.1 * y.2.1)).map (fun t => (x.1 + t / y.2.1) * cols + y.1 + t % y.2.1)))

/-- Directions grafted unit by unit, and how many units fell back. -/
def graftAll (eps : Nat) (units : List (List Nat)) (p a : List Nat) : List Nat × Nat :=
  units.foldl (fun acc u =>
    let g := graft eps (u.map (fun k => p.getD k 0)) (u.map (fun k => a.getD k 0))
    ((u.zip g.1).foldl (fun o x => o.set x.1 x.2) acc.1, acc.2 + b2n g.2)) (p, 0)

/-! ### The weight pass (R327, R182) -/

/-- ulp(w) = 2^(this) (R181). -/
def ulpExp (w : Nat) : Int := if bitsOf w 7 8 = 0 then -133 else (bitsOf w 7 8 : Int) - 134

/-- A compensated element (R182): new weight and bittern byte. -/
def compensated (w b delta : Nat) : Nat × Nat :=
  let y := (Fmt.bf16.decode w).add (FVal.ofInt (sext 8 b) (ulpExp w - 8))
  let x := Fmt.fp32.decode (Fmt.fp32.rne (y.add (Fmt.fp32.decode delta)))
  let wn := Fmt.bf16.rne x
  match x.sub (Fmt.bf16.decode wn) with
  | .fin neg m e =>
    if !x.isFin || !finBits Fmt.bf16 wn then (wn, 0)
    else
      let k := ((rneGrid m (e + 8 - ulpExp wn) 0).1 : Int)
      (wn, toBits 8 (clampInt (-128) 127 (if neg then -k else k)))
  | _ => (wn, 0)

/-- The increment of an element (R327). -/
def increment (h : Hyper) (d w : Nat) : Nat := f32mul (f32neg h.lr) (f32add d (f32mul h.wd w))

/-- A weight rounded by SR with purpose 0 (R327). -/
def srWeight (seed : DWord) (step tensor index w delta : Nat) : Nat :=
  (Fmt.bf16.round (.sr (srWord seed step tensor 0 index)) (Fmt.fp32.decode (f32add w delta))).bits

/-- The moment codes and block exponents of a list of fp32 values (R169), rounded by SR with the given purpose. -/
def encodeMoments (seed : DWord) (step : Nat) (x : Shard) (purpose : Nat) (vs : List Nat) : List Byte × List Byte :=
  let bl := (List.range (ceilDiv vs.length 64)).map (fun b => (vs.drop (64 * b)).take 64)
  let xs := bl.map m8Exp
  ((vs.zipIdx).map (fun v => BitVec.ofNat 8 (m8Code (xs.getD (v.2 / 64) 0) (.sr (srWord seed step x.tensor purpose (x.index v.2))) v.1)),
   xs.map (fun e => BitVec.ofNat 8 e))

/-- What an UPDATE works from: its shard, step, mode, factor, hyperparameters, directions' sources and sheets. -/
structure UpdJob where
  sh : Shard
  step : Nat
  mode : Nat
  factor : Nat
  hyper : Hyper
  grad : List Byte
  aux : Nat
  cur : Nat
  new : Nat
  deriving DecidableEq, Repr

/-- The first pass over the shard (R324). -/
def State.momentPass (s : State) (j : UpdJob) : List Moment :=
  let o := sheetMap j.sh.n
  (List.range j.sh.n).map (fun k => moments j.hyper j.factor
    (m8Decode (s.le (j.cur + o.x1 + k / 64) 1) (s.le (j.cur + o.m1 + k) 1))
    (m8Decode (s.le (j.cur + o.x2 + k / 64) 1) (s.le (j.cur + o.m2 + k) 1)) (leAt j.grad (4 * k) 4))

/-- The direction of each element (R325), how many graft units fell back, and the workspace of mode 1. -/
def State.directions (s : State) (j : UpdJob) (ms : List Moment) (l r : Side) (ext : List Byte) : List Nat × Nat × List Byte :=
  if j.mode = 0 then (ms.map (·.a), 0, [])
  else if j.mode = 2 then
    let g := graft j.hyper.graftEps ((List.range j.sh.n).map (fun k => leAt ext (4 * k) 4)) (ms.map (·.a))
    (g.1, b2n g.2, [])
  else
    let mh := ms.map (fun m => toBf m.mh)
    let a := ms.map (fun m => toBf m.a)
    let tp := s.kronecker j.sh.rows j.sh.cols l r mh
    let g := graftAll j.hyper.graftEps (graftUnits j.sh.cols l r) (tp.2.map toF32) (a.map toF32)
    let part := fun (x : List Nat) => padTo (2 * (ceilDiv j.sh.n 64 * 64)) (x.flatMap (leBytes 2))
    (g.1, g.2, part mh ++ part a ++ part tp.1 ++ part tp.2)

/-- Write the new sheet (R316, R327, R183): header, weights, moments and bittern. -/
def State.writeSheet (s : State) (j : UpdJob) (ms : List Moment) (ds : List Nat) (lv rv : Nat) : State :=
  let o := sheetMap j.sh.n
  let seed := s.cfg.seed
  let ws := (List.range j.sh.n).map (fun k =>
    let w := s.le (j.cur + o.weights + 2 * k) 2
    let d := increment j.hyper (ds.getD k 0) (toF32 w)
    if j.sh.compensated then compensated w (if j.sh.bittern then s.le (j.cur + o.bitt + k) 1 else 0) d
    else (srWeight seed j.step j.sh.tensor (j.sh.index k) (toF32 w) d, 0))
  let e1 := encodeMoments seed j.step j.sh 1 (ms.map (·.m))
  let e2 := encodeMoments seed j.step j.sh 2 (ms.map (·.v))
  let s1 := s.put j.new (leBytes 4 j.step ++ leBytes 4 0 ++ leBytes 8 lv ++ leBytes 8 rv ++ leBytes 40 0)
  let s2 := s1.put (j.new + o.weights) (ws.flatMap (fun x => leBytes 2 x.1))
  let s3 := ((s2.put (j.new + o.m1) e1.1).put (j.new + o.x1) e1.2).put (j.new + o.m2) e2.1
  let s4 := s3.put (j.new + o.x2) e2.2
  if j.sh.bittern then s4.put (j.new + o.bitt) (ws.map (fun x => BitVec.ofNat 8 x.2)) else s4

/-! ### The descriptor (R329 to R331) -/

/-- The checks of R330 that the descriptor alone decides. -/
def updateOk (d : List Byte) : Bool :=
  let m := bitsOf (leAt d 36 1) 0 2
  let lr := bitsOf (leAt d 36 1) 2 2
  let addr := fun o al => isLocal (leAt d o 8) && leAt d o 8 % al == 0
  dGroup d != 0 && m != 3 && (if m = 1 then lr != 0 else lr == 0) && bitsOf (leAt d 36 1) 4 4 == 0 && bitsOf (leAt d 37 1) 6 2 == 0 &&
  dZero d 38 39 && dZero d 56 63 && addr 16 4096 && addr 24 64 && addr 40 64 && addr 48 (if m = 1 then 4096 else 64) && (m != 0 || dZero d 48 55)

/-- The checks of R330 on mode 1's sides. -/
def State.sidesOk (s : State) (d : List Byte) (x : Shard) : Bool :=
  let side := fun (on : Bool) (area q len : Nat) =>
    let h := s.bytes area 64
    !on || (area != 0 && coversWhole (paD h) (paB h) q len)
  bitsOf (leAt d 36 1) 0 2 != 1 || (x.rows * x.cols == x.n && side (bitOf (leAt d 36 1) 2) x.left x.leftBlock x.rows &&
    side (bitOf (leAt d 36 1) 3) x.right x.rightBlock x.cols)

/-- Another UPDATE of the shard at `a` that has begun and whose group has not resolved (R331). -/
def State.updateHolds (s : State) (e a : Nat) : Bool :=
  s.work.any (fun p => !p.2.done && p.2.kind == kindUpdate && p.1 != e && p.2.phase != 0 && leAt (s.desc p.1) 16 8 == a)

/-- Readers of the sheet that an UPDATE would write (R320): gathers whose last cell has not left. -/
def State.sheetRead (s : State) (a : Nat) (b : Bool) : Bool := s.tx.any (fun x => x.sheet == some (a, b) && decide (x.sent < x.cells.length))

/-- Whether an UPDATE may start its work, on the verdict of its step (R332, R345): the local verdict in a verdict-bound group, the confirmed
one in any other (R33). -/
def State.verdictFor (s : State) (d : List Byte) : Option Verdict :=
  match s.verdictOf (leAt d 32 4) with
  | none => none
  | some v =>
    let bound := match s.groupOf (dGroup d) with
      | some g => g.bound.isSome
      | none => false
    if v.phase = 3 ∨ (bound = true ∧ 1 ≤ v.phase) then some v else none

/-- The work of an UPDATE (R324 to R328), and the staging of its header write (R340); its counts are those of R331. -/
def State.runUpdate (s : State) (e : Nat) (hdr hyp grad ext : List Byte) (v : Verdict) (add : List Status) : State :=
  let d := s.desc e
  let x := shardOf hdr
  let b := leAt d 37 1 % 64
  let area := leAt d 16 8
  let odd := x.version % 2 == 1
  let j : UpdJob := ⟨x, leAt d 32 4, bitsOf (leAt d 36 1) 0 2, v.factor, hyperOf hyp, grad, leAt d 48 8, sheetAt area x.n x.bittern odd,
    sheetAt area x.n x.bittern (!odd)⟩
  let l := s.side e (bitOf (leAt d 36 1) 2) x.left x.leftBlock x.rows
  let r := s.side e (bitOf (leAt d 36 1) 3) x.right x.rightBlock x.cols
  let ms := s.momentPass j
  let ds := s.directions j ms l r ext
  let s1 := s.writeSheet j ms ds.1 l.version r.version
  let s2 := ((if j.mode = 1 then s1.put j.aux ds.2.2 else s1).bump (UPD_ENGINE_COUNT_graft_fallbacks b) ds.2.1).count (cntBlock b 30) x.n
  let hdr' := leBytes 8 (x.version + 1) ++ bytesAt hdr 8 40 ++ leBytes 4 j.step ++ bytesAt hdr 52 12
  State.stage { s2 with copies := s2.copies.filter (fun c => c.entry != e) ++ l.copies ++ r.copies } e [.write area hdr'] ⟨e, add ++ [.ok], x.n, v.code⟩ none

/-- UPDATE (R329): checks, the waits of R320, R331 and R332, and the work. -/
def execUpdate (e : Nat) (upset : LaneUpset) (s : State) : Host.Outcome State Fault Refusal :=
  let d := s.desc e
  let b := leAt d 37 1 % 64
  let area := leAt d 16 8
  .next (if !s.fresh e kindUpdate then s
    else if !updateOk d then s.failMember e .badDescriptor
    else
      let y := s.load devUnit (leAt d 40 8) 64
      let h := y.2.2.load devUnit area 64
      let x := shardOf h.1
      if y.2.1 ≠ .ok then y.2.2.failMember e y.2.1.err
      else if h.2.1 ≠ .ok then h.2.2.failMember e h.2.1.err
      else if !(hyperOf y.1).ok || !dZero y.1 40 63 || !s.sidesOk d x then h.2.2.failMember e .badDescriptor
      else if (s.openGroup (dGroup d)).isNone then h.2.2.failWith e .groupClosed
      else if s.placeErr b ≠ .none then h.2.2.failMember e (s.placeErr b)
      else if s.updateHolds e area || s.earlier e kindUpdate (fun z => leAt z 16 8 == area) then s
      else match s.verdictFor d with
        | none => s
        | some v =>
          if v.code = 3 ∨ v.code = 4 then h.2.2.stage e [] ⟨e, [.skipped], 0, v.code⟩ none
          else if s.sheetRead area (x.version % 2 == 0) then s.setFlagIf (!s.flag (UPD_ENGINE_STATUS_reader_wait b)) (UPD_ENGINE_STATUS_reader_wait b)
          else
            let g := h.2.2.load devUnit (leAt d 24 8) (4 * x.n)
            let t := if bitsOf (leAt d 36 1) 0 2 = 2 then g.2.2.load devUnit (leAt d 48 8) (4 * x.n) else ([], .ok, g.2.2)
            let c := t.2.2.load devUnit (sheetAt area x.n x.bittern (x.version % 2 == 1)) (sheetSize x.n x.bittern)
            let bad := (g.2.1.join t.2.1).join c.2.1
            if bad ≠ .ok then c.2.2.failMember e bad.err
            else
              let u := c.2.2.laneUpset e b upset
              if u.2.placeErr b ≠ .none then u.2.failMember e (u.2.placeErr b)
              else (u.2.setFlagIf (upset == .twice) (UPD_ENGINE_STATUS_retried b)).runUpdate e h.1 y.1 g.1 t.1 v u.1)

end Sys2Proof.Machine
end

