-- ==== Sys2Proof/Machine/Root.lean ====
section
/-! DEFINITION. The matrix-function sequencer (08_matrix_function_unit.md R246 to R279): ingest, spectral estimate and scaling, the coupled iteration,
checkpoints, publication, deadlines, and duplicate execution. -/

namespace Sys2Proof.Machine

/-! ### The descriptor (R273) -/

def rtFlag (d : List Byte) (i : Nat) : Bool := bitOf (leAt d 58 1) i
def rtRegion (d : List Byte) : Bool := rtFlag d 2
def rtRaw (d : List Byte) : Bool := rtFlag d 3
def rtVat (d : List Byte) : Bool := rtFlag d 7
/-- p as its code, and p itself (R268). -/
def rtCode (d : List Byte) : Nat := leAt d 58 1 % 4
def rtP (d : List Byte) : Nat := 2 ^ rtCode d
def rtSource (d : List Byte) : Nat := leAt d 16 8
def rtArea (d : List Byte) : Nat := leAt d 24 8
def rtWork (d : List Byte) : Nat := leAt d 32 8
/-- The factor block; 0 with RAW (R258). -/
def rtQ (d : List Byte) : Nat := if rtRaw d then 0 else leAt d 52 2
def rtTol (d : List Byte) : Nat := toF32 (leAt d 48 2)
def rtAccept (d : List Byte) : Nat := toF32 (leAt d 50 2)
def rtKmax (d : List Byte) : Nat := leAt d 60 1

/-- Dimension of the source: with RAW as the body gives it, else of the factor block (R234, R248). -/
def rtN (d h : List Byte) : Nat := if rtRaw d then 128 * leAt d 52 2 else blockDim (faD h) (faB h) (leAt d 52 2)
/-- d and block size of the preconditioner (R258). -/
def rtD (d h : List Byte) : Nat := if rtRaw d then rtN d h else faD h
def rtB (d h : List Byte) : Nat := if rtRaw d then rtN d h else faB h

/-- The size P of an upper-packed matrix (R263), of the vat area V, and of the workspace (R265). -/
def packSize (n : Nat) : Nat := n / 128 * (n / 128 + 1) / 2 * 32768
def vatArea (d : List Byte) (n : Nat) : Nat := (if rtVat d then 7 else 3) * packSize n + 256 * n
def workSize (d : List Byte) (n : Nat) : Nat :=
  4096 + (if rtVat d then 0 else 4 * packSize n) + (if rtRegion d then 8192 * n else 0)

/-- The logical blocks of a placement byte (R261). -/
def State.placement (s : State) (d : List Byte) (byte : Nat) : List Nat :=
  if rtRegion d then s.presentBlocks (byte / 64) else [byte % 64]

/-- Why a placement cannot be used (R274). -/
def State.placementErr (s : State) (d : List Byte) (byte : Nat) : ErrCode :=
  if rtRegion d then (if s.regionFenced (byte / 64) then .regionFenced else if s.presentBlocks (byte / 64) = [] then .blockAbsent else .none)
  else s.placeErr (byte % 64)

/-- The region or the logical block that a placement byte names (R273). -/
def placeOfByte (d : List Byte) (byte : Nat) : Nat := if rtRegion d then byte / 64 else byte % 64

/-- The checks of R274 that the descriptor alone decides. -/
def rootBodyOk (d : List Byte) : Bool :=
  let al := fun o => isLocal (leAt d o 8) && leAt d o 8 % 4096 == 0
  let fin := fun o => f32finite (leAt d o 4) && !bitOf (leAt d o 4) 31
  dDeadlineValid d && fin 40 && fin 44 && f32finite (rtTol d) && f32lt 0 (rtTol d) && f32le (rtTol d) (rtAccept d) &&
  decide (1 ≤ rtKmax d) && decide (rtKmax d ≤ 64) && !(rtFlag d 6 && placeOfByte d (leAt d 61 1) == placeOfByte d (leAt d 59 1)) &&
  !(rtVat d && rtRegion d) && al 16 && al 24 && al 32 && dZero d 63 63 && (!rtRaw d || leAt d 52 2 != 0)

/-- The checks of R274 on the headers: `h` is the one at the source, `a` that of the preconditioner area. -/
def rootHeadOk (d h a : List Byte) : Bool :=
  let n := rtN d h
  n != 0 && decide (n ≤ (if rtRegion d then 16384 else 1536)) &&
  (if rtRaw d then paD a == n && paB a == n && paCount a == 1
   else faB h != 0 && decide (leAt d 52 2 < blockCount (faD h) (faB h)) && faD h == paD a && faB h == paB a) &&
  (rtRegion d || decide (leAt d 62 1 * 65536 + vatArea d n ≤ vatSize))

/-! ### Numbers (R247, R250 to R255, R258) -/

/-- A sum by chunks of 128 terms, each in ascending order, the partials in ascending order (R250). -/
def chunkSum (per : Nat) (n : Nat) (f : Nat → Nat) : Nat :=
  (List.range (ceilDiv n per)).foldl (fun acc c =>
    f32add acc ((List.range (min per (n - per * c))).foldl (fun a k => f32add a (f (per * c + k))) 0)) 0

def sq32f (x : Nat) : Nat := f32mul x x

/-- The damping (R247). -/
def damping (n : Nat) (src : List Nat) (abs rel : Nat) : Nat :=
  let trace := chunkSum 128 n (fun i => toF32 (matAt n src i i))
  f32add abs (f32mul rel (f32div trace (Fmt.fp32.rne (FVal.ofInt n 0))))

/-- s_ij + ε δ_ij in fp32 (R253). -/
def damped (n : Nat) (src : List Nat) (eps i j : Nat) : Nat :=
  if i = j then f32add (toF32 (matAt n src i j)) eps else toF32 (matAt n src i j)

/-- The start block (R251), as bf16 codes. -/
def startBlock (n : Nat) : List Nat :=
  buildMat n 128 (fun i j => if bitOf (mix (BitVec.ofNat 64 i) (BitVec.ofNat 64 j)).toNat 63 then 0xBF80 else 0x3F80)

/-- One step of the spectral estimate (R252): the next U and the largest column norm. -/
def estimateStep (n : Nat) (src : List Nat) (eps : Nat) (u : List Nat) : List Nat × Nat :=
  let w := buildMat n 128 (fun i j =>
    f32add (arrDot n (fun _ => 0) (fun k => bf (matAt n src i k)) (fun k => bf (matAt 128 u k j))) (f32mul eps (toF32 (matAt 128 u i j))))
  let norms := (List.range 128).map (fun j => f32sqrt (chunkSum 128 n (fun i => sq32f (matAt 128 w i j))))
  (buildMat n 128 (fun i j => Fmt.bf16.rne ((Fmt.fp32.decode (matAt 128 w i j)).div (Fmt.fp32.decode (norms.getD j 0)))),
   norms.foldl (fun a x => Fmt.fp32.rne ((Fmt.fp32.decode a).max (Fmt.fp32.decode x))) 0)

/-- The spectral estimate λ̂ (R252). -/
def estimate (n : Nat) (src : List Nat) (eps : Nat) : Nat :=
  (forUpTo 8 (fun _ (x : List Nat × Nat) => estimateStep n src eps x.1) (startBlock n, 0)).2

/-- The smallest t with 2^t ≥ a positive finite value. -/
def ceilLog2 (m : Nat) (e : Int) : Int := (Nat.log2 m : Int) + e + b2n (m != 2 ^ Nat.log2 m)

/-- The smallest multiple of p with 2^e at least a value (R253); none where there is no such value. -/
def scaleExp (p : Nat) (v : FVal) : Option Int :=
  match v with
  | .fin false m e => if m = 0 then none else some (-((-(ceilLog2 m e)) / (p : Int)) * p)
  | _ => none

/-- ‖S + εI‖_F (R254). -/
def frobenius (n : Nat) (src : List Nat) (eps : Nat) : Nat :=
  f32sqrt (chunkSum (128 * n) (n * n) (fun t => sq32f (damped n src eps (t / n) (t % n))))

/-- The scaled source A (R253). -/
def scaled (n : Nat) (src : List Nat) (eps : Nat) (e : Int) : List Nat :=
  buildMat n n (fun i j => Fmt.bf16.rne ((Fmt.fp32.decode (damped n src eps i j)).scale (-e)))

def identity (n : Nat) : List Nat := buildMat n n (fun i j => if i = j then 0x3F80 else 0)

/-- The matrix T of an iteration (R249). -/
def tMat (n p pcode : Nat) (m : List Nat) : List Nat :=
  buildMat n n (fun i j =>
    let a := Fmt.fp32.rne (FVal.ofInt (if i = j then (p : Int) + 1 else 0) 0)
    Fmt.bf16.rne ((Fmt.fp32.decode (f32sub a (toF32 (matAt n m i j)))).scale (-(pcode : Int))))

/-- Apply a matrix `k` times to the panels of another, column by column (R249, R260). -/
def applyTimes (n k : Nat) (t v : List Nat) : List Nat := forUpTo k (fun _ x => matMul n t x) v

/-- One iteration (R249): the upper tiles of the new X and M. -/
def iterate (n pcode : Nat) (x m : List Nat) : List Nat × List Nat :=
  let t := tMat n (2 ^ pcode) pcode m
  (symTiles n (matMul n x t), symTiles n (applyTimes n (2 ^ pcode) t m))

/-- The residual of M (R255). -/
def residual (n : Nat) (m : List Nat) : Nat :=
  let c := n / 128
  let part := fun (i j : Nat) => (List.range 16384).foldl (fun a t =>
    let r := 128 * i + t / 128
    let k := 128 * j + t % 128
    f32add a (sq32f (f32sub (toF32 (matAt n m r k)) (if r = k then f32one else 0)))) 0
  let q := (List.range c).foldl (fun q j => (List.range (j + 1)).foldl (fun q i =>
    f32add q (if i = j then part i j else f32mul 0x40000000 (part i j))) q) 0
  f32sqrt (f32div q (Fmt.fp32.rne (FVal.ofInt n 0)))

/-- The structure signature (R258). -/
def rootSig (d h : List Byte) : Nat :=
  let w0 := rtD d h * 2 ^ 32 ||| rtN d h * 2 ^ 16 ||| rtB d h / 128 * 2 ^ 8 ||| 2 ^ 4 ||| b2n (rtRaw d) * 8 ||| rtCode d
  let w1 := leAt d 54 2 * 2 ^ 32 ||| leAt d 56 2 * 2 ^ 16 ||| rtQ d
  (mix (mix 0x4A42445F524F4F54#64 (BitVec.ofNat 64 w0)) (BitVec.ofNat 64 w1)).toNat

/-! ### Workspace, checkpoints and vat area (R263, R265 to R267) -/

def upperCount (n : Nat) : Nat := n / 128 * (n / 128 + 1) / 2

/-- A matrix packed as its upper tiles (R249, R265). -/
def packUpper (n : Nat) (l : List Nat) : List Byte :=
  (upperTiles (n / 128)).flatMap (fun t => (List.range 16384).flatMap (fun k => leBytes 2 (matAt n l (128 * t.1 + k / 128) (128 * t.2 + k % 128))))

/-- A matrix read back from its upper tiles at `a`. -/
def State.unpackUpper (s : State) (a n : Nat) : List Nat :=
  symTiles n (buildMat n n (fun i j =>
    if i / 128 ≤ j / 128 then s.le (a + tileIndex (n / 128) (i / 128) (j / 128) * 32768 + (i % 128 * 128 + j % 128) * 2) 2 else 0))

/-- Where slot `k` of a job lies: in the workspace at `w`, or with CKPT_VAT at the end of the vat area. -/
def slotAt (d : List Byte) (n w b k : Nat) : Nat :=
  if rtVat d then vatAt b + leAt d 62 1 * 65536 + 3 * packSize n + 256 * n + k % 2 * (2 * packSize n) else w + 4096 + k % 2 * (2 * packSize n)

/-- The workspaces that a job writes: its own, and its duplicate's (R272). -/
def jobPlaces (d : List Byte) (j : RootJob) : List (Nat × Nat) :=
  (rtWork d, j.blocks.headD 0) :: (if j.dupBlocks.isEmpty then [] else [(rtWork d + workSize d j.n, j.dupBlocks.headD 0)])

/-- A slot header (R266). -/
def slotHeader (valid : Bool) (k res sig : Nat) : List Byte := leBytes 4 (b2n valid) ++ leBytes 4 k ++ leBytes 4 res ++ leBytes 4 0 ++ leBytes 8 sig ++ leBytes 40 0

def State.slotValid (s : State) (w k : Nat) : Bool := bitOf (s.le (w + 64 + 64 * (k % 2)) 1) 0
def State.slotK (s : State) (w k : Nat) : Nat := s.le (w + 68 + 64 * (k % 2)) 4
def State.slotRes (s : State) (w k : Nat) : Nat := s.le (w + 72 + 64 * (k % 2)) 4

/-- The newest valid slot (R266); 255 for none. -/
def State.newestSlot (s : State) (w : Nat) : Nat :=
  match s.slotValid w 0, s.slotValid w 1 with
  | true, true => if s.slotK w 0 < s.slotK w 1 then 1 else 0
  | true, false => 0
  | false, true => 1
  | false, false => 255

/-- The valid slot of the lower residual (R256), of two equal ones the older; 255 for none. -/
def State.bestSlot (s : State) (w : Nat) : Nat :=
  match s.slotValid w 0, s.slotValid w 1 with
  | true, true =>
    if f32lt (s.slotRes w 0) (s.slotRes w 1) then 0 else if f32lt (s.slotRes w 1) (s.slotRes w 0) then 1
    else if s.slotK w 0 < s.slotK w 1 then 0 else 1
  | true, false => 0
  | false, true => 1
  | false, false => 255

/-- Write the job record (R266). -/
def State.putJobRecord (s : State) (d : List Byte) (j : RootJob) (st : Nat) : State :=
  (jobPlaces d j).foldl (fun (t : State) (w : Nat × Nat) =>
    t.put w.1 (leBytes 1 st ++ leBytes 1 (t.newestSlot w.1) ++ leBytes 1 (t.bestSlot w.1) ++ leBytes 1 j.kind ++ leBytes 4 j.k ++ leBytes 4 j.eps ++
      leBytes 4 j.lam ++ leBytes 8 j.sig ++ leBytes 8 j.fver ++ leBytes 1 (toBits 8 j.exp) ++ leBytes 31 0)) s

/-- M_0 is written to slot 0 (R265); X_0 is not stored. -/
def State.putStart (s : State) (d : List Byte) (j : RootJob) : State :=
  (jobPlaces d j).foldl (fun (t : State) (w : Nat × Nat) =>
    (t.put (w.1 + 64) (slotHeader false 0 0 0)).put (slotAt d j.n w.1 w.2 0 + packSize j.n) (packUpper j.n j.m)) s

/-- Write slot `k` (R265, R267): valid is cleared, the tiles are written, and the header makes it a checkpoint. -/
def State.putSlot (s : State) (d : List Byte) (j : RootJob) (k : Nat) (valid : Bool) : State :=
  (jobPlaces d j).foldl (fun (t : State) (w : Nat × Nat) =>
    let t1 := t.put (w.1 + 64 + 64 * (k % 2)) (slotHeader false 0 0 0)
    let t2 := (t1.put (slotAt d j.n w.1 w.2 k) (packUpper j.n j.x)).put (slotAt d j.n w.1 w.2 k + packSize j.n) (packUpper j.n j.m)
    if valid then t2.put (w.1 + 64 + 64 * (k % 2)) (slotHeader true j.k j.res j.sig) else t2) s

/-- The working areas whose layout the manual does not give take free values: the vat area of a block-local job (R263), the panel buffers of a
region-sharded one (R265). -/
def State.scratch (s : State) (d : List Byte) (j : RootJob) : State :=
  (jobPlaces d j).foldl (fun (t : State) (w : Nat × Nat) =>
    let n := if rtRegion d then 8192 * j.n else 3 * packSize j.n + 256 * j.n
    let f := t.takeFree (8 * n)
    f.2.put (if rtRegion d then w.1 + 4096 + 4 * packSize j.n else vatAt w.2 + leAt d 62 1 * 65536) (leBytes n f.1)) s

/-! ### Registers (R279) -/

/-- The lowest block of a job, where its counts advance, and those of the job and of its duplicate. -/
def RootJob.low (j : RootJob) : Nat := j.blocks.headD 0
def RootJob.lows (j : RootJob) : List Nat := j.low :: j.dupBlocks.take 1

/-- Count an event of a job at its sequencer and at its duplicate's. -/
def State.countRoot (s : State) (j : RootJob) (f : State → Nat → State) : State := j.lows.foldl f s

/-- Show a job in its blocks: phase 0 when it has ended. -/
def State.showRoot (s : State) (d : List Byte) (j : RootJob) (phase : Nat) : State :=
  (j.blocks ++ j.dupBlocks).foldl (fun (t : State) (b : Nat) =>
    let t1 := ((t.setFld (MFU_STATUS_busy b) (b2n (phase != 0))).setFld (MFU_STATUS_phase b) phase).setFld (MFU_STATUS_region_job b)
      (b2n (rtRegion d && phase != 0))
    let t2 := (t1.setFld (MFU_STATUS_context b) (dContext d)).setFld (MFU_STATUS_iteration b) j.k
    (t2.setFld (MFU_SIG_LO_sig_lo b) (j.sig % 2 ^ 32)).setFld (MFU_SIG_HI_sig_hi b) (j.sig / 2 ^ 32)) s

def State.rootJob (s : State) (e : Nat) : Option RootJob := SMap.find s.rootJobs e
def State.setRoot (s : State) (e : Nat) (j : RootJob) : State := { s with rootJobs := SMap.insert s.rootJobs e j }

/-- A job ends (R275): its registers and counts, and what it stages or completes with. -/
def State.endRoot (s : State) (e : Nat) (j : RootJob) (st : List Status) (err : ErrCode) (fx : List Effect) : State :=
  let d := s.desc e
  let s1 := State.showRoot { s with rootJobs := SMap.erase s.rootJobs e } d j 0
  let s4 := s1.countRoot j (fun (t : State) (b : Nat) =>
    let s2 := t.bump (MFU_COUNT_jobs b)
    let s3 := (s2.setFlagIf (st.contains .range) (MFU_STATUS_range_end b)).bump (MFU_EVENT_range_ends b) (b2n (st.contains .range))
    (s3.setFlagIf (st.contains .late) (MFU_STATUS_late b)).bump (MFU_EVENT_late_ends b) (b2n (st.contains .late)))
  let all := st ++ (if j.retried then [.faultRetried] else []) ++ (if j.cold then [.coldStart] else []) ++
    (if j.replayed then [.replayed] else []) ++ [.ok]
  if st.contains .faultFailed then (s4.complete e all err j.run j.kept).failGroup (memberOf d)
  else if st.contains .late then (s4.complete e all .blockError j.run j.kept).failGroup (memberOf d)
  else s4.finish e fx all .blockError j.run j.kept

/-- A job that cannot start, or fails before it has begun. -/
def State.rootFail (s : State) (e : Nat) (err : ErrCode) : State := s.failMember e err

/-! ### Publication (R269) -/

/-- The exponent of a tile of R = X × 2^(−e/p) (R269). -/
def tileExpOf (n : Nat) (x : List Nat) (sh : Int) (i j : Nat) : Int :=
  let big := (List.range 16384).foldl (fun a k => max a (matAt n x (128 * i + k / 128) (128 * j + k % 128) % 2 ^ 15)) 0
  match bf big with
  | .fin _ m e => if m = 0 then 0 else (Nat.log2 m : Int) + e + sh
  | _ => 0

/-- A copy of a published root (R268): exponents, then all tiles. -/
def rootBytes (n : Nat) (x : List Nat) (sh : Int) : List Byte :=
  let c := n / 128
  let ex := fun (i j : Nat) => tileExpOf n x sh (min i j) (max i j)
  let code := fun (i j : Nat) => Fmt.bf16.rne ((bf (matAt n x i j)).scale (sh - ex (i / 128) (j / 128)))
  padTo (up4k (c ^ 2)) ((List.range (c * c)).map (fun t => BitVec.ofNat 8 (toBits 8 (ex (t / c) (t % c))))) ++
  (List.range (c * c)).flatMap (fun t => (List.range 16384).flatMap (fun k => leBytes 2 (code (128 * (t / c) + k / 128) (128 * (t % c) + k % 128))))

/-- Whether an unresolved UPDATE has recorded the copy that a publish would write (R326). -/
def State.copyRecorded (s : State) (area q v : Nat) : Bool :=
  s.copies.any (fun c => c.area == area && c.block == q && c.version % 2 == v % 2)

/-- A job is cut short by its deadline (R270): the newest valid slot stands, with state 2, or 3 when it waits to publish. -/
def State.rootLate (s : State) (e : Nat) (j : RootJob) : State :=
  (s.putJobRecord (s.desc e) j (if j.pub.isSome then 3 else 2)).endRoot e j [.late] .none []

/-- Publish slot `k`, or wait (R269, R326); a deadline that has come leaves the committed copy (R270, R278). -/
def State.publish (s : State) (e : Nat) (j : RootJob) (k : Nat) : State :=
  let d := s.desc e
  let q := rtQ d
  let a := rtArea d
  let rec0 := recordAt a q
  let v := s.le rec0 8
  let w := rtWork d
  if dDeadline d ≤ s.tide.ns then s.rootLate e { j with pub := some k }
  else if s.copyRecorded a q (v + 1) then (s.setRoot e { j with pub := some k }).showRoot d j 4
  else
    let x := s.unpackUpper (slotAt d j.n w j.low k) j.n
    let dim := s.le (a + 4) 4
    let blk := s.le (a + 8) 1 * 128
    let s1 := s.put (rootAt a dim blk (v + 1) q) (rootBytes j.n x (-(j.exp / (rtP d : Int))))
    let r := leBytes 8 (v + 1) ++ leBytes 8 j.sig ++ leBytes 8 j.fver ++ leBytes 4 (s.slotK w k) ++ leBytes 4 (s.slotRes w k) ++
      leBytes 1 (toBits 8 j.exp) ++ leBytes 1 (rtCode d) ++ leBytes 1 j.kind ++ leBytes 1 1 ++ leBytes 28 0
    let j1 := { j with kept := s.slotK w k }
    (s1.putJobRecord d j1 4).endRoot e j1 [] .none [.write rec0 r]

/-! ### Starting a job (R257 to R264, R271) -/

/-- The source matrix, symmetric from its upper triangle (R248). -/
def State.ingest (s : State) (d h : List Byte) : List Nat :=
  let n := rtN d h
  let a := if rtRaw d then rtSource d else factorAt (rtSource d) (faD h) (faB h) (faVersion h) (rtQ d)
  buildMat n n (fun i j => s.le (a + 2 * (min i j * n + max i j)) 2)

/-- The scale exponent, or a free value where the manual states none (the estimate is 0 or not finite). -/
def State.scaleOf (s : State) (p : Nat) (v : FVal) : Int × State :=
  match scaleExp p v with
  | some e => (e, s)
  | none =>
    let f := s.takeFree 8
    (sext 8 f.1 / (p : Int) * p, f.2)

/-- Both checkpoint headers are cleared as a job starts. -/
def State.clearSlots (s : State) (d : List Byte) (j : RootJob) : State :=
  (jobPlaces d j).foldl (fun (t : State) (w : Nat × Nat) => t.put (w.1 + 64) (slotHeader false 0 0 0 ++ slotHeader false 0 0 0)) s

/-- A cold start from the scaled source (R253): X_0 = I, M_0 = A, written to slot 0. -/
def State.coldStart (s : State) (d : List Byte) (j : RootJob) : RootJob × State :=
  let a := scaled j.n j.src j.eps j.exp
  let j1 := { j with x := identity j.n, m := a, k := 0, res := residual j.n a, pub := none }
  (j1, ((s.clearSlots d j1).putStart d j1).putJobRecord d j1 1)

/-- Where the committed copy of a job's preconditioner lies (R268). -/
def State.warmAt (s : State) (d : List Byte) : Nat :=
  rootAt (rtArea d) (s.le (rtArea d + 4) 4) (s.le (rtArea d + 8) 1 * 128) (s.le (recordAt (rtArea d) (rtQ d)) 8) (rtQ d)

/-- The root that was last published for a factor block, as X_0 (R260). -/
def State.warmX (s : State) (d : List Byte) (n : Nat) (e : Int) : List Nat :=
  let c := s.warmAt d
  symTiles n (buildMat n n (fun i j =>
    Fmt.bf16.rne ((bf (s.rootCode c (n / 128) i j)).scale (s.tileExp c (n / 128) (i / 128) (j / 128) + e / (rtP d : Int)))))

/-- The start of R259, once the source has been read. -/
def State.startRoot (s : State) (e : Nat) (j : RootJob) : State :=
  let d := s.desc e
  let r := recordAt (rtArea d) (rtQ d)
  let valid := bitOf (s.le (r + 35) 1) 0
  let same := s.le (r + 8) 8 == j.sig
  let lam := estimate j.n j.src j.eps
  let x := s.scaleOf (rtP d) ((Fmt.fp32.decode lam).scale 1)
  let j0 := { j with lam := lam, exp := x.1 }
  let s0 := x.2.scratch d j0
  let fin := fun (j1 : RootJob) (s1 : State) =>
    let c := s1.coldStart d j1
    let forced := j1.kind == 2 || j1.kind == 3
    let s2 := c.2.countRoot j1 (fun (t : State) (b : Nat) =>
      (t.setFlagIf forced (MFU_STATUS_cold_start b)).bump (MFU_COUNT_cold_starts b) (b2n forced))
    (s2.setRoot e c.1).showRoot d c.1 3
  if rtFlag d 5 then fin { j0 with kind := 1 } s0
  else if !valid then fin { j0 with kind := 4 } s0
  else if !same then fin { j0 with kind := 2, cold := true } s0
  else if s.anyPoison (s.warmAt d) (rootSize (j.n / 128)) then (s0.noteHbmRead (s.warmAt d) (rootSize (j.n / 128))).endRoot e j0 [.faultFailed] .memoryFault []
  else
    let x0 := s.warmX d j.n x.1
    let m0 := symTiles j.n (applyTimes j.n (rtP d) x0 (scaled j.n j.src j.eps x.1))
    let r0 := residual j.n m0
    if !f32finite r0 || f32lt f32one r0 then fin { j0 with kind := 3, cold := true } s0
    else
      let j1 := { j0 with kind := 0, x := x0, m := m0, k := 0, res := r0 }
      let s1 := ((s0.clearSlots d j1).putStart d j1).putJobRecord d j1 1
      (s1.setRoot e j1).showRoot d j1 3

/-- Whether a job of the descriptor may resume from its workspace (R271). -/
def State.canResume (s : State) (d h : List Byte) : Bool :=
  let w := rtWork d
  rtFlag d 4 && s.le (w + 16) 8 == rootSig d h && (s.le w 1 == 2 || s.le w 1 == 3) && s.newestSlot w != 255

/-- The placement of a job's duplicate (R272, R548): its own, or the one that dup_roots forces; none where that one is absent or fenced. -/
def State.dupPlace (s : State) (d : List Byte) : List Nat × Bool :=
  if rtFlag d 6 then (s.placement d (leAt d 61 1), false)
  else if (rtRegion d && decide (1 ≤ s.fld HUB_REDUN_CTL_dup_roots)) || (!rtRegion d && s.fld HUB_REDUN_CTL_dup_roots == 2) then
    let b := if rtRegion d then (leAt d 59 1 / 64 ^^^ 1) * 64 else leAt d 59 1 % 64 ^^^ 1
    if s.placementErr d b = .none then (s.placement d b, false) else ([], true)
  else ([], false)

/-- Whether the sequencers of some blocks are free (R264). -/
def State.sequencersFree (s : State) (bs : List Nat) : Bool :=
  s.rootJobs.all (fun p => bs.all (fun b => !(p.2.blocks ++ p.2.dupBlocks).contains b))

/-- The job a ROOT starts with, before it has read anything. -/
def rootInit (d h : List Byte) (blocks dup : List Nat) : RootJob :=
  ⟨blocks, dup, rtN d h, 0, 0, 0, rootSig d h, if rtRaw d then 0 else faVersion h, 0, 0, 0, 0, [], [], [], false, false, false, false, false, false, 0, none⟩

/-- The sequencers that a ROOT needs, those of its duplicate too (R264). -/
def State.rootNeeds (s : State) (d : List Byte) : List Nat := s.placement d (leAt d 59 1) ++ (s.dupPlace d).1

/-- Whether a ROOT waits (R264): its sequencers run a job, a ROOT accepted before it waits for one of them, or one of the same preconditioner area and
factor block is not done. -/
def State.rootWaits (s : State) (e : Nat) (d : List Byte) : Bool :=
  !s.sequencersFree (s.rootNeeds d) || s.earlier e kindRoot (fun z => rtArea z == rtArea d && rtQ z == rtQ d) ||
  s.earlier e kindRoot (fun z => (s.rootNeeds z).any (fun b => (s.rootNeeds d).contains b))

/-- ROOT with its sequencers free: resume, or read the source and start (R246 to R271). -/
def State.beginRoot (s : State) (e : Nat) (h : List Byte) : State :=
  let d := s.desc e
  let dp := s.dupPlace d
  let s0 := (s.bump HUB_REDUN_CTL_dup_unplaced (b2n dp.2)).begun e
  let j := rootInit d h (s.placement d (leAt d 59 1)) dp.1
  let w := rtWork d
  if s.canResume d h then
    let k := s.newestSlot w
    let a := slotAt d j.n w j.low k
    let j1 := { j with
      eps := s.le (w + 8) 4, lam := s.le (w + 12) 4, fver := s.le (w + 24) 8, exp := sext 8 (s.le (w + 32) 1), kind := 5, k := s.slotK w k
      res := s.slotRes w k, kept := s.slotK w k, x := s.unpackUpper a j.n, m := s.unpackUpper (a + packSize j.n) j.n }
    let s1 := s0.scratch d j1
    if s.le w 1 = 3 then
      if j1.dupBlocks.isEmpty then s1.publish e j1 (s.bestSlot w)
      else (s1.setRoot e { j1 with pub := some (s.bestSlot w) }).showRoot d j1 5
    else ((s1.putJobRecord d j1 1).setRoot e j1).showRoot d j1 3
  else
    let src := s.ingest d h
    let j1 := { j with src := src, eps := damping j.n src (leAt d 40 4) (leAt d 44 4) }
    if src.any (fun x => !finBits Fmt.bf16 x) then s0.endRoot e j1 [.range] .none []
    else s0.startRoot e j1

/-- Bytes that a job reads before it iterates: the source. -/
def rootSpan (d h : List Byte) : Nat × Nat :=
  if rtRaw d then (rtSource d, 2 * rtN d h ^ 2) else (factorAt (rtSource d) (faD h) (faB h) (faVersion h) (rtQ d), 2 * rtN d h ^ 2)

/-- The range of a job's slots in HBM, which a resumed job reads; nothing with CKPT_VAT. -/
def slotSpan (d h : List Byte) : Nat × Nat := (rtWork d + 4096, if rtVat d then 0 else 4 * packSize (rtN d h))

/-- ROOT (R273, R274, R264): one whose deadline has come before it starts reads and writes nothing (R270). -/
def execRoot (e : Nat) (s : State) : Host.Outcome State Fault Refusal :=
  let d := s.desc e
  let p := leAt d 59 1
  .next (if !s.fresh e kindRoot then s
    else if !rootBodyOk d then s.rootFail e .badDescriptor
    else if dDeadline d ≤ s.tide.ns then s.lateMember e
    else
      let x := if rtRaw d then ([], .ok, s) else s.load devUnit (rtSource d) 64
      let y := x.2.2.load devUnit (rtArea d) 64
      if x.2.1.join y.2.1 ≠ .ok then y.2.2.rootFail e (x.2.1.join y.2.1).err
      else if !rootHeadOk d x.1 y.1 then y.2.2.rootFail e .badDescriptor
      else if s.placementErr d p ≠ .none then y.2.2.rootFail e (s.placementErr d p)
      else if rtFlag d 6 ∧ s.placementErr d (leAt d 61 1) ≠ .none then y.2.2.rootFail e (s.placementErr d (leAt d 61 1))
      else if s.rootWaits e d then s
      else
        let sp := if s.canResume d x.1 then slotSpan d x.1 else rootSpan d x.1
        let z := y.2.2.load devUnit sp.1 sp.2
        if z.2.1 ≠ .ok then z.2.2.rootFail e z.2.1.err else z.2.2.beginRoot e x.1)

/-! ### The end of an iteration (R254 to R256, R272) -/

/-- Divergence (R256, R254): the first rescales and starts cold, the second ends the job. -/
def State.diverge (s : State) (e : Nat) (j : RootJob) : State :=
  let d := s.desc e
  if j.rescaled then (s.putJobRecord d j 2).endRoot e j [.range] .none []
  else
    let src := if j.src.isEmpty then s.ingest d (s.bytes (rtSource d) 64) else j.src
    let x := s.scaleOf (rtP d) (Fmt.fp32.decode (frobenius j.n src j.eps))
    let c := x.2.coldStart d { j with src := src, exp := x.1, rescaled := true }
    let s1 := c.2.countRoot j (fun (t : State) (b : Nat) => (t.setFlag (MFU_STATUS_rescaled b)).bump (MFU_EVENT_rescales b))
    (s1.setRoot e c.1).showRoot d c.1 3

/-- A mismatch of the duplicate is counted; a second one is flagged too (R272, R279). -/
def State.noteMismatch (s : State) (j : RootJob) : State :=
  s.countRoot j (fun (t : State) (b : Nat) => (t.setFlagIf j.mismatched (MFU_STATUS_dup_mismatch b)).bump (MFU_EVENT_dup_mismatches b))

/-- A job as it runs from its start again (R272, R276): with the source as it was read, or read again where the job no longer holds it. -/
def State.restartJob (s : State) (e : Nat) (j : RootJob) : RootJob :=
  let d := s.desc e
  let h := s.bytes (rtSource d) 64
  let j1 := { rootInit d h j.blocks j.dupBlocks with
    n := j.n, sig := j.sig, eps := j.eps, run := j.run, mismatched := j.mismatched, retried := j.retried, replayed := j.replayed }
  if j.src.isEmpty then { j1 with src := s.ingest d h } else { j1 with src := j.src, fver := j.fver }

/-- The runs are compared before they publish (R272); then the slot is published. -/
def State.comparePublish (s : State) (e : Nat) (j : RootJob) (k : Nat) (differs : Bool) : State :=
  if j.dupBlocks.isEmpty || !differs then s.publish e j k
  else if j.mismatched then ((s.noteMismatch j).putJobRecord (s.desc e) j 2).endRoot e j [.faultFailed] .blockError []
  else (s.noteMismatch j).startRoot e { s.restartJob e j with mismatched := true }

/-- Publish the slot of the lower residual if it is acceptable, else end with RANGE (R256). -/
def State.publishBest (s : State) (e : Nat) (j : RootJob) (differs : Bool) : State :=
  let d := s.desc e
  let b := s.bestSlot (rtWork d)
  if b != 255 && f32le (s.slotRes (rtWork d) b) (rtAccept d) then s.comparePublish e j b differs
  else (s.putJobRecord d j 2).endRoot e j [.range] .none []

/-- The tile of the packed upper triangle that holds tile (i, j) of a symmetric matrix. -/
def packedTile (n i j : Nat) : Nat := tileIndex (n / 128) (min i j) (max i j)

/-- One pass over the column chunks of a packed matrix at `a` (R262): each chunk is read from HBM once, over the crossbar of its region. -/
def State.streamMatrix (s : State) (a n : Nat) : State :=
  let c := n / 128
  forUpTo (c * c) (fun t st => st.noteHbmRead (a + packedTile n (t % c) (t / c) * 32768) 32768) s

/-- The reads of an iteration of a region-sharded job (R262, R249): in each round of the B blocks, X once and M p times, from the slot that holds
them; a block-local job reads its vat. -/
def State.streamSlots (s : State) (d : List Byte) (j : RootJob) : State :=
  if !rtRegion d then s
  else
    let b := max 1 j.blocks.length
    (jobPlaces d j).foldl (fun (t : State) (w : Nat × Nat) =>
      let a := slotAt d j.n w.1 w.2 j.k
      forUpTo (ceilDiv (j.n / 128) b) (fun _ u =>
        forUpTo (rtP d) (fun _ v => v.streamMatrix (a + packSize j.n) j.n)
          (if j.k = 0 then u else u.streamMatrix a j.n)) t) s

/-- Whether a region-sharded job would stream a poisoned line of its slot (R262, R520). -/
def State.slotPoisoned (s : State) (d : List Byte) (j : RootJob) : Bool :=
  rtRegion d && (jobPlaces d j).any (fun w =>
    let a := slotAt d j.n w.1 w.2 j.k
    s.anyPoison (a + packSize j.n) (packSize j.n) || (j.k != 0 && s.anyPoison a (packSize j.n)))

/-- Show the residual of an iteration (R279). -/
def State.showResidual (s : State) (j : RootJob) : State :=
  (j.blocks ++ j.dupBlocks).foldl (fun (t : State) (b : Nat) => t.setFld (MFU_RESIDUAL_residual b) j.res) s

/-- Iteration k + 1 ends (R249, R255, R256). -/
def State.endIteration (s : State) (e : Nat) (j : RootJob) (differs : Bool) : State :=
  let d := s.desc e
  let xm := iterate j.n (rtCode d) j.x j.m
  let r := residual j.n xm.2
  let j1 := { j with x := xm.1, m := xm.2, k := j.k + 1, run := j.run + 1, res := r }
  let s0 := (s.streamSlots d j).scratch d j
  let s1 := s0.countRoot j (fun (t : State) (b : Nat) => (t.bump (MFU_ITER_COUNT_iterations b)).count (cntBlock b 28))
  if !f32finite r || f32lt 0x40000000 r then
    let s2 := (if rtRegion d then s1.putSlot d j1 j1.k false else s1).showResidual j1
    if dDeadline d = s.tide.ns then s2.rootLate e { j1 with k := j.k, x := j.x, m := j.m } else s2.diverge e j1
  else
    let j2 := { j1 with kept := j1.k }
    let s2 := ((s1.putSlot d j2 j2.k true).putJobRecord d j2 1).showResidual j2
    if f32le r (rtTol d) then s2.comparePublish e j2 (j2.k % 2) differs
    else if 2 ≤ j2.k && f32le j.res r then s2.publishBest e j2 differs
    else if j2.k = rtKmax d then s2.publishBest e j2 differs
    else (s2.setRoot e j2).showRoot d j2 3

/-- A job that must run from its start again (R276). -/
def State.restartRoot (s : State) (e : Nat) (j : RootJob) : State := s.startRoot e (s.restartJob e j)

/-- Whether a placement of a job has no present block left: all of its blocks, or of its duplicate's, are absent (R21, R261). -/
def State.placeGone (s : State) (d : List Byte) (bs : List Nat) : Bool :=
  !bs.isEmpty && (if rtRegion d then s.presentBlocks (bs.headD 0 / 16) == [] else s.absent (bs.headD 0))

/-- The blocks of a placement as they now are (R261). -/
def State.placeNow (s : State) (d : List Byte) (bs : List Nat) : List Nat :=
  if rtRegion d && !bs.isEmpty then s.presentBlocks (bs.headD 0 / 16) else bs

/-- A job one of whose blocks, or of its duplicate's, has erred goes on (R276): the current iteration runs again from the newest valid slot; with
CKPT_VAT a move to the spare loses the slots, and the job starts again; with no block left it fails (R21). Answers whether the iteration goes on. -/
def State.rootGoesOn (s : State) (e : Nat) (j0 : RootJob) (moved : Bool) : Option RootJob × State :=
  let d := s.desc e
  if s.placeGone d j0.blocks || s.placeGone d j0.dupBlocks then (none, s.endRoot e { j0 with lost := false } [.faultFailed] .blockAbsent [])
  else
    let j := { j0 with lost := false, blocks := s.placeNow d j0.blocks, dupBlocks := s.placeNow d j0.dupBlocks }
    if moved && rtVat d then (none, s.restartRoot e j) else (some j, s.setRoot e j)

/-- ROOT_ITERATION_END (R256): a job whose block has moved first goes on there (R276); an iteration that would end after the deadline is abandoned
(R270), one that streams a poisoned line ends the job (R520); a publish that waits is tried again. -/
def execRootIterationEnd (e : Nat) (differs : Bool) (s : State) : Host.Outcome State Fault Refusal :=
  .next (match s.rootJob e with
    | none => s
    | some j =>
      if dDeadline (s.desc e) < s.tide.ns then s.rootLate e j
      else
        let x := if j.lost then s.rootGoesOn e j true else (some j, s)
        match x.1 with
        | none => x.2
        | some j1 => match j1.pub with
          | some k => x.2.comparePublish e { j1 with pub := none } k differs
          | none =>
            if x.2.slotPoisoned (s.desc e) j1 then (x.2.streamSlots (s.desc e) j1).endRoot e j1 [.faultFailed] .memoryFault []
            else x.2.endIteration e j1 differs)

/-- ROOT_DEADLINE (R270): the deadline of a job that has not started, that iterates, or that waits to publish. -/
def execRootDeadline (e : Nat) (s : State) : Host.Outcome State Fault Refusal :=
  let d := s.desc e
  .next (if !s.doing e kindRoot ∨ !dDeadlineValid d then s
    else match s.rootJob e with
      | some j => (s.atTide (dDeadline d)).rootLate e j
      | none => if s.fresh e kindRoot then (s.atTide (dDeadline d)).lateMember e else s)

/-- What a block error of block `b` does to the job that holds it, for itself or for its duplicate (R276). -/
def State.rootBlockError (s : State) (b : Nat) (moved : Bool) : State :=
  (s.rootJobs.filter (fun p => p.2.blocks.contains b || p.2.dupBlocks.contains b)).foldl (fun (t : State) (p : Nat × RootJob) =>
    (t.rootGoesOn p.1 { p.2 with retried := true } moved).2) s

end Sys2Proof.Machine
end

