-- ==== Sys2Proof/Machine/Reliability.lean ====
section
/-! DEFINITION. Region fences and the journal mirrors (01_architecture.md R22 to R25), and the safety monitor (17_reliability.md R539 to R543,
18_power.md R556). -/

namespace Sys2Proof.Machine

/-! ### BLOCK_ERROR (R22, R276) -/

/-- BLOCK_ERROR (R20 to R22, R25, R276): a block error of block `b`, with the jobs of its sequencer. -/
def execBlockError (b : Fin 64) (executing : Option (Fin 4)) (unit : Fin 16) (s : State) : Host.Outcome State Fault Refusal :=
  let i := b.val
  let arr := unit.val == 1
  .next (if s.absent i then s
    else
      let s1 := if arr then s.setFlag (BLK_ABFT_STATUS_block_error i) else s
      let s2 := s1.blockError i (executing.map (·.val)) unit.val (if arr then (BLK_ABFT_STATUS_block_error i).cause else 0)
      if s.regionFenced (i / 16) then s2 else s2.rootBlockError i (!s2.absent i && s2.phys i != s.phys i))

/-! ### Fencing a region (R23, R25) -/

/-- A window that is open on a unit of a fenced or reset region is lost (R387): its HARVEST fails and the module sends no norm contribution for
its step. -/
def State.loseWindow (s : State) (w : Nat) (err : ErrCode) : State :=
  let x := s.win w
  if x.state = 1 ∨ x.state = 2 then
    let s1 := s.setNorm x.step { s.normOf x.step with lost := true }
    let s2 := if s1.doing x.entry kindReduce then s1.failWith x.entry err else s1
    s2.freeWindow w
  else s

/-- Whether a local address lies in region `r`: in its HBM or in the vat of a block of it. -/
def inRegion (r a : Nat) : Bool :=
  match (placeOf a).1 with
  | .hbm => hbmRegion a == r
  | .vat b _ => b / 16 == r
  | _ => false

/-- A staged UPDATE whose shard lies in region `r` fails, and its group aborts (R349), unless its commit record write has begun. -/
def State.failShards (s : State) (r : Nat) : State :=
  s.groups.foldl (fun (t : State) (p : Nat × Group) =>
    let bad := p.2.members.filter (fun m => dKind (s.desc m.entry) == kindUpdate && inRegion r (leAt (s.desc m.entry) 16 8))
    if bad.isEmpty || (s.recOf p.1).isSome then t
    else
      let t1 := { t with groups := SMap.set groupDefault t.groups p.1 { p.2 with members := p.2.members.filter (fun m => !bad.contains m) } }
      (bad.foldl (fun (u : State) (m : Member) => u.failWith m.entry .regionFenced) t1).abortGroup p.1 []) s

/-- The local address from which an outgoing transfer sends, where its payload comes from memory. -/
def State.txSource (s : State) (x : TxXfer) : Option Nat :=
  match x.owner with
  | .relay => none
  | .gather => x.sheet.map (·.1)
  | .entry e =>
    let d := s.desc e
    if dKind d = kindReduce then (if rMode d = 4 then none else some (leAt d 40 8))
    else if dKind d = kindCopy then (if cpSrcHost d then none else some (gLocal (cpSrc d)))
    else if dKind d = kindStream ∨ dKind d = kindBroadcast ∨ dKind d = kindRingStep then some (leAt d 32 8)
    else none

/-- The transfers out of region `r` stop (R23), and their descriptors fail (R535). -/
def State.endSends (s : State) (r : Nat) : State :=
  (s.tx.filter (fun x => match s.txSource x with
    | some a => inRegion r a
    | none => false)).foldl (fun (t : State) (x : TxXfer) =>
      let t1 := { t with tx := t.tx.erase x }
      match x.owner with
      | .entry e => if dKind (s.desc e) = kindRingStep then t1.failRing e .faultFailed .regionFenced else t1.failWith e .regionFenced
      | _ => t1) s

/-- What the replay rules do with a descriptor that a fence has cut short (R278, R310, R480, R481): one that is honoured as idempotent is accepted
again, any other fails (DEDUCED, notes/assumptions/149.md). -/
def State.fenceReplay (s : State) (e : Nat) : State :=
  if honoured (s.desc e) then { s with work := SMap.set workDefault s.work e Work.none } else s.failMember e .replayUnsafe

/-- A fence of region `r` ends the root jobs that run in it, themselves or their duplicates (R278). -/
def State.fenceRoots (s : State) (r : Nat) : State :=
  (s.rootJobs.filter (fun p => (p.2.blocks ++ p.2.dupBlocks).any (fun b => b / 16 == r))).foldl (fun (t : State) (p : Nat × RootJob) =>
    let t1 := State.showRoot { t with rootJobs := SMap.erase t.rootJobs p.1 } (t.desc p.1) p.2 0
    (t1.countRoot p.2 (fun (u : State) (b : Nat) => u.bump (MFU_COUNT_jobs b))).fenceReplay p.1) s

/-- A fence of region `r` loses the resident system of its solver and ends its SOLVE (R310). -/
def State.fenceSolver (s : State) (r : Nat) : State :=
  let s1 := ((s.setSolver r Solver.zero).setFld (SIS_STATUS_busy r) 0).setFld (SIS_STATUS_phase r) 0
  match s.solveRunning r with
  | some e => s1.fenceReplay e
  | none => s1

/-- A RING_STEP that receives in region `r` fails (R414). -/
def State.failRings (s : State) (r : Nat) : State :=
  (s.ringJobs.filter (fun p => gRecvStream (s.desc p.1) != 0 && (maskBlocks (gMask (s.desc p.1))).any (fun b => b / 16 == r))).foldl
    (fun (t : State) (p : Nat × RingJob) => t.failRing p.1 .faultFailed .regionFenced) s

/-- The descriptors that run in region `r` end (R535): block programs, harvests, transfers out of it and staged UPDATEs of shards in it fail; roots and
the solve follow the replay rules (R278, R310). -/
def State.failRegion (s : State) (r : Nat) : State :=
  let s1 := (s.launches.filter (fun l => l.block / 16 == r)).foldl
    (fun (t : State) (l : Launch) => t.endLaunch l [.faultFailed] .regionFenced) s
  let s4 := (((s1.fenceRoots r).fenceSolver r).endSends r).failRings r
  ((s4.wins.filter (fun p => winR p.1 == r)).foldl (fun (t : State) (p : Nat × Window) => t.loseWindow p.1 .regionFenced) s4).failShards r

/-- A fence of a mirror's region pauses acceptance (R25). -/
def State.mirrorLost (s : State) (r : Nat) : State :=
  if s.fld RNG_JOURNAL_STATUS_mirror_a = r ∨ s.fld RNG_JOURNAL_STATUS_mirror_b = r then
    (s.setFld HUB_MODULE_STATUS_acceptance_paused 1).setFld RNG_JOURNAL_STATUS_single_mirror (b2n (s.mirrorAOk != s.mirrorBOk))
  else s

/-- Show a region as fenced or running (R34, R36). -/
def State.showFence (s : State) (r : Nat) (on : Bool) : State :=
  ((s.setFld (RGN_STATUS_fenced r) (b2n on)).setFld (RGN_STATUS_running r) (b2n (!on))).setFld HUB_MODULE_STATUS_region_fenced
    (putBits (s.fld HUB_MODULE_STATUS_region_fenced) r 1 (b2n on))

/-- Region `r` fences itself (R23): the watches of its counters are freed (R444), its descriptors fail, a mirror in it is lost, and the fence is
recorded. -/
def State.fenceRegion (s : State) (r unit : Nat) : State :=
  if s.regionFenced r then s
  else
    let cut := forUpTo 16 (fun i t => t.cutRun (16 * r + i)) s
    let s1 := (((cut.freeWatches r (fun _ => true)).failRegion r).showFence r true).mirrorLost r
    let s2 := forUpTo 16 (fun i t => t.dropWindow (16 * r + i)) s1
    s2.error ⟨3, 3, unit, r, 0xFF, 0xFFFF, 0, 0, 0xFFFF, 0⟩

/-- REGION_FENCE (R23). -/
def execRegionFence (r : Fin 4) (unit : Fin 16) (s : State) : Host.Outcome State Fault Refusal := .next (s.fenceRegion r.val unit.val)

/-- Acceptance resumes on the pair of mirrors `a` and `b` (R25). -/
def State.resumeOn (s : State) (a b : Nat) : State :=
  let s1 := (s.setFld RNG_JOURNAL_STATUS_mirror_a a).setFld RNG_JOURNAL_STATUS_mirror_b b
  (s1.setFld RNG_JOURNAL_STATUS_single_mirror 0).setFld HUB_MODULE_STATUS_acceptance_paused 0

/-- What a journal rebuilt from the shadows leaves of the descriptors in flight (R548, R473): those it does not hold are lost. -/
def State.keepJournalled (s : State) (j : SMap JEntry) : State :=
  let has := fun e => (SMap.find j e).isSome
  { s with
    mirrorA := j, mirrorB := j
    work := s.work.filter (fun p => has p.1)
    ringQ := s.ringQ.map (fun p => (p.1, p.2.filter has))
    doneQ := s.doneQ.filter (fun d => has d.entry) }

/-- Merdy re-establishes the pair of mirrors from what still holds the journal (R25, R548). -/
def State.remirror (s : State) : State :=
  let a := s.fld RNG_JOURNAL_STATUS_mirror_a
  let b := s.fld RNG_JOURNAL_STATUS_mirror_b
  let run := (List.range 4).filter (fun r => !s.regionFenced r)
  if s.mirrorAOk && s.mirrorBOk then s.resumeOn a b
  else if s.mirrorAOk then
    match run.filter (fun r => r != a) with
    | c :: _ => State.resumeOn { s with mirrorB := s.mirrorA } a c
    | [] => s
  else if s.mirrorBOk then
    match run.filter (fun r => r != b) with
    | c :: _ => State.resumeOn { s with mirrorA := s.mirrorB } c b
    | [] => s
  else
    match run with
    | c :: d :: _ =>
      let s1 := (s.keepJournalled s.shadow).resumeOn c d
      if s.flag HUB_REDUN_CTL_mirror_depth then s1 else s1.newJournal
    | _ => s

/-- JOURNAL_MIRROR_REESTABLISH (R25). -/
def execJournalMirrorReestablish (s : State) : Host.Outcome State Fault Refusal :=
  .next (if s.flag HUB_MODULE_STATUS_acceptance_paused then s.remirror else s)

/-! ### Requests for a warm reset (R609, R612, R620) -/

/-- A warm reset is requested: with one under way it is ignored (R620). -/
def State.requestWarm (s : State) (kind : Nat) : State :=
  if s.warmReq.isSome then s else { s with warmReq := some kind }

/-- Every port is to fence with cause 2 at the next frame boundary (R25, R540). -/
def State.fenceAllPorts (s : State) : State :=
  forUpTo 18 (fun p t => if t.fld (PRT_STATUS_state p) = 3 then t else t.fenceCause p 2) s

/-- A record of the safety monitor (R544). -/
def State.safRec (s : State) (severity region index : Nat) : State := s.error ⟨severity, 4, 0xF, region, index, 0xFFFF, 0, 0, 0xFFFF, 0⟩

/-- A trip is counted with its cause (R552). -/
def State.trip (s : State) (cause index : Nat) : State :=
  ((s.setFld SAF_CAUSE_cause cause).setFld SAF_CAUSE_index index).bump SAF_CAUSE_trips

/-- HUB_FAULT (R25): acceptance stops, all ports fence, and the monitor performs a warm reset. -/
def execHubFault (s : State) : Host.Outcome State Fault Refusal :=
  .next ((((s.setFld HUB_MODULE_STATUS_hub_fault 1).fenceAllPorts.trip 9 0).safRec 3 0xFF 0xFF).requestWarm 5)

/-- HEARTBEAT_TIMEOUT (R543, R550): the monitor resets the management cluster by a warm reset. -/
def execHeartbeatTimeout (s : State) : Host.Outcome State Fault Refusal :=
  .next ((((s.setFld SAF_STATUS_heartbeat_ok 0).trip 7 0).safRec 1 0xFF 0xFF).requestWarm 5)

/-! ### What a warm reset and a shutdown abandon (R540, R612, R640) -/

/-- A bound receive is abandoned: its landed mark is kept for a transfer that is sent again (R67, R387). -/
def RxStream.abandon (r : RxStream) : RxStream :=
  match r.bound with
  | some b => { r with bound := none, queue := [], marks := r.marks ++ [(b.tag, b.mark, false)] }
  | none => { r with queue := [] }

/-- An operation whose descriptor has been abandoned still acts, but completes nothing. -/
def SyncOp.orphan (o : SyncOp) : SyncOp := { o with entry := none }

/-- Operations and messages in flight outlive the descriptors that raised them (R611: counters and watches are kept). -/
def State.orphanSync (s : State) : State :=
  let cut := fun (l : List (SyncMsg × Option Nat)) => l.map (fun m => (m.1, (none : Option Nat)))
  { s with
    sync := s.sync.map (fun (p : Nat × SyncUnit) => (p.1, { p.2 with ops := p.2.ops.map SyncOp.orphan, deferred := p.2.deferred.map SyncOp.orphan }))
    gated := s.gated.map (fun (g : Gated) => { g with op := g.op.orphan })
    syncRaise := cut s.syncRaise
    ports := s.ports.map (fun (p : Nat × PortUnit) => (p.1, { p.2 with
      syncOut := cut p.2.syncOut
      syncSent := p.2.syncSent.map (fun (x : Nat × List (SyncMsg × Option Nat)) => (x.1, cut x.2)) })) }

/-- An open group as the journal rebuilds it (R481): open, with its accepted GROUP_COMMIT, which re-executes, and no member yet. -/
def Group.reopened (x : Group) : Group := { x with members := [], effects := [], limits := [] }

/-- The commit records that stand after a reset (R349): those in both mirrors, their effects all to be made again. -/
def keptRecs (l : List CommitRec) : List CommitRec :=
  (l.filter (fun c => c.done || decide (2 ≤ c.mirrors))).map (fun c => if c.done then c else { c with made := 0 })

/-- Work in flight is abandoned; the journal keeps it for replay. Transfers of descriptors go with them; completions that are not journalled are
lost; open groups lose what they have staged, a commit record in one mirror only is discarded, and the verdict windows of unconfirmed steps are discarded (R481, R611, R640). -/
def State.abandon (s0 : State) : State :=
  let s := s0.orphanSync
  let s1 := { s with
    launches := [], work := [], ringQ := [], commits := keptRecs s.commits
    groups := s.groups.map (fun (p : Nat × Group) => (p.1, p.2.reopened)), ringJobs := [], rootJobs := []
    snaps := []
    doneQ := s.doneQ.filter (fun d => d.journalled)
    tx := s.tx.filter (fun x => match x.owner with
      | .entry _ => false
      | _ => true)
    rx := s.rx.map (fun (p : Nat × RxStream) => (p.1, p.2.abandon))
    verdicts := s.verdicts.filter (fun v => v.phase == 3)
    mapPend := s.mapPend.filter (fun c => c.entry.isNone) }
  let s2 := forUpTo 18 (fun p t => t.showSwap p { t.port p with txStaged := none, rxStaged := none }) s1
  (((s2.showGroups).showRingJobs).setFld UPD_VERDICT_STATUS_state 0).setFld CNT_STATUS_pending 0

/-- Every port stops, as under R87 (R612). -/
def State.stopPorts (s : State) : State := forUpTo 18 (fun p t => if t.portUp p then t.endTransfers p else t) s

/-! ### THERM_ALERT# (R556) -/

/-- Whether a cause of R552 is thermal. -/
def thermalCause (c : Nat) : Bool := c == 3 || c == 4 || c == 5

/-- Show THERM_ALERT# (R556). -/
def State.showAlert (s : State) : State :=
  let hot := (List.range 6).any (fun k =>
    decide (s.fld (SAF_TEMP_throttle k) ≤ s.fld (SAF_TEMP_temp k) + s.fld PWR_THERM_warn_delta))
  s.setFld PWR_STATUS_therm_alert (b2n (hot || s.flag SAF_STATUS_shutdown && thermalCause s.shutCause))

/-! ### The safety monitor (R539 to R541) -/

/-- A protective shutdown (R540, R570): ports and regions fence, work is abandoned, HBM refreshes itself and the compute dies lose their
state. -/
def State.shutdown (s : State) (cause index : Nat) : State :=
  if s.flag SAF_STATUS_shutdown then s
  else
    let open' := (List.range 4).filter (fun r => !s.regionFenced r)
    let s1 := ((s.setFld SAF_STATUS_shutdown 1).trip cause index).fenceAllPorts.abandon
    let s2 := open'.foldl (fun (t : State) (r : Nat) => t.showFence r true) { s1 with shutFenced := open', shutCause := cause }
    let s3 := ((s2.setFld PWR_STATUS_state 0).setFld PWR_STATUS_entering 0).setFld PWR_STATUS_exiting 0
    let s4 := State.loseCompute { s3 with entryTo := 0, wakePend := none, reqPend := 0 }
    (s4.safRec 4 0xFF (if cause = 3 ∨ cause = 5 then index else 0xFF)).showAlert

/-- The monitor's power limits: 2,400 W and 2,350 W for the 1 ms average, 2,880 W for the 20 µs average, in 0.1 W (R539). -/
def State.powerLimits (s : State) (avg peak : Nat) : State :=
  let was := s.flag SAF_STATUS_power_throttle
  let on := if 24000 < avg then true else if avg ≤ 23500 then false else was
  let s1 := (s.setFld SAF_STATUS_power_throttle (b2n on)).bump SAF_COUNT_throttles (b2n (on && !was))
  let s2 := if on && !was then s1.safRec 1 0xFF 0xFF else s1
  if 28800 < peak then
    if s.monStop then s2 else ({ s2 with monStop := true }.trip 1 0).safRec 1 0xFF 0xFF
  else if avg ≤ 24000 then { s2 with monStop := false }
  else s2

/-- MONITOR_POWER_SAMPLE (R539, R552). -/
def execMonitorPowerSample (avg peak volts : BitVec 16) (outFor1ms : Bool) (s : State) : Host.Outcome State Fault Refusal :=
  let s1 := ((s.setFld SAF_POWER_average avg.toNat).setFld SAF_POWER_peak peak.toNat).setFld SAF_INPUT_volts volts.toNat
  let s2 := s1.powerLimits avg.toNat peak.toNat
  .next (if outFor1ms ∧ (volts.toNat < 4000 ∨ 6000 < volts.toNat) then s2.shutdown 2 0 else s2)

/-- Whether the governor acts for temperature (R539): a compute die or a stack at its throttle limit. -/
def State.tooHot (s : State) : Bool :=
  ([0, 1, 2, 3, 5] : List Nat).any (fun k => decide (s.fld (SAF_TEMP_throttle k) ≤ s.fld (SAF_TEMP_temp k)))

/-- A temperature as the monitor reads it (R552): a die, the hub, or the hottest stack. -/
def State.takeTemp (s : State) (sensor : Sensor) (c : Nat) : State :=
  match sensor with
  | .die r => s.setFld (SAF_TEMP_temp r.val) c
  | .hub => s.setFld (SAF_TEMP_temp 4) c
  | .stack k =>
    let m := SMap.set (fun _ => 0) s.stackTemp k.val c
    State.setFld { s with stackTemp := m } (SAF_TEMP_temp 5) ((m.map (·.2)).foldl max 0)

/-- MONITOR_TEMPERATURE (R539, R540, R556): the governor or the hold of acceptance at a throttle limit, a shutdown at a trip limit. -/
def execMonitorTemperature (sensor : Sensor) (celsius : Byte) (s : State) : Host.Outcome State Fault Refusal :=
  let c := celsius.toNat
  let was := s.flag SAF_STATUS_thermal_throttle
  let s1 := s.takeTemp sensor c
  let on := s1.tooHot
  let s2 := (s1.setFld SAF_STATUS_thermal_throttle (b2n on)).bump SAF_COUNT_throttles (b2n (on && !was))
  let s3 := (if on && !was then s2.safRec 1 0xFF 0xFF else s2).showAlert
  .next (match sensor with
    | .die r => if s.fld (SAF_TEMP_trip r.val) ≤ c then s3.shutdown 3 r.val else s3
    | .hub => if s.fld (SAF_TEMP_trip 4) ≤ c then s3.shutdown 4 0 else s3
    | .stack k => if s.fld (SAF_TEMP_trip 5) ≤ c then s3.shutdown 5 k.val else s3)

/-- CLOCK_FAULT (R539, R552): the region is fenced for its clock. -/
def execClockFault (r : Fin 4) (s : State) : Host.Outcome State Fault Refusal :=
  .next (((s.setFld SAF_STATUS_clock_fault (putBits (s.fld SAF_STATUS_clock_fault) r.val 1 1)).trip 6 r.val).fenceRegion r.val 0xF)

/-- Whether the cause of a shutdown has cleared (R541). -/
def State.causeCleared (s : State) : Bool :=
  if thermalCause s.shutCause then
    (List.range 6).all (fun k => decide (s.fld (SAF_TEMP_temp k) + 10 ≤ s.fld (SAF_TEMP_throttle k)))
  else decide (4000 ≤ s.fld SAF_INPUT_volts) && decide (s.fld SAF_INPUT_volts ≤ 6000)

/-- SHUTDOWN_CAUSE_CLEAR (R541): the cause has been clear for 1 s; Merdy requests a warm reset. -/
def execShutdownCauseClear (s : State) : Host.Outcome State Fault Refusal :=
  .next (if s.flag SAF_STATUS_shutdown && s.causeCleared then
      { (s.setFld SAF_STATUS_shutdown 0).showAlert with warmReq := some 7 }
    else s)

end Sys2Proof.Machine
end

