-- ==== Sys2Proof/Machine/Registers.lean ====
section
/-! DEFINITION. Writes of BAR0 registers (00_scope.md R10 to R13, 22_module_interface.md R634): the clamp that each register's rule states, the
access codes, and the operations that a write starts. Requests for a reset (21_reset.md R612 to R614, R620). -/

namespace Sys2Proof.Machine

/-! ### Requests for a reset -/

/-- A cold reset is requested (R621); it overtakes every other (R620). -/
def State.requestCold (s : State) : State := { s with coldReq := true }

/-- Bit `r` of region_reset (R614, R620): only a fenced region is reset, and none during a warm reset. -/
def State.requestRegion (s : State) (r : Nat) : State :=
  if !s.regionFenced r || s.warmReq.isSome || s.fld HUB_BOOT_STATUS_phase == 5 then s.setFlag HUB_RESET_STATUS_region_refused
  else if s.regionReq.contains r then s
  else { s with regionReq := s.regionReq ++ [r] }

/-- A write of region_reset. -/
def State.requestRegions (s : State) (bits : Nat) : State := forUpTo 4 (fun r t => if bitOf bits r then t.requestRegion r else t) s

/-- A write of HUB_RESET_CTL (R621). -/
def State.resetCtlWrite (s : State) (x : Nat) : State :=
  let s1 := s.requestRegions (bitsOf x 2 4)
  let s2 := if bitOf x 0 then s1.requestWarm 3 else s1
  if bitOf x 1 then s2.requestCold else s2

/-- WARM_RESET_REQUEST (R612, R620). -/
def execWarmResetRequest (s : State) : Host.Outcome State Fault Refusal := .next (s.requestWarm 3)

/-- PCIE_FUNCTION_LEVEL_RESET (R609, R613). -/
def execPcieFunctionLevelReset (s : State) : Host.Outcome State Fault Refusal := .next (s.requestWarm 4)

/-- COLD_RESET_REQUEST (R621). -/
def execColdResetRequest (s : State) : Host.Outcome State Fault Refusal := .next s.requestCold

/-- REGION_RESET_REQUEST (R614, R620). -/
def execRegionResetRequest (bits : BitVec 4) (s : State) : Host.Outcome State Fault Refusal := .next (s.requestRegions bits.toNat)

/-! ### Clamps -/

/-- The value that a register stores when field `lo` of the register at `a` is written with `x` (R91, R93, R128, R352, R389, R445, R484, R485, R508,
R528, R551, R554, R571, R597, R608); any other field stores what is written. -/
def clampField (a lo x : Nat) : Nat :=
  if a = TID_OUT_CTL then (if lo = 0 then x else max 1 x)
  else if a = WEB_CTL then (if lo = 8 then max 1 x else x)
  else if a = UPD_NORM_CLIP ∨ a = UPD_NORM_CEILING then (if 0x7F800000 < x then 0x7F800000 else x)
  else if a = HRV_ANCHOR_CTL then
    (if lo = 0 then toBits 8 (clampInt (-8) 16 (sext 8 x)) else clampNat 1 16 x)
  else if a = HRV_STEP_BASE_LO ∨ a = SYN_DUMP_BASE_LO ∨ a = HUB_ERR_BASE_LO ∨ a = HUB_ATTEST_DST_LO then x / 4096 * 4096
  else if a = HRV_STEP_LEN then clampNat 4 16 x
  else if a = SYN_TORUS then max 1 x
  else if a = HUB_ERR_CFG then (if lo = 0 then clampNat 4 16 x else if lo = 8 then min 4 x else x)
  else if a = HUB_REDUN_CTL then (if lo = 1 then min 2 x else x)
  else if a = PWR_CTL then (if lo = 16 then max 1 x else x)
  else if a = PWR_LIMIT then clampNat 600 2400 x
  else if a = PWR_THERM then min 30 x
  else if a = HUB_FW_SRC_LO then x / 64 * 64
  else if a = HUB_ATTEST_NONCE_LO then x / 32 * 32
  else if a = CNT_CTL then max 1 x
  else if 0x200000 ≤ a ∧ a < 0x320000 ∧ a % 0x10000 = 0 then
    (if lo = 0 then (if x = 6 then 7 else x) else max 1 x)
  else if 0x400000 ≤ a ∧ a < 0x800000 ∧ a % 0x40 = 0x10 then (if lo = 0 then clampNat 1 256 x else x)
  else if 0x1000000 ≤ a then
    (let o := a % 0x400000
     if o = 0x5200 then (if lo = 0 then clampNat 1 168 x else max 1 x)
     else if 0x100000 ≤ o ∧ o < 0x200000 ∧ 0x120 ≤ o % 0x10000 ∧ o % 0x10000 < 0x300 ∧ 0x10 ≤ o % 0x20 ∧ lo = 16 then min 4096 x
     else x)
  else x

/-! ### A write by access code (R10, R12) -/

/-- What a write of `x` to the register does to field `f`. -/
def State.writeField (s : State) (f : Fld) (x : Nat) : State :=
  let v := bitsOf x f.lo f.width
  match f.acc with
  | .rw | .rws => s.setFld f (clampField f.addr f.lo v)
  | .lk => if s.cfg.bootLock then s else s.setFld f (clampField f.addr f.lo v)
  | .w1c => if v = 1 then s.setFld f 0 else s
  | .w1s => if v = 1 then s.setFld f 1 else s
  | .ro | .wo => s

/-- A write of the register at `a` by its access codes; an offset that no chapter defines has no field (R634). -/
def State.plainWrite (s : State) (a : Nat) (v : Word) : State :=
  (fieldsAt a).foldl (fun (t : State) (f : Fld) => t.writeField f v.toNat) s

/-! ### Registers whose writes start something -/

/-- A write of TID_CTL (R47, R50, R89): the settings, the choice of root, and an armed epoch. -/
def State.tidCtlWrite (s : State) (v : Word) : State :=
  let x := v.toNat
  let s1 := (((s.setFld TID_CTL_root_enable (bitsOf x 0 1)).setFld TID_CTL_use_ref (bitsOf x 1 1)).setFld TID_CTL_use_pps (bitsOf x 2 1)).setFld
    TID_CTL_root_priority (bitsOf x 8 8)
  let s2 := if s1.flag TID_STATUS_is_root then (s1.setFld TID_ROOT_ID_root_prio (bitsOf x 8 8)).settleRoot else s1.settleRoot
  let s3 := if s2.flag TID_STATUS_is_root then s2.showRate else s2
  if bitOf x 3 then s3.armEpoch else s3

/-- A write of HUB_ERR_CFG (R547): records that waited for enable are written. -/
def State.errCfgWrite (s : State) (v : Word) : State :=
  let s1 := s.plainWrite HUB_ERR_CFG v
  s1.drainErr s1.errBuf.length

/-- A write of HUB_HEARTBEAT (R543): a change shows the heartbeat as present. -/
def State.heartbeatWrite (s : State) (v : Word) : State :=
  let s1 := s.setReg HUB_HEARTBEAT v
  if s.reg HUB_HEARTBEAT = v then s1 else s1.setFld SAF_STATUS_heartbeat_ok 1

/-- A write of PWR_CTL (R560, R571). -/
def State.pwrCtlWrite (s : State) (v : Word) : State :=
  let s1 := s.plainWrite PWR_CTL v
  if bitsOf v.toNat 0 2 = 0 then s1 else s1.request (bitsOf v.toNat 0 2)

/-- A write of PWR_THERM (R556). -/
def State.thermWrite (s : State) (v : Word) : State := (s.plainWrite PWR_THERM v).showAlert

/-- A write of HUB_FW_CMD (R597): 1 stages, 2 aborts, other values are ignored. -/
def State.fwCmdWrite (s : State) (v : Word) : State :=
  if bitsOf v.toNat 0 3 = 1 then s.stageSet else if bitsOf v.toNat 0 3 = 2 then s.abortUpdate else s

/-- A write of PRT_CTL of port `p` (R504, R506, R502, R508). -/
def State.portCtlWrite (s : State) (p : Nat) (v : Word) : State :=
  let x := v.toNat
  let s1 := if bitOf x 0 then s.fenceRequest p else s
  let s2 := if bitOf x 1 then s1.unfencePort p else s1
  let s3 := if bitOf x 2 then s2.retrainPort p else s2
  if bitOf x 3 then s3.sendWake p else s3

/-- A write of MSIX_CTL of vector `v`: the mask bit (R448). -/
def State.maskWrite (s : State) (v : Nat) (x : Word) : State := if bitOf x.toNat 0 then s.setFld (MSIX_CTL_mask v) 1 else s.unmask v

/-- A write to the ring table entry of ring `r`, by its offset in the entry (R454, R484). -/
def State.ringTableWrite (s : State) (r off : Nat) (v : Word) : State :=
  if off < 0xC then s.ringWrite r (off / 4) v
  else if off = 0x1C then s.seqWrite r v
  else s.plainWrite (0x400000 + r * 0x40 + off) v

/-- A write of PAN_DBG_CTL (R156, R160): debug is ignored outside maintenance mode. -/
def State.panCtlWrite (s : State) (b : Nat) (v : Word) : State :=
  let x := v.toNat
  let s1 := if bitOf x 2 then s.setFld (PAN_DBG_CTL_inject_parity b) 1 else s
  if !s.flag HUB_MODULE_STATUS_maintenance_mode then s1
  else if !bitOf x 0 then s1.debugOff b
  else
    let s2 := s1.setFld (PAN_DBG_CTL_debug b) 1
    if s.flag (PAN_DBG_CTL_dbg_active b) then s2 else s2.setBlk b { s2.blk b with dbgPending := true }

/-- A write of word `n` of the raw window (R157, R162). -/
def State.panElemWrite (s : State) (b n : Nat) (v : Word) : State :=
  if s.flag (PAN_DBG_CTL_dbg_active b) then
    let row := s.fld (PAN_DBG_ROW_row b)
    (s.setPanWord b row n ⟨v.toNat, s.flag (PAN_DBG_CTL_inject_parity b), (s.panWord b row n).guard⟩).setFld
      (PAN_DBG_CTL_inject_parity b) 0
  else s

/-- A write of PAN_DBG_FLAGS (R157, R161): the parity flag of the row shown is cleared. -/
def State.panFlagsWrite (s : State) (b : Nat) (v : Word) : State :=
  if s.flag (PAN_DBG_CTL_dbg_active b) && bitOf v.toNat 3 then
    let row := s.fld (PAN_DBG_ROW_row b)
    s.setPanRow b row { s.panRow b row with parityErr := false }
  else s

/-- A write to a register of logical block `b`, by its offset (R127 to R129, R156 to R162). -/
def State.blockWrite (s : State) (b off : Nat) (v : Word) : State :=
  if off = 0x500 then s.panCtlWrite b v
  else if off = 0x508 then s.panFlagsWrite b v
  else if 0x600 ≤ off ∧ off < 0x800 then s.panElemWrite b ((off - 0x600) / 4) v
  else
    let s1 := s.plainWrite (blkBase b + off) v
    if 0x304 ≤ off ∧ off < 0x340 then s1.runDrains b else s1

/-- A write to a hub global register (R12, R35, R445, R546 to R548, R554, R560, R584, R595, R597, R621). -/
def State.hubWrite (s : State) (a : Nat) (v : Word) : State :=
  if a = HUB_MAINT_CTL then s.maintWrite (bitOf v.toNat 0)
  else if 0x7020 ≤ a ∧ a < 0x7030 then s.ctxRangeWrite ((a - 0x7020) / 4) v
  else if a = HUB_ERR_CFG then s.errCfgWrite v
  else if a = HUB_ERR_HEAD then s.errHeadWrite v
  else if a = HUB_REDUN_CTL then s.redunWrite v
  else if a = HUB_HEARTBEAT then s.heartbeatWrite v
  else if a = PWR_CTL then s.pwrCtlWrite v
  else if a = PWR_LIMIT then s.limitsWrite v
  else if a = PWR_THERM then s.thermWrite v
  else if a = HUB_FW_CMD then s.fwCmdWrite v
  else if a = HUB_HEALTH_CONFIRM then s.healthConfirm v
  else if a = HUB_ATTEST_CMD then (if bitOf v.toNat 0 then s.attest else s)
  else if a = HUB_RESET_CTL then s.resetCtlWrite v.toNat
  else s.plainWrite a v

/-- A write to a tide or web register (R60, R87, R89 to R94). -/
def State.tideWrite (s : State) (a : Nat) (v : Word) : State :=
  let x := v.toNat
  if a = TID_CTL then s.tidCtlWrite v
  else if 0x100108 ≤ a ∧ a < 0x100208 ∧ a % 16 = 8 then s.alarmWrite ((a - 0x100108) / 16) v
  else if a = WEB_STREAM_CTL then s.streamReq (bitsOf x 0 16) (bitOf x 16)
  else if 0x101100 ≤ a ∧ a < 0x101100 + 18 * 16 ∧ a % 16 = 0 then s.webCtlWrite ((a - 0x101100) / 16) (bitsOf x 0 1) (bitsOf x 1 1)
  else s.plainWrite a v

/-- A write of the 4-byte register at offset `a` (R10, R634). -/
def State.writeReg (s : State) (a : Nat) (v : Word) : State :=
  if a < 0x100000 then s.hubWrite a v
  else if a < 0x200000 then s.tideWrite a v
  else if 0x200000 ≤ a ∧ a < 0x320000 ∧ a % 0x10000 = 4 then s.portCtlWrite ((a - 0x200000) / 0x10000) v
  else if 0x380000 ≤ a ∧ a < 0x388000 ∧ a % 16 = 12 then s.maskWrite ((a - 0x380000) / 16) v
  else if 0x400000 ≤ a ∧ a < 0x800000 then s.ringTableWrite ((a - 0x400000) / 0x40) (a % 0x40) v
  else if 0x1000000 ≤ a ∧ a < 0x2000000 ∧ 0x100000 ≤ a % 0x400000 ∧ a % 0x400000 < 0x200000 then
    s.blockWrite ((a - 0x1000000) / 0x400000 * 16 + (a % 0x400000 - 0x100000) / 0x10000) (a % 0x10000) v
  else s.plainWrite a v

/-! ### Writes by the host (R565, R634) -/

/-- A 4-byte write of BAR0 by the host; one that is not aligned is discarded and counted (R634). Outside S0 a write that is not answered wakes the module and is discarded; during an entry it is a wake
(R565, R566). -/
def State.hostWriteReg (s : State) (a : Nat) (v : Word) : State :=
  if s.fld PWR_STATUS_state ≠ 0 ∧ answeredAsleep a = false then s.windowAsleep a 4 true
  else if a % 4 = 0 then (s.hostTouch a).writeReg a v
  else (s.hostTouch a).bump HUB_ADDR_COUNT_unmapped_accesses

/-- REGISTER_WRITE (R10, R12, R13, R634, R565). -/
def execRegisterWrite (a : BitVec 26) (v : Word) (s : State) : Host.Outcome State Fault Refusal :=
  .next (s.hostWriteReg a.toNat v)

/-! ### LOW_POWER_PCIE_REQUEST (R565) -/

/-- A write of `data` at a BAR0 offset, as one or two registers, or of a form that R634 discards. -/
def State.bar0Write (s : State) (a : Nat) (data : List Byte) : State :=
  if data.length = 4 ∧ a % 4 = 0 then s.writeReg a (BitVec.ofNat 32 (leNat data))
  else if data.length = 8 ∧ a % 8 = 0 then
    (s.writeReg a (BitVec.ofNat 32 (leNat (data.take 4)))).writeReg (a + 4) (BitVec.ofNat 32 (leNat (data.drop 4)))
  else s.bump HUB_ADDR_COUNT_unmapped_accesses

/-- LOW_POWER_PCIE_REQUEST (R565): a request in S1, S2 or S3. The blocks that R635 names are answered at once, a read as 4 bytes; a doorbell is
recorded (R456); any other request wakes the module, and its write is discarded, its read all ones. -/
def execLowPowerPcieRequest (bar : Fin 5) (off : BitVec 40) (data : Option (List Byte)) (s : State) : Host.Outcome State Fault Refusal :=
  let o := off.toNat
  .next (if s.fld PWR_STATUS_state = 0 then s
    else if bar.val = 0 ∧ answeredAsleep o = true then
      match data with
      | some d => s.bar0Write o d
      | none =>
        let x := s.hostReg (o / 4 * 4)
        { x.2 with out := ⟨leBytes 4 x.1, false, false⟩ }
    else match data with
      | some d => if bar.val = 2 ∧ o < 65536 * 16 then s.doorbell (o / 16) (o % 16) d else (s.wakeBy 4).refuseWindow
      | none => { s.wakeBy 4 with out := ⟨List.replicate 4 0xFF#8, false, false⟩ })

end Sys2Proof.Machine
end

