-- ==== Sys2Proof/Machine/Copy.lean ====
section
/-! DEFINITION. COPY and LAUNCH (14_host_rings.md R465, R467). -/

namespace Sys2Proof.Machine

/-! ### COPY (R465) -/

/-- Whether the destination lies on this module (R511). -/
def State.cpHere (s : State) (d : List Byte) : Bool := !cpDstHost d && gChip (cpDst d) == s.chip

/-- Whether two ranges of `n` bytes overlap. -/
def overlap (a b n : Nat) : Bool := decide (a < b + n) && decide (b < a + n)

/-- The checks of R465: the source is on this module, as a local or a global address, no address names chip 0xFFFF (R511), source and destination do
not overlap, and the stream is no reduction stream. -/
def State.copyOk (s : State) (d : List Byte) : Bool :=
  decide (1 ≤ cpLen d) && decide (cpLen d ≤ 2 ^ 36) && bitsOf (leAt d 43 1) 2 6 == 0 && dZero d 44 63 && decide (cpStream d < 0xC000) &&
  (cpSrcHost d || (gChip (cpSrc d) != 0xFFFF && (gChip (cpSrc d) == 0 || gChip (cpSrc d) == s.chip))) &&
  (cpDstHost d || gChip (cpDst d) != 0xFFFF) &&
  !(if cpSrcHost d then cpDstHost d && overlap (cpSrc d) (cpDst d) (cpLen d)
    else s.cpHere d && overlap (gLocal (cpSrc d)) (gLocal (cpDst d)) (cpLen d))

/-- What the controllers find on the source's lines that are not clean (R519, R520); a line of another memory has no controller. -/
def State.upsetLines (s : State) (a n : Nat) (ups : List (Nat × LineOutcome)) : State :=
  ups.foldl (fun (t : State) (u : Nat × LineOutcome) =>
    let line := (a / 64 + u.1) * 64
    if line < a + n ∧ line < hbmTop ∧ !t.regionFenced (hbmRegion line) then t.lineOutcome (hbmStack line) line false u.2 else t) s

/-- The source of a COPY: its bytes, how the reads end, and the state. -/
def State.copyRead (s : State) (who : Who) (d : List Byte) (ups : List (Nat × LineOutcome)) : List Byte × AccEnd × State :=
  if cpSrcHost d then (s.hostBytes (cpSrc d) (cpLen d), .ok, s)
  else (s.upsetLines (gLocal (cpSrc d)) (cpLen d) ups).load who (gLocal (cpSrc d)) (cpLen d)

/-- The writes of a COPY to this module or to the host. -/
def State.copyWrite (s : State) (who : Who) (d : List Byte) (bs : List Byte) : AccEnd × State :=
  if cpDstHost d then (.ok, s.setHost (cpDst d) bs) else s.busWrite State.writeReg who (gLocal (cpDst d)) bs (bs.length + 1)

/-- Bytes of the source before the first line that reads as poisoned. -/
def State.cleanPrefix (s : State) (d : List Byte) : Nat :=
  let a := gLocal (cpSrc d)
  if hbmTop ≤ a then 0
  else
    match (s.poison.map (·.1)).filter (fun l => decide (a / 64 ≤ l)) with
    | [] => 0
    | l :: ls => min (cpLen d) ((ls.foldl min l) * 64 - a)

/-- A COPY whose reads failed: how much of it was written before is open, so a free number of the bytes before the failure are. -/
def State.copyBroken (s : State) (e : Nat) (who : Who) (d : List Byte) (bs : List Byte) (err : ErrCode) : State :=
  let k := s.takeFree 37
  let n := k.1 % (s.cleanPrefix d + 1)
  (if cpDstHost d ∨ s.cpHere d = true then (k.2.copyWrite who d (bs.take n)).2 else k.2).failWith e err

/-- A COPY to another module starts its transfer: on its stream, or by best-effort DMA where a way leads to the destination. -/
def State.copyRemote (s : State) (e : Nat) (d : List Byte) (bs : List Byte) : State :=
  let hold := leAt d 42 1
  let chip := gChip (cpDst d)
  if cpStream d ≠ 0 then (s.begun e).startTx (TxXfer.new (cpStream d) (dSeq d) hold (.entry e) (cellsOf bs) chip false)
  else if (s.routePort chip e).isNone then s.failWith e .portFenced
  else (s.begun e).startTx { TxXfer.new 0 (e + 1) hold (.entry e) (beCellsOf (cpDst d) bs) chip false with be := true }

/-- A COPY to counters of another module (R418): each 4 bytes at a counter's offset 0 or 4 travel as a sync message, a SET or an ADD; any other
piece is discarded. It completes when the last message has landed at the first hop. -/
def State.copyCounters (s : State) (e : Nat) (d : List Byte) (bs : List Byte) : State :=
  let a := gLocal (cpDst d)
  let k := if a % 4 = 0 ∧ cpLen d % 4 = 0 then cpLen d / 4 else 0
  if k = 0 then s.okWith e (cpLen d)
  else forUpTo k (fun i t =>
    let x := a + 4 * i - counterBase
    t.raise (gChip (cpDst d)) (x / 8 % 65536) (if x % 8 = 0 then 1 else 0) (leAt bs (4 * i) 4) (s.entryOrigin e)
      (if i + 1 = k then some e else none) none) (s.begun e)

/-- Whether a COPY leads to counters of another module. -/
def State.cpCounters (s : State) (d : List Byte) : Bool :=
  !cpDstHost d && !s.cpHere d && (match (placeOf (gLocal (cpDst d))).1 with
    | .counter _ _ => decide (cpLen d ≤ (placeOf (gLocal (cpDst d))).2)
    | _ => false)

/-- Whether a COPY makes requests of the host (R534). -/
def cpUsesHost (d : List Byte) : Bool := cpSrcHost d || cpDstHost d

/-- The pan rows of a COPY that it has to wait for (R153): of its source, else of its destination. -/
def State.copyWaits (s : State) (e : Nat) (d : List Byte) : Option (Nat × Nat × Nat) :=
  match if cpSrcHost d then none else s.entryHeld e (gLocal (cpSrc d)) (cpLen d) with
  | some x => some x
  | none => if s.cpHere d then s.entryHeld e (gLocal (cpDst d)) (cpLen d) else none

/-- COPY (R465, R426, R418, R511 to R513, R519, R520, R534). One that needs the endpoint waits while that has stopped. -/
def execCopy (e : Nat) (upsets : List (Nat × LineOutcome)) (badTlp : Bool) (s : State) : Host.Outcome State Fault Refusal :=
  let d := s.desc e
  let who := Who.unit (srcRing (s.jget e).ring)
  .next (if !s.fresh e kindCopy then s
    else if !s.copyOk d then s.bad e
    else if cpUsesHost d && s.tlpStop then s
    else if cpUsesHost d && badTlp then s.tlpFault
    else match s.copyWaits e d with
    | some x => s.waitPan e x
    | none =>
      let x := s.copyRead who d upsets
      if x.2.1 ≠ .ok then x.2.2.copyBroken e who d x.1 x.2.1.err
      else if cpDstHost d ∨ s.cpHere d = true then
        let w := x.2.2.copyWrite who d x.1
        if w.1 = .ok then w.2.okWith e (cpLen d) else w.2.failWith e w.1.err
      else if s.cpCounters d then x.2.2.copyCounters e d x.1
      else x.2.2.copyRemote e d x.1)

/-! ### LAUNCH (R467) -/

def lnAddr (d : List Byte) : Nat := leAt d 16 8
def lnLen (d : List Byte) : Nat := leAt d 24 4
def lnBlock (d : List Byte) : Nat := leAt d 32 1

/-- The checks of R467: an aligned program that lies in HBM or in one vat. -/
def launchOk (d : List Byte) : Bool :=
  isLocal (lnAddr d) && lnAddr d % 64 == 0 && decide (1 ≤ lnLen d) && decide (lnLen d ≤ 16777216) && decide (lnBlock d < 64) && dZero d 33 63 &&
  (match (placeOf (lnAddr d)).1 with
    | .hbm => decide (lnAddr d + 16 * lnLen d ≤ hbmTop)
    | .vat _ _ => decide (16 * lnLen d ≤ (placeOf (lnAddr d)).2)
    | _ => false)

/-- LAUNCH (R467, R21, R23): the program waits for its context on the block; a block that is absent or in a fenced region fails it. -/
def execLaunch (e : Nat) (s : State) : Host.Outcome State Fault Refusal :=
  let d := s.desc e
  let b := lnBlock d
  .next (if !s.fresh e kindLaunch then s
    else if !launchOk d then s.bad e
    else if s.placeErr b ≠ .none then s.failWith e (s.placeErr b)
    else
      let s1 := s.begun e
      { s1 with launches := s1.launches ++ [⟨e, b, dContext d, lnAddr d, lnLen d, leAt d 28 4, 0, 0, 0, 0, s1.tieCounts b, [], false, false, none⟩] })

end Sys2Proof.Machine
end

