-- ==== Sys2Proof/Machine/Configure.lean ====
section
/-! DEFINITION. Configuration entries, CONFIG and the board record's entries (19_firmware.md R588 to R592). -/

namespace Sys2Proof.Machine

/-- What an entry comes to: its result (R590), the value in force after it, and the state. -/
structure Applied where
  result : Nat
  value : Nat
  state : State

/-! ### Register fields (R591) -/

/-- Whether a register lies in an area that entries may write. -/
def cfgArea (a : Nat) : Bool :=
  a % 4 == 0 && (decide (a < 0xC000) || (decide (0x100000 ≤ a) && decide (a < 0x320000)) || (decide (0x1000000 ≤ a) && decide (a < 0x2000000)))

/-- Fields that hold a two's-complement number (R44, R389). -/
def signedField (f : Fld) : Bool := (f.addr == HRV_ANCHOR_CTL && f.lo == 0) || (decide (TID_PORT_ASYM 0 ≤ f.addr) && decide (f.addr < TID_PORT_ASYM 18))

/-- Whether an entry may write a field of this access. -/
def State.cfgAccess (s : State) (f : Fld) : Bool := f.acc == .rw || f.acc == .rws || (f.acc == .lk && !s.cfg.bootLock)

/-- The field that an entry names. -/
def State.cfgField (s : State) (id a : Nat) : Option Fld :=
  if cfgArea a then (fieldsAt a).find? (fun f => f.width == bitsOf id 8 5 + 1 && f.lo == bitsOf id 0 5 && bitsOf id 13 2 == 0 && s.cfgAccess f)
  else none

/-- The nearest value that a field can represent, as its pattern, and whether it is the one asked for. -/
def fitField (f : Fld) (v : Nat) : Nat × Bool :=
  if signedField f then
    let x := clampInt (-(2 ^ (f.width - 1) : Nat)) ((2 ^ (f.width - 1) : Nat) - 1) (sext 64 v)
    (toBits f.width x, x == sext 64 v)
  else (min v (2 ^ f.width - 1), decide (v < 2 ^ f.width))

/-- The word that writes field `f` with `x` and every other writable field as it stands; flags and requests are written with 0. -/
def State.cfgWord (s : State) (f : Fld) (x : Nat) : Word :=
  BitVec.ofNat 32 ((fieldsAt f.addr).foldl (fun acc g =>
    if g.acc = .rw ∨ g.acc = .rws ∨ g.acc = .lk then acc + (if g.lo = f.lo then x else s.fld g) * 2 ^ g.lo else acc) 0)

/-- The value of a field in force: the BAR4 window base is stored as written (R485). -/
def State.inForce (s : State) (f : Fld) : Nat :=
  if f.addr = RNG_WINDOW_BASE_LO ∨ f.addr = RNG_WINDOW_BASE_HI then s.fld f else s.viewFld f

/-- A register field is written (R591): applied, clamped, or ignored by its register's rule. An alarm that fires as it is armed has been
armed (R60). -/
def State.applyField (s : State) (f : Fld) (v : Nat) : Applied :=
  let x := fitField f v
  let t := s.writeReg f.addr (s.cfgWord f x.1)
  let got := t.inForce f
  let want := clampField f.addr f.lo x.1
  let alarm := decide (TID_ALARM_CTL 0 ≤ f.addr) && decide (f.addr < TID_ALARM_CTL 16)
  ⟨if got = x.1 ∧ x.2 = true then 0 else if got = want then 1 else if alarm then 0 else 4,
   if signedField f then toBits 64 (sext f.width got) else got, t⟩

/-! ### Device fields (R592) -/

/-- The chip ID is set (R616): ports that are down begin to train. -/
def State.setChip (s : State) (c : Nat) : State :=
  let s1 := { s with cfg := { s.cfg with chip := c } }
  let s2 := if s1.flag TID_STATUS_is_root then s1.setFld TID_ROOT_ID_root_chip c else s1
  forUpTo 18 (fun p t => if t.fld (PRT_STATUS_state p) = 0 then t.startTraining p else t) s2

/-- The regions that hold the journal's mirrors change: both hold what the journal holds (R25, R592). -/
def State.setMirrors (s : State) (a b : Nat) : State := State.resumeOn { s with mirrorA := s.journal, mirrorB := s.journal } a b

/-- The value in force of the mirror field. -/
def State.mirrorField (s : State) : Nat := s.fld RNG_JOURNAL_STATUS_mirror_a + 4 * s.fld RNG_JOURNAL_STATUS_mirror_b

/-- A device field. -/
def State.applyDevice (s : State) (id v : Nat) : Applied :=
  let c := s.cfg
  if id = 1 then ⟨0, v, { s with cfg := { c with seed := BitVec.ofNat 64 v } }⟩
  else if id = 2 then
    if hbmTop ≤ v then ⟨4, c.shAddr, s⟩
    else ⟨if v % 32 = 0 then 0 else 1, v / 32 * 32, { s with cfg := { c with shAddr := v / 32 * 32 }, restartDue := true }⟩
  else if id = 3 then
    let n := clampNat 1 1048576 v
    ⟨if n = v then 0 else 1, n, { s with cfg := { c with shCount := n }, restartDue := true }⟩
  else if id = 4 then
    if 0xFFFF ≤ v then ⟨4, c.chip, s⟩
    else if (List.range 18).any s.portUp then ⟨3, c.chip, s⟩
    else ⟨0, v, s.setChip v⟩
  else if id = 5 then
    if 16 ≤ v ∨ v % 4 = v / 4 ∨ s.regionFenced (v % 4) = true ∨ s.regionFenced (v / 4) = true then ⟨4, s.mirrorField, s⟩
    else ⟨0, v, s.setMirrors (v % 4) (v / 4)⟩
  else if id = 6 then
    if v = 1 then ⟨0, 1, { s with cfg := { c with bootLock := true } }⟩ else ⟨4, b2n c.bootLock, s⟩
  else
    let k := s.takeFree 64
    ⟨2, k.1, k.2⟩

/-- An entry of 16 bytes is applied (R589 to R592). An unknown field has no value in force: what the report shows is open. -/
def State.applyEntry (s : State) (r : List Byte) : Applied :=
  let id := leAt r 0 2
  let v := leAt r 8 8
  if bitOf id 15 then
    match s.cfgField id (leAt r 4 4) with
    | some f => s.applyField f v
    | none =>
      let k := s.takeFree 64
      ⟨2, k.1, k.2⟩
  else s.applyDevice id v

/-- The record of an entry in the report (R590). -/
def entryReport (r : List Byte) (result value : Nat) : List Byte :=
  r.take 4 ++ leBytes 1 result ++ leBytes 3 0 ++ bytesAt r 8 8 ++ leBytes 8 value

/-- Entries are applied in table order (R590): the report, how many have result 0, and how many have not. -/
def State.applyEntries (s : State) : List (List Byte) → List Byte × Nat × Nat × State
  | [] => ([], 0, 0, s)
  | r :: rs =>
    let x := s.applyEntry r
    let y := State.applyEntries x.state rs
    (entryReport r x.result x.value ++ y.1, (if x.result = 0 then y.2.1 + 1 else y.2.1), (if x.result = 0 then y.2.2.1 else y.2.2.1 + 1), y.2.2.2)

/-! ### CONFIG (R589, R590) -/

def cgTable (d : List Byte) : Nat := leAt d 16 8
def cgCount (d : List Byte) : Nat := leAt d 24 4
def cgReport (d : List Byte) : Nat := leAt d 32 8

/-- The checks of R589. -/
def configOk (d : List Byte) : Bool :=
  isLocal (cgTable d) && decide (1 ≤ cgCount d) && decide (cgCount d ≤ 4096) && dZero d 28 31 && isLocal (cgReport d) && dZero d 40 63

/-- CONFIG (R589 to R592). -/
def execConfig (e : Nat) (s : State) : Host.Outcome State Fault Refusal :=
  let d := s.desc e
  let who := Who.unit (srcRing (s.jget e).ring)
  .next (if !s.fresh e kindConfig then s
    else if !configOk d then s.bad e
    else
      let x := s.load who (cgTable d) (16 * cgCount d)
      if x.2.1 ≠ .ok then x.2.2.failWith e x.2.1.err
      else
        let y := x.2.2.applyEntries (chunksOf 16 (cgCount d) x.1)
        let w := if cgReport d = 0 then (.ok, y.2.2.2) else y.2.2.2.store who (cgReport d) y.1
        if w.1 ≠ .ok then w.2.failWith e w.1.err
        else w.2.complete e (if y.2.2.1 = 0 then [.ok] else [.clamped]) .none y.2.1 y.2.2.1)

end Sys2Proof.Machine
end

