-- ==== Sys2Proof/Machine/Resets.lean ====
section
/-! DEFINITION. Resets and boot (21_reset.md R609 to R621, R640; 19_firmware.md R573 to R575, R581 to R588, R594; 17_reliability.md R536 to R538,
R542), and journal replay (14_host_rings.md R480, R481). -/

namespace Sys2Proof.Machine

/-! ### Cold reset values (R609 to R611) -/

/-- The registers of the safety monitor, which no reset reaches (R609, R610), and the journal generation, which flash keeps (R611). That the counts
of R552 'since cold reset' keep their values too is this model's DESIGN CHOICE where R11 and R552 read otherwise (notes/assumptions/139.md). -/
def keptCold (a : Nat) : Bool := (decide (0x800000 ≤ a) && decide (a < 0xC00000)) || a == RNG_JOURNAL_GEN

/-- The module with every unit at its cold reset value: what outlives it is the flash, the monitor, the host and the pins. -/
def State.coldValues (s : State) (kind : Nat) : State :=
  State.setFld { State.reset with
    pending := s.pending, out := s.out, free := s.free, host := s.host
    regs := s.regs.filter (fun p => keptCold p.1)
    repairA := s.repairA, repairB := s.repairB, flash := s.flash, errHist := s.errHist
    monStop := s.monStop, stackTemp := s.stackTemp, shutCause := s.shutCause, errNew := s.errNew
    brakeLow := s.brakeLow, perstLow := s.perstLow, unpowered := s.unpowered
    tap := s.tap, chain := s.chain, driven := s.driven, i3cAddr := s.i3cAddr, i3cOff := s.i3cOff, i3cRst := s.i3cRst }
    HUB_RESET_STATUS_last_kind kind

/-! ### The image set (R573, R574, R583, R585, R586, R542) -/

/-- What the boot chain leaves: the state, and whether an image set passed both checks. -/
structure Booted where
  ok : Bool
  state : State

/-- Show what the two verifications found (R542, R552). -/
def State.showChecks (s : State) (rom mon : Bool) : State :=
  let s1 := ((s.setFld SAF_FW_rom_pass (b2n rom)).setFld SAF_FW_monitor_pass (b2n mon)).setFld SAF_STATUS_fw_ok (b2n (rom && mon))
  s1.setFld SAF_FW_digest (if mon then leAt (manifestDigest s.imageByte) 0 3 else 0)

/-- Verify the set that boots (R574, R577, R542): either check fails on contents that are not intact. -/
def State.verifySet (s : State) (rom mon : Bool) : Booted := ⟨rom && mon && s.setIntact, s.showChecks (rom && s.setIntact) (mon && s.setIntact)⟩

/-- The reverse delta is applied and the state record returns to 0 (R585, R586). -/
def State.restoreSet (s : State) (cause : Nat) : State :=
  (s.applyReverse.putUpd { s.upd with state := 0, boots := 0, cause := cause }).setFlag HUB_FW_STATUS_fell_back

/-- A fallback (R585): state 5 with its cause, the previous set restored and verified. -/
def State.fallBack (s : State) (rep : BootReport) (cause : Nat) : Booted :=
  let s1 := s.putUpd { s.upd with state := 5, cause := cause }
  (((s1.restoreSet cause).bump HUB_FW_COUNT_fallbacks).setFld HUB_FW_TRIAL_remaining_s 0).verifySet rep.prevRomPass rep.prevMonitorPass

/-- The trial timer starts at 600 s (R583). -/
def State.startTrial (s : State) : State := { s.setFld HUB_FW_TRIAL_remaining_s 600 with trialAt := s.tide.ns }

/-- The loader settles the update state and verifies the set (R574, R583, R585, R586); `due` is the cause of a fallback that has started. -/
def State.bootSet (s0 : State) (rep : BootReport) (cold : Bool) (due : Option Nat) : Booted :=
  let s := (s0.showUpd.setFld HUB_FW_STATUS_busy 0).setFld HUB_FW_STATUS_progress 0
  let u := s.upd
  let pass := rep.romPass && rep.monitorPass && s.setIntact
  match due with
  | some c => s.fallBack rep c
  | none =>
    if u.state = 1 then (s.emptyReverse.putUpd { u with state := 0, cause := 1 }).verifySet rep.romPass rep.monitorPass
    else if u.state = 2 then (s.restoreSet 2).verifySet rep.romPass rep.monitorPass
    else if u.state = 3 then
      if pass then ⟨true, ((s.putUpd { u with state := 4, boots := 1 }).startTrial).showChecks true true⟩
      else (s.showChecks (rep.romPass && s.setIntact) (rep.monitorPass && s.setIntact)).fallBack rep 3
    else if u.state = 4 then
      if 3 ≤ u.boots then s.fallBack rep 5
      else if pass then
        let s1 := (s.putUpd { u with boots := u.boots + 1 }).showChecks true true
        ⟨true, if cold then s1.startTrial else s1⟩
      else (s.showChecks (rep.romPass && s.setIntact) (rep.monitorPass && s.setIntact)).fallBack rep 3
    else if u.state = 5 then
      (((s.restoreSet u.cause).bump HUB_FW_COUNT_fallbacks).setFld HUB_FW_TRIAL_remaining_s 0).verifySet rep.romPass rep.monitorPass
    else s.verifySet rep.romPass rep.monitorPass

/-! ### The board record and the measurement log (R587, R594) -/

/-- The board record in force: the valid copy with the higher sequence number. -/
def State.boardRecord (s : State) (rep : BootReport) : Option (List Byte) :=
  let a := s.flashBytes (boardAt 0) 9421
  let b := s.flashBytes (boardAt 1) 9421
  if rep.board0 ∧ !(rep.board1 && decide (leAt a 0 4 < leAt b 0 4)) then some a else if rep.board1 then some b else none

/-- The board serial, or zeros with board_record_bad (R587). -/
def State.takeBoard (s : State) (rep : BootReport) : State :=
  match s.boardRecord rep with
  | some r => { s.setFld HUB_FW_STATUS_board_record_bad 0 with serial := bytesAt r 12 16 }
  | none => { s.setFld HUB_FW_STATUS_board_record_bad 1 with serial := List.replicate 16 0#8 }

/-- Extend the log (R594). -/
def State.measure (s : State) (type version : Nat) (digest : List Byte) : State :=
  let entry := leBytes 1 s.logEntries.length ++ leBytes 1 type ++ leBytes 2 0 ++ leBytes 4 version ++ padTo 32 digest ++ List.replicate 24 0#8
  { s with logValue := sha3 (s.logValue ++ entry), logEntries := s.logEntries ++ [entry] }

/-- The part of a type in the manifest of the booted set (R577). -/
def State.partOf (s : State) (type : Nat) : List Byte :=
  (((List.range 8).map (partEntry s.imageByte)).find? (fun p => leAt p 0 1 == type)).getD []

/-- The log of a boot (R594): loader, manifest, parts by type, board record. The manual gives the board record no version, and no digest where
none is valid: those are open. -/
def State.measureBoot (s : State) (rep : BootReport) : State :=
  let s1 := State.measure { s with logValue := List.replicate 32 0#8, logEntries := [] } 0 rep.loaderVersion.toNat (leBytes 32 rep.loaderDigest.toNat)
  let s2 := s1.measure 0x0F (manVersion s.imageByte) (manifestDigest s.imageByte)
  let s3 := forUpTo 8 (fun i t => t.measure (i + 1) (leAt (t.partOf (i + 1)) 12 4) (bytesAt (t.partOf (i + 1)) 16 32)) s2
  let v := s3.takeFree 32
  match s.boardRecord rep with
  | some r => v.2.measure 0x10 v.1 (sha3 (r.take 6112))
  | none =>
    let d := v.2.takeFree 256
    d.2.measure 0x10 v.1 (leBytes 32 d.1)

/-- No image set can run (R573, R542, R617): the module holds in maintenance mode, and the monitor notes the firmware check. -/
def State.hold (s : State) : State := (((s.setFld HUB_BOOT_STATUS_phase 7).setFld SAF_STATUS_fw_ok 0).trip 8 0).showMaint

/-- The boot chain of every reset that restarts the management cluster (R573, R574, R587, R594): with a set that passes, the set version is
shown and the log made. -/
def State.bootChain (s : State) (rep : BootReport) (cold : Bool) (due : Option Nat) : Booted :=
  if !rep.loader0 && !rep.loader1 then ⟨false, (s.showChecks false false).hold⟩
  else
    let b := s.bootSet rep cold due
    if !b.ok then ⟨false, b.state.hold⟩
    else
      let v := manVersion b.state.imageByte
      ⟨true, (((b.state.bootCopy.setFld HUB_FW_SET_LO_set_lo v).setFld HUB_FW_SET_HI_set_hi (v / 2 ^ 32)).takeBoard rep).measureBoot rep⟩

/-! ### The repair record at boot (R19, R95, R522, R524, R536, R538) -/

/-- The block map, the quarantined rows and the marked dies of a record take effect; its soft repairs are made permanent (R524). -/
def State.applyRepair (s : State) (c : List Byte) : State :=
  let s1 := forUpTo 64 (fun b t => t.setFld (mapFld b) (leAt c (12 + b) 1)) s
  let rows := (List.range 68).foldl (fun m p =>
    SMap.set qDefault m p ((List.range (leAt c (76 + p) 1 % 4)).map (fun i => leAt c (148 + 3 * p + i) 1))) ([] : SMap (List Nat))
  let soft := ((List.range 256).map (fun i => bytesAt c (376 + 12 * i) 12)).filter (fun x => leAt x 0 1 < 24)
  let s2 := forUpTo 24 (fun k t =>
    (t.setFld (RGN_HBM_STATUS_marked_die (k / 6) (k % 6)) (leAt c (352 + k) 1)).setFld (RGN_HBM_REPAIR_hard_repairs (k / 6) (k % 6))
      (soft.filter (fun x => leAt x 0 1 == k)).length) s1
  { s2 with quarRows := rows, softRep := [], repairPend := !soft.isEmpty }

/-- A failed row test at start-up (R120, R538): the row that explains it is quarantined, or a block error is raised. -/
def State.bootRowTest (s : State) (b : Nat) (row : Option (Fin 132)) : State :=
  let p := s.phys b
  match row with
  | some f =>
    if (s.quarOf p).length < 3 ∧ !(s.quarOf p).contains f.val then
      { s with quarRows := SMap.set qDefault s.quarRows p ((s.quarOf p ++ [f.val]).mergeSort (fun x y => decide (x ≤ y))) }
    else s.blockError b none 1 0
  | none => s.blockError b none 1 0

/-- The record is rebuilt (R538): row tests, a scrub pass of every stack, the record, and an error record of severity 2, whose unit code the
manual does not give. -/
def State.rebuildRepair (s : State) (rep : BootReport) : State :=
  let s1 := rep.rowTests.foldl (fun (t : State) (x : Fin 64 × Option (Fin 132)) => t.bootRowTest x.1.val x.2) s
  let s2 := rep.scrubFinds.foldl (fun (t : State) (x : Fin 24 × Nat × LineOutcome) =>
    t.lineOutcome x.1.val (lineAddr x.1.val x.2.1) true x.2.2) s1
  let s3 := forUpTo 24 (fun k t => State.showScrub { t with
    scrubPass := SMap.modify (fun _ => 0) t.scrubPass k (fun n => n + 1)
    scrubDie := SMap.clearRange t.scrubDie (k * 16) 16
    scrubRow := SMap.clearRange t.scrubRow (rowKey k 0 0 0 0) (2 ^ 48) } (k / 6)) s2
  let u := s3.writeRepair.takeFree 8
  u.2.error ⟨2, 3, u.1, 0xFF, 0xFF, 0xFFFF, 0, 0, 0xFFFF, 0⟩

/-- The repair state of a cold boot (R536, R538), and every block and region as it says. -/
def State.bootRepair (s : State) (rep : BootReport) : State :=
  let a := repairOk s.repairA
  let b := repairOk s.repairB
  let s1 := if a ∧ !(b && decide (leAt s.repairA 0 4 < leAt s.repairB 0 4)) then s.applyRepair s.repairA
    else if b then s.applyRepair s.repairB
    else s.rebuildRepair rep
  forUpTo 4 (fun r t => t.showRegion r) (forUpTo 64 (fun i t => t.programRows i) s1)

/-! ### Cold boot (R588, R615 to R617) -/

/-- The board entries, in record order (R588): those clamped or rejected are counted. -/
def State.applyBoard (s : State) (rep : BootReport) : State :=
  match s.boardRecord rep with
  | none => s
  | some r =>
    let n := min 256 (leAt r 6 2)
    let y := s.applyEntries (chunksOf 16 n (bytesAt r 64 (16 * n)))
    y.2.2.2.bump HUB_FW_COUNT_board_clamped y.2.2.1

/-- Acceptance opens (R615, R612): phase 6, maintenance mode as R30 leaves it; how long the boot took is not the model's. -/
def State.openAcceptance (s : State) : State :=
  let t := s.takeFree 16
  ((t.2.setFld HUB_BOOT_STATUS_phase 6).setFld HUB_BOOT_STATUS_ready_ms t.1).showMaint

/-- The phases of a cold boot (R615 to R617, R473). -/
def State.coldBoot (s : State) (rep : BootReport) : State :=
  let b := s.bootChain rep true none
  if !b.ok then b.state
  else
    let s1 := (b.state.setTrained true).bootRepair rep
    let s2 := forUpTo 4 (fun r t => t.setFld (RGN_STATUS_running r) 1) s1
    (s2.newJournal.applyBoard rep).openAcceptance

/-- COLD_RESET (R609, R620): a cold request is carried out. -/
def execColdReset (rep : BootReport) (s : State) : Host.Outcome State Fault Refusal :=
  .next (if s.coldReq ∧ !s.perstLow ∧ !s.unpowered then (s.coldValues 2).coldBoot rep else s)

/-- POWER_ON (R609, R615): the 48 V input is there; the module boots once PERST# is released. -/
def execPowerOn (rep : BootReport) (s : State) : Host.Outcome State Fault Refusal :=
  let s1 := State.coldValues { s with unpowered := false } 0
  .next (if s.perstLow then s1 else s1.coldBoot rep)

/-- PERST_ASSERT (R609): cold reset values, until PERST# is released. -/
def execPerstAssert (s : State) : Host.Outcome State Fault Refusal := .next (State.coldValues { s with perstLow := true } 1)

/-- PERST_RELEASE (R615): the module boots; the test access port drives no pin (R637). -/
def execPerstRelease (rep : BootReport) (s : State) : Host.Outcome State Fault Refusal :=
  let s1 := { s with perstLow := false, driven := none }
  .next (if s.perstLow ∧ !s.unpowered then s1.coldBoot rep else s1)

/-- INPUT_POWER_LOSS (R627): everything but the flash loses its contents, the monitor and the side interfaces too. -/
def execInputPowerLoss (s : State) : Host.Outcome State Fault Refusal :=
  .next (State.setFld { State.reset with
    pending := s.pending, out := s.out, free := s.free, host := s.host
    regs := s.regs.filter (fun p => p.1 == RNG_JOURNAL_GEN)
    repairA := s.repairA, repairB := s.repairB, flash := s.flash, errHist := s.errHist
    brakeLow := s.brakeLow, perstLow := s.perstLow, unpowered := true } HUB_RESET_STATUS_last_kind 0)

/-! ### Warm reset (R612, R613, R640) -/

/-- What stays of the ports (R612): an up port stops, stays trained and carries slots 0 to 3; one fenced with cause 2 trains (R506). -/
def State.warmPorts (s : State) : State :=
  forUpTo 18 (fun p t =>
    let two := t.fld (PRT_STATUS_state p) == 3 && t.fld (PRT_STATUS_fence_cause p) == 2
    let due := match (t.port p).fencePend with
      | some (c, _) => c == 2
      | none => false
    if two || due then (if t.portUp p then t.endTransfers p else t).startTraining p
    else if t.portUp p then t.setFld (WEB_PORT_STATUS_stopped p) 1
    else t) s.stopPorts

/-- A Function Level Reset or hot reset returns the MSI-X table and its pending bits to their reset values (R613, as PCI Express has it). -/
def State.warmPcie (s : State) (kind : Nat) : State := if kind = 4 then s.clearRegs 0x380000 0x80000 else s

/-- A module in a lower power state comes back to S0 (R559, R561). -/
def State.warmPower (s : State) : State :=
  let k := s.fld PWR_STATUS_state
  let s1 := ((s.setFld PWR_STATUS_state 0).setFld PWR_STATUS_entering 0).setFld PWR_STATUS_exiting 0
  let s2 := { s1 with entryTo := 0, wakePend := none, reqPend := 0 }
  if 2 ≤ k then s2.leaveDeep k else s2

/-- A region that a protective shutdown fenced runs again (R540, R541). -/
def State.reopen (s : State) : State :=
  s.shutFenced.foldl (fun (t : State) (r : Nat) => t.showFence r false) { s with shutFenced := [] }

/-- What a warm reset reaches (R609 to R612, R387, R640). -/
def State.warmValues (s : State) (kind : Nat) : State :=
  let s1 := s.abandon
  let s2 := s1.wins.foldl (fun (t : State) (p : Nat × Window) => t.loseWindow p.1 .windowLost) s1
  let s3 := ((s2.loseCompute.warmPower).warmPorts).warmPcie kind
  let s4 := if kind = 7 then s3.reopen else s3
  ((forUpTo 64 (fun b t => t.programRows b) s4).bump HUB_RESET_STATUS_warm_resets).setFld HUB_RESET_STATUS_last_kind kind

/-- The endpoint issues requests again after a stop of R534: the vectors that wait unmasked are sent. That a reset ends the stop is this model's
DESIGN CHOICE: the manual names no other end. -/
def State.restartEndpoint (s : State) : State :=
  if s.tlpStop then
    forUpTo 2048 (fun v t => if t.flag (pbaFld v) && !t.flag (MSIX_CTL_mask v) then t.msixMessage v else t) { s with tlpStop := false }
  else s

/-- A warm reset of kind `kind` (R612): firmware boots again, and the module waits in phase 5 for the replay. -/
def State.warm (s : State) (rep : BootReport) (kind : Nat) (due : Option Nat) : State :=
  let b := (State.restartEndpoint { s.warmValues kind with warmReq := none, fallDue := none }).bootChain rep false due
  if !b.ok then b.state
  else ((b.state.setFld HUB_BOOT_STATUS_phase 5).setFld RNG_JOURNAL_STATUS_replaying 1).showMaint

/-- Whether a warm reset can happen: the module is powered, out of PERST#, no cold reset overtakes it (R620), and an image set has booted. -/
def State.canWarm (s : State) : Bool := !s.unpowered && !s.perstLow && !s.coldReq && s.fld HUB_BOOT_STATUS_phase != 0

/-- WARM_RESET (R612): a requested warm reset is carried out. -/
def execWarmReset (rep : BootReport) (s : State) : Host.Outcome State Fault Refusal :=
  .next (match s.warmReq with
    | some k => if s.canWarm && !s.flag SAF_STATUS_shutdown then s.warm rep k none else s
    | none => s)

/-- FALLBACK (R585): a fallback that has started is carried out by a warm reset. -/
def execFallback (rep : BootReport) (s : State) : Host.Outcome State Fault Refusal :=
  .next (match s.fallDue with
    | some c => if s.canWarm && !s.flag SAF_STATUS_shutdown then s.warm rep 6 (some c) else s
    | none => s)

/-! ### Region reset (R24, R614) -/

/-- The sync unit of a region as a region reset leaves it (R419, R611): counters 0, watches freed. -/
def State.resetSync (s : State) (r : Nat) : State :=
  let s1 := s.freeWatches r (fun _ => true)
  let left := (s1.frozen.map (fun (f : Frozen) => { f with regions := f.regions.filter (fun q => q != r) })).filter (fun f => !f.regions.isEmpty)
  State.showFrozen { s1 with counters := SMap.clearRange s1.counters (r * 16384) 16384, sync := SMap.erase s1.sync r, frozen := left }

/-- The registers of a region's sync unit and HBM controllers (R609, R610), with nothing watched or deferred. -/
def State.resetRegionRegs (s : State) (r : Nat) : State :=
  ((s.resetFields (rgnBase r) 0x100000).setFld (SYN_RGN_STATUS_watches r) 0).setFld (SYN_RGN_STATUS_deferred r) 0

/-- A journal mirror that was lost with region `r` is rebuilt when the region comes back (R25, R548): from the other mirror, or with both lost from the
shadows. `s` is the state before the reset. -/
def State.refillMirror (t s : State) (r : Nat) : State :=
  let a := decide (s.fld RNG_JOURNAL_STATUS_mirror_a = r) && !s.mirrorAOk
  let b := decide (s.fld RNG_JOURNAL_STATUS_mirror_b = r) && !s.mirrorBOk
  if !a && !b then t
  else if s.mirrorAOk then { t with mirrorB := s.mirrorA }
  else if s.mirrorBOk then { t with mirrorA := s.mirrorB }
  else
    let t1 := t.keepJournalled s.shadow
    if s.flag HUB_REDUN_CTL_mirror_depth then t1 else t1.newJournal

/-- Region `r` is reset (R614, R611): its interfaces train, its command processor loads its image, and it and the HBM controllers take their code from
the booted set (R575), its blocks start from the repair record, and the fence is cleared. -/
def State.resetRegion (s : State) (r : Nat) : State :=
  let s0 := forUpTo 6 (fun c t => t.loadHbmCode (6 * r + c)) (s.loadCode (2 + r) 0)
  let s1 := forUpTo 16 (fun i t => t.loseBlock (16 * r + i)) ((s0.resetSync r).loseUnits r)
  let s2 := (s1.resetRegionRegs r).showFence r false
  let s3 := forUpTo 6 (fun c t => t.setFld (RGN_HBM_STATUS_trained r c) 1) s2
  let s4 := { s3 with
    regionReq := s3.regionReq.filter (fun q => q != r), shutFenced := s3.shutFenced.filter (fun q => q != r)
    retrainDue := s3.retrainDue.filter (fun k => k / 6 != r) }
  ((s4.refillMirror s r).showRegion r).bump HUB_RESET_STATUS_region_resets

/-- REGION_RESET (R614, R620): a requested reset of a fenced region. -/
def execRegionReset (r : Fin 4) (s : State) : Host.Outcome State Fault Refusal :=
  .next (if s.regionReq.contains r.val ∧ s.regionFenced r.val = true ∧ s.warmReq = none ∧ s.canWarm = true then s.resetRegion r.val else s)

/-! ### Journal replay (R480, R481) -/

/-- Entries of the journal in the order of replay: ring by ring, in sequence order. -/
def State.replayOrder (s : State) : List (Nat × JEntry) :=
  let l := s.journal
  let rings := (l.map (fun p => p.2.ring)).dedup
  let age := fun (p : Nat × JEntry) => subMod (s.fld (RNG_SEQ_next_seq p.2.ring)) (dSeq p.2.desc) (2 ^ 32)
  rings.flatMap (fun r => (l.filter (fun p => p.2.ring == r)).mergeSort (fun a b => decide (age b ≤ age a)))

/-- The completion that a commit record owes entry `e` (R349). -/
def State.owedTo (s : State) (e : Nat) : Option Member := (s.commits.flatMap (fun c => c.owed)).find? (fun m => m.entry == e)

/-- Whether a descriptor found started executes again (R481). -/
def replayable (d : List Byte) : Bool :=
  let k := dKind d
  k == kindWait || k == kindWebTable || k == kindSnapshot || (k == kindSignal && leAt d 16 1 == 0 && dGroup d != 0) || kindAlways k

/-- A WAIT gives up the watch it had (R481): a CLAIM's is cancelled, which returns units that it took. -/
def State.dropWait (s : State) (e : Nat) : State :=
  match SMap.find s.waits e with
  | none => s
  | some j =>
    let s1 := { s with waits := SMap.erase s.waits e }
    if j.watch.claim then State.cancel { s1 with gaveUp := s1.gaveUp ++ [j.token] } j.chip j.watch else s1

/-- An entry executes again, dispatched as in normal service (R480). -/
def State.reexecute (s : State) (e ring : Nat) : State :=
  let s1 := (s.dropWait e).bump RNG_REPLAY_COUNT_reexecuted
  { s1 with ringQ := SMap.modify qDefault s1.ringQ ring (fun l => l ++ [e]) }

/-- A started descriptor that may not execute again completes with FAULT_FAILED, and its group aborts (R350, R387, R401, R480, R481). -/
def State.replayFail (s : State) (e : Nat) (d : List Byte) : State :=
  let k := dKind d
  if k = kindReduce ∧ bitsOf (leAt d 16 1) 0 2 = 1 then s.failWith e .windowLost
  else
    let s1 := s.bump RNG_REPLAY_COUNT_unsafe
    if k = kindRingStep then (s1.dropWait e).failRing e .faultFailed .replayUnsafe
    else if k = kindSignal ∧ leAt d 16 1 = 8 then (s1.thawCtx (bitsOf (leAt d 17 1) 1 2)).failWith e .replayUnsafe
    else s1.failMember e .replayUnsafe

/-- Whether entry `e` is the GROUP_BEGIN of a group that stands rebuilt as open (R481). -/
def State.openedBy (s : State) (e : Nat) (d : List Byte) : Bool :=
  dKind d == kindGroupBegin && (match s.groupOf (dGroup d) with
    | some g => g.begin_ == e
    | none => false)

/-- Replay takes up one entry (R480). -/
def State.replayEntry (s : State) (p : Nat × JEntry) : State :=
  let e := p.1
  let j := p.2
  let s1 := { s with replayQ := s.replayQ ++ [e] }
  if j.state = 3 then
    { s1 with doneQ := s1.doneQ ++ [⟨e, .ok, .none, 0, 0, s.tide.ns, true, dSignal j.desc && j.marked⟩] }
  else if s.doneQ.any (fun d => d.entry == e) then s1
  else
    match s.owedTo e with
    | some m => s1.complete e m.status .blockError m.c1 m.c2
    | none =>
      if s.openedBy e j.desc then (s1.bump RNG_REPLAY_COUNT_reexecuted).okWith e
      else if j.state = 1 ∨ replayable j.desc then s1.reexecute e j.ring
      else s1.replayFail e j.desc

/-- The effects of a commit record in both mirrors are made again (R349, R480), and its group is freed. -/
def State.finishCommits (s : State) : State :=
  (s.commits.filter (fun c => !c.done)).foldl (fun (t : State) (c : CommitRec) =>
    ((c.effects.drop c.made).foldl State.makeEffect (t.count (cntHub 17) (c.effects.length - c.made))).freeCommitted c) s

/-- A verdict-bound group that is rebuilt waits for the verdict of its step again (R640). -/
def State.rebindVerdicts (s : State) : State :=
  s.groups.foldl (fun (t : State) (p : Nat × Group) => match p.2.bound with
    | some b => if (t.verdictOf b.1).isSome then t
      else t.putVerdict { Verdict.zero with step := b.1, domain := b.2.1, bound := true, vtide := b.2.2 }
    | none => t) s

/-- Web traffic resumes on a port that was stopped for the reset (R612). -/
def State.resumePorts (s : State) : State :=
  forUpTo 18 (fun p t => if t.portUp p then t.setFld (WEB_PORT_STATUS_stopped p) (t.fld (WEB_PORT_CTL_stop_req p)) else t) s

/-- JOURNAL_REPLAY (R480, R481, R612): every entry is taken up, and acceptance opens. -/
def execJournalReplay (s : State) : Host.Outcome State Fault Refusal :=
  .next (if s.fld HUB_BOOT_STATUS_phase ≠ 5 then s
    else
      let s0 := State.showGroups { s with replayQ := [], doneQ := s.doneQ.filter (fun d => !d.journalled) }
      let s1 := s.replayOrder.foldl State.replayEntry s0.rebindVerdicts
      (s1.finishCommits.resumePorts.setFld RNG_JOURNAL_STATUS_replaying 0).openAcceptance)

end Sys2Proof.Machine
end

