-- ==== Sys2Proof/Machine/Dispatch.lean ====
section
/-! DEFINITION. Dispatch: one arm per command, each a direct call of its meaning. -/

namespace Sys2Proof.Machine

/-- The effect of a command on everything but the queue of commands. -/
def exec (i : Instr) (s : State) : Host.Outcome State Fault Refusal :=
  match i with
  | .registerWrite a v => Sys2Proof.Machine.execRegisterWrite a v s
  | .coldReset rep => Sys2Proof.Machine.execColdReset rep s
  | .powerOn rep => Sys2Proof.Machine.execPowerOn rep s
  | .perstAssert => Sys2Proof.Machine.execPerstAssert s
  | .perstRelease rep => Sys2Proof.Machine.execPerstRelease rep s
  | .inputPowerLoss => Sys2Proof.Machine.execInputPowerLoss s
  | .coldResetRequest => Sys2Proof.Machine.execColdResetRequest s
  | .warmResetRequest => Sys2Proof.Machine.execWarmResetRequest s
  | .pcieFunctionLevelReset => Sys2Proof.Machine.execPcieFunctionLevelReset s
  | .warmReset rep => Sys2Proof.Machine.execWarmReset rep s
  | .regionResetRequest bits => Sys2Proof.Machine.execRegionResetRequest bits s
  | .regionReset r => Sys2Proof.Machine.execRegionReset r s
  | .maintRequest => Sys2Proof.Machine.execMaintRequest s
  | .maintModeEnter => Sys2Proof.Machine.execMaintModeEnter s
  | .maintRelease => Sys2Proof.Machine.execMaintRelease s
  | .contextSwitch b c => Sys2Proof.Machine.execContextSwitch b c s
  | .blockError b executing unit => Sys2Proof.Machine.execBlockError b executing unit s
  | .regionFence r unit => Sys2Proof.Machine.execRegionFence r unit s
  | .journalMirrorReestablish => Sys2Proof.Machine.execJournalMirrorReestablish s
  | .hubFault => Sys2Proof.Machine.execHubFault s
  | .remoteSignalSend => Sys2Proof.Machine.execRemoteSignalSend s
  | .frameBoundary => Sys2Proof.Machine.execFrameBoundary s
  | .tidNowLoRead => Sys2Proof.Machine.execTidNowLoRead s
  | .slotTransmit p slot wrong => Sys2Proof.Machine.execSlotTransmit p slot wrong s
  | .tideCellReceive p cell t4 t4frac => Sys2Proof.Machine.execTideCellReceive p cell t4 t4frac s
  | .epochFollow => Sys2Proof.Machine.execEpochFollow s
  | .rootAnnounceTimeout => Sys2Proof.Machine.execRootAnnounceTimeout s
  | .holdoverEnter => Sys2Proof.Machine.execHoldoverEnter s
  | .holdoverExpiry => Sys2Proof.Machine.execHoldoverExpiry s
  | .tideRefEdge => Sys2Proof.Machine.execTideRefEdge s
  | .tideRefLoss => Sys2Proof.Machine.execTideRefLoss s
  | .tidePpsEdge => Sys2Proof.Machine.execTidePpsEdge s
  | .tidePpsLoss => Sys2Proof.Machine.execTidePpsLoss s
  | .epochArm => Sys2Proof.Machine.execEpochArm s
  | .alarmArm n v => Sys2Proof.Machine.execAlarmArm n v s
  | .alarmFire n => Sys2Proof.Machine.execAlarmFire n s
  | .tideOutRise => Sys2Proof.Machine.execTideOutRise s
  | .tideOutFall => Sys2Proof.Machine.execTideOutFall s
  | .lineBlockReceive p blk => Sys2Proof.Machine.execLineBlockReceive p blk s
  | .dataCellReceive p cell first => Sys2Proof.Machine.execDataCellReceive p cell first s
  | .cellForward p => Sys2Proof.Machine.execCellForward p s
  | .controlCellReceive p cell => Sys2Proof.Machine.execControlCellReceive p cell s
  | .transferRequeue d stream tag => Sys2Proof.Machine.execTransferRequeue d stream tag s
  | .webTable e => Sys2Proof.Machine.execWebTable e s
  | .webTableCancel e => Sys2Proof.Machine.execWebTableCancel e s
  | .bankSwap p d => Sys2Proof.Machine.execBankSwap p d s
  | .streamHold stream => Sys2Proof.Machine.execStreamHold stream s
  | .streamResume stream => Sys2Proof.Machine.execStreamResume stream s
  | .portHoldRequest p on => Sys2Proof.Machine.execPortHoldRequest p on s
  | .portStopRequest p on => Sys2Proof.Machine.execPortStopRequest p on s
  | .portTraining p res => Sys2Proof.Machine.execPortTraining p res s
  | .spareLaneSwitch p => Sys2Proof.Machine.execSpareLaneSwitch p s
  | .portFence p => Sys2Proof.Machine.execPortFence p s
  | .fenceReq p => Sys2Proof.Machine.execFenceReq p s
  | .unfence p => Sys2Proof.Machine.execUnfence p s
  | .retrain p => Sys2Proof.Machine.execRetrain p s
  | .wakePatternSend p => Sys2Proof.Machine.execWakePatternSend p s
  | .wakePatternDetect p => Sys2Proof.Machine.execWakePatternDetect p s
  | .arrStream b c upset => Sys2Proof.Machine.execArrStream b c upset s
  | .instructionReplay b upset => Sys2Proof.Machine.execInstructionReplay b upset s
  | .rowTest b row => Sys2Proof.Machine.execRowTest b row s
  | .blockReinit b => Sys2Proof.Machine.execBlockReinit b s
  | .arrElem b c => Sys2Proof.Machine.execArrElem b c s
  | .step b c => Sys2Proof.Machine.execStep b c s
  | .panDrain b c => Sys2Proof.Machine.execPanDrain b c s
  | .panLoad b c => Sys2Proof.Machine.execPanLoad b c s
  | .panStore b c => Sys2Proof.Machine.execPanStore b c s
  | .panWindowRead b off len => Sys2Proof.Machine.execPanWindowRead b off len s
  | .panWindowWrite b off data => Sys2Proof.Machine.execPanWindowWrite b off data s
  | .panWindowTimeout b => Sys2Proof.Machine.execPanWindowTimeout b s
  | .panDebugRequest b => Sys2Proof.Machine.execPanDebugRequest b s
  | .panDebugEnter b => Sys2Proof.Machine.execPanDebugEnter b s
  | .panDebugExit b => Sys2Proof.Machine.execPanDebugExit b s
  | .injectParity b => Sys2Proof.Machine.execInjectParity b s
  | .panDbgElemWrite b n v => Sys2Proof.Machine.execPanDbgElemWrite b n v s
  | .fabCfg b c => Sys2Proof.Machine.execFabCfg b c s
  | .fabRun b c upset => Sys2Proof.Machine.execFabRun b c upset s
  | .fabLane b c => Sys2Proof.Machine.execFabLane b c s
  | .planeScan b bad restorable => Sys2Proof.Machine.execPlaneScan b bad restorable s
  | .grmTap b c => Sys2Proof.Machine.execGrmTap b c s
  | .gramRowStart b parity => Sys2Proof.Machine.execGramRowStart b parity s
  | .grmDrain b c parity => Sys2Proof.Machine.execGrmDrain b c parity s
  | .stats e upset => Sys2Proof.Machine.execStats e upset s
  | .root e => Sys2Proof.Machine.execRoot e s
  | .rootIterationEnd e differs => Sys2Proof.Machine.execRootIterationEnd e differs s
  | .rootDeadline e => Sys2Proof.Machine.execRootDeadline e s
  | .solverLoad e f upset => Sys2Proof.Machine.execSolverLoad e f upset s
  | .solverUpdate e f upset => Sys2Proof.Machine.execSolverUpdate e f upset s
  | .solverSolve e upset => Sys2Proof.Machine.execSolverSolve e upset s
  | .solveDeadline e done => Sys2Proof.Machine.execSolveDeadline e done s
  | .structureScrub r upset => Sys2Proof.Machine.execStructureScrub r upset s
  | .gatherWiden e => Sys2Proof.Machine.execGatherWiden e s
  | .gatherStart requester shard first count fmt8 stream tag dst hold minVersion => Sys2Proof.Machine.execGatherStart requester shard first count fmt8 stream tag dst hold minVersion s
  | .update e upset => Sys2Proof.Machine.execUpdate e upset s
  | .normRecordLand split => Sys2Proof.Machine.execNormRecordLand split s
  | .verdictCellSend step => Sys2Proof.Machine.execVerdictCellSend step s
  | .verdictCellReceive p cell crcBad => Sys2Proof.Machine.execVerdictCellReceive p cell crcBad s
  | .verdictMissingCell p step => Sys2Proof.Machine.execVerdictMissingCell p step s
  | .verdictConfirm step => Sys2Proof.Machine.execVerdictConfirm step s
  | .verdictQuerySend step => Sys2Proof.Machine.execVerdictQuerySend step s
  | .verdictQueryReceive p step => Sys2Proof.Machine.execVerdictQueryReceive p step s
  | .verdictAnswerReceive p cell rec => Sys2Proof.Machine.execVerdictAnswerReceive p cell rec s
  | .groupBegin e => Sys2Proof.Machine.execGroupBegin e s
  | .groupCommit e => Sys2Proof.Machine.execGroupCommit e s
  | .groupCommitExecute g => Sys2Proof.Machine.execGroupCommitExecute g s
  | .groupAbort e => Sys2Proof.Machine.execGroupAbort e s
  | .groupDeadline g => Sys2Proof.Machine.execGroupDeadline g s
  | .reduceSend e => Sys2Proof.Machine.execReduceSend e s
  | .normSend e => Sys2Proof.Machine.execNormSend e s
  | .reduceHarvest e => Sys2Proof.Machine.execReduceHarvest e s
  | .sluiceReached win => Sys2Proof.Machine.execSluiceReached win s
  | .graceExpiry win => Sys2Proof.Machine.execGraceExpiry win s
  | .windowReadout win badCells => Sys2Proof.Machine.execWindowReadout win badCells s
  | .broadcastSend e => Sys2Proof.Machine.execBroadcastSend e s
  | .broadcastReceive e => Sys2Proof.Machine.execBroadcastReceive e s
  | .broadcastRelay stream => Sys2Proof.Machine.execBroadcastRelay stream s
  | .ownerMap e => Sys2Proof.Machine.execOwnerMap e s
  | .ownerMapRemove e => Sys2Proof.Machine.execOwnerMapRemove e s
  | .mapActivate => Sys2Proof.Machine.execMapActivate s
  | .ringStep e => Sys2Proof.Machine.execRingStep e s
  | .ringStepLandingOpen e => Sys2Proof.Machine.execRingStepLandingOpen e s
  | .ringStepDeadline e => Sys2Proof.Machine.execRingStepDeadline e s
  | .signalAdd e => Sys2Proof.Machine.execSignalAdd e s
  | .signalSet e => Sys2Proof.Machine.execSignalSet e s
  | .signalOr e => Sys2Proof.Machine.execSignalOr e s
  | .signalAndn e => Sys2Proof.Machine.execSignalAndn e s
  | .save e => Sys2Proof.Machine.execSave e s
  | .restore e => Sys2Proof.Machine.execRestore e s
  | .thaw e => Sys2Proof.Machine.execThaw e s
  | .dump e => Sys2Proof.Machine.execDump e s
  | .waitObserve e => Sys2Proof.Machine.execWaitObserve e s
  | .waitClaim e => Sys2Proof.Machine.execWaitClaim e s
  | .waiterDeadline e => Sys2Proof.Machine.execWaiterDeadline e s
  | .synSignal b c => Sys2Proof.Machine.execSynSignal b c s
  | .synWait b c => Sys2Proof.Machine.execSynWait b c s
  | .counterLoad off len src => Sys2Proof.Machine.execCounterLoad off len src s
  | .counterStoreSet n data src => Sys2Proof.Machine.execCounterStoreSet n data src s
  | .counterStoreAdd n data src => Sys2Proof.Machine.execCounterStoreAdd n data src s
  | .counterOperation r => Sys2Proof.Machine.execCounterOperation r s
  | .watchRegister r => Sys2Proof.Machine.execWatchRegister r s
  | .watchCancel r => Sys2Proof.Machine.execWatchCancel r s
  | .fireMessageReceive => Sys2Proof.Machine.execFireMessageReceive s
  | .syncCellReceive p cell => Sys2Proof.Machine.execSyncCellReceive p cell s
  | .syncMessageForward => Sys2Proof.Machine.execSyncMessageForward s
  | .ctxRangeWrite c v => Sys2Proof.Machine.execCtxRangeWrite c v s
  | .descriptorDoorbell r off data => Sys2Proof.Machine.execDescriptorDoorbell r off data s
  | .completionDoorbell r off data => Sys2Proof.Machine.execCompletionDoorbell r off data s
  | .descriptorAccept r fetchOk => Sys2Proof.Machine.execDescriptorAccept r fetchOk s
  | .descriptorDispatch => Sys2Proof.Machine.execDescriptorDispatch s
  | .completionWrite badTlp => Sys2Proof.Machine.execCompletionWrite badTlp s
  | .descriptorRetire e => Sys2Proof.Machine.execDescriptorRetire e s
  | .journalReplay => Sys2Proof.Machine.execJournalReplay s
  | .rngCfgWrite r reg v => Sys2Proof.Machine.execRngCfgWrite r reg v s
  | .ringEnable r v => Sys2Proof.Machine.execRingEnable r v s
  | .ringDisable r v => Sys2Proof.Machine.execRingDisable r v s
  | .rngSeqWrite r v => Sys2Proof.Machine.execRngSeqWrite r v s
  | .refusedClear r => Sys2Proof.Machine.execRefusedClear r s
  | .interruptModeration r => Sys2Proof.Machine.execInterruptModeration r s
  | .msixUnmask v => Sys2Proof.Machine.execMsixUnmask v s
  | .copy e upsets badTlp => Sys2Proof.Machine.execCopy e upsets badTlp s
  | .streamSend e => Sys2Proof.Machine.execStreamSend e s
  | .streamReceive e => Sys2Proof.Machine.execStreamReceive e s
  | .launch e => Sys2Proof.Machine.execLaunch e s
  | .nop e => Sys2Proof.Machine.execNop e s
  | .config e => Sys2Proof.Machine.execConfig e s
  | .snapshot e => Sys2Proof.Machine.execSnapshot e s
  | .snapshotCapture e => Sys2Proof.Machine.execSnapshotCapture e s
  | .cntValueLoRead k who => Sys2Proof.Machine.execCntValueLoRead k who s
  | .counterWrap k n => Sys2Proof.Machine.execCounterWrap k n s
  | .portBwWindowEnd => Sys2Proof.Machine.execPortBwWindowEnd s
  | .bar4WindowRead off len => Sys2Proof.Machine.execBar4WindowRead off len s
  | .bar4WindowWrite off data => Sys2Proof.Machine.execBar4WindowWrite off data s
  | .bar0MisalignedAccess a len write => Sys2Proof.Machine.execBar0MisalignedAccess a len write s
  | .patrolScrub k out => Sys2Proof.Machine.execPatrolScrub k out s
  | .repairRecordWrite => Sys2Proof.Machine.execRepairRecordWrite s
  | .errorCoalesceExpiry => Sys2Proof.Machine.execErrorCoalesceExpiry s
  | .hubErrHeadWrite v => Sys2Proof.Machine.execHubErrHeadWrite v s
  | .abftSampleWrite v => Sys2Proof.Machine.execAbftSampleWrite v s
  | .monitorPowerSample avg peak volts outFor1ms => Sys2Proof.Machine.execMonitorPowerSample avg peak volts outFor1ms s
  | .monitorTemperature sensor celsius => Sys2Proof.Machine.execMonitorTemperature sensor celsius s
  | .clockFault r => Sys2Proof.Machine.execClockFault r s
  | .shutdownCauseClear => Sys2Proof.Machine.execShutdownCauseClear s
  | .heartbeatTimeout => Sys2Proof.Machine.execHeartbeatTimeout s
  | .powerGovernorSample avg peak => Sys2Proof.Machine.execPowerGovernorSample avg peak s
  | .pwrLimitWrite v => Sys2Proof.Machine.execPwrLimitWrite v s
  | .pwrBrakeAssert => Sys2Proof.Machine.execPwrBrakeAssert s
  | .pwrBrakeRelease => Sys2Proof.Machine.execPwrBrakeRelease s
  | .requestS1 => Sys2Proof.Machine.execRequestS1 s
  | .requestS2 => Sys2Proof.Machine.execRequestS2 s
  | .requestS3 => Sys2Proof.Machine.execRequestS3 s
  | .powerEntry abort => Sys2Proof.Machine.execPowerEntry abort s
  | .autoIdle => Sys2Proof.Machine.execAutoIdle s
  | .wake src => Sys2Proof.Machine.execWake src s
  | .powerExit => Sys2Proof.Machine.execPowerExit s
  | .wakeHostRelease => Sys2Proof.Machine.execWakeHostRelease s
  | .lowPowerPcieRequest bar off data => Sys2Proof.Machine.execLowPowerPcieRequest bar off data s
  | .fwStage => Sys2Proof.Machine.execFwStage s
  | .fwAbort => Sys2Proof.Machine.execFwAbort s
  | .healthConfirm code => Sys2Proof.Machine.execHealthConfirm code s
  | .trialExpiry => Sys2Proof.Machine.execTrialExpiry s
  | .fallback rep => Sys2Proof.Machine.execFallback rep s
  | .attestStart => Sys2Proof.Machine.execAttestStart s
  | .i3cMailboxRead offset len => Sys2Proof.Machine.execI3cMailboxRead offset len s
  | .i3cCcc code => Sys2Proof.Machine.execI3cCcc code s
  | .extest pins => Sys2Proof.Machine.execExtest pins s
  | .samplePreload pins => Sys2Proof.Machine.execSamplePreload pins s
  | .bypass tdi => Sys2Proof.Machine.execBypass tdi s
  | .reduceSendDeadline e => Sys2Proof.Machine.execReduceSendDeadline e s
  | .statsDeadline e => Sys2Proof.Machine.execStatsDeadline e s
  | .hbmInterfaceRetraining k on => Sys2Proof.Machine.execHbmInterfaceRetraining k on s
  | .laneCdrLockLoss p lane => Sys2Proof.Machine.execLaneCdrLockLoss p lane s

end Sys2Proof.Machine
end

