-- ==== Sys2Proof/Safety.lean ====
section
/-! DEFINITION. What counts as a well-kept state and a safe run, in the terms the claims use: the memory and register maps keep their
canonical form, and a step ends in a next state. -/

namespace Sys2Proof.Machine

/-- The canonical form of HBM and vat memory. -/
abbrev Memory.wf (s : State) : Bool := SMap.wf memDefault s.mem

/-- The canonical form of host memory as the device reaches it. -/
abbrev Memory.hostWf (s : State) : Bool := SMap.wf memDefault s.host

/-- The canonical form of the register file. -/
abbrev Registers.wf (s : State) : Bool := SMap.wf regReset s.regs

/-- Whether a command completes: it answers a next state. -/
def completes (i : Instr) (s : State) : Prop := ∃ t, exec i s = .next t

/-- The SAF_TEMP register that shows a sensor (R552): the dies, the hub, the hottest stack. -/
def sensorIndex : Sensor → Nat
  | .die r => r.val
  | .hub => 4
  | .stack _ => 5

/-- The completion that waits last to be written is entry `e`'s, with a status and an error code. -/
def EndsAs (t : State) (e : Nat) (st : Status) (err : ErrCode) : Prop :=
  ∃ d, t.doneQ.getLast? = some d ∧ d.entry = e ∧ d.status = st ∧ d.err = err

/-- The block program `l` has issued one instruction more: it goes on, or it has ended and its completion waits last, with the count of R467. -/
def IssuedOne (l : Launch) (t : State) : Prop :=
  (∃ x ∈ t.launches, x.entry = l.entry ∧ x.pc = l.pc + 1 ∧ x.issued = l.issued + 1) ∨
  (∃ d, t.doneQ.getLast? = some d ∧ d.entry = l.entry ∧ d.c1 = (l.issued + 1) % 2 ^ 32)

/-- The sum that an ARR_STREAM leaves in a word or half that held `old` (R100, R184). -/
def accumBits (f : Fmt) (clear : Bool) (old : Nat) (o : Acc) : Nat :=
  (if clear then o else o.step f ((f.decode old).add (f.decode o.bits))).bits

/-- Nothing but registers, and the event counts of their flags, differs between two states. -/
abbrev OnlyRegs (s t : State) : Prop := t = { s with regs := t.regs, evt := t.evt }

/-- Every register but those listed reads as before. -/
abbrev RegsBut (l : List Nat) (s t : State) : Prop := ∀ a, a ∉ l → t.reg a = s.reg a

/-- Every byte of HBM and of the vats reads as before. -/
abbrev MemSame (s t : State) : Prop := ∀ a, t.byte a = s.byte a

end Sys2Proof.Machine
end

