-- ==== Sys2Proof/Certificates/Slice0/Obligations.lean ====
section
/-! DEFINITION. The statements for the provers. Each docstring names the rules of the spec it comes from and says what it states; `EndsAs`, `OnlyRegs`,
`RegsBut`, `MemSame` and the like are of Sys2Proof/Safety.lean, the other functions are the model's own. -/

open Sys2Proof Sys2Proof.Machine

/-! ### The queue and the step -/

/-- A step of a state with the command `c` at the front of its queue is `exec` of `c` on the state with the queue's rest; on an empty queue the block
idles (the model's choice, notes/assumptions/2.md). -/
def Obligations.StepRunsFront : Prop := ∀ (s : State) (c : Instr) (l : List Instr),
  step { s with pending := c :: l } = exec c { s with pending := l } ∧ step { s with pending := [] } = .next { s with pending := [] }

/-- Every command completes in every state: it answers a next state, and leaves the commands that wait as they are, in their order. So the block never
stops, and each step of a queue that is not empty takes exactly the command at its front. -/
def Obligations.EveryCommandCompletes : Prop := ∀ (c : Instr) (s : State), ∃ t, exec c s = .next t ∧ t.pending = s.pending

/-- Every step keeps the canonical forms: the memory of HBM and the vats, the host's memory as the device reaches it, and the register file list their
keys in rising order and no value that an unlisted key reads as. -/
def Obligations.StepKeepsForms : Prop := ∀ s t : State,
  Memory.wf s = true → Memory.hostWf s = true → Registers.wf s = true → step s = .next t →
  Memory.wf t = true ∧ Memory.hostWf t = true ∧ Registers.wf t = true

/-- R19: after cold reset, with no block in the repair record, logical block 16r + i maps to physical block 17r + i, and physical block 17r + 16 is the
spare: no logical block maps to it. The canonical forms hold after reset, and nothing waits. -/
def Obligations.ResetState : Prop := (∀ r < 4, (∀ i < 16, State.reset.phys (16 * r + i) = 17 * r + i) ∧ (∀ b < 64, State.reset.phys b ≠ 17 * r + 16)) ∧
  State.reset.repairA = [] ∧ State.reset.repairB = [] ∧ State.reset.pending = [] ∧
  Memory.wf State.reset = true ∧ Memory.hostWf State.reset = true ∧ Registers.wf State.reset = true ∧
  (∀ a, State.reset.reg a = regReset a) ∧ (∀ n, State.reset.counter n = Counter.zero)

/-! ### Reliability, the safety monitor and regions (01_architecture.md, 17_reliability.md) -/

/-- R20 to R22: a block error of an absent block changes nothing; of a present one in a running region it is counted for the physical block that holds it,
and the second of a physical block since cold reset leaves the repair record to be rewritten. R23, R25, R34, R36: a fence of a region. The region
reads as fenced and not running, and the loss of a journal mirror pauses acceptance; a region that is fenced stays as it is. A fault of its clock
fences it and shows in the monitor's clock_fault. -/
def Obligations.BlockAndRegionFaults : Prop :=
  (∀ (s : State) (b : Fin 64) (c : Option (Fin 4)) (u : Fin 16),
    (s.absent b.val = true → exec (.blockError b c u) s = .next s) ∧
    (s.absent b.val = false → s.regionFenced (b.val / 16) = false →
      ∃ t, exec (.blockError b c u) s = .next t ∧
        (∀ p, SMap.get (fun _ => 0) t.blkErr p =
          if p = s.phys b.val then SMap.get (fun _ => 0) s.blkErr p + 1 else SMap.get (fun _ => 0) s.blkErr p) ∧
        (SMap.get (fun _ => 0) s.blkErr (s.phys b.val) ≠ 0 → t.repairPend = true))) ∧
  (∀ (s : State) (r : Fin 4) (u : Fin 16),
    (s.regionFenced r.val = true → exec (.regionFence r u) s = .next s) ∧
    (s.regionFenced r.val = false →
      ∃ t, exec (.regionFence r u) s = .next t ∧ t.regionFenced r.val = true ∧ t.fld (RGN_STATUS_running r.val) = 0 ∧
        bitOf (t.fld HUB_MODULE_STATUS_region_fenced) r.val = true ∧
        (s.fld RNG_JOURNAL_STATUS_mirror_a = r.val ∨ s.fld RNG_JOURNAL_STATUS_mirror_b = r.val → t.fld HUB_MODULE_STATUS_acceptance_paused = 1)) ∧
    (∃ t, exec (.clockFault r) s = .next t ∧ t.regionFenced r.val = true ∧ bitOf (t.fld SAF_STATUS_clock_fault) r.val = true))

/-- R25: with acceptance paused for a lost mirror and another region to take it, the pair of mirrors is re-established and acceptance resumes; the new
mirror holds what the journal holds. R25, R543, R612: a fault of the hub and a missing heartbeat request a warm reset by the monitor, which an earlier
request overtakes; the fault is shown and counted as a trip with its cause. R539, R540, R541, R552, R556: samples of power and temperature show in the
monitor's registers; power above 2,400 W throttles and at most 2,350 W lets go; a trip limit shuts the module down; a cause that has cleared ends the
shutdown and requests a warm reset. -/
def Obligations.MirrorsAndSafetyMonitor : Prop :=
  (∀ (s : State) (c : Nat),
    s.flag HUB_MODULE_STATUS_acceptance_paused = true → s.mirrorAOk = true → s.mirrorBOk = false → c < 4 → s.regionFenced c = false →
    s.fld RNG_JOURNAL_STATUS_mirror_a ≠ c →
    ∃ t, exec .journalMirrorReestablish s = .next t ∧ t.fld HUB_MODULE_STATUS_acceptance_paused = 0 ∧
      t.fld RNG_JOURNAL_STATUS_single_mirror = 0 ∧ t.fld RNG_JOURNAL_STATUS_mirror_a = s.fld RNG_JOURNAL_STATUS_mirror_a ∧
      t.fld RNG_JOURNAL_STATUS_mirror_b ≠ s.fld RNG_JOURNAL_STATUS_mirror_a ∧ t.mirrorA = s.mirrorA ∧ t.mirrorB = s.mirrorA) ∧
  (∀ s : State,
    (∃ t, exec .hubFault s = .next t ∧ t.warmReq = (if s.warmReq.isSome then s.warmReq else some 5) ∧
      t.fld HUB_MODULE_STATUS_hub_fault = 1 ∧ t.fld SAF_CAUSE_cause = 9 ∧
      t.fld SAF_CAUSE_trips = min (s.fld SAF_CAUSE_trips + 1) 65535) ∧
    (∃ t, exec .heartbeatTimeout s = .next t ∧ t.warmReq = (if s.warmReq.isSome then s.warmReq else some 5) ∧
      t.fld SAF_STATUS_heartbeat_ok = 0 ∧ t.fld SAF_CAUSE_cause = 7 ∧
      t.fld SAF_CAUSE_trips = min (s.fld SAF_CAUSE_trips + 1) 65535)) ∧
  (∀ s : State,
    (∀ avg peak volts : BitVec 16, peak.toNat ≤ 28800 →
      ∃ t, exec (.monitorPowerSample avg peak volts false) s = .next t ∧
        t.fld SAF_POWER_average = avg.toNat ∧ t.fld SAF_POWER_peak = peak.toNat ∧ t.fld SAF_INPUT_volts = volts.toNat ∧
        t.fld SAF_STATUS_power_throttle =
          (if 24000 < avg.toNat then 1 else if avg.toNat ≤ 23500 then 0 else s.fld SAF_STATUS_power_throttle) ∧
        t.monStop = (if avg.toNat ≤ 24000 then false else s.monStop)) ∧
    (∀ (x : Sensor) (c : Byte) (k : Nat), k = sensorIndex x →
      (c.toNat < s.fld (SAF_TEMP_trip k) →
        ∃ t, exec (.monitorTemperature x c) s = .next t ∧
          (k ≠ 5 → t.fld (SAF_TEMP_temp k) = c.toNat) ∧
          (∀ j, x = .stack j → c.toNat ≤ t.fld (SAF_TEMP_temp 5) ∧ SMap.get (fun _ => 0) t.stackTemp j.val = c.toNat) ∧
          (k ≠ 4 → s.fld (SAF_TEMP_throttle k) ≤ c.toNat → t.fld SAF_STATUS_thermal_throttle = 1)) ∧
      (s.fld (SAF_TEMP_trip k) ≤ c.toNat → s.flag SAF_STATUS_shutdown = false →
        ∃ t, exec (.monitorTemperature x c) s = .next t ∧ t.shutCause = (if k = 4 then 4 else if k = 5 then 5 else 3) ∧
          t.work = [] ∧ t.launches = [])) ∧
    (s.flag SAF_STATUS_shutdown = true → s.causeCleared = true →
      ∃ t, exec .shutdownCauseClear s = .next t ∧ t.fld SAF_STATUS_shutdown = 0 ∧ t.warmReq = some 7 ∧
        RegsBut [SAF_STATUS, PWR_STATUS] s t ∧ t = { s with regs := t.regs, warmReq := some 7 }))

/-! ### The tide (02_tide_and_web.md) -/

/-- R44: a tide cell of a trained port gives the link delay and the offset of that port from its four times, which lie at bytes 0, 12 and 20 of the cell
(R43). A time t1 that no cell of ours since the port's last training or the last coarse step bears gives no measurement, and a cell of another epoch
generation no delay (the model's reading, notes/assumptions/131.md). It also names the peer's root. -/
def Obligations.TideCellMeasures : Prop := ∀ (s : State) (p : Fin 18) (cell : Cell) (t4 : BitVec 64) (t4frac : BitVec 16),
  (s.portUp p.val = false ∨ cell.hdr.ctype ≠ 2#8 → exec (.tideCellReceive p cell t4 t4frac) s = .next s) ∧
  (s.portUp p.val = true → cell.hdr.ctype = 2#8 →
    ∃ t, exec (.tideCellReceive p cell t4 t4frac) s = .next t ∧
      (∀ t1 t2 t3 : Nat, t1 = leAt cell.payload 12 8 * 65536 + leAt cell.payload 30 2 → t2 = leAt cell.payload 20 8 * 65536 + leAt cell.payload 28 2 →
        t3 = leAt cell.payload 0 8 * 65536 + leAt cell.payload 8 2 →
        (t.tport p.val).echoTx = t3 ∧ (t.tport p.val).echoRx = t4.toNat * 65536 + t4frac.toNat ∧
        (¬ (s.tport p.val).heardAt t1 → (t.tport p.val).delay = (s.tport p.val).delay ∧ (t.tport p.val).theta = (s.tport p.val).theta) ∧
        ((s.tport p.val).heardAt t1 →
          (t.tport p.val).theta = (((t1 : Int) - t2) + (((t4.toNat * 65536 + t4frac.toNat : Nat) : Int) - t3)) / 2 +
            sext 16 (s.fld (TID_PORT_ASYM_asym p.val)) * 8192 ∧
          (leAt cell.payload 41 1 = s.fld TID_STATUS_epoch_gen →
            (t.tport p.val).delay = (((t2 : Int) - t1) + (((t4.toNat * 65536 + t4frac.toNat : Nat) : Int) - t3)) / 2) ∧
          (leAt cell.payload 41 1 ≠ s.fld TID_STATUS_epoch_gen → (t.tport p.val).delay = (s.tport p.val).delay))) ∧
      (t.tport p.val).rootId = leAt cell.payload 32 2 ∧ (t.tport p.val).rootPrio = leAt cell.payload 34 1 ∧
      (t.tport p.val).dist = leAt cell.payload 35 1 ∧ (t.tport p.val).seen = true ∧ MemSame s t)

/-- R47, R52, R55, R57: a candidate that has heard no announcement for 64 frames becomes root and is locked; the module enters holdover, and leaves lock
after 2,000 frames of it; a follower takes its parent's tide and epoch generation at the next frame boundary. -/
def Obligations.RootHoldoverEpochFollow : Prop := ∀ s : State,
  (s.flag TID_CTL_root_enable = true → s.flag TID_STATUS_is_root = false → 64 ≤ s.tide.quiet →
    ∃ t, exec .rootAnnounceTimeout s = .next t ∧ t.fld TID_STATUS_is_root = 1 ∧ t.fld TID_STATUS_locked = 1 ∧
      t.fld TID_STATUS_parent_port = 31 ∧ t.fld TID_STATUS_root_distance = 0 ∧ t.fld TID_ROOT_ID_root_chip = s.chip % 65536 ∧
      t.fld TID_ROOT_ID_root_prio = s.fld TID_CTL_root_priority ∧ t.fld TID_STATUS_holdover = 0 ∧
      t.fld TID_RATE_ADJ_rate =
        toBits 32 (clampRate ((if s.flag TID_CTL_use_ref && s.tide.refSeen then s.tide.refRate else 0) + s.tide.ppsRate)) ∧
      RegsBut [TID_STATUS, TID_ROOT_ID, TID_RATE_ADJ] s t ∧
      t = { s with regs := t.regs, tide := { s.tide with everLocked := true, mayStep := false } }) ∧
  ((64 ≤ s.tide.quiet ∧ s.flag TID_STATUS_is_root = false ∨ 2 ≤ s.fld PWR_STATUS_state) → s.flag TID_STATUS_holdover = false →
    exec .holdoverEnter s = .next { s.setFld TID_STATUS_holdover 1 with tide := { s.tide with holdoverFrames := 0 } }) ∧
  (s.flag TID_STATUS_holdover = true → s.flag TID_STATUS_locked = true → 2000 ≤ s.tide.holdoverFrames →
    ∃ t, exec .holdoverExpiry s = .next t ∧ t.fld TID_STATUS_locked = 0 ∧ t.fld TID_STATUS_lock_lost = 1 ∧
      t.fld TID_STATUS_holdover = 1 ∧ t.tide.ns = s.tide.ns) ∧
  (s.tide.follow = none → exec .epochFollow s = .next s) ∧
  (∀ g d seen x, s.tide.follow = some (g, d, seen) → x = max s.tide.ns (boundaryAfter seen) % 2 ^ 64 * 65536 + s.tide.frac →
    ∃ t, exec .epochFollow s = .next t ∧ t.tide.follow = none ∧ t.fld TID_STATUS_epoch_gen = g % 256 ∧
      (0 ≤ (x : Int) + d → (t.fine : Int) = ((x : Int) + d) % 2 ^ 80))

/-- R49, R50, R51: the reference inputs. Edges of TIDE_REF are counted from the one at which ref_ok became 1, and a loss ends the count; an edge of
TIDE_PPS loads an armed epoch on the root, as arming does at once without use_pps; a coarse step advances the epoch generation. R42, R60, R62: a read
of TID_NOW_LO latches the other half of the same value; an alarm armed for a tide that has passed fires at once, late, and one armed for a tide to
come waits for it; TIDE_OUT rises at the next whole multiple of its period and falls width_us later. -/
def Obligations.ReferencesAlarmsAndTideOut : Prop :=
  (∀ s : State,
    (∃ t, exec .tideRefEdge s = .next t ∧ t.fld TID_STATUS_ref_ok = 1 ∧ RegsBut [TID_STATUS] s t ∧
      t = { s with regs := t.regs, tide := { s.tide with
        refSeen := true, refLast := s.fine
        refStart := if s.flag TID_STATUS_ref_ok then s.tide.refStart else s.fine
        refEdges := if s.flag TID_STATUS_ref_ok then s.tide.refEdges + 1 else 0 } }) ∧
    (s.flag TID_STATUS_ref_ok = true →
      ∃ t, exec .tideRefLoss s = .next t ∧ t.fld TID_STATUS_ref_ok = 0 ∧ RegsBut [TID_STATUS] s t ∧
        t = { s with regs := t.regs, tide := { (s.atTide (s.tide.refLast / 65536 + 10000)).tide with refEdges := 0 } }) ∧
    (s.flag TID_STATUS_pps_ok = true →
      ∃ t, exec .tidePpsLoss s = .next t ∧ t.fld TID_STATUS_pps_ok = 0 ∧ RegsBut [TID_STATUS] s t ∧
        t = { s with regs := t.regs, tide := (s.atTide (s.tide.ppsLast / 65536 + 1500000000)).tide }) ∧
    (∃ t, exec .tidePpsEdge s = .next t ∧ t.fld TID_STATUS_pps_ok = 1 ∧
      (s.flag TID_STATUS_is_root = true → s.flag TID_CTL_epoch_arm = true →
        t.tide.ns = s.fld TID_EPOCH_SET_LO_epoch_lo + s.fld TID_EPOCH_SET_HI_epoch_hi * 2 ^ 32 ∧ t.tide.frac = 0 ∧
        t.fld TID_CTL_epoch_arm = 0 ∧ t.fld TID_STATUS_epoch_gen = (s.fld TID_STATUS_epoch_gen + 1) % 256) ∧
      (s.flag TID_STATUS_is_root = false ∨ s.flag TID_CTL_epoch_arm = false → t.tide.ns = s.tide.ns) ∧
      (∀ e : Int, s.flag TID_STATUS_is_root = true → s.flag TID_CTL_epoch_arm = false → s.flag TID_CTL_use_pps = true →
        -(500000000 * 65536) ≤ e → e < 500000000 * 65536 → ((s.fine : Int) - e) % (1000000000 * 65536) = 0 →
        t.tide.ppsRate = removeRate e ∧ t.tide.ppsFrames = removeFrames e (removeRate e))) ∧
    (s.flag TID_STATUS_is_root = true → s.flag TID_CTL_use_pps = true → exec .epochArm s = .next (s.setFld TID_CTL_epoch_arm 1)) ∧
    (s.flag TID_STATUS_is_root = true → s.flag TID_CTL_use_pps = false →
      ∃ t, exec .epochArm s = .next t ∧ t.tide.ns = s.fld TID_EPOCH_SET_LO_epoch_lo + s.fld TID_EPOCH_SET_HI_epoch_hi * 2 ^ 32 ∧
        t.fld TID_STATUS_epoch_gen = (s.fld TID_STATUS_epoch_gen + 1) % 256) ∧
    (s.flag TID_STATUS_is_root = false → exec .epochArm s = .next s)) ∧
  (∀ s : State,
    (s.fld HUB_BOOT_STATUS_phase ≠ 7 → ∃ t, exec .tidNowLoRead s = .next t ∧ t.out = ⟨leBytes 4 (s.tide.ns % 2 ^ 32), false, false⟩ ∧
      t.fld TID_NOW_HI_tide_hi = s.tide.ns / 2 ^ 32 % 2 ^ 32 ∧ RegsBut [TID_NOW_HI] s t ∧ t = { s with regs := t.regs, out := t.out }) ∧
    (s.fld HUB_BOOT_STATUS_phase ≠ 7 → exec (.bar0MisalignedAccess (BitVec.ofNat 26 TID_NOW_HI) 4 false) s =
      .next { s with out := ⟨leBytes 4 (s.fld TID_NOW_HI_tide_hi), false, false⟩ }) ∧
    (∀ (n : Fin 16) (v : Word) (x : Nat), x = s.fld (TID_ALARM_LO_value_lo n.val) + s.fld (TID_ALARM_HI_value_hi n.val) * 2 ^ 32 →
      s.flag (TID_ALARM_CTL_armed n.val) = false →
      ∃ t, exec (.alarmArm n v) s = .next t ∧ SMap.get (fun _ => 0) t.tide.alarms n.val = x ∧
        (s.tide.ns < x → t.fld (TID_ALARM_CTL_armed n.val) = 1 ∧ RegsBut [TID_ALARM_CTL n.val] s t ∧ t = { s with regs := t.regs, tide := t.tide }) ∧
        (x ≤ s.tide.ns → t.fld (TID_ALARM_CTL_armed n.val) = 0 ∧ t.fld (TID_ALARM_CTL_fired n.val) = 1 ∧ t.fld (TID_ALARM_CTL_late n.val) = 1)) ∧
    (∀ n : Fin 16, s.flag (TID_ALARM_CTL_armed n.val) = true →
      ∃ t, exec (.alarmFire n) s = .next t ∧ t.fld (TID_ALARM_CTL_armed n.val) = 0 ∧ t.fld (TID_ALARM_CTL_fired n.val) = 1 ∧
        t.fld (TID_ALARM_CTL_late n.val) = s.fld (TID_ALARM_CTL_late n.val) ∧ 
        t.tide.ns = max s.tide.ns (SMap.get (fun _ => 0) s.tide.alarms n.val) % 2 ^ 64) ∧
    (s.flag TID_OUT_CTL_enable = true → s.tide.outHigh = false → s.outPeriod ≠ 0 →
      ∃ t x, exec .tideOutRise s = .next t ∧ t.tide.outHigh = true ∧ t.tide.outRise = some x ∧ x % s.outPeriod = 0 ∧ s.tide.ns ≤ x ∧
        x < s.tide.ns + s.outPeriod ∧ t.tide.ns = x % 2 ^ 64 ∧ t = { s with tide := t.tide }) ∧
    (∀ x, s.tide.outRise = some x →
      exec .tideOutFall s = .next { s with tide := { s.tide with
        ns := max s.tide.ns (x + 1000 * s.fld TID_OUT_CTL_width_us) % 2 ^ 64, outHigh := false, outRise := none } }))

/-! ### The web (02_tide_and_web.md) -/

/-- R71, R75 to R80: a WEB_TABLE outside a group writes the entries it stages into the banks that are not current, arms the swap of every direction it
names and leaves every current table as it is; at its tide a pending swap makes the staged bank current; a cancel removes pending swaps. -/
def Obligations.WebTablesAndSwaps : Prop := ∀ s : State,
  (∀ e, s.fresh e kindWebTable = true → bitOf (leAt (s.desc e) 20 1) 3 = false → webTableOk (s.desc e) = true → dGroup (s.desc e) = 0 →
    (∀ x ∈ webNamed (s.desc e), s.swapBusy x.1 x.2 = false) → s.webBehind e = false → s.tide.ns + 2 * 2048 ≤ roundFrame (leAt (s.desc e) 24 8) →
    (s.load (.unit (srcRing (s.jget e).ring)) (leAt (s.desc e) 32 8)
      (1024 * (if bitOf (leAt (s.desc e) 20 1) 2 then 1 else (webNamed (s.desc e)).length))).2.1 = .ok →
    ∃ t, exec (.webTable e) s = .next t ∧ (EndsAs t e .ok .none ∨ EndsAs t e .clamped .none) ∧
      (∀ x ∈ webNamed (s.desc e), t.swapOf x.1 x.2 = some (roundFrame (leAt (s.desc e) 24 8))) ∧
      (∀ i x, (webNamed (s.desc e))[i]? = some x → ∀ slot < 256, (t.reg (bankAt x.1 x.2 (1 - s.bank x.1 x.2) slot)).toNat =
        (stagedEntry x.2 slot (leAt (s.load (.unit (srcRing (s.jget e).ring)) (leAt (s.desc e) 32 8)
          (1024 * (if bitOf (leAt (s.desc e) 20 1) 2 then 1 else (webNamed (s.desc e)).length))).1
            (1024 * (if bitOf (leAt (s.desc e) 20 1) 2 then 0 else i) + 4 * slot) 4)).1) ∧
      (∀ p < 18, ∀ rx, (p, rx) ∉ webNamed (s.desc e) → t.swapOf p rx = s.swapOf p rx) ∧
      (∀ p < 18, ∀ rx, ∀ slot < 256, t.entry p rx slot = s.entry p rx slot)) ∧
  (∀ e, s.fresh e kindWebTable = true → bitOf (leAt (s.desc e) 20 1) 3 = true → webTableOk (s.desc e) = true → dGroup (s.desc e) = 0 →
    (∃ x ∈ webNamed (s.desc e), ∃ y, s.swapOf x.1 x.2 = some y ∧ s.tide.ns < y) →
    ∃ t, exec (.webTableCancel e) s = .next t ∧ EndsAs t e .ok .none ∧
      (∀ x ∈ webNamed (s.desc e), ∀ y, s.swapOf x.1 x.2 = some y → s.tide.ns < y → t.swapOf x.1 x.2 = none)) ∧
  (∀ (p : Fin 18) (d : Dir) x, s.swapOf p.val (d == .rx) = some x →
    ∃ t, exec (.bankSwap p d) s = .next t ∧ t.swapOf p.val (d == .rx) = none ∧ t.bank p.val (d == .rx) = 1 - s.bank p.val (d == .rx) ∧
      t.bank p.val (!(d == .rx)) = s.bank p.val (!(d == .rx)) ∧ t.tide.ns = max s.tide.ns x % 2 ^ 64 ∧ RegsBut [WEB_PORT_STATUS p.val] s t ∧ MemSame s t)

/-- R41, R601: a frame boundary that no event has taken the tide to yet is the next multiple of 2,048 ns; the frame is counted, and what the ports moved
is that of the frame that has ended. R58, R63, R65, R73, R386, R495: an up port sends one cell in a slot. In slots 0 to 3 it is of the slot's type; a
cell that was formed wrongly is replaced by an empty-slot mark. The first cell that waits to be forwarded leaves in the first slot of its stream that
begins at least 16 ns after it came, with that slot in its header, and waits while the port carries no data or the stream is held; without a slot in
the table it is a mismatch. A relayed cell leaves on its stream in the same way. -/
def Obligations.FramesAndSlots : Prop :=
  (∀ s : State,
    ∃ t, exec .frameBoundary s = .next t ∧
      (s.frame ≤ s.tide.done → t.tide.ns = (s.frame + 1) * 2048 % 2 ^ 64 ∧ t.tide.done = (s.frame + 1) % 2 ^ 53) ∧
      (s.tide.done < s.frame → t.tide.ns = s.tide.ns % 2 ^ 64 ∧ t.tide.done = s.frame % 2 ^ 53) ∧
      t.movedLast = s.movedNow ∧ t.cntVal 0 = (s.cntVal 0 + 1) % 2 ^ 48 ∧ t.tide.quiet = s.tide.quiet + 1) ∧
  (∀ s : State,
    (∀ (p : Fin 18) (slot : Fin 256), s.portUp p.val = true →
      (slot.val < 4 → ∃ t c, exec (.slotTransmit p slot none) s = .next t ∧ (t.port p.val).emitted = some c ∧
        c.hdr.ctype.toNat = slotType slot.val ∧ c.hdr.slot.toNat = slot.val ∧ c.hdr.crc = cellCrc { c with hdr := { c.hdr with crc := 0 } }) ∧
      (4 ≤ slot.val → ∃ t c, exec (.slotTransmit p slot none) s = .next t ∧ (t.port p.val).emitted = some c ∧ c.hdr.slot.toNat = slot.val) ∧
      (∀ w : Cell, w.hdr.crc ≠ cellCrc w ∨ malformedCell w slot.val = true →
        ∃ t c, exec (.slotTransmit p slot (some w)) s = .next t ∧ (t.port p.val).emitted = some c ∧ c.hdr.ctype = 1#8 ∧ c.hdr.stream = 0#16 ∧
          (t.port p.val).txFails = (s.port p.val).txFails + 1)) ∧
    (∀ (p : Fin 18) f rest, (s.port p.val).fwd = f :: rest → f.1.hdr.ctype = 0#8 →
      (s.portHas p.val false f.1.hdr.stream.toNat = false →
        ∃ t, exec (.cellForward p) s = .next t ∧ (t.port p.val).fwd = rest ∧ t.fld (WEB_PORT_STATUS_stream_mismatch p.val) = 1 ∧ MemSame s t) ∧
      (s.portHas p.val false f.1.hdr.stream.toNat = true →
        (s.carries p.val = false ∨ s.held.contains f.1.hdr.stream.toNat = true → exec (.cellForward p) s = .next s) ∧
        (∀ k, s.carries p.val = true → s.held.contains f.1.hdr.stream.toNat = false →
          s.slotFrom p.val (max s.tide.ns (f.2 + 16)) (entryHas false f.1.hdr.stream.toNat) = some k →
          ∃ t c, exec (.cellForward p) s = .next t ∧ (t.port p.val).emitted = some c ∧ (t.port p.val).fwd = rest ∧ 4 ≤ k ∧
            f.2 + 16 ≤ s.frame * 2048 + 8 * k ∧ t.tide.ns = max s.tide.ns (s.frame * 2048 + 8 * k) % 2 ^ 64 ∧ c.hdr.slot = BitVec.ofNat 8 k ∧
            c.hdr.frame = BitVec.ofNat 32 t.frame ∧ c.hdr.stream = f.1.hdr.stream ∧ c.hdr.tag = f.1.hdr.tag ∧ c.hdr.index = f.1.hdr.index ∧
            c.payload = padTo 928 f.1.payload ∧ MemSame s t))) ∧
    (∀ (stream : BitVec 16) x p k, s.nextTx (fun x => x.owner == TxOwner.relay && x.stream == stream.toNat) = some x →
      s.held.contains stream.toNat = false → (s.streamPorts false stream.toNat).find? (fun p => s.carries p) = some p →
      s.slotFrom p (s.tide.ns + 16) (entryHas false stream.toNat) = some k → x.be = false →
      ∃ t c, exec (.broadcastRelay stream) s = .next t ∧ (t.port p).emitted = some c ∧ c.hdr.ctype = 0#8 ∧ c.hdr.stream = stream ∧
        c.hdr.index = BitVec.ofNat 32 x.next ∧ c.hdr.slot = BitVec.ofNat 8 k))

/-- R66, R67, R72, R73, R564: a data cell that an up port receives in slots 4 to 255. One whose stream is not its slot's is counted as a mismatch; one of
a forwarding slot waits at the port it leaves by; one for the receive bound on its stream, of the next index and not the last, lands: its bytes are at
the destination and the landed mark has moved. R67, R68, R85, R86: a landed mark below the end of a transfer moves its mark and sends nothing again; a
go-back request resumes from the mark it names; a transfer whose gap exceeds its hold limit starts again with RETRY. -/
def Obligations.DataCellsAndMarks : Prop :=
  (∀ (s : State) (p : Fin 18) (c : Cell) (first : BitVec 32),
    s.portUp p.val = true → 4 ≤ c.hdr.slot.toNat → c.hdr.ctype = 0#8 →
    (entryUse (s.entry p.val true c.hdr.slot.toNat) = 1 → c.hdr.stream.toNat ≠ entryStream (s.entry p.val true c.hdr.slot.toNat) →
      ∃ t, exec (.dataCellReceive p c first) s = .next t ∧ t.fld (WEB_PORT_STATUS_stream_mismatch p.val) = 1 ∧ MemSame s t) ∧
    (∀ q, entryUse (s.entry p.val true c.hdr.slot.toNat) = 2 → c.hdr.stream.toNat = entryStream (s.entry p.val true c.hdr.slot.toNat) →
      entryFwd (s.entry p.val true c.hdr.slot.toNat) = q → q < 18 → s.portHas q false c.hdr.stream.toNat = true →
      ∃ t, exec (.dataCellReceive p c first) s = .next t ∧ (t.port q).fwd = (s.port q).fwd ++ [(c, s.tide.ns)] ∧ t = { s with ports := t.ports }) ∧
    (∀ b, entryUse (s.entry p.val true c.hdr.slot.toNat) = 1 → c.hdr.stream.toNat = entryStream (s.entry p.val true c.hdr.slot.toNat) →
      s.inS0 = true → c.hdr.stream.toNat < 0xC000 → (s.rxOf c.hdr.stream.toNat).bound = some b → b.kind = .plain → b.tag = c.hdr.tag.toNat →
      c.hdr.index.toNat = b.mark → bitOf c.hdr.flags.toNat 1 = false → 928 * b.mark + 928 < b.len → c.payload.length = 928 → c.hdr.length = 928#16 →
      b.base + b.len ≤ hbmTop → hbmRegion (b.base + b.len - 1) = hbmRegion b.base → s.regionFenced (hbmRegion b.base) = false →
      ∃ t, exec (.dataCellReceive p c first) s = .next t ∧
        (t.rxOf c.hdr.stream.toNat).bound = some
          { b with mark := b.mark + 1, written := b.written + 928, moved := true, port := p.val, queued := false } ∧
        (∀ a, t.byte a = if b.base + 928 * b.mark ≤ a ∧ a < b.base + 928 * b.mark + 928
          then c.payload.getD (a - (b.base + 928 * b.mark)) 0#8 else s.byte a))) ∧
  (∀ s : State,
    (∀ (p : Fin 18) (c : Cell) (x : TxXfer) (st : BitVec 16) (tag : BitVec 32) (mark : Nat), s.portUp p.val = true → c.hdr.ctype = 3#8 →
      s.tx = [x] → x.loc = false → x.stream = st.toNat → x.tag = tag.toNat → (st ≠ 0#16 ∨ tag ≠ 0#32) →
      (c.notices = [.landed st tag mark false false false] → mark < x.cells.length → x.landed < x.cells.length →
        ∃ t y, exec (.controlCellReceive p c) s = .next t ∧ t.tx = [y] ∧ y.landed = max x.landed mark ∧ y.next = max x.next mark ∧
          y.cells = x.cells ∧ t = { s with tx := [y] }) ∧
      (c.notices = [.goBack st tag mark] → mark ≤ x.cells.length →
        ∃ t, exec (.controlCellReceive p c) s = .next t ∧ t.tx = [{ x with next := mark }] ∧ MemSame s t)) ∧
    (∀ (x : TxXfer) (st : BitVec 16) (tag : BitVec 32), x ∈ s.tx → x.stream = st.toNat → x.tag = tag.toNat →
      (∀ y ∈ s.tx, y.stream = st.toNat → y.tag = tag.toNat → s.holdLimit y.hold < y.gap) →
      ∃ t, exec (.transferRequeue .tx st tag) s = .next t ∧
        t.tx = s.tx.map (fun y => if y.stream = st.toNat ∧ y.tag = tag.toNat then
          { y with next := 0, gap := 0, moved := false, retry := true, queued := true } else y) ∧ MemSame s t) ∧
    (∀ (b : RxBind) (st : BitVec 16) (tag : BitVec 32), st.toNat < 0xC000 → (s.rxOf st.toNat).bound = some b → b.tag = tag.toNat → s.holdLimit b.hold < b.gap →
      ∃ t, exec (.transferRequeue .rx st tag) s = .next t ∧ (t.rxOf st.toNat).bound = some { b with gap := 0, moved := false, queued := true } ∧
        (∀ q, b.port = q → q < 18 → s.fld (WEB_PORT_STATUS_requeue_count q) < 2 ^ 16 - 1 →
          t.fld (WEB_PORT_STATUS_requeue_count q) = s.fld (WEB_PORT_STATUS_requeue_count q) + 1) ∧ MemSame s t))

/-! ### Tensor arrays (03_tensor_array.md) -/

/-- R97 to R101, R184: an ARR_STREAM that issues and meets no fault, every check of it passing where it is verified, writes, for each streamed row and
output column, the rounded column sum into the pan, added to what stands there unless it clears; it issues once. -/
def Obligations.ArrayStreams : Prop := ∀ (s : State) (b : Fin 64) (c : Fin 4) (l : Launch) (w : Nat) (tile : KeptTile),
  s.nextInstr b.val c.val = some (l, w) → iBits w 0 8 = opArrStream → arrLegal s l w = true →
  s.launches.find? (fun x => x.entry == l.entry) = some l → (s.blk b.val).drains = [] → s.firstBad b.val (arrOp w) 0 (arrOp w).m = none →
  ((arrOp w).keep = true → tile = (SMap.find (s.blk b.val).tiles c.val).getD KeptTile.none) →
  ((arrOp w).keep = false →
    tile = ⟨(arrOp w).fmtS, (arrOp w).statT, s.vatSlice b.val (arrOp w).stat (16384 * (arrFmt (arrOp w).fmtS).bytes)⟩) →
  (s.verifies b.val = true → (s.runTap b.val c.val (arrOp w)).checksFail b.val (arrOp w) tile .none 0 = none) →
    ∃ t, exec (.arrStream b c .none) s = .next t ∧ IssuedOne l t ∧
      (SMap.find (s.blk b.val).taps c.val = none → MemSame s t ∧
        ∀ f, f = accFmt (arrOp w).acc → ∀ m < (arrOp w).m, ∀ n < (arrOp w).n, ∀ row h o,
          row = (arrOp w).panRow + (if (arrOp w).acc then m / 2 else m) → h = (if (arrOp w).acc then m % 2 else 0) →
          o = arrOut f ((List.range (arrOp w).k).map (fun k => (s.strElem b.val (arrOp w) m k).mul (tile.elem k n))) (arrOp w).outExp →
          (if (arrOp w).acc then halfOf (t.panWord b.val row n).bits h else (t.panWord b.val row n).bits) =
            (if (arrOp w).acc then accumBits f (arrOp w).clear (halfOf (s.panWord b.val row n).bits h) o % 2 ^ 16
              else accumBits f (arrOp w).clear (s.panWord b.val row n).bits o))

/-- R116 to R120, R123: the checks see a fault of the datapath in a row that is compared; a verified ARR_STREAM whose check fails waits for its replay
from the start of the failing group; a replay that checks ends the wait; a row test that one row explains quarantines that row and the step runs
again; otherwise the block errs. R17, R18, R115, R121, R124: the context that is to issue next becomes current, also where a replay is due; STEP makes
the next instruction the first of a program step; ARR_ELEM writes 128 fp32 results in each of its rows. -/
def Obligations.ArrayChecksAndSteps : Prop :=
  (∀ (s : State) (b : Fin 64),
    (∀ i tile r, s.checksFail b.val i tile .none 0 = none → (s.sumsOf b.val i tile r).compared = true → r < i.m →
      s.checksFail b.val i tile (.column r) 0 = some (r / 128 * 128, r)) ∧
    (∀ (c : Fin 4) l w r tile g m, s.nextInstr b.val c.val = some (l, w) → iBits w 0 8 = opArrStream → arrLegal s l w = true →
      s.launches.find? (fun x => x.entry == l.entry) = some l → (s.blk b.val).drains = [] → s.firstBad b.val (arrOp w) 0 (arrOp w).m = none →
      SMap.find (s.blk b.val).taps c.val = none →
      ((arrOp w).keep = true → tile = (SMap.find (s.blk b.val).tiles c.val).getD KeptTile.none) →
      ((arrOp w).keep = false →
        tile = ⟨(arrOp w).fmtS, (arrOp w).statT, s.vatSlice b.val (arrOp w).stat (16384 * (arrFmt (arrOp w).fmtS).bytes)⟩) →
      s.verifies b.val = true → s.checksFail b.val (arrOp w) tile (.column r) 0 = some (g, m) →
      ∃ t, exec (.arrStream b c (.column r)) s = .next t ∧ (t.blk b.val).replay = some ⟨c.val, l.entry, w, g, (arrOp w).m⟩ ∧
        t.fld (BLK_ABFT_STATUS_mismatch b.val) = 1 ∧ (∃ x ∈ t.launches, x.entry = l.entry ∧ x.pc = l.pc ∧ x.issued = l.issued) ∧ MemSame s t) ∧
    (∀ r l, (s.blk b.val).replay = some r → s.regionFenced (b.val / 16) = false → s.launches.find? (fun x => x.entry == r.entry) = some l →
      l.block = b.val → s.firstBad b.val (arrOp r.word) r.fromRow (arrOp r.word).m = none →
      s.checksFail b.val (arrOp r.word) ((SMap.find (s.blk b.val).tiles r.ctx).getD KeptTile.none) .none r.fromRow = none →
      ∃ t, exec (.instructionReplay b .none) s = .next t ∧ (t.blk b.val).replay = none ∧ t.fld (BLK_ABFT_STATUS_replayed b.val) = 1 ∧ IssuedOne l t) ∧
    (∀ r (f : Fin 132), (s.blk b.val).rowTest = some r → s.regionFenced (b.val / 16) = false → (s.quarOf (s.phys b.val)).length < 3 →
      f.val ∉ s.quarOf (s.phys b.val) →
      ∃ t, exec (.rowTest b (some f)) s = .next t ∧ (t.blk b.val).reinit = true ∧ (t.blk b.val).rowTest = none ∧
        (∀ x, x ∈ t.quarOf (s.phys b.val) ↔ x = f.val ∨ x ∈ s.quarOf (s.phys b.val)) ∧ t.fld (BLK_ABFT_STATUS_last_row b.val) = f.val) ∧
    (∀ r, (s.blk b.val).rowTest = some r → s.regionFenced (b.val / 16) = false →
      ∃ t, exec (.rowTest b none) s = .next t ∧ t.fld (BLK_ABFT_STATUS_block_error b.val) = 1 ∧
        SMap.get (fun _ => 0) t.blkErr (s.phys b.val) = SMap.get (fun _ => 0) s.blkErr (s.phys b.val) + 1) ∧
    ((s.blk b.val).reinit = true →
      ∃ t, exec (.blockReinit b) s = .next t ∧ t.blk b.val = { s.blk b.val with reinit := false, tiles := [], verifyCount := 0, planes := [] } ∧
        (∀ p < 2, t.fld (BLK_FAB_PLANE_valid b.val p) = 0) ∧ t = { s with regs := t.regs, blocks := t.blocks })) ∧
  (∀ (s : State) (b : Fin 64) (c : Fin 4),
    (s.arbiter b.val = some c.val → (s.blk b.val).current ≠ c.val → s.blockStopped b.val = false → (s.blk b.val).rowTest = none →
      (s.blk b.val).reinit = false →
      ∃ t, exec (.contextSwitch b c) s = .next t ∧ t.blk b.val = { s.blk b.val with current := c.val } ∧
        t = { s with blocks := t.blocks, cnt := t.cnt, regs := t.regs, evt := t.evt }) ∧
    (∀ l w, s.nextInstr b.val c.val = some (l, w) → s.launches.find? (fun x => x.entry == l.entry) = some l →
      (iBits w 0 8 ∉ opcodes → ∃ t, exec (.step b c) s = .next t ∧ IssuedOne l t ∧ MemSame s t ∧
        (l.pc + 1 < l.len → ∃ x ∈ t.launches, x.entry = l.entry ∧ x.stepPc = l.pc + 1 ∧ x.ties = s.tieCounts b.val)) ∧
      (iBits w 0 8 = opArrElem → elemLegal s l w = true →
        (iBits w 16 3 = 2 → ∀ m < (arrOp w).m, s.rowBad b.val ((arrOp w).panRow + m) 0 128 = false) →
        ∃ t, exec (.arrElem b c) s = .next t ∧ IssuedOne l t ∧ MemSame s t ∧
          ∀ m < (arrOp w).m, ∀ n < 128, ∀ (f : Fmt) (x y v : FVal), f = arrFmt (arrOp w).fmtS →
            x = f.decode (s.vatLe b.val (strOff false (arrOp w).str (arrOp w).stride f.bytes m n) f.bytes) →
            y = f.decode (s.vatLe b.val (strOff false (arrOp w).stat (arrOp w).stride f.bytes m n) f.bytes) →
            v = elemValue (iBits w 16 3) x y (Fmt.fp32.decode (s.panWord b.val ((arrOp w).panRow + m) n).bits) →
            (t.panWord b.val ((arrOp w).panRow + m) n).bits = ((⟨0, false, false, v⟩ : Acc).step Fmt.fp32 v).bits)))

/-- R102: an instruction of a block program that its opcode's rules make illegal ends its LAUNCH with ILLEGAL_INSTRUCTION and has no other effect on
memory or the pan; a fabric instruction does so as it leaves the fabric queue (the model's choice, notes/assumptions/147.md). -/
def Obligations.IllegalInstructions : Prop := ∀ (s : State) (b : Fin 64) (c : Fin 4) (l : Launch) (i : Instr) (op : Nat),
  (∀ w legal, s.nextInstr b.val c.val = some (l, w) →
    ((i = Instr.arrStream b c .none ∧ op = opArrStream ∧ legal = arrLegal s l w) ∨
      (i = Instr.arrElem b c ∧ op = opArrElem ∧ legal = elemLegal s l w) ∨ (i = Instr.panDrain b c ∧ op = opPanDrain ∧ legal = drainLegal s l w) ∨
      (i = Instr.panLoad b c ∧ op = opPanLoad ∧ legal = copyLegal false s l w) ∨
      (i = Instr.panStore b c ∧ op = opPanStore ∧ legal = copyLegal true s l w) ∨
      (i = Instr.grmTap b c ∧ op = opGrmTap ∧ legal = tapLegal s l w) ∨ (i = Instr.grmDrain b c false ∧ op = opGrmDrain ∧ legal = gdrainLegal s l w) ∨
      (i = Instr.synSignal b c ∧ op = opSynSignal ∧ legal = synSignalLegal s l w) ∨
      (i = Instr.synWait b c ∧ op = opSynWait ∧ legal = synWaitLegal s l w)) →
    iBits w 0 8 = op → legal = false →
    ∃ t, exec i s = .next t ∧ EndsAs t l.entry .faultFailed .illegalInstruction ∧ (∀ x ∈ t.launches, x.entry ≠ l.entry) ∧ t.pan = s.pan ∧ MemSame s t) ∧
  (∀ j q s1 legal, ((s.fed b.val).blk b.val).fabQ = j :: q → j.ctx = c.val → (s.fed b.val).blockStopped b.val = false →
    (s.fed b.val).fabWaits b.val j = false → s1 = (s.fed b.val).setBlk b.val { (s.fed b.val).blk b.val with fabQ := q } →
    s1.launches.find? (fun x => x.entry == j.entry) = some l →
    ((i = Instr.fabCfg b c ∧ op = opFabCfg ∧ legal = cfgLegal s1 l j.word) ∨ (i = Instr.fabRun b c .none ∧ op = opFabRun ∧ legal = runLegal s1 l j.word) ∨
      (i = Instr.fabLane b ⟨c, false⟩ ∧ op = opFabLane ∧ legal = laneLegal s1 l j.word)) →
    iBits j.word 0 8 = op → legal = false →
    ∃ t, exec i s = .next t ∧ EndsAs t l.entry .faultFailed .illegalInstruction ∧ (∀ x ∈ t.launches, x.entry ≠ l.entry) ∧ t.pan = s.pan ∧ MemSame s t)

/-! ### Pans (04_pans.md) -/

/-- R143 to R149: a PAN_DRAIN that finds its rows good stores each kept element in its target format; one of a tie group that is not complete waits in
flight; PAN_LOAD and PAN_STORE copy whole words between vat and pan. -/
def Obligations.PanCopies : Prop := ∀ (s : State) (b : Fin 64) (c : Fin 4) (l : Launch) (w : Nat),
  s.nextInstr b.val c.val = some (l, w) → s.launches.find? (fun x => x.entry == l.entry) = some l →
  (iBits w 0 8 = opPanDrain → drainLegal s l w = true →
    ((drainOp w).tie = 0 ∨ s.drainDue b.val ⟨l.ctx, l.entry, w, 0, []⟩ = true → (∀ j < (drainOp w).rows, s.rowBad b.val ((drainOp w).panRow + j) 0 (drainOp w).n = false) →
      ∃ t, exec (.panDrain b c) s = .next t ∧ IssuedOne l t ∧ t.pan = s.pan ∧ ((drainOp w).tie ≠ 0 → t.fld (BLK_TIE_CFG_issued b.val (drainOp w).tie) = 0) ∧
        (∀ i < (drainOp w).outs, ∀ n < (drainOp w).n, bitOf (s.deckle b.val (drainOp w).deckle).1 n = true →
          inRuns (s.deckle b.val (drainOp w).deckle).2 i = true →
          t.bytes (vatAt b.val + (drainOp w).dst + i * (drainOp w).rowBytes + n * (drainOp w).elem) (drainOp w).elem =
            (drainElem (drainOp w) (if (drainOp w).src16
              then halfOf (s.panWord b.val ((drainOp w).panRow + i / 2) n).bits (i % 2)
              else (s.panWord b.val ((drainOp w).panRow + i) n).bits)).1) ∧
        (∀ a, a < vatAt b.val + (drainOp w).dst ∨
            vatAt b.val + (drainOp w).dst + ((drainOp w).outs - 1) * (drainOp w).rowBytes + (drainOp w).n * (drainOp w).elem ≤ a →
          t.byte a = s.byte a)) ∧
    ((drainOp w).tie ≠ 0 → s.drainDue b.val ⟨l.ctx, l.entry, w, 0, []⟩ = false →
      ∃ t x, exec (.panDrain b c) s = .next t ∧ (t.blk b.val).drains = (s.blk b.val).drains ++ [x] ∧ x.word = w ∧ x.entry = l.entry ∧
        IssuedOne l t ∧ MemSame s t)) ∧
  (iBits w 0 8 = opPanLoad → copyLegal false s l w = true →
    ∃ t, exec (.panLoad b c) s = .next t ∧ IssuedOne l t ∧ MemSame s t ∧
      (∀ i < (copyOp w).rows, ∀ n < 128,
        t.panWord b.val ((copyOp w).panRow + i) n = ⟨s.vatLe b.val ((copyOp w).vat + i * (copyOp w).stride + 4 * n) 4, false, 0⟩) ∧
      (∀ i < (copyOp w).rows, (t.panRow b.val ((copyOp w).panRow + i)).w16 = (copyOp w).w16)) ∧
  (iBits w 0 8 = opPanStore → copyLegal true s l w = true → (∀ j < (copyOp w).rows, s.rowBad b.val ((copyOp w).panRow + j) 0 128 = false) →
    ∃ t, exec (.panStore b c) s = .next t ∧ IssuedOne l t ∧ t.pan = s.pan ∧
      (∀ i < (copyOp w).rows, ∀ n < 128, t.bytes (vatAt b.val + (copyOp w).vat + i * (copyOp w).stride + 4 * n) 4 =
        leBytes 4 (s.panWord b.val ((copyOp w).panRow + i) n).bits) ∧
      (∀ a, a < vatAt b.val + (copyOp w).vat ∨ vatAt b.val + (copyOp w).vat + ((copyOp w).rows - 1) * (copyOp w).stride + 512 ≤ a →
        t.byte a = s.byte a))

/-- R152 to R155, R158: an access through the tile window whose rows nothing holds reads or writes the pan's words; one whose rows are held waits, and
when its time is over it is made without them: a byte of a held row reads as all ones and is not written. R156, R157, R160, R162: debug mode is asked
for in maintenance mode, begins once no pan operation is in flight, and ends; in it a word of the selected row can be written, with wrong parity once
where that has been injected. -/
def Obligations.PanWindowAndDebug : Prop :=
  (∀ (s : State) (b : Fin 64), s.absent b.val = false → s.regionFenced (b.val / 16) = false →
    (∀ (off : BitVec 21) len, 0 < len → off.toNat + len ≤ panSize →
      (s.rowsHeld b.val (winRows off.toNat len).1 (winRows off.toNat len).2 = false →
        ∃ t, exec (.panWindowRead b off len) s = .next t ∧ t.out.data = (List.range len).map (fun i => s.panByte b.val (off.toNat + i)) ∧
          (t.out.poison = true ↔ ∃ k, off.toNat / 4 ≤ k ∧ k ≤ (off.toNat + len - 1) / 4 ∧ (s.panWord b.val (k / 128) (k % 128)).bad = true) ∧
          t.pan = s.pan ∧ MemSame s t) ∧
      (s.rowsHeld b.val (winRows off.toNat len).1 (winRows off.toNat len).2 = true →
        ∃ t, exec (.panWindowRead b off len) s = .next t ∧ (t.blk b.val).winWait = (s.blk b.val).winWait ++ [⟨off.toNat, len, none, none⟩] ∧
          t = { s with blocks := t.blocks })) ∧
    (∀ (off : BitVec 21) (data : List Byte), 0 < data.length → off.toNat + data.length ≤ panSize →
      (s.rowsHeld b.val (winRows off.toNat data.length).1 (winRows off.toNat data.length).2 = true →
        ∃ t, exec (.panWindowWrite b off data) s = .next t ∧
          (t.blk b.val).winWait = (s.blk b.val).winWait ++ [⟨off.toNat, data.length, some data, none⟩] ∧ t = { s with blocks := t.blocks }) ∧
      (s.rowsHeld b.val (winRows off.toNat data.length).1 (winRows off.toNat data.length).2 = false →
      ∃ t, exec (.panWindowWrite b off data) s = .next t ∧ MemSame s t ∧
        (off.toNat % 4 = 0 → data.length % 4 = 0 → ∀ i < data.length / 4,
          t.panWord b.val ((off.toNat / 4 + i) / 128) ((off.toNat / 4 + i) % 128) =
            ⟨leAt data (4 * i) 4, false, (s.panWord b.val ((off.toNat / 4 + i) / 128) ((off.toNat / 4 + i) % 128)).guard⟩) ∧
        ((off.toNat % 4 ≠ 0 ∨ data.length % 4 ≠ 0) → t.pan = s.pan ∧ t.fld (PAN_STATUS_window_misaligned b.val) = 1))) ∧
    (∀ a rest, (s.blk b.val).winWait = a :: rest → s.rowsHeld b.val (winRows a.off a.len).1 (winRows a.off a.len).2 = true →
      ∃ t, exec (.panWindowTimeout b) s = .next t ∧ (t.blk b.val).winWait = rest ∧ t.fld (PAN_STATUS_window_timeout b.val) = 1 ∧
        (a.entry = none → a.data = none → t.out.data = (List.range a.len).map (fun i => s.panByte b.val (a.off + i)) ∧ t.pan = s.pan) ∧
        (∀ r, s.rowsHeld b.val r 1 = true → ∀ n < 128, t.panWord b.val r n = s.panWord b.val r n) ∧
        (∀ e w, a.entry = some e → s.working e = some w → t.working e = some { w with phase := 8 } ∧ t.pan = s.pan) ∧ MemSame s t)) ∧
  (∀ (s : State) (b : Fin 64),
    (s.flag HUB_MODULE_STATUS_maintenance_mode = true → s.flag (PAN_DBG_CTL_dbg_active b.val) = false →
      ∃ t, exec (.panDebugRequest b) s = .next t ∧ (t.blk b.val).dbgPending = true ∧ t.fld (PAN_DBG_CTL_debug b.val) = 1 ∧
        RegsBut [PAN_DBG_CTL b.val] s t ∧ t = { s with regs := t.regs, blocks := t.blocks }) ∧
    (s.flag HUB_MODULE_STATUS_maintenance_mode = false → exec (.panDebugRequest b) s = .next s) ∧
    ((s.blk b.val).dbgPending = true → s.flight b.val = [] →
      ∃ t, exec (.panDebugEnter b) s = .next t ∧ t.fld (PAN_DBG_CTL_dbg_active b.val) = 1 ∧ (t.blk b.val).dbgPending = false ∧
        RegsBut [PAN_DBG_CTL b.val] s t ∧ t = { s with regs := t.regs, blocks := t.blocks }) ∧
    (∃ t, exec (.panDebugExit b) s = .next t ∧ t.fld (PAN_DBG_CTL_dbg_active b.val) = 0 ∧ t.fld (PAN_DBG_CTL_debug b.val) = 0 ∧
      (t.blk b.val).dbgPending = false ∧ RegsBut [PAN_DBG_CTL b.val] s t ∧ t = { s with regs := t.regs, blocks := t.blocks }) ∧
    exec (.injectParity b) s = .next (s.setFld (PAN_DBG_CTL_inject_parity b.val) 1) ∧
    (∀ (n : Fin 128) (v : Word),
      (s.flag (PAN_DBG_CTL_dbg_active b.val) = true →
        ∃ t, exec (.panDbgElemWrite b n v) s = .next t ∧ t.panWord b.val (s.fld (PAN_DBG_ROW_row b.val)) n.val =
            ⟨v.toNat, s.flag (PAN_DBG_CTL_inject_parity b.val), (s.panWord b.val (s.fld (PAN_DBG_ROW_row b.val)) n.val).guard⟩ ∧
          (∀ r m, m < 128 → (r, m) ≠ (s.fld (PAN_DBG_ROW_row b.val), n.val) → t.panWord b.val r m = s.panWord b.val r m) ∧
          t.fld (PAN_DBG_CTL_inject_parity b.val) = 0 ∧ RegsBut [PAN_DBG_CTL b.val] s t ∧
          (t.panRow b.val (s.fld (PAN_DBG_ROW_row b.val))).nonfinite = ((s.panRow b.val (s.fld (PAN_DBG_ROW_row b.val))).nonfinite ||
            wordNonfinite (s.panRow b.val (s.fld (PAN_DBG_ROW_row b.val))).w16 v.toNat) ∧
          t = { s with regs := t.regs, pan := t.pan, panRows := t.panRows }) ∧
      (s.flag (PAN_DBG_CTL_dbg_active b.val) = false → exec (.panDbgElemWrite b n v) s = .next s)))

/-! ### The element fabric and the Gram unit (06_element_fabric.md, 07_curvature_statistics.md) -/

/-- R201, R202, R204, R208, R210, R213, R215: fabric instructions go to the fabric queue as they issue and act in its order. FAB_CFG loads an image that
passes its check and is illegal with one that does not; FAB_RUN writes its output streams, converted to their formats, and nothing else of memory, and
a reduction leaves each lane its row's sum; FAB_LANE gives its lanes their results. -/
def Obligations.FabricOperations : Prop := ∀ (s : State) (b : Fin 64) (c : Fin 4),
  (∀ l w, s.nextInstr b.val c.val = some (l, w) → isFab w = true →
    (s.blk b.val).fabQ ++ [⟨l.ctx, l.entry, w⟩] <+: ((s.fed b.val).blk b.val).fabQ) ∧
  (∀ j q s1 l, ((s.fed b.val).blk b.val).fabQ = j :: q → j.ctx = c.val → (s.fed b.val).blockStopped b.val = false →
    (s.fed b.val).fabWaits b.val j = false → s1 = (s.fed b.val).setBlk b.val { (s.fed b.val).blk b.val with fabQ := q } →
    s1.launches.find? (fun x => x.entry == j.entry) = some l → l.block = b.val → l.ctx = c.val →
    (iBits j.word 0 8 = opFabCfg → cfgLegal s1 l j.word = true →
      (imageOk (s.bytes (vatAt b.val + iBits j.word 32 17 * 64) imageSize) = true →
        ∃ t, exec (.fabCfg b c) s = .next t ∧ (t.blk b.val).fabQ = q ∧ MemSame s t ∧ t.fld (BLK_FAB_PLANE_valid b.val (iBits j.word 8 1)) = 1 ∧
          t.image b.val (iBits j.word 8 1) = some (s.bytes (vatAt b.val + iBits j.word 32 17 * 64) imageSize)) ∧
      (imageOk (s.bytes (vatAt b.val + iBits j.word 32 17 * 64) imageSize) = false →
        ∃ t, exec (.fabCfg b c) s = .next t ∧ EndsAs t l.entry .faultFailed .illegalInstruction ∧ MemSame s t ∧
          t.image b.val (iBits j.word 8 1) = none ∧ t.fld (BLK_FAB_STATUS_bad_image b.val) = 1)) ∧
    (iBits j.word 0 8 = opFabRun → runLegal s1 l j.word = true → ∀ o outs, o = fabOp s b.val j.word → outs = (o.streams.drop 3).filter FabStream.used →
      ∃ t, exec (.fabRun b c .none) s = .next t ∧ (t.blk b.val).fabQ = q ∧ t.pan = s.pan ∧
        (∀ a, (∀ x ∈ outs, a < vatAt b.val + x.base ∨ vatAt b.val + x.base + x.span o.rows o.len ≤ a) → t.byte a = s.byte a) ∧
        (o.mode = 0 → t.lanes = s.lanes) ∧
        (∀ g, s.image b.val o.plane = some g →
          (o.mode ≠ 0 → ∀ i < o.rows, t.laneReg b.val l.ctx (o.reg + i / 64) (i % 64) = laneSum s1 l g o i) ∧
          (∀ x, o.replayable = true → outs = [x] → o.len * (fabFmt x.fmt).bytes ≤ x.stride → ∀ i < o.rows, ∀ k < o.len,
            t.bytes (vatAt b.val + x.base + i * x.stride + k * (fabFmt x.fmt).bytes) (fabFmt x.fmt).bytes = (fabOut s1 l g o i k 0 x).1))) ∧
    (iBits j.word 0 8 = opFabLane → laneLegal s1 l j.word = true →
      (∃ t, exec (.fabLane b ⟨c, false⟩) s = .next t ∧ (t.blk b.val).fabQ = q ∧
        ((laneOp j.word).op ≠ 9 → MemSame s t ∧ ∀ i < (laneOp j.word).count, ∀ ln < 64, t.laneReg b.val l.ctx ((laneOp j.word).dst + i) ln =
          if (laneOp j.word).op = 8 then s.le (vatAt b.val + (laneOp j.word).vat + i * 256 + ln * 4) 4
          else laneResult (laneOp j.word).op (laneOp j.word).imm (s.laneReg b.val l.ctx ((laneOp j.word).dst + i) ln)
            (s.laneReg b.val l.ctx ((laneOp j.word).src + i) ln)) ∧
        ((laneOp j.word).op = 9 → t.lanes = s.lanes ∧ ∀ i < (laneOp j.word).count, ∀ ln < 64,
          t.bytes (vatAt b.val + (laneOp j.word).vat + i * 256 + ln * 4) 4 = leBytes 4 (s.laneReg b.val l.ctx ((laneOp j.word).dst + i) ln))) ∧
      (∃ t, exec (.fabLane b ⟨c, true⟩) s = .next t ∧ t.fld (BLK_FAB_STATUS_parity_error b.val) = 1 ∧
        SMap.get (fun _ => 0) t.blkErr (s.phys b.val) = SMap.get (fun _ => 0) s.blkErr (s.phys b.val) + 1)))

/-- R217, R220, R222, R224, R228 to R232: a faulty plane is restored or lost; GRM_TAP arms its context's tap; the Gram unit adds the oldest sampled row
into the upper triangle of its slot; GRM_DRAIN copies a slot to the vat and keeps it. -/
def Obligations.GramAndPlanes : Prop := ∀ (s : State) (b : Fin 64),
  (∀ p : Fin 2, s.absent b.val = false → s.regionFenced (b.val / 16) = false → s.image b.val p.val ≠ none →
    (∃ t, exec (.planeScan b (some p) true) s = .next t ∧ t.fld (BLK_FAB_STATUS_plane_restored b.val) = 1 ∧ t.blocks = s.blocks) ∧
    (∃ t, exec (.planeScan b (some p) false) s = .next t ∧ t.fld (BLK_FAB_STATUS_parity_error b.val) = 1 ∧ t.image b.val p.val = none)) ∧
  (∀ x xs, s.absent b.val = false → s.regionFenced (b.val / 16) = false → (s.blk b.val).samples = x :: xs →
    (x.clear = false → ∃ t, exec (.gramRowStart b false) s = .next t ∧ (t.blk b.val).samples = xs ∧ MemSame s t ∧
      (∀ i j, i ≤ j → j < 128 → t.statWord b.val x.slot i j = Fmt.fp32.rne ((Fmt.fp32.decode (s.statWord b.val x.slot i j)).add
        ((Fmt.bf16.decode (x.row.getD i 0)).mul (Fmt.bf16.decode (x.row.getD j 0))))) ∧
      (∀ i j, j < i → i < 128 → t.statWord b.val x.slot i j = s.statWord b.val x.slot i j)) ∧
    (∃ t, exec (.gramRowStart b true) s = .next t ∧ t.fld (GRM_STATUS_parity_error b.val) = 1)) ∧
  (∀ (c : Fin 4) l w, s.nextInstr b.val c.val = some (l, w) → s.launches.find? (fun x => x.entry == l.entry) = some l →
    (iBits w 0 8 = opGrmTap → tapLegal s l w = true →
      ∃ t, exec (.grmTap b c) s = .next t ∧ IssuedOne l t ∧ MemSame s t ∧
        (l.pc + 1 < l.len → SMap.find (t.blk b.val).taps l.ctx = some (tapOp w)) ∧
        (SMap.find (s.blk b.val).taps l.ctx ≠ none → t.fld (GRM_STATUS_tap_dropped b.val) = 1)) ∧
    (iBits w 0 8 = opGrmDrain → gdrainLegal s l w = true → (s.blk b.val).samples = [] →
      ∃ t, exec (.grmDrain b c false) s = .next t ∧ IssuedOne l t ∧ t.stat = s.stat ∧
        (∀ k < 16384, t.bytes (vatAt b.val + iBits w 32 17 * 64 + 4 * k) 4 =
          leBytes 4 (s.statWord b.val (iBits w 8 4) (k / 128) (k % 128))) ∧
        (∀ a, a < vatAt b.val + iBits w 32 17 * 64 ∨ vatAt b.val + iBits w 32 17 * 64 + 65536 ≤ a → t.byte a = s.byte a)))

/-! ### STATS, ROOT, the solver and UPDATE (07_curvature_statistics.md to 10_update_engine.md) -/

/-- R235, R237 to R244: a STATS with group 0 whose checks pass runs on a confirmed apply or clip: it writes the factor blocks that it updates, and the
others as they are, to the copy that is not committed and then the header; it leaves out the blocks whose sums are not finite. On skip or veto it is
SKIPPED; its deadline before the verdict ends it with LATE. -/
def Obligations.StatsRuns : Prop := ∀ (s : State) (e : Nat), s.fresh e kindStats = true → dGroup (s.desc e) = 0 →
  (∀ x y z : List Byte × AccEnd × State, statsOk (s.desc e) = true → s.statsLate (s.desc e) = false →
    s.earlier e kindStats (fun d => stArea d == stArea (s.desc e)) = false →
    (∀ p ∈ s.work, p.2.done = true ∨ p.2.kind ≠ kindStats ∨ p.1 = e ∨ p.2.phase = 0 ∨ stArea (s.desc p.1) ≠ stArea (s.desc e)) →
    x = s.load devUnit (stArea (s.desc e)) 64 → x.2.1 = .ok → statsHeaderOk (s.desc e) x.1 = true → s.statsPlace (s.desc e) x.1 = .none →
    (∀ code, s.confirmedCode (leAt (s.desc e) 36 4) = some code → code = 3 ∨ code = 4 →
      ∃ t, exec (.stats e .none) s = .next t ∧ EndsAs t e .skipped .none ∧ MemSame s t) ∧
    (∀ code, s.confirmedCode (leAt (s.desc e) 36 4) = some code → code ≠ 3 → code ≠ 4 →
      y = x.2.2.load devUnit (factorAt (stArea (s.desc e)) (faD x.1) (faB x.1) (faVersion x.1) 0) (copySize (faD x.1) (faB x.1)) → y.2.1 = .ok →
      z = y.2.2.load devUnit (leAt (s.desc e) 40 8) (sumOff (s.desc e) x.1 (stFirst (s.desc e) + stCount (s.desc e))) → z.2.1 = .ok →
      ∃ t d left, exec (.stats e .none) s = .next t ∧ t.doneQ.getLast? = some d ∧ d.entry = e ∧
        left = ((List.range (stCount (s.desc e))).filter (fun k => !s.sumsFinite (s.desc e) x.1 (stFirst (s.desc e) + k))).length ∧
        d.c2 = left % 2 ^ 32 ∧ d.status = (if left = 0 then .ok else .range) ∧
        (stArea (s.desc e) + 64 + 2 * copySize (faD x.1) (faB x.1) ≤ hbmTop →
          t.bytes (stArea (s.desc e)) 64 = statsHeader (s.desc e) x.1 ∧
          ∀ new, new = (List.range (blockCount (faD x.1) (faB x.1))).flatMap (fun q => s.newFactor (s.desc e) x.1 q) →
            t.bytes (factorAt (stArea (s.desc e)) (faD x.1) (faB x.1) (faVersion x.1 + 1) 0) new.length = new)) ∧
    (s.confirmedCode (leAt (s.desc e) 36 4) = none → exec (.stats e .none) s = .next s)) ∧
  (statsOk (s.desc e) = true → s.statsLate (s.desc e) = true → ∀ u, ∃ t, exec (.stats e u) s = .next t ∧ EndsAs t e .late .none ∧ MemSame s t) ∧
  (statsOk (s.desc e) = false → ∀ u, exec (.stats e u) s = .next (s.complete e [.faultFailed] .badDescriptor)) ∧
  (dDeadlineValid (s.desc e) = true → s.confirmedCode (leAt (s.desc e) 36 4) = none →
    ∃ t, exec (.statsDeadline e) s = .next t ∧ EndsAs t e .late .none ∧ t.tide.ns = max s.tide.ns (dDeadline (s.desc e)) % 2 ^ 64 ∧ MemSame s t)

/-- R249, R255 to R257, R259, R264, R270, R271, R274, R275: a ROOT whose checks pass and whose sequencers are free starts its job from the source, or
resumes the newest slot; an iteration that neither converges nor stalls nor diverges leads to the next; one that reaches the tolerance publishes and
ends; the deadline ends the job with LATE. -/
def Obligations.RootJobs : Prop := ∀ (s : State) (e : Nat),
  (∀ x y z : List Byte × AccEnd × State, s.fresh e kindRoot = true → rootBodyOk (s.desc e) = true → s.tide.ns < dDeadline (s.desc e) →
    x = (if rtRaw (s.desc e) then ([], .ok, s) else s.load devUnit (rtSource (s.desc e)) 64) → x.2.1 = .ok →
    y = x.2.2.load devUnit (rtArea (s.desc e)) 64 → y.2.1 = .ok → rootHeadOk (s.desc e) x.1 y.1 = true →
    s.placementErr (s.desc e) (leAt (s.desc e) 59 1) = .none →
    (rtFlag (s.desc e) 6 = true → s.placementErr (s.desc e) (leAt (s.desc e) 61 1) = .none) → s.rootWaits e (s.desc e) = false →
    (s.canResume (s.desc e) x.1 = false → z = y.2.2.load devUnit (rootSpan (s.desc e) x.1).1 (rootSpan (s.desc e) x.1).2 → z.2.1 = .ok →
      (∀ v ∈ s.ingest (s.desc e) x.1, finBits Fmt.bf16 v = true) → s.anyPoison (s.warmAt (s.desc e)) (rootSize (rtN (s.desc e) x.1 / 128)) = false →
      ∃ t j, exec (.root e) s = .next t ∧ t.doing e kindRoot = true ∧ t.rootJob e = some j ∧ j.k = 0 ∧ j.run = 0 ∧ j.n = rtN (s.desc e) x.1 ∧
        j.blocks = s.placement (s.desc e) (leAt (s.desc e) 59 1) ∧ j.dupBlocks = (s.dupPlace (s.desc e)).1 ∧ j.sig = rootSig (s.desc e) x.1) ∧
    (s.canResume (s.desc e) x.1 = true → s.le (rtWork (s.desc e)) 1 = 2 → z = y.2.2.load devUnit (slotSpan (s.desc e) x.1).1 (slotSpan (s.desc e) x.1).2 →
      z.2.1 = .ok →
      ∃ t j, exec (.root e) s = .next t ∧ t.doing e kindRoot = true ∧ t.rootJob e = some j ∧
        j.k = s.slotK (rtWork (s.desc e)) (s.newestSlot (rtWork (s.desc e))) ∧ j.run = 0 ∧ j.n = rtN (s.desc e) x.1 ∧
        j.blocks = s.placement (s.desc e) (leAt (s.desc e) 59 1) ∧ j.sig = rootSig (s.desc e) x.1)) ∧
  (∀ j xm r, s.rootJob e = some j → j.lost = false → j.pub = none → s.slotPoisoned (s.desc e) j = false →
    xm = iterate j.n (rtCode (s.desc e)) j.x j.m → r = residual j.n xm.2 →
    f32finite r = true → f32lt 0x40000000 r = false →
    (s.tide.ns ≤ dDeadline (s.desc e) → f32le r (rtTol (s.desc e)) = false → j.k + 1 < 2 ∨ f32le j.res r = false → j.k + 1 ≠ rtKmax (s.desc e) →
      ∃ t y, exec (.rootIterationEnd e false) s = .next t ∧ t.rootJob e = some y ∧ y.k = j.k + 1 ∧ y.run = j.run + 1 ∧ y.x = xm.1 ∧ y.m = xm.2 ∧
        y.res = r ∧ y.n = j.n ∧ t.doneQ = s.doneQ) ∧
    (s.tide.ns < dDeadline (s.desc e) → f32le r (rtTol (s.desc e)) = true → (∀ v, s.copyRecorded (rtArea (s.desc e)) (rtQ (s.desc e)) v = false) →
      dGroup (s.desc e) = 0 → j.retried = false →
      ∃ t d, exec (.rootIterationEnd e false) s = .next t ∧ t.rootJob e = none ∧ t.doneQ.getLast? = some d ∧ d.entry = e ∧ d.err = .none ∧
        d.status = (if j.cold then .coldStart else if j.replayed then .replayed else .ok) ∧ d.c1 = (j.run + 1) % 2 ^ 32)) ∧
  (∀ j, s.doing e kindRoot = true → dDeadlineValid (s.desc e) = true → s.rootJob e = some j →
    ∃ t, exec (.rootDeadline e) s = .next t ∧ t.rootJob e = none ∧ (∃ d ∈ t.doneQ, d.entry = e ∧ d.status = .late) ∧
      t.tide.ns = max s.tide.ns (dDeadline (s.desc e)) % 2 ^ 64) ∧
  (s.fresh e kindRoot = true → dDeadlineValid (s.desc e) = true → s.rootJob e = none →
    ∃ t, exec (.rootDeadline e) s = .next t ∧ (∃ d ∈ t.doneQ, d.entry = e ∧ d.status = .late) ∧ MemSame s t)

/-- R282 to R286, R289, R290: a LOAD whose image passes every check makes its system the resident one, at the f that is set or the bound; an UPDATE whose
batch fits changes the values it names and keeps f; either goes on to its SOLVE or completes. R298, R299, R301, R305, R309, R310: a SOLVE of the
resident system ends with one of the stop reasons 0 to 4 and its status, and keeps the system; with its deadline in setup it does not count as
converged or at its limit; a fatal fault of the structure store drops the system and fails the descriptor that runs. -/
def Obligations.SystemsAndSolves : Prop :=
  (∀ (s : State) (e f r : Nat), r = slRegion (s.desc e) → s.fresh e kindSolve = true →
    solveOk (s.desc e) = true → s.solveTurn e = true → s.regionFenced r = false →
    (∀ (x y : List Byte × AccEnd × State) nn raw vals lam g f' es l, slOp (s.desc e) 0 = true →
      x = s.load devUnit (leAt (s.desc e) 32 8) 64 → x.2.1 = .ok → nn = leAt x.1 4 4 →
      y = x.2.2.load devUnit (leAt (s.desc e) 32 8 + 64) (8 * nn) → y.2.1 = .ok →
      raw = (List.range nn).map (fun i => (leAt y.1 (8 * i) 4, leAt y.1 (8 * i + 4) 4)) → structOk (leAt x.1 0 4) nn x.1 raw = true →
      vals = raw.map (fun t => (Fmt.fp32.decode t.1, t.2)) → lam = Fmt.fp32.decode (leAt x.1 8 4) → (∀ v ∈ vals, v.1.isFin = true) → lam.isFin = true →
      g = ((rowsOf (·.2) vals []).zipIdx.map (fun t => gOf (rowMag lam t.2 t.1))).foldl max (-128) → 0 ≤ fBound (slHead (s.desc e)) g →
      f' = min f (fBound (slHead (s.desc e)) g).toNat → es = vals.map (fun t => (((toSq f' t.1).getD (0, false)).1, t.2)) →
      l = ((toSq f' lam).getD (0, false)).1 → rulesHold (slHead (s.desc e)) l es = true →
      ∃ t, exec (.solverLoad e f .none) s = .next t ∧ (t.solver r).valid = true ∧ (t.solver r).id = slId (s.desc e) ∧ (t.solver r).n = leAt x.1 0 4 ∧
        (t.solver r).f = f' ∧ (t.solver r).lam = l ∧ (t.solver r).entries = es ∧ t.fld (SIS_STATUS_sys_valid r) = 1 ∧
        (slOp (s.desc e) 2 = true → t.doing e kindSolve = true) ∧ (slOp (s.desc e) 2 = false → EndsAs t e .ok .none)) ∧
    (∀ (y : List Byte × AccEnd × State) b, slOp (s.desc e) 1 = true → systemOk (s.solver r) (s.desc e) = true → wrongWork (s.solver r) (s.desc e) = false →
      y = s.load devUnit (leAt (s.desc e) 32 8) (8 * slCount (s.desc e)) → y.2.1 = .ok →
      b = (List.range (slCount (s.desc e))).map (fun i => (leAt y.1 (8 * i) 4, Fmt.fp32.decode (leAt y.1 (8 * i + 4) 4))) →
      (∀ t ∈ b, t.1 < (s.solver r).entries.length ∨ t.1 = 0xFFFFFFFF) →
      (applyBatch (s.solver r).h (s.solver r).f ((s.solver r).lam, (s.solver r).entries) b).2 = true →
      ∃ t, exec (.solverUpdate e f .none) s = .next t ∧ (t.solver r).f = (s.solver r).f ∧ (t.solver r).id = (s.solver r).id ∧
        ((t.solver r).lam, (t.solver r).entries) = (applyBatch (s.solver r).h (s.solver r).f ((s.solver r).lam, (s.solver r).entries) b).1 ∧
        (slOp (s.desc e) 2 = true → t.doing e kindSolve = true) ∧ (slOp (s.desc e) 2 = false → EndsAs t e .ok .none))) ∧
  (∀ s : State,
    (∀ e r (x y : List Byte × AccEnd × State), r = slRegion (s.desc e) → s.solveNext e = true → solveOk (s.desc e) = true → s.regionFenced r = false →
      systemOk (s.solver r) (s.desc e) = true → wrongWork (s.solver r) (s.desc e) = false → s.solveAdd e = [] →
      (x = s.load devUnit (leAt (s.desc e) 40 8) (4 * (s.solver r).n) → x.2.1 = .ok →
        y = (if slOp (s.desc e) 3 then x.2.2.load devUnit (leAt (s.desc e) 48 8) (4 * (s.solver r).n) else ([], .ok, x.2.2)) → y.2.1 = .ok →
        ∃ t d reason, exec (.solverSolve e .none) s = .next t ∧ t.doneQ.getLast? = some d ∧ d.entry = e ∧ reason ≤ 4 ∧ d.c2 = reason ∧
          d.status = reasonStatus reason ∧ t.fld (SIS_STATUS_last_reason r) = reason ∧ (t.solver r).entries = (s.solver r).entries ∧
          (s.deadlinePast (s.desc e) = true → 2 ≤ reason)) ∧
      (dDeadlineValid (s.desc e) = true → ∀ within : Option Nat,
        x = (s.atTide (dDeadline (s.desc e))).load devUnit (leAt (s.desc e) 40 8) (4 * (s.solver r).n) → x.2.1 = .ok →
        y = (if slOp (s.desc e) 3 then x.2.2.load devUnit (leAt (s.desc e) 48 8) (4 * (s.solver r).n) else ([], .ok, x.2.2)) → y.2.1 = .ok →
        ∃ t d reason, exec (.solveDeadline e within) s = .next t ∧ t.doneQ.getLast? = some d ∧ d.entry = e ∧ reason ≤ 4 ∧ d.c2 = reason ∧
          d.status = reasonStatus reason ∧ t.tide.ns = max s.tide.ns (dDeadline (s.desc e)) % 2 ^ 64 ∧
          (t.solver r).entries = (s.solver r).entries ∧ (within = none → 2 ≤ reason))) ∧
    (∀ r : Fin 4,
      (∃ t, exec (.structureScrub r .corrected) s = .next t ∧ t.fld (SIS_STATUS_ecc_corrected r.val) = 1 ∧ t.solvers = s.solvers) ∧
      (∃ t, exec (.structureScrub r .fatal) s = .next t ∧ t.fld (SIS_STATUS_ecc_fatal r.val) = 1 ∧ (t.solver r.val).valid = false ∧
        (∀ e, s.solveRunning r.val = some e → EndsAs t e .faultFailed .storeFault))))

/-- R320, R326 to R331, R342, R345: an UPDATE whose checks pass waits while its step has no verdict; on skip or veto it stages nothing and is SKIPPED;
else it stages the write of its shard's header, with the number of its elements and the verdict's code. -/
def Obligations.UpdatesStage : Prop := ∀ (s : State) (e : Nat) (y h : List Byte × AccEnd × State) (x : Group),
  s.fresh e kindUpdate = true → updateOk (s.desc e) = true → y = s.load devUnit (leAt (s.desc e) 40 8) 64 → y.2.1 = .ok →
  h = y.2.2.load devUnit (leAt (s.desc e) 16 8) 64 → h.2.1 = .ok → (hyperOf y.1).ok = true → dZero y.1 40 63 = true →
  s.sidesOk (s.desc e) (shardOf h.1) = true → s.openGroup (dGroup (s.desc e)) = some x → s.placeErr (leAt (s.desc e) 37 1 % 64) = .none →
  s.updateHolds e (leAt (s.desc e) 16 8) = false → s.earlier e kindUpdate (fun z => leAt z 16 8 == leAt (s.desc e) 16 8) = false →
  x.members.length < x.expected → x.effects.length < 4096 → s.effectsHeld < 32768 →
  (s.verdictFor (s.desc e) = none → exec (.update e .none) s = .next s) ∧
  (∀ v, s.verdictFor (s.desc e) = some v → v.code = 3 ∨ v.code = 4 →
    ∃ t, exec (.update e .none) s = .next t ∧ MemSame s t ∧
      t.groupOf (dGroup (s.desc e)) = some { x with members := x.members ++ [⟨e, [.skipped], 0, v.code⟩] }) ∧
  (∀ v (g a c : List Byte × AccEnd × State), s.verdictFor (s.desc e) = some v → v.code ≠ 3 → v.code ≠ 4 →
    s.sheetRead (leAt (s.desc e) 16 8) ((shardOf h.1).version % 2 == 0) = false →
    g = h.2.2.load devUnit (leAt (s.desc e) 24 8) (4 * (shardOf h.1).n) →
    a = (if bitsOf (leAt (s.desc e) 36 1) 0 2 = 2 then g.2.2.load devUnit (leAt (s.desc e) 48 8) (4 * (shardOf h.1).n) else ([], .ok, g.2.2)) →
    c = a.2.2.load devUnit (sheetAt (leAt (s.desc e) 16 8) (shardOf h.1).n (shardOf h.1).bittern ((shardOf h.1).version % 2 == 1))
      (sheetSize (shardOf h.1).n (shardOf h.1).bittern) →
    g.2.1 = .ok → a.2.1 = .ok → c.2.1 = .ok →
    ∃ t f, exec (.update e .none) s = .next t ∧ t.doing e kindUpdate = true ∧
      t.groupOf (dGroup (s.desc e)) = some { x with
        members := x.members ++ [⟨e, [.ok], (shardOf h.1).n, v.code⟩], effects := x.effects ++ [.write (leAt (s.desc e) 16 8) f] } ∧
      leAt f 0 8 = ((shardOf h.1).version + 1) % 2 ^ 64)

/-! ### Commit groups, owner maps (10_update_engine.md, 12_job_mapping.md) -/

/-- R339, R341, R343, R344: a GROUP_BEGIN opens its group, and a verdict-bound one names its step, domain and verdict tide; a GROUP_COMMIT of an open
group waits in it; a commit or an abort of a group that is not open fails with GROUP_CLOSED; a group whose members have all staged commits, its record
first written in one mirror, then in the other, then its effects made, and its GROUP_COMMIT completes with OK; an abort and a deadline that passes end
the group without its effects, but an abort that comes once the record write has begun is LATE. -/
def Obligations.GroupLife : Prop := ∀ s : State,
  (∀ e, s.fresh e kindGroupBegin = true → s.groupBeginOk (s.desc e) = true →
    (bitOf (leAt (s.desc e) 20 1) 0 = false →
      ∃ t, exec (.groupBegin e) s = .next t ∧ EndsAs t e .ok .none ∧
        t.groupOf (dGroup (s.desc e)) = some { Group.zero with begin_ := e, expected := leAt (s.desc e) 16 4 } ∧
        (∀ g, g ≠ dGroup (s.desc e) → t.groupOf g = s.groupOf g) ∧ MemSame s t) ∧
    (bitOf (leAt (s.desc e) 20 1) 0 = true → s.verdictOf (leAt (s.desc e) 24 4) = none → s.restartDue = false →
      ∃ t v, exec (.groupBegin e) s = .next t ∧ EndsAs t e .ok .none ∧
        t.groupOf (dGroup (s.desc e)) = some { Group.zero with
          begin_ := e, expected := leAt (s.desc e) 16 4, bound := some (leAt (s.desc e) 24 4, leAt (s.desc e) 22 2, leAt (s.desc e) 32 8) } ∧
        t.verdictOf (leAt (s.desc e) 24 4) = some v ∧ v.bound = true ∧ v.domain = leAt (s.desc e) 22 2 ∧ v.vtide = leAt (s.desc e) 32 8 ∧ v.phase = 0 ∧
        t.fld UPD_VERDICT_STATUS_state = 1 ∧ (∀ g, g ≠ dGroup (s.desc e) → t.groupOf g = s.groupOf g) ∧ MemSame s t)) ∧
  (∀ e, s.fresh e kindGroupCommit = true → dZero (s.desc e) 16 63 = true →
    (s.groupOf (dGroup (s.desc e)) = none → exec (.groupCommit e) s = .next (s.complete e [.faultFailed] .groupClosed)) ∧
    (∀ x, s.groupOf (dGroup (s.desc e)) = some x → x.commit = none →
      ∃ t, exec (.groupCommit e) s = .next t ∧ t.groupOf (dGroup (s.desc e)) = some { x with commit := some e } ∧
        t.doing e kindGroupCommit = true ∧ t = { s with groups := t.groups, work := t.work })) ∧
  (∀ e, s.fresh e kindGroupAbort = true → dZero (s.desc e) 16 63 = true →
    ((s.recOf (dGroup (s.desc e))).isSome = true → exec (.groupAbort e) s = .next (s.complete e [.late] .none)) ∧
    (s.recOf (dGroup (s.desc e)) = none → s.groupOf (dGroup (s.desc e)) = none →
      exec (.groupAbort e) s = .next (s.complete e [.faultFailed] .groupClosed)) ∧
    ((s.openGroup (dGroup (s.desc e))).isSome = true →
      ∃ t, exec (.groupAbort e) s = .next t ∧ EndsAs t e .ok .none ∧ t.groupOf (dGroup (s.desc e)) = none ∧ MemSame s t)) ∧
  (∀ (g : Fin 4096) x e, s.openGroup g.val = some x → x.commit = some e → x.members.length = x.expected → x.bound = none → s.lateMembers x = [] →
    s.mirrorAOk = true → s.mirrorBOk = true → dDeadlineValid (s.desc e) = false →
    (∃ t, exec (.groupCommitExecute ⟨g, none⟩) s = .next t ∧ EndsAs t e .ok .none ∧ t.groupOf g.val = none ∧
      (x.effects = [] → MemSame s t ∧ t.fld UPD_GROUP_COUNT_commits = min (s.fld UPD_GROUP_COUNT_commits + 1) 0xFFFF)) ∧
    (∃ t c, exec (.groupCommitExecute ⟨g, some 1⟩) s = .next t ∧ t.recOf g.val = some c ∧ c.entry = e ∧ c.effects = x.effects ∧ c.mirrors = 1 ∧
      c.made = 0 ∧ t.groupOf g.val = some x ∧ MemSame s t)) ∧
  (∀ (g : Fin 4096) c, s.recOf g.val = some c → c.mirrors = 2 → c.made < c.effects.length →
    ∃ t, exec (.groupCommitExecute ⟨g, some 1⟩) s = .next t ∧
      (∀ f, c.effects[c.made]? = some f → t = ((s.putRec { c with made := c.made + 1 }).count (cntHub 17)).makeEffect f)) ∧
  (∀ (g : Fin 4096) x e, s.openGroup g.val = some x → x.commit = some e → dDeadlineValid (s.desc e) = true →
    ∃ t, exec (.groupDeadline g) s = .next t ∧ EndsAs t e .late .none ∧ t.groupOf g.val = none ∧
      t.tide.ns = max s.tide.ns (s.judgedAt x (dDeadline (s.desc e))) % 2 ^ 64 ∧ MemSame s t)

/-- R392 to R399, R414, R415: an OWNER_MAP outside a group whose table passes every check is installed at once with activation tide 0, and is kept for its
activation tide with a later one; REMOVE removes the map; a table that fails a check leaves the store as it was. -/
def Obligations.OwnerMaps : Prop := ∀ (s : State) (e : Nat),
  (s.fresh e kindOwnerMap = true → bitOf (leAt (s.desc e) 26 1) 0 = false → dGroup (s.desc e) = 0 →
    (ownerMapOk (s.desc e) = false →
      ∃ t, exec (.ownerMap e) s = .next t ∧ EndsAs t e .faultFailed .badDescriptor ∧ t.fld HUB_MAP_STATUS_bad_map = 1 ∧ t.maps = s.maps) ∧
    (∀ h x, h = s.load (.unit (srcOther 1)) (leAt (s.desc e) 16 8) 64 →
      x = h.2.2.load (.unit (srcOther 1)) (leAt (s.desc e) 16 8 + 64) (16 * leAt h.1 12 2) → h.2.1 = .ok → x.2.1 = .ok →
      ownerMapOk (s.desc e) = true → leAt (s.desc e) 16 8 % 64 = 0 → leAt (s.desc e) 16 8 < hbmTop →
      tableOk h.1 x.1 (leAt (s.desc e) 24 2) = true → s.mapFits (leAt (s.desc e) 24 2) (mapOf h.1 x.1) = true →
      s.mapNow (leAt (s.desc e) 24 2) (roundFrame (leAt (s.desc e) 32 8)) = none →
      (leAt (s.desc e) 32 8 = 0 →
        ∃ t, exec (.ownerMap e) s = .next t ∧ EndsAs t e .ok .none ∧ SMap.find t.maps (leAt (s.desc e) 24 2) = some (mapOf h.1 x.1) ∧
          (∀ i, i ≠ leAt (s.desc e) 24 2 → SMap.find t.maps i = SMap.find s.maps i) ∧ MemSame s t) ∧
      (s.tide.ns + frameNs ≤ roundFrame (leAt (s.desc e) 32 8) → roundFrame (leAt (s.desc e) 32 8) ≠ 0 →
        ∃ t a c b, exec (.ownerMap e) s = .next t ∧ s.mapPend.Perm (a ++ b) ∧ t.mapPend = a ++ c :: b ∧
          (∀ y ∈ b, ∃ k, y.entry = some k ∧ (s.jget e).order < (s.jget k).order) ∧ c.id = leAt (s.desc e) 24 2 ∧ c.map = mapOf h.1 x.1 ∧
          c.tide = roundFrame (leAt (s.desc e) 32 8) ∧ t.maps = s.maps ∧ t.doing e kindOwnerMap = true ∧ MemSame s t))) ∧
  (s.fresh e kindOwnerMap = true → bitOf (leAt (s.desc e) 26 1) 0 = true → ownerMapOk (s.desc e) = true → dGroup (s.desc e) = 0 →
    leAt (s.desc e) 32 8 = 0 →
    ∃ t, exec (.ownerMapRemove e) s = .next t ∧ EndsAs t e .ok .none ∧ SMap.find t.maps (leAt (s.desc e) 24 2) = none ∧
      (∀ i, i ≠ leAt (s.desc e) 24 2 → SMap.find t.maps i = SMap.find s.maps i) ∧ MemSame s t) ∧
  (∀ c, nextChange s.mapPend = some c → c.remove = false → s.mapFits c.id c.map = true → SMap.find s.maps c.id = none →
    ∃ t, exec .mapActivate s = .next t ∧ SMap.find t.maps c.id = some c.map ∧ t.mapPend = s.mapPend.erase c ∧ t.tide.ns = max s.tide.ns c.tide % 2 ^ 64 ∧
      (∀ x, c.entry = some x → EndsAs t x (if c.clamped then .clamped else .ok) .none) ∧ MemSame s t)

/-! ### Harvest windows (11_reduction.md) -/

/-- R361, R384: a HARVEST whose window is FREE or in TRAIL opens it for its step, with its deadline as the sluice; one whose window is OPEN or CLOSING
waits; one that breaks a check fails before any effect. R363, R364: at the sluice an open window closes when every included contribution is complete,
early where as many as expected are; at the end of the grace it closes in any case, torn where one is incomplete. -/
def Obligations.HarvestAndSluice : Prop :=
  (∀ (s : State) (e : Nat), s.fresh e kindReduce = true → rRole (s.desc e) = 1 →
    (s.harvestOk (s.desc e) = false → exec (.reduceHarvest e) s = .next (s.complete e [.faultFailed] .badDescriptor)) ∧
    (s.harvestOk (s.desc e) = true → (s.win (rWindow (s.desc e))).state = 1 ∨ (s.win (rWindow (s.desc e))).state = 2 →
      exec (.reduceHarvest e) s = .next s) ∧
    (s.harvestOk (s.desc e) = true → (s.win (rWindow (s.desc e))).state ≠ 1 → (s.win (rWindow (s.desc e))).state ≠ 2 →
      ∃ t, exec (.reduceHarvest e) s = .next t ∧ t.doing e kindReduce = true ∧ (t.win (rWindow (s.desc e))).state = 1 ∧
        (t.win (rWindow (s.desc e))).step = rStep (s.desc e) ∧ (t.win (rWindow (s.desc e))).entry = e ∧
        (t.win (rWindow (s.desc e))).sluice = dDeadline (s.desc e) ∧ (t.win (rWindow (s.desc e))).elems = rElems (s.desc e) ∧
        (∀ w, w ≠ rWindow (s.desc e) → t.win w = s.win w) ∧
        ((s.win (rWindow (s.desc e))).hasCarry = false → t.hcells = s.hcells ∧
          (s.restartDue = false → MemSame s t ∧ (t.win (rWindow (s.desc e))).anchor = s.anchorOf (rRecord (s.desc e)))))) ∧
  (∀ (s : State) (win : Fin 6144), (s.win win.val).state = 1 →
    ((∀ y ∈ includedOf (s.win win.val), y.done = true) → max s.tide.ns (s.win win.val).sluice < 2 ^ 64 →
      ∃ t, exec (.sluiceReached win) s = .next t ∧ (t.win win.val).state = 2 ∧ (t.win win.val).torn = false ∧
        (t.win win.val).closeTide = t.tide.ns ∧ t.tide.ns = max s.tide.ns (s.win win.val).sluice ∧
        ((t.win win.val).early = true ↔ (includedOf (s.win win.val)).length = hExpected (s.desc (s.win win.val).entry)) ∧ MemSame s t) ∧
    ((∃ y ∈ includedOf (s.win win.val), y.done = false) →
      exec (.sluiceReached win) s = .next (s.atTide (s.win win.val).sluice)) ∧
    (∃ t, exec (.graceExpiry win) s = .next t ∧ (t.win win.val).state = 2 ∧
      ((t.win win.val).torn = true ↔ ∃ y ∈ includedOf (s.win win.val), y.done = false) ∧
      ((∃ y ∈ includedOf (s.win win.val), y.done = false) →
        t.fld (HRV_UNIT_STATUS_torn (winR win.val) (winC win.val)) = 1 ∧ (t.normOf (s.win win.val).step).nonfinite = true) ∧
      t.tide.ns = max s.tide.ns ((s.win win.val).sluice + hGrace (s.desc (s.win win.val).entry) * 2048) % 2 ^ 64 ∧ MemSame s t))

/-- R367, R369, R385: a closed window is read out once the verdict of the step before is confirmed, and not before. The readout completes its HARVEST with
the number of contributions included, leaves the window in TRAIL without a carry set, and clears its cells. -/
def Obligations.WindowReadouts : Prop := ∀ (s : State) (win : Fin 6144) (bad : List Nat), (s.win win.val).state = 2 →
  (s.confirmedCode (prevStep (s.win win.val).step) = none → exec (.windowReadout win bad) s = .next s) ∧
  (∀ code, s.confirmedCode (prevStep (s.win win.val).step) = some code →
    ∃ t d, exec (.windowReadout win bad) s = .next t ∧ (t.win win.val).state = 3 ∧ (t.win win.val).hasCarry = false ∧
      (t.win win.val).step = (s.win win.val).step ∧ t.doneQ.getLast? = some d ∧ d.entry = (s.win win.val).entry ∧
      d.c1 = (includedOf (s.win win.val)).length % 2 ^ 32 ∧
      ((includedOf (s.win win.val)).length < hExpected (s.desc (s.win win.val).entry) → d.status = .faultFailed ∨ d.status = .range ∨ d.status = .late) ∧
      (∀ j, j < (s.win win.val).elems → t.hcell (cellKey win.val (s.win win.val) false j) = HCell.zero))

/-- R332, R333, R334, R375: a norm record that lands in time forms the step's verdict; slot 3 of frame V carries it on every up port and opens the window;
a module without its norm record sends code none with reason 7 and turns to veto. -/
def Obligations.VerdictFormsAndLeaves : Prop := ∀ s : State,
  (∀ r rest, s.normIn = r :: rest →
    (∀ v, s.verdictOf (leAt r 12 4) = some v → v.phase < 2 ∧ (v.bound = true → s.tide.ns < v.vtide + 24)) →
    ∃ t v, exec (.normRecordLand false) s = .next t ∧ t.normIn = rest ∧ t.verdictOf (leAt r 12 4) = some v ∧ v.phase = 1 ∧ v.record = r ∧
      (v.code, v.reason, v.factor, v.norm) = judge (s.fld UPD_NORM_CLIP_clip) (s.fld UPD_NORM_CEILING_ceiling) r ∧ MemSame s t) ∧
  (∀ (step : BitVec 32) v, s.verdictOf step.toNat = some v → v.bound = true → v.phase < 2 →
    ∃ t y, exec (.verdictCellSend step) s = .next t ∧ t.verdictOf step.toNat = some y ∧ y.phase = 2 ∧
      y.window = (if v.latched then v.window else s.fld UPD_VERDICT_CTL_window) ∧ t.tide.ns = max s.tide.ns (v.vtide + 24) % 2 ^ 64 ∧
      (v.phase = 1 → y.code = v.code ∧ ∀ p < 18, s.portUp p = true → (t.port p).vOut = some (verdictBytes y v.code v.reason v.origin)) ∧
      (v.phase = 0 → y.code = 4 ∧ (v.code ≠ 4 → y.reason = 7 ∧ y.origin = s.chip) ∧ ∀ p < 18, s.portUp p = true → ∃ b, (t.port p).vOut = some b) ∧
      MemSame s t)

/-- R334, R335: in frame V a cell that matches takes its port off the list, and so does one of another domain, which is not compared; one that does not
match, or that carries no verdict or a veto, turns the module to veto with reason 5; a cell that failed its check gives reason 8, and a cell that
never came reason 6. R336, R337, R338: at the start of frame V + W + 1 the verdict is confirmed as it stands, with a port whose cell never came as a
veto; queries go to every up port, a neighbour that holds the verdict answers, and an answer confirms it. -/
def Obligations.VerdictAgreement : Prop :=
  (∀ (s : State) (p : Fin 18) (v : Verdict), s.portUp p.val = true → s.awaited p.val = [v] →
    (∀ cell : Cell, cell.hdr.ctype = 5#8 → cell.hdr.length ≠ 0#16 → bitOf (leAt cell.payload 4 1) 7 = false →
      (leAt cell.payload 24 2 ≠ v.domain →
        ∃ t, exec (.verdictCellReceive p cell false) s = .next t ∧
          t.verdictOf v.step = some { v with ports := v.ports.filter (fun x => x != p.val) } ∧ t = { s with verdicts := t.verdicts }) ∧
      (leAt cell.payload 24 2 = v.domain → v.code ≠ 4 →
        (leAt cell.payload 4 1 ≠ 0 → leAt cell.payload 4 1 ≠ 4 → cell.payload.take 6 = (verdictBytes v v.code v.reason v.origin).take 6 →
          bytesAt cell.payload 8 16 = bytesAt (verdictBytes v v.code v.reason v.origin) 8 16 →
          ∃ t, exec (.verdictCellReceive p cell false) s = .next t ∧
            t.verdictOf v.step = some { v with ports := v.ports.filter (fun x => x != p.val) } ∧ t = { s with verdicts := t.verdicts }) ∧
        (leAt cell.payload 4 1 = 0 ∨ leAt cell.payload 4 1 = 4 ∨ cell.payload.take 6 ≠ (verdictBytes v v.code v.reason v.origin).take 6 ∨
            bytesAt cell.payload 8 16 ≠ bytesAt (verdictBytes v v.code v.reason v.origin) 8 16 →
          ∃ t y, exec (.verdictCellReceive p cell false) s = .next t ∧ t.verdictOf v.step = some y ∧ y.code = 4 ∧ y.reason = 5 ∧ y.phase = 2 ∧
            t.fld UPD_VERDICT_STATUS_veto_seen = 1 ∧ MemSame s t))) ∧
    (∀ cell : Cell, v.code ≠ 4 →
      ∃ t y, exec (.verdictCellReceive p cell true) s = .next t ∧ t.verdictOf v.step = some y ∧ y.code = 4 ∧ y.reason = 8 ∧
        t.fld UPD_VERDICT_STATUS_veto_seen = 1 ∧ MemSame s t) ∧
    (∀ step : BitVec 32, s.verdictOf step.toNat = some v → v.code ≠ 4 →
      ∃ t y, exec (.verdictMissingCell p step) s = .next t ∧ t.verdictOf step.toNat = some y ∧ y.code = 4 ∧ y.reason = 6 ∧
        p.val ∉ y.ports ∧ t.tide.ns = max s.tide.ns (v.vtide + frameNs) % 2 ^ 64 ∧ MemSame s t)) ∧
  (∀ s : State,
    (∀ (step : BitVec 32) v, s.verdictOf step.toNat = some v → v.phase = 2 →
      ∃ t, exec (.verdictConfirm step) s = .next t ∧ t.tide.ns = max s.tide.ns (v.vtide + (v.window + 1) * frameNs) % 2 ^ 64 ∧
        t.confirmedCode step.toNat = some (if v.ports = [] then v.code else 4)) ∧
    (∀ step : BitVec 32, s.flag TID_STATUS_locked = true → s.confirmedCode step.toNat = none →
      ∃ t, exec (.verdictQuerySend step) s = .next t ∧ t.fld UPD_VERDICT_STATUS_query_sent = 1 ∧
        (∀ p < 18, s.portUp p = true → (t.port p).ctlOut = (s.port p).ctlOut ++ [.query step]) ∧ RegsBut [UPD_VERDICT_STATUS] s t ∧
        t = { s with regs := t.regs, evt := t.evt, ports := t.ports }) ∧
    (∀ (p : Fin 18) (step : BitVec 32) v, s.verdictOf step.toNat = some v → v.phase = 3 →
      ∃ t, exec (.verdictQueryReceive p step) s = .next t ∧
        (t.port p.val).vNext = some (verdictBytes v (v.code + 128) v.reason v.origin) ∧ t = { s with ports := t.ports }) ∧
    (∀ (p : Fin 18) (cell : Cell) (rec : List Byte), s.portUp p.val = true → cell.hdr.ctype = 5#8 → bitOf (leAt cell.payload 4 1) 7 = true →
      s.confirmedCode (leAt cell.payload 0 4) = none →
      ∃ t, exec (.verdictAnswerReceive p cell rec) s = .next t ∧
        t.confirmedCode (leAt cell.payload 0 4) = some (leAt cell.payload 4 1 % 128)))

/-! ### Counters, watches and saves (13_synchronisation.md) -/

/-- R417, R436, R437: a SIGNAL outside a group raises its operation, which waits at the counter's home; a WAIT registers its watch there; either goes on
until that is answered. A body that breaks a check fails with BAD_DESCRIPTOR. R435: SYN_SIGNAL raises its operation and SYN_WAIT registers its watch
at a counter of this module, and either issues. -/
def Obligations.SignalsAndWaits : Prop :=
  (∀ (s : State) (e : Nat),
    (∀ c op, (c = Instr.signalAdd e ∧ op = 0 ∨ c = Instr.signalSet e ∧ op = 1 ∨ c = Instr.signalOr e ∧ op = 2 ∨ c = Instr.signalAndn e ∧ op = 3) →
      s.fresh e kindSignal = true → leAt (s.desc e) 16 1 = op →
      (signalOk (s.desc e) = true → dGroup (s.desc e) = 0 → bitOf (leAt (s.desc e) 17 1) 0 = false →
        ∀ n, counterOf (gLocal (leAt (s.desc e) 24 8)) = some n →
        (gChip (leAt (s.desc e) 24 8) = s.chip →
          ∃ t, exec c s = .next t ∧ t.doing e kindSignal = true ∧ (t.syncUnit (homeOf n)).ops =
            (s.syncUnit (homeOf n)).ops ++ [⟨n, op, leAt (s.desc e) 20 4, s.entryOrigin e, some e⟩] ∧ t.counters = s.counters ∧ MemSame s t) ∧
        (gChip (leAt (s.desc e) 24 8) ≠ s.chip →
          ∃ t m, exec c s = .next t ∧ t.doing e kindSignal = true ∧ t.syncRaise = s.syncRaise ++ [(m, some e)] ∧ m.mtype = 1#8 ∧
            m.counter = BitVec.ofNat 16 n ∧ m.operand = BitVec.ofNat 32 (leAt (s.desc e) 20 4) ∧
            m.dst = BitVec.ofNat 16 (gChip (leAt (s.desc e) 24 8)) ∧ t = { s with work := t.work, syncRaise := t.syncRaise })) ∧
      (signalOk (s.desc e) = false → memberOf (s.desc e) = 0 → exec c s = .next (s.complete e [.faultFailed] .badDescriptor))) ∧
    (∀ c claim, (c = Instr.waitObserve e ∧ claim = false ∨ c = Instr.waitClaim e ∧ claim = true) →
      s.fresh e kindWait = true → bitOf (leAt (s.desc e) 16 1) 2 = claim →
      (waitOk (s.desc e) = true → ∀ n, counterOf (gLocal (leAt (s.desc e) 24 8)) = some n → gChip (leAt (s.desc e) 24 8) = s.chip →
        ∃ t j, exec c s = .next t ∧ t.doing e kindWait = true ∧ SMap.find t.waits e = some j ∧
          j.watch = ⟨n, claim, bitsOf (leAt (s.desc e) 16 1) 0 2, leAt (s.desc e) 20 4, .ring s.chip j.token, 0⟩ ∧
          (t.syncUnit (homeOf n)).regs = (s.syncUnit (homeOf n)).regs ++ [j.watch] ∧ j.token = s.nextToken ∧ t.counters = s.counters ∧ MemSame s t) ∧
      (waitOk (s.desc e) = false → exec c s = .next (s.complete e [.faultFailed] .badDescriptor))) ∧
    (∀ j, SMap.find s.waits e = some j → dDeadlineValid (s.desc e) = true → dKind (s.desc e) = kindWait →
      ∃ t, exec (.waiterDeadline e) s = .next t ∧ EndsAs t e .late .none ∧ SMap.find t.waits e = none ∧ t.tide.ns = max s.tide.ns (dDeadline (s.desc e)) % 2 ^ 64 ∧
        (j.chip = s.chip → bitOf (leAt (s.desc e) 16 1) 3 = false → j.watch ∈ (t.syncUnit (homeOf j.watch.counter)).cancels ∧ MemSame s t))) ∧
  (∀ (s : State) (b : Fin 64) (c : Fin 4) (l : Launch) (w n : Nat),
    s.nextInstr b.val c.val = some (l, w) → s.launches.find? (fun x => x.entry == l.entry) = some l →
    counterOf (gLocal (iBits w 64 64)) = some n → gChip (iBits w 64 64) = s.chip →
    (iBits w 0 8 = opSynSignal → synSignalLegal s l w = true → bitOf w 10 = false →
      ∃ t, exec (.synSignal b c) s = .next t ∧ IssuedOne l t ∧ MemSame s t ∧ t.counters = s.counters ∧ (t.syncUnit (homeOf n)).ops =
        (s.syncUnit (homeOf n)).ops ++ [⟨n, iBits w 8 2, iBits w 32 32, ⟨s.chip, srcBlock l.block⟩, none⟩]) ∧
    (iBits w 0 8 = opSynWait → synWaitLegal s l w = true →
      ∃ t, exec (.synWait b c) s = .next t ∧ MemSame s t ∧ t.counters = s.counters ∧
        (∃ x ∈ t.launches, x.entry = l.entry ∧ x.pc = l.pc + 1 ∧ x.issued = l.issued + 1 ∧ x.token = some s.nextToken) ∧
        (t.syncUnit (homeOf n)).regs = (s.syncUnit (homeOf n)).regs ++
          [⟨n, bitOf w 10, iBits w 8 2, iBits w 32 32, .block s.chip s.nextToken, 0⟩]))

/-- R417, R418, R423, R436: the oldest operation at a home changes its counter and nothing else changes a counter; a load of a counter returns its value;
a 4-byte store waits at the home as a SET or an ADD; a store of another length is discarded, and a load of another form, or of a counter whose home
region is fenced, returns poison. R420 to R425: a registration enters the table and fires at once where its condition holds; a CLAIM takes its units
from the counter when an operation lets it; a cancel frees its watch; a fire message ends its WAIT with OK. -/
def Obligations.CountersAndWatches : Prop :=
  (∀ s : State,
    (∀ (r : Fin 4) o rest, (s.syncUnit r.val).ops = o :: rest → s.regionFenced (homeOf o.counter) = false → s.isFrozen o.counter = false →
      (∀ w ∈ (s.syncUnit (homeOf o.counter)).watches, w.counter ≠ o.counter) → (s.syncUnit (homeOf o.counter)).waiting = [] →
      ∃ t, exec (.counterOperation r) s = .next t ∧ (t.syncUnit r.val).ops = rest ∧
        t.counter o.counter = ⟨opResult o.op (s.counter o.counter).value (BitVec.ofNat 32 o.operand), o.origin, s.tide.ns⟩ ∧
        (∀ n, n ≠ o.counter → t.counter n = s.counter n) ∧ (∀ e, o.entry = some e → EndsAs t e .ok .none) ∧ t.fires = s.fires ∧ MemSame s t) ∧
    (∀ (off : BitVec 19) src, off.toNat % 8 = 0 → s.regionFenced (homeOf (off.toNat / 8)) = false →
      exec (.counterLoad off 4 src) s = .next { s with out := ⟨leBytes 4 (s.counter (off.toNat / 8)).value.toNat, false, false⟩ }) ∧
    (∀ (off : BitVec 19) len src, (off.toNat % 8 ≠ 0 ∨ len ≠ 4 ∨ s.regionFenced (homeOf (off.toNat / 8)) = true) →
      ∃ t, exec (.counterLoad off len src) s = .next t ∧ t.out = ⟨List.replicate len 0#8, true, false⟩ ∧ t.counters = s.counters) ∧
    (∀ (n : BitVec 16) (data : List Byte) src c op, (c = Instr.counterStoreSet n data src ∧ op = 1 ∨ c = Instr.counterStoreAdd n data src ∧ op = 0) →
      ∃ t, exec c s = .next t ∧ t.counters = s.counters ∧ MemSame s t ∧
        (data.length = 4 → (t.syncUnit (homeOf n.toNat)).ops =
          (s.syncUnit (homeOf n.toNat)).ops ++ [⟨n.toNat, op, leNat data, ⟨s.chip, Source.code src⟩, none⟩]) ∧
        (data.length ≠ 4 → t.sync = s.sync ∧ t.fld (SYN_RGN_STATUS_dropped (homeOf n.toNat)) = 1))) ∧
  (∀ s : State,
    (∀ (r : Fin 4) w rest, (s.syncUnit r.val).regs = w :: rest → homeOf w.counter = r.val → s.regionFenced r.val = false → w.claim = false →
      w.waiter.parts.2.1 = s.chip → (s.syncUnit r.val).watches.length < 8192 → s.isFrozen w.counter = false →
      ∃ t, exec (.watchRegister r) s = .next t ∧ (t.syncUnit r.val).regs = rest ∧ t.counters = s.counters ∧ MemSame s t ∧
        (condHolds w.cond w.operand (s.counter w.counter).value = false →
          (t.syncUnit r.val).watches = (s.syncUnit r.val).watches ++ [{ w with regTide := s.tide.ns }] ∧ t.fires = s.fires) ∧
        (condHolds w.cond w.operand (s.counter w.counter).value = true →
          (t.syncUnit r.val).watches = (s.syncUnit r.val).watches ∧ t.fires = s.fires ++ [⟨w.waiter, w.counter, 0, s.chip⟩])) ∧
    (∀ (r : Fin 4) o rest w v, (s.syncUnit r.val).ops = o :: rest → homeOf o.counter = r.val → s.regionFenced r.val = false →
      s.isFrozen o.counter = false → (s.syncUnit r.val).watches = [w] → (s.syncUnit r.val).waiting = [] → w.claim = true → w.counter = o.counter →
      w.waiter.parts.2.1 = s.chip → v = opResult o.op (s.counter o.counter).value (BitVec.ofNat 32 o.operand) → w.operand ≤ v.toNat →
      ∃ t, exec (.counterOperation r) s = .next t ∧ (t.counter o.counter).value = v - BitVec.ofNat 32 w.operand ∧
        (t.syncUnit r.val).watches = [] ∧ t.fires = s.fires ++ [⟨w.waiter, w.counter, w.operand, s.chip⟩]) ∧
    (∀ (r : Fin 4) w rest, (s.syncUnit r.val).cancels = w :: rest → w.claim = false → (s.syncUnit r.val).waiting = [] →
      ∃ t, exec (.watchCancel r) s = .next t ∧ (t.syncUnit r.val).cancels = rest ∧ t.counters = s.counters ∧ MemSame s t ∧
        (t.syncUnit r.val).watches = (s.syncUnit r.val).watches.filter (fun x => !(x.counter == w.counter && x.waiter == w.waiter))) ∧
    (∀ f rest c tok p, s.fires = f :: rest → f.waiter = .ring c tok → s.waits.find? (fun p => p.2.token == tok) = some p →
      ∃ t, exec .fireMessageReceive s = .next t ∧ t.fires = rest ∧ EndsAs t p.1 .ok .none ∧ SMap.find t.waits p.1 = none ∧ t.counters = s.counters ∧
        MemSame s t))

/-- R430 to R432, R67: sync messages between modules. The next cell of a port's transfer is taken once, an earlier one only counted, and a later one asked
for again; a message goes to the port toward its module, or is discarded as unroutable. -/
def Obligations.SyncMessages : Prop := ∀ s : State,
  (∀ (p : Fin 18) (cell : Cell), s.portUp p.val = true →
    (cell.hdr.index.toNat = (s.port p.val).syncMark → (∀ m ∈ cellMsgs cell, m.dst.toNat ≠ s.chip) → s.gated.length ≤ 1024 →
      ∃ t, exec (.syncCellReceive p cell) s = .next t ∧ (t.port p.val).syncMark = (s.port p.val).syncMark + 1 ∧
        t.syncFwd = s.syncFwd ++ cellMsgs cell ∧ t.sync = s.sync ∧ MemSame s t) ∧
    (∀ m, cell.hdr.index.toNat = (s.port p.val).syncMark → cellMsgs cell = [m] → m.dst.toNat = s.chip → m.mtype = 1#8 → bitsOf m.sub.toNat 2 6 = 0 →
      s.gated.length ≤ 1024 →
      ∃ t, exec (.syncCellReceive p cell) s = .next t ∧ (t.port p.val).syncMark = (s.port p.val).syncMark + 1 ∧
        (t.syncUnit (homeOf m.counter.toNat)).ops = (s.syncUnit (homeOf m.counter.toNat)).ops ++
          [⟨m.counter.toNat, bitsOf m.sub.toNat 0 2, m.operand.toNat, ⟨m.src.toNat, srcOther 2⟩, none⟩] ∧ MemSame s t) ∧
    (cell.hdr.index.toNat < (s.port p.val).syncMark →
      ∃ t, exec (.syncCellReceive p cell) s = .next t ∧ t.ports = s.ports ∧ t.sync = s.sync ∧ t.syncFwd = s.syncFwd ∧ MemSame s t) ∧
    ((s.port p.val).syncMark < cell.hdr.index.toNat →
      ∃ t, exec (.syncCellReceive p cell) s = .next t ∧ (t.port p.val).syncMark = (s.port p.val).syncMark ∧
        (t.port p.val).ctlOut = (s.port p.val).ctlOut ++ [.goBack 0#16 0#32 (s.port p.val).syncMark] ∧ t.sync = s.sync ∧ MemSame s t)) ∧
  (∀ m rest, s.syncFwd = m :: rest →
    (∀ p, s.routePort m.dst.toNat m.counter.toNat = some p →
      ∃ t, exec .syncMessageForward s = .next t ∧ t.syncFwd = rest ∧ (t.port p).syncOut = (s.port p).syncOut ++ [(m, none)] ∧
        t = { s with syncFwd := rest, ports := t.ports }) ∧
    (s.routePort m.dst.toNat m.counter.toNat = none →
      ∃ t, exec .syncMessageForward s = .next t ∧ t.syncFwd = rest ∧ t.fld SYN_STATUS_unroutable = 1 ∧ RegsBut [SYN_STATUS] s t ∧
        t = { s with regs := t.regs, evt := t.evt, syncFwd := rest })) ∧
  (∀ m rest, s.syncRaise = m :: rest →
    (∀ p, s.routePort m.1.dst.toNat m.1.counter.toNat = some p →
      ∃ t, exec .remoteSignalSend s = .next t ∧ t.syncRaise = rest ∧ (t.port p).syncOut = (s.port p).syncOut ++ [m] ∧
        t = { s with syncRaise := rest, ports := t.ports }) ∧
    (∀ e, s.routePort m.1.dst.toNat m.1.counter.toNat = none → m.1.mtype = 1#8 → m.2 = some e →
      ∃ t, exec .remoteSignalSend s = .next t ∧ EndsAs t e .faultFailed .portFenced ∧ t.fld SYN_STATUS_unroutable = 1))

/-- R438 to R442, R445: a SAVE freezes its context's counters and writes its area; a THAW ends the freeze and applies the operations that were deferred; a
RESTORE from a broken save fails with SAVE_BROKEN, and otherwise writes the saved counters back and ends the freeze; a DUMP writes every counter and
watch and sets dump_written; a context's range is set where it fits, and otherwise ignored. -/
def Obligations.SavesAndRanges : Prop := ∀ (s : State) (e : Nat),
  (s.fresh e kindSignal = true → leAt (s.desc e) 16 1 = 8 → saveOk 8 (s.desc e) = true → s.flag HUB_MODULE_STATUS_maintenance_mode = false →
    dDeadlineValid (s.desc e) = false → ∀ c a data, c = bitsOf (leAt (s.desc e) 17 1) 1 2 → a = leAt (s.desc e) 32 8 →
    data = s.saveHeader (s.ctxCounters c).length (s.ctxWatches c).length c (s.fld (SYN_CTX_RANGE_base c)) ++
      (s.ctxCounters c).flatMap (fun n => counterRec (s.counter n)) ++ s.watchRecs (s.ctxWatches c) →
    a + data.length ≤ hbmTop → hbmRegion (a + data.length - 1) = hbmRegion a → s.regionFenced (hbmRegion a) = false →
    ∃ t, exec (.save e) s = .next t ∧ EndsAs t e .ok .none ∧ (∀ n, s.inCtx c n = true → t.isFrozen n = true) ∧ t.counters = s.counters ∧
      (∀ x, t.byte x = if a ≤ x ∧ x < a + data.length then data.getD (x - a) 0#8 else s.byte x)) ∧
  (s.fresh e kindSignal = true → leAt (s.desc e) 16 1 = 10 → saveOk 10 (s.desc e) = true → ∀ c, c = bitsOf (leAt (s.desc e) 17 1) 1 2 →
    ∃ t, exec (.thaw e) s = .next t ∧ EndsAs t e .ok .none ∧ t.frozen = s.frozen.filter (fun f => f.ctx != c) ∧
      ((∀ r < 4, (s.syncUnit r).watches = [] ∧ (s.syncUnit r).waiting = [] ∧ s.regionFenced r = false ∧
          ∀ o ∈ (s.syncUnit r).deferred, homeOf o.counter = r) →
        (∀ r < 4, (t.syncUnit r).deferred = (s.syncUnit r).deferred.filter (fun o => !s.inCtx c o.counter)) ∧
        (∀ n, (t.counter n).value = ((s.syncUnit (homeOf n)).deferred.filter (fun o => s.inCtx c n && o.counter == n)).foldl
          (fun v o => opResult o.op v (BitVec.ofNat 32 o.operand)) (s.counter n).value))) ∧
  (s.fresh e kindSignal = true → leAt (s.desc e) 16 1 = 9 → saveOk 9 (s.desc e) = true → ∀ h x c ns,
    c = bitsOf (leAt (s.desc e) 17 1) 1 2 → ns = s.ctxCounters c → h = s.load (.unit (srcRing (s.jget e).ring)) (leAt (s.desc e) 32 8) 64 → h.2.1 = .ok →
    leAt h.1 24 2 = s.chip → bitsOf (leAt h.1 8 1) 1 2 = c → leAt h.1 12 2 = s.fld (SYN_CTX_RANGE_base c) → leAt h.1 0 4 = ns.length →
    x = h.2.2.load (.unit (srcRing (s.jget e).ring)) (leAt (s.desc e) 32 8 + 64) (16 * ns.length + 32 * leAt h.1 4 4) →
    (bitOf (leAt h.1 8 1) 0 = true → ∃ t, exec (.restore e) s = .next t ∧ EndsAs t e .faultFailed .saveBroken ∧ t.counters = s.counters) ∧
    (bitOf (leAt h.1 8 1) 0 = false → x.2.1 = .ok →
      ∃ t, exec (.restore e) s = .next t ∧ EndsAs t e .ok .none ∧ t.frozen = s.frozen.filter (fun f => f.ctx != c) ∧
        (leAt h.1 4 4 = 0 → s.fld (SYN_CTX_RANGE_base c) + s.fld (SYN_CTX_RANGE_count c) ≤ 16384 →
          (∀ r < 4, (s.syncUnit r).watches = [] ∧ (s.syncUnit r).waiting = [] ∧ (s.syncUnit r).regs = [] ∧ (s.syncUnit r).deferred = []) →
          (∀ i n, ns[i]? = some n → t.counter n =
            ⟨BitVec.ofNat 32 (leAt x.1 (16 * i) 4), ⟨leAt x.1 (16 * i + 4) 2, leAt x.1 (16 * i + 6) 2⟩, leAt x.1 (16 * i + 8) 8⟩) ∧
          (∀ n, n ∉ ns → t.counter n = s.counter n)))) ∧
  (s.fresh e kindSignal = true → leAt (s.desc e) 16 1 = 11 → saveOk 11 (s.desc e) = true → ∀ a data, a = leAt (s.desc e) 32 8 →
    data = s.saveHeader 65536 32768 0 0 ++ ((List.range 65536).flatMap (fun n => counterRec (s.counter n)) ++
      ((List.range 4).map (fun r => (s.syncUnit r).watches)).flatMap (fun l => s.watchRecs l ++ List.replicate ((8192 - l.length) * 32) 0#8)) →
    a + data.length ≤ hbmTop → hbmRegion (a + data.length - 1) = hbmRegion a → s.regionFenced (hbmRegion a) = false →
    ∃ t, exec (.dump e) s = .next t ∧ EndsAs t e .ok .none ∧ t.fld SYN_STATUS_dump_written = 1 ∧ t.counters = s.counters ∧
      (∀ x, t.byte x = if a ≤ x ∧ x < a + data.length then data.getD (x - a) 0#8 else s.byte x)) ∧
  (∀ (c : Fin 4) (v : Word) b n, b = bitsOf v.toNat 0 14 → n = bitsOf v.toNat 16 15 →
    (b + n ≤ 16384 → (∀ k < 4, k ≠ c.val → rangesMeet b n (s.fld (SYN_CTX_RANGE_base k)) (s.fld (SYN_CTX_RANGE_count k)) = false) →
      ∃ t, exec (.ctxRangeWrite c v) s = .next t ∧ t.fld (SYN_CTX_RANGE_base c.val) = b ∧ t.fld (SYN_CTX_RANGE_count c.val) = n ∧
        RegsBut [SYN_CTX_RANGE c.val] s t ∧ OnlyRegs s t) ∧
    (16384 < b + n ∨ (∃ k < 4, k ≠ c.val ∧ rangesMeet b n (s.fld (SYN_CTX_RANGE_base k)) (s.fld (SYN_CTX_RANGE_count k)) = true) →
      exec (.ctxRangeWrite c v) s = .next (s.setFlag SYN_STATUS_range_conflict)))

/-! ### Descriptor rings (14_host_rings.md) -/

/-- R455, R456: a doorbell of 4, 8 or 16 bytes whose index lies where it may becomes the ring's tail; any other is an error and leaves the tail. -/
def Obligations.Doorbells : Prop := ∀ (s : State) (r : Fin 65536) (off : BitVec 4) (data : List Byte), s.inS0 = true → s.fld HUB_BOOT_STATUS_phase ≠ 0 →
  ∀ c, (c = Instr.descriptorDoorbell r off data ∨ c = Instr.completionDoorbell r off data) →
  ∀ m head tail x, m = s.ringMod r.val → head = s.fld (RNG_HEAD_head r.val) → tail = s.fld (RNG_TAIL_tail r.val) → x = leAt data 0 4 →
  ∀ ok : Bool, ok = (if s.flag (RNG_CFG_cq r.val) then decide (subMod head x m ≤ subMod head tail m)
      else decide (subMod x head m ≤ s.ringSize r.val) && decide (subMod x tail m ≤ subMod x head m)) →
  ∃ t, exec c s = .next t ∧ t.cntVal 4 = (s.cntVal 4 + 1) % 2 ^ 48 ∧ MemSame s t ∧
    (off = 0#4 → data.length = 4 ∨ data.length = 8 ∨ data.length = 16 → ok = true →
      t.fld (RNG_TAIL_tail r.val) = x % m % 2 ^ 21 ∧ t.fld (RNG_STATUS_doorbell_error r.val) = s.fld (RNG_STATUS_doorbell_error r.val)) ∧
    (off ≠ 0#4 ∨ ¬(data.length = 4 ∨ data.length = 8 ∨ data.length = 16) ∨ ok = false →
      t.fld (RNG_TAIL_tail r.val) = tail ∧ t.fld (RNG_STATUS_doorbell_error r.val) = 1)

/-- R448, R451, R454, R460, R482: what the writes of a ring's registers, the end of moderation, and the unmasking of a vector do. -/
def Obligations.RingRegisters : Prop := ∀ (s : State) (r : Fin 65536),
  (∀ v : Word, s.ringFree r.val = true →
    (∃ t, exec (.rngCfgWrite r 0 v) s = .next t ∧ t.fld (RNG_BASE_LO_base_lo r.val) = v.toNat / 4096 * 4096 ∧ OnlyRegs s t) ∧
    (∃ t, exec (.rngCfgWrite r 1 v) s = .next t ∧ t.fld (RNG_BASE_HI_base_hi r.val) = v.toNat ∧ OnlyRegs s t) ∧
    (∃ t, exec (.rngCfgWrite r 2 v) s = .next t ∧ t.fld (RNG_CFG_log2_size r.val) = clampNat 4 20 (bitsOf v.toNat 0 5) ∧
      t.fld (RNG_CFG_priority r.val) = bitsOf v.toNat 5 3 ∧ t.fld (RNG_CFG_context r.val) = bitsOf v.toNat 8 2 ∧
      t.fld (RNG_CFG_in_device r.val) = bitsOf v.toNat 10 1 ∧ t.fld (RNG_CFG_cq r.val) = bitsOf v.toNat 11 1 ∧
      t.fld (RNG_CFG_cq_index r.val) = bitsOf v.toNat 16 16 ∧ MemSame s t) ∧
    (∃ t, exec (.rngSeqWrite r v) s = .next t ∧ t.fld (RNG_SEQ_next_seq r.val) = v.toNat ∧ RegsBut [RNG_SEQ r.val] s t ∧ OnlyRegs s t)) ∧
  (∀ v : Word, s.ringFree r.val = false → v.toNat / 4096 * 4096 ≠ s.fld (RNG_BASE_LO_base_lo r.val) →
    exec (.rngCfgWrite r 0 v) s = .next (s.setFlag (RNG_STATUS_cfg_ignored r.val))) ∧
  (∀ v : Word, s.ringFree r.val = true → bitsOf v.toNat 11 1 = 1 →
    ∃ t, exec (.ringEnable r v) s = .next t ∧ t.fld (RNG_CFG_enable r.val) = 1 ∧ SMap.get (fun _ => 0) t.cqPass r.val = 0 ∧ MemSame s t) ∧
  (∀ v : Word, s.ringFree r.val = true → bitsOf v.toNat 11 1 = 0 → bitsOf v.toNat 16 16 ≠ r.val →
    ∃ t, exec (.ringEnable r v) s = .next t ∧ OnlyRegs s t ∧
      (s.flag (RNG_CFG_cq (bitsOf v.toNat 16 16)) = true ∧ s.flag (RNG_CFG_enable (bitsOf v.toNat 16 16)) = true →
        t.fld (RNG_CFG_enable r.val) = 1) ∧
      (¬(s.flag (RNG_CFG_cq (bitsOf v.toNat 16 16)) = true ∧ s.flag (RNG_CFG_enable (bitsOf v.toNat 16 16)) = true) →
        t.fld (RNG_CFG_enable r.val) = 0 ∧ t.fld (RNG_STATUS_bind_error r.val) = 1)) ∧
  (∀ v : Word, clampNat 4 20 (bitsOf v.toNat 0 5) = s.fld (RNG_CFG_log2_size r.val) → bitsOf v.toNat 10 1 = s.fld (RNG_CFG_in_device r.val) →
    bitsOf v.toNat 11 1 = s.fld (RNG_CFG_cq r.val) → bitsOf v.toNat 16 16 = s.fld (RNG_CFG_cq_index r.val) →
    ∃ t, exec (.ringDisable r v) s = .next t ∧ t.fld (RNG_CFG_enable r.val) = 0 ∧ RegsBut [RNG_CFG r.val] s t ∧ OnlyRegs s t) ∧
  exec (.refusedClear r) s = .next (s.setFld (RNG_STATUS_refused r.val) 0) ∧
  (∀ m, SMap.find s.moder r.val = some m → s.flag (RNG_NOTIFY_irq_enable r.val) = true → s.fld (RNG_MODERATION_time_us r.val) ≠ 0 →
    ∃ t, exec (.interruptModeration r) s = .next t ∧ SMap.find t.moder r.val = none ∧
      t.tide.ns = max s.tide.ns (m.2 + 1000 * s.fld (RNG_MODERATION_time_us r.val)) % 2 ^ 64 ∧
      (s.flag (MSIX_CTL_mask (s.fld (RNG_NOTIFY_vector r.val))) = true → t.flag (pbaFld (s.fld (RNG_NOTIFY_vector r.val))) = true ∧ t.host = s.host) ∧
      MemSame s t) ∧
  (∀ v : Fin 2048, ∃ t, exec (.msixUnmask v) s = .next t ∧ t.fld (MSIX_CTL_mask v.val) = 0 ∧ t.fld (pbaFld v.val) = 0 ∧ MemSame s t ∧
    (s.flag (pbaFld v.val) = false → t.host = s.host))

/-- R452, R463, R469, R470, R474: a fetched descriptor with the expected sequence number is accepted into a journal entry and its ring moves on; the
descriptor that dispatch serves starts, in state 2 unless it is honoured as idempotent; one whose deadline has passed completes with LATE. R453, R470,
R475: the oldest completion that can be written is journalled in state 3, its record is written at the write index of its completion ring, with the
phase of the pass, and the index moves on; an entry whose record has landed is freed. -/
def Obligations.AcceptanceToCompletion : Prop :=
  (∀ s : State,
    (∀ (r : Fin 65536) d q, q = s.fld (RNG_CFG_cq_index r.val) → s.flag (RNG_CFG_enable r.val) = true → s.flag (RNG_CFG_cq r.val) = false →
      s.flag (RNG_STATUS_refused r.val) = false → s.fld (RNG_HEAD_head r.val) ≠ s.fld (RNG_TAIL_tail r.val) →
      s.pauseReason r.val = 0 → s.accepting = true → s.journal.length < journalSize →
      s.flag (RNG_CFG_in_device r.val) = false → s.mirrorAOk = true →
      d = s.hostBytes (s.ringBase r.val + s.fld (RNG_HEAD_head r.val) % s.ringSize r.val * 64) 64 →
      (dSeq d = s.fld (RNG_SEQ_next_seq r.val) →
        ∃ t e, exec (.descriptorAccept r true) s = .next t ∧ t.jget e = ⟨d, r.val, 1, false, s.tide.ns, s.acceptNo, []⟩ ∧
          SMap.get qDefault t.ringQ r.val = SMap.get qDefault s.ringQ r.val ++ [e] ∧
          t.fld (RNG_SEQ_next_seq r.val) = (s.fld (RNG_SEQ_next_seq r.val) + 1) % 2 ^ 32 ∧
          t.fld (RNG_ACCEPTED_accepted r.val) = (s.fld (RNG_ACCEPTED_accepted r.val) + 1) % 2 ^ 32 ∧ t.host = s.host ∧ MemSame s t) ∧
      (dSeq d ≠ s.fld (RNG_SEQ_next_seq r.val) → s.flag (RNG_CFG_enable q) = true →
        ∃ t, exec (.descriptorAccept r true) s = .next t ∧ t.flag (RNG_STATUS_refused r.val) = true ∧ t.ringQ = s.ringQ ∧ t.mirrorA = s.mirrorA)) ∧
    (∀ r e, s.fld HUB_BOOT_STATUS_phase = 6 → s.flag SAF_STATUS_shutdown = false → s.inS0 = true → s.nextRing = some r → s.nextOf r = some e →
      s.headerOk r (s.desc e) = true →
      (s.lateStart (s.desc e) = false → s.mirrorAOk = true →
        ∃ t, exec .descriptorDispatch s = .next t ∧ t.working e = some ⟨dKind (s.desc e), r, false, 0⟩ ∧ t.desc e = s.desc e ∧
          (honoured (s.desc e) = true → (t.jget e).state = (s.jget e).state) ∧ (honoured (s.desc e) = false → (t.jget e).state = 2) ∧ MemSame s t) ∧
      (s.lateStart (s.desc e) = true → dKind (s.desc e) ≠ kindRingStep → memberOf (s.desc e) = 0 →
        ∃ t, exec .descriptorDispatch s = .next t ∧ EndsAs t e .late .none ∧ MemSame s t))) ∧
  (∀ s : State, s.mirrorAOk = true →
    (∀ d q w, s.doneQ.find? s.doneReady = some d → d.journalled = false → q = s.fld (RNG_CFG_cq_index (s.jget d.entry).ring) →
      w = s.fld (RNG_HEAD_head q) → s.takesRecord q = true → s.flag (RNG_CFG_in_device q) = false → s.flag (RNG_NOTIFY_irq_enable q) = false →
      dSignal (s.desc d.entry) = false →
      ∃ t, exec (.completionWrite false) s = .next t ∧ t.doneQ = s.doneQ.erase d ∧ (t.jget d.entry).state = 3 ∧
        (t.jget d.entry).record = s.recordOf d ∧ t.fld (RNG_HEAD_head q) = (w + 1) % (2 * s.ringSize q) % 2 ^ 21 ∧ MemSame s t ∧
        (∀ a, t.hostByte a = if s.ringBase q + w % s.ringSize q * 32 ≤ a ∧ a < s.ringBase q + w % s.ringSize q * 32 + 32 then
          ((s.recordOf d).take 5 ++ [BitVec.ofNat 8 (leAt (s.recordOf d) 5 1 / 2 * 2 + 1 - SMap.get (fun _ => 0) s.cqPass q / s.ringSize q % 2)] ++
            (s.recordOf d).drop 6).getD (a - (s.ringBase q + w % s.ringSize q * 32)) 0#8 else s.hostByte a)) ∧
    (∀ e, (s.jget e).state = 3 → (∀ d ∈ s.doneQ, d.entry ≠ e) →
      ∃ t, exec (.descriptorRetire e) s = .next t ∧ t.jget e = JEntry.free ∧ (∀ x, x ≠ e → t.jget x = s.jget x) ∧ t.doneQ = s.doneQ ∧ MemSame s t))

/-- R465, R467, R468: a COPY within HBM makes its destination what its source was and completes with its length; a LAUNCH hands its program to its block
and waits; a NOP completes with OK; a body that breaks a check fails with BAD_DESCRIPTOR before any effect. -/
def Obligations.CopyLaunchNop : Prop := ∀ (s : State) (e : Nat),
  (s.fresh e kindCopy = true →
    (s.copyOk (s.desc e) = false → ∀ ups bad, exec (.copy e ups bad) s = .next (s.complete e [.faultFailed] .badDescriptor)) ∧
    (s.copyOk (s.desc e) = true → cpSrcHost (s.desc e) = false → s.cpHere (s.desc e) = true → ∀ src dst n bad, src = gLocal (cpSrc (s.desc e)) →
      dst = gLocal (cpDst (s.desc e)) → n = cpLen (s.desc e) → src + n ≤ hbmTop → dst + n ≤ hbmTop → hbmRegion (src + n - 1) = hbmRegion src →
      hbmRegion (dst + n - 1) = hbmRegion dst → s.regionFenced (hbmRegion src) = false → s.regionFenced (hbmRegion dst) = false →
      s.anyPoison src n = false →
      ∃ t, exec (.copy e [] bad) s = .next t ∧ EndsAs t e .ok .none ∧ (∀ d, t.doneQ.getLast? = some d → d.c1 = n % 2 ^ 32) ∧
        (∀ a, t.byte a = if dst ≤ a ∧ a < dst + n then s.byte (src + (a - dst)) else s.byte a) ∧ t.host = s.host)) ∧
  (s.fresh e kindLaunch = true →
    (launchOk (s.desc e) = false → exec (.launch e) s = .next (s.complete e [.faultFailed] .badDescriptor)) ∧
    (launchOk (s.desc e) = true → s.placeErr (lnBlock (s.desc e)) = .none →
      ∃ t, exec (.launch e) s = .next t ∧ t.doing e kindLaunch = true ∧ t = { s with work := t.work, launches := s.launches ++
        [⟨e, lnBlock (s.desc e), dContext (s.desc e), lnAddr (s.desc e), lnLen (s.desc e), leAt (s.desc e) 28 4, 0, 0, 0, 0,
          s.tieCounts (lnBlock (s.desc e)), [], false, false, none⟩] }) ∧
    (launchOk (s.desc e) = true → s.placeErr (lnBlock (s.desc e)) ≠ .none →
      exec (.launch e) s = .next (s.complete e [.faultFailed] (s.placeErr (lnBlock (s.desc e)))))) ∧
  (s.fresh e kindNop = true →
    exec (.nop e) s = .next (if dZero (s.desc e) 16 63 then s.complete e [.ok] .none else s.complete e [.faultFailed] .badDescriptor))

/-! ### Descriptors that move data (10_update_engine.md, 11_reduction.md, 12_job_mapping.md, 14_host_rings.md) -/

/-- R386, R466: a STREAM or BROADCAST that sends takes its payload and starts a transfer with its stream and tag; over a stream with a transmit slot, and
with no local transfer under way, nothing has moved yet. One that receives binds its destination where none is bound. R461, R408: a STREAM, BROADCAST,
GATHER_WIDEN or SEND whose body breaks a check fails with BAD_DESCRIPTOR before any effect; a RING_STEP does so too, and is flagged. -/
def Obligations.StreamsAndBroadcasts : Prop :=
  (∀ (s : State) (e : Nat), (∀ x ∈ s.tx, x.loc = false) →
    (s.fresh e kindStream = true → leAt (s.desc e) 16 1 = 0 → streamOk (s.desc e) = true → s.isLocalStream (leAt (s.desc e) 18 2) = false →
      s.entryHeld e (leAt (s.desc e) 32 8) (leAt (s.desc e) 24 8) = none →
      (s.load (.unit (srcRing (s.jget e).ring)) (leAt (s.desc e) 32 8) (leAt (s.desc e) 24 8)).2.1 = .ok →
      ∃ t, exec (.streamSend e) s = .next t ∧ t.doing e kindStream = true ∧
        t.tx = s.tx ++ [TxXfer.new (leAt (s.desc e) 18 2) (leAt (s.desc e) 20 4) (leAt (s.desc e) 17 1) (.entry e)
          (cellsOf (s.load (.unit (srcRing (s.jget e).ring)) (leAt (s.desc e) 32 8) (leAt (s.desc e) 24 8)).1) 0xFFFF false] ∧
        t.startedCount (leAt (s.desc e) 18 2) = (s.startedCount (leAt (s.desc e) 18 2) + 1) % 65536) ∧
    (s.fresh e kindBroadcast = true → bitsOf (leAt (s.desc e) 16 1) 0 2 = 0 → broadcastOk (s.desc e) = true →
      s.isLocalStream (leAt (s.desc e) 18 2) = false →
      s.entryHeld e (leAt (s.desc e) 32 8) (leAt (s.desc e) 24 4) = none →
      (s.load (.unit (srcRing (s.jget e).ring)) (leAt (s.desc e) 32 8) (leAt (s.desc e) 24 4)).2.1 = .ok →
      ∃ t, exec (.broadcastSend e) s = .next t ∧ t.doing e kindBroadcast = true ∧
        t.tx = s.tx ++ [TxXfer.new (leAt (s.desc e) 18 2) (broadcastTag (s.desc e)) (leAt (s.desc e) 17 1) (.entry e)
          (cellsOf (s.load (.unit (srcRing (s.jget e).ring)) (leAt (s.desc e) 32 8) (leAt (s.desc e) 24 4)).1) 0xFFFF false]) ∧
    (s.fresh e kindStream = true → leAt (s.desc e) 16 1 = 1 → streamOk (s.desc e) = true → (s.rxOf (leAt (s.desc e) 18 2)).bound = none →
      ∃ t, exec (.streamReceive e) s = .next t ∧ t.doing e kindStream = true ∧ (t.rxOf (leAt (s.desc e) 18 2)).bound =
        some (RxBind.new e .plain (leAt (s.desc e) 20 4) (leAt (s.desc e) 32 8) (leAt (s.desc e) 24 8) (leAt (s.desc e) 17 1)) ∧
        t = { s with work := t.work, rx := t.rx }) ∧
    (s.fresh e kindBroadcast = true → bitsOf (leAt (s.desc e) 16 1) 0 2 = 1 → broadcastOk (s.desc e) = true →
      (s.rxOf (leAt (s.desc e) 18 2)).bound = none → (∀ m ∈ (s.rxOf (leAt (s.desc e) 18 2)).marks, m.1 ≠ broadcastTag (s.desc e)) →
      ∃ t, exec (.broadcastReceive e) s = .next t ∧ t.doing e kindBroadcast = true ∧ (t.rxOf (leAt (s.desc e) 18 2)).bound =
        some (RxBind.new e .broadcast (broadcastTag (s.desc e)) (leAt (s.desc e) 32 8) (leAt (s.desc e) 24 4) (leAt (s.desc e) 17 1)) ∧
        t = { s with work := t.work, rx := t.rx })) ∧
  (∀ (s : State) (e : Nat),
    (s.fresh e kindStream = true → streamOk (s.desc e) = false →
      (leAt (s.desc e) 16 1 = 0 → exec (.streamSend e) s = .next (s.complete e [.faultFailed] .badDescriptor)) ∧
      (leAt (s.desc e) 16 1 = 1 → exec (.streamReceive e) s = .next (s.complete e [.faultFailed] .badDescriptor))) ∧
    (s.fresh e kindBroadcast = true → broadcastOk (s.desc e) = false →
      (bitsOf (leAt (s.desc e) 16 1) 0 2 = 0 → exec (.broadcastSend e) s = .next (s.complete e [.faultFailed] .badDescriptor)) ∧
      (bitsOf (leAt (s.desc e) 16 1) 0 2 = 1 → exec (.broadcastReceive e) s = .next (s.complete e [.faultFailed] .badDescriptor))) ∧
    (s.fresh e kindGather = true → gatherOk (s.desc e) = false → exec (.gatherWiden e) s = .next (s.complete e [.faultFailed] .badDescriptor)) ∧
    (s.fresh e kindReduce = true → rRole (s.desc e) = 0 → sendOk s (s.desc e) = false →
      (rMode (s.desc e) ≠ 4 → exec (.reduceSend e) s = .next (s.complete e [.faultFailed] .badDescriptor)) ∧
      (rMode (s.desc e) = 4 → exec (.normSend e) s = .next (s.complete e [.faultFailed] .badDescriptor))) ∧
    (s.fresh e kindRingStep = true → ringStepOk (s.desc e) = false →
      ∃ t, exec (.ringStep e) s = .next t ∧ EndsAs t e .faultFailed .badDescriptor ∧ t.fld HUB_RING_STATUS_failed = 1 ∧ MemSame s t))

/-- R318 to R321: a GATHER_WIDEN from another module binds its destination under the descriptor's sequence number; at the owner, a request whose minimum
version is served starts a transfer to the requester from the sheet that the version names, by best-effort DMA on stream 0, and one that is not served
waits. R401, R403, R404, R407, R415: a RING_STEP that only sends starts its transfer under the tag of R404 and executes; one that its deadline ends is
LATE, leaves execution and marks its step; when its free threshold has been met, landing opens. -/
def Obligations.GathersAndRingSteps : Prop :=
  (∀ s : State, (∀ x ∈ s.tx, x.loc = false) →
    (∀ e, s.fresh e kindGather = true → gatherOk (s.desc e) = true → gChip (leAt (s.desc e) 16 8) ≠ s.chip →
      (s.rxOf (leAt (s.desc e) 40 2)).bound = none →
      ∃ t, exec (.gatherWiden e) s = .next t ∧ t.doing e kindGather = true ∧ (t.rxOf (leAt (s.desc e) 40 2)).bound =
        some (RxBind.new e (if leAt (s.desc e) 42 1 = 0 then .widen else .plain) (dSeq (s.desc e)) (leAt (s.desc e) 32 8)
          (2 * leAt (s.desc e) 28 4) (leAt (s.desc e) 43 1)) ∧ t = { s with work := t.work, rx := t.rx }) ∧
    (∀ req shard first count fmt8 stream tag dst hold minv, minv.toNat ≤ s.shardVersion (BitVec.toNat shard) → req.toNat ≠ s.chip →
      (s.load (.unit (srcOther 1)) (sheetAt shard.toNat (s.shardN shard.toNat) (s.shardBittern shard.toNat)
        (s.shardVersion shard.toNat % 2 == 1) + 4096 + 2 * first.toNat) (2 * count.toNat)).2.1 = .ok →
      ∃ t x, exec (.gatherStart req shard first count fmt8 stream tag dst hold minv) s = .next t ∧ t.tx = s.tx ++ [x] ∧
        x.stream = stream.toNat ∧ x.tag = tag.toNat ∧ x.owner = .gather ∧ x.next = 0 ∧ x.dst = req.toNat ∧ (x.be = true ↔ stream = 0#16) ∧
        x.sheet = some (shard.toNat, s.shardVersion shard.toNat % 2 == 1) ∧ MemSame s t) ∧
    (∀ req shard first count fmt8 stream tag dst hold minv, s.shardVersion (BitVec.toNat shard) < minv.toNat →
      exec (.gatherStart req shard first count fmt8 stream tag dst hold minv) s = .next s)) ∧
  (∀ (s : State) (e : Nat),
    (s.fresh e kindRingStep = true → ringStepOk (s.desc e) = true → s.ringJobs.length < 511 → gSendStream (s.desc e) ≠ 0 →
      gRecvStream (s.desc e) = 0 → s.isLocalStream (gSendStream (s.desc e)) = false → (∀ x ∈ s.tx, x.loc = false) →
      (s.load (.unit (srcRing (s.jget e).ring)) (leAt (s.desc e) 32 8) (gBytes (s.desc e))).2.1 = .ok →
      ∃ t, exec (.ringStep e) s = .next t ∧ SMap.find t.ringJobs e = some ⟨false, true, 0, 0, false⟩ ∧
        (∃ x, t.tx = s.tx ++ [x] ∧ x.stream = gSendStream (s.desc e) ∧ x.tag = gTag (s.desc e) ∧ x.owner = .entry e)) ∧
    (∀ j, SMap.find s.ringJobs e = some j → j.isOpen = false → j.recvDone = false → SMap.find s.waits e = none → (∀ x ∈ s.tx, x.loc = false) →
      ∃ t, exec (.ringStepLandingOpen e) s = .next t ∧ SMap.find t.ringJobs e = some { j with isOpen := true } ∧ MemSame s t) ∧
    (SMap.find s.ringJobs e ≠ none ∨ s.fresh e kindRingStep = true ∧ dDeadlineValid (s.desc e) = true →
      ∃ t, exec (.ringStepDeadline e) s = .next t ∧ EndsAs t e .late .none ∧ SMap.find t.ringJobs e = none ∧
        t.fld HUB_RING_STATUS_late = 1 ∧ t.tide.ns = max s.tide.ns (dDeadline (s.desc e)) % 2 ^ 64 ∧ MemSame s t))

/-- R360, R374, R383, R387: a SEND starts one transfer with the tag of its window and step, toward its destination, once its record has the anchor of its
step; the norm contribution waits for none that is unscanned, and is not sent for a step that lost a window; a deadline ends a SEND of which nothing
has been sent. -/
def Obligations.ReduceSends : Prop := ∀ (s : State) (e : Nat),
  (s.fresh e kindReduce = true → rRole (s.desc e) = 0 → rMode (s.desc e) ≠ 4 → sendOk s (s.desc e) = true → leAt (s.desc e) 48 2 ≠ s.chip →
    (∀ x ∈ s.tx, x.loc = false) → s.normIndex ≠ some (rRecord (s.desc e)) → s.restartDue = false →
    (rMode (s.desc e) < 2 → s.unanchored (rRecord (s.desc e)) (rStep (s.desc e)) = false) →
    s.entryHeld e (leAt (s.desc e) 40 8) (rElems (s.desc e) * srcSize (rMode (s.desc e)) (rFormat (s.desc e))) = none →
    (s.load (.unit (srcRing (s.jget e).ring)) (leAt (s.desc e) 40 8)
      (rElems (s.desc e) * srcSize (rMode (s.desc e)) (rFormat (s.desc e)))).2.1 = .ok →
    ∃ t x, exec (.reduceSend e) s = .next t ∧ t.tx = s.tx ++ [x] ∧ x.stream = leAt (s.desc e) 30 2 ∧ x.tag = sendTag (s.desc e) ∧
      x.owner = .entry e ∧ x.dst = leAt (s.desc e) 48 2 ∧ x.epoch = leAt (s.desc e) 18 2 ∧ x.first = leAt (s.desc e) 36 4 ∧ MemSame s t) ∧
  (s.fresh e kindReduce = true → rRole (s.desc e) = 0 → rMode (s.desc e) < 2 → sendOk s (s.desc e) = true → s.restartDue = false →
    s.unanchored (rRecord (s.desc e)) (rStep (s.desc e)) = true → exec (.reduceSend e) s = .next s) ∧
  (s.fresh e kindReduce = true → rRole (s.desc e) = 0 → rMode (s.desc e) = 4 → sendOk s (s.desc e) = true →
    (s.unscanned e (rStep (s.desc e)) = true → exec (.normSend e) s = .next s) ∧
    (s.unscanned e (rStep (s.desc e)) = false → (s.normOf (rStep (s.desc e))).lost = true →
      exec (.normSend e) s = .next (s.complete e [.faultFailed] .windowLost)) ∧
    (s.unscanned e (rStep (s.desc e)) = false → (s.normOf (rStep (s.desc e))).lost = false →
      (∀ i, s.normIndex = some i → s.unanchored i (rStep (s.desc e)) = false) →
      leAt (s.desc e) 48 2 ≠ s.chip → (∀ x ∈ s.tx, x.loc = false) →
      ∃ t x, exec (.normSend e) s = .next t ∧ t.tx = s.tx ++ [x] ∧ x.tag = sendTag (s.desc e) ∧ x.owner = .entry e ∧ MemSame s t)) ∧
  (∀ x, s.tx.find? (fun x => x.owner == TxOwner.entry e) = some x → dKind (s.desc e) = kindReduce → dDeadlineValid (s.desc e) = true →
    x.sent = 0 → x.landed = 0 →
    ∃ t, exec (.reduceSendDeadline e) s = .next t ∧ EndsAs t e .late .none ∧ t.tx = s.tx.erase x ∧ t.tide.ns = max s.tide.ns (dDeadline (s.desc e)) % 2 ^ 64 ∧ MemSame s t)

/-! ### Link ports (15_link_ports.md) -/

/-- R82, R87, R93, R94: hold and stop requests of a port and of a stream are registered with the tide of their write, and change nothing else. -/
def Obligations.HoldAndStopRequests : Prop := ∀ s : State,
  (∀ (p : Fin 18) (on : Bool), ∃ t, exec (.portHoldRequest p on) s = .next t ∧ t.fld (WEB_PORT_CTL_hold_req p.val) = b2n on ∧
    t.fld (WEB_PORT_CTL_stop_req p.val) = s.fld (WEB_PORT_CTL_stop_req p.val) ∧
    (t.port p.val).ctlReq = (s.port p.val).ctlReq ++ [(s.tide.ns, on, s.flag (WEB_PORT_CTL_stop_req p.val))] ∧
    RegsBut [WEB_PORT_CTL p.val] s t ∧ t = { s with regs := t.regs, ports := t.ports }) ∧
  (∀ (p : Fin 18) (on : Bool), ∃ t, exec (.portStopRequest p on) s = .next t ∧ t.fld (WEB_PORT_CTL_stop_req p.val) = b2n on ∧
    t.fld (WEB_PORT_CTL_hold_req p.val) = s.fld (WEB_PORT_CTL_hold_req p.val) ∧
    (t.port p.val).ctlReq = (s.port p.val).ctlReq ++ [(s.tide.ns, s.flag (WEB_PORT_CTL_hold_req p.val), on)] ∧
    RegsBut [WEB_PORT_CTL p.val] s t ∧ t = { s with regs := t.regs, ports := t.ports }) ∧
  (∀ stream : BitVec 16, exec (.streamHold stream) s = .next { s with holdReq := s.holdReq ++ [(stream.toNat, true, s.tide.ns)] }) ∧
  (∀ stream : BitVec 16, exec (.streamResume stream) s = .next { s with holdReq := s.holdReq ++ [(stream.toNat, false, s.tide.ns)] })

/-- R504 to R507: a fence request of a port waits for its boundary; a fence takes the port down with its cause, counts it and leaves it carrying control
only; a fenced port trains again on request, except after cause 2; an up port trains again on request. R488, R496, R497, R616: training. A port that
has a chip ID to announce and is down, in training or fenced by its peer comes up with the identity and the lanes that training found, or goes down
with train_fail. -/
def Obligations.PortTraining : Prop :=
  (∀ (s : State) (p : Fin 18),
    (s.fld (PRT_STATUS_state p.val) = 3 → exec (.fenceReq p) s = .next s ∧ exec (.wakePatternSend p) s = .next s) ∧
    (s.fld (PRT_STATUS_state p.val) ≠ 3 → ∃ t, exec (.fenceReq p) s = .next t ∧ t.fld (PRT_CTL_fence_req p.val) = 1 ∧
      (t.port p.val).fencePend = (match (s.port p.val).fencePend with | some (c, x) => some (min c 1, x) | none => some (1, s.tide.ns)) ∧
      RegsBut [PRT_CTL p.val] s t ∧ t = { s with regs := t.regs, ports := t.ports }) ∧
    (∀ c x, (s.port p.val).fencePend = some (c, x) → c < 8 →
      ∃ t, exec (.portFence p) s = .next t ∧ t.fld (PRT_STATUS_state p.val) = 3 ∧ t.fld (PRT_STATUS_fence_cause p.val) = c ∧
        t.fld (WEB_PORT_STATUS_control_only p.val) = 1 ∧ t.fld (PRT_CTL_fence_req p.val) = 0 ∧
        t.fld (PRT_EVENT_COUNT_fences p.val) = min (s.fld (PRT_EVENT_COUNT_fences p.val) + 1) 255 ∧
        (t.port p.val).fencePend = none ∧ t.tide.ns = max s.tide.ns (boundaryAfter x) % 2 ^ 64) ∧
    (s.fld (PRT_STATUS_state p.val) = 3 → s.fld (PRT_STATUS_fence_cause p.val) ≠ 2 →
      ∃ t, exec (.unfence p) s = .next t ∧ t.fld (PRT_STATUS_state p.val) = 1 ∧ t.fld (WEB_PORT_STATUS_control_only p.val) = 1 ∧
        t.fld (PRT_STATUS_fence_cause p.val) = 0 ∧ t.fld (PRT_LANE_tx_spare p.val) = 0xF ∧ t.fld (PRT_LANE_rx_spare p.val) = 0xF ∧
        RegsBut [PRT_STATUS p.val, PRT_LANE p.val, WEB_PORT_STATUS p.val, HUB_BOOT_STATUS, TID_STATUS, TID_ROOT_ID] s t ∧ t.tide.ns = s.tide.ns ∧
        t = { s with regs := t.regs, ports := t.ports, tide := t.tide, loaded := t.loaded } ∧
        SMap.find t.loaded (32 * 6 + p.val) = some (s.bootPart 6)) ∧
    (s.fld (PRT_STATUS_state p.val) ≠ 3 ∨ s.fld (PRT_STATUS_fence_cause p.val) = 2 → exec (.unfence p) s = .next s) ∧
    (s.portUp p.val = true → ∃ t, exec (.retrain p) s = .next t ∧ t.fld (PRT_STATUS_state p.val) = 1 ∧ MemSame s t) ∧
    (s.portUp p.val = false → exec (.retrain p) s = .next s) ∧
    (s.fld (PRT_STATUS_state p.val) ≠ 3 → ∃ t, exec (.wakePatternSend p) s = .next t ∧ t.fld (PRT_STATUS_state p.val) = 1 ∧ MemSame s t)) ∧
  (∀ (s : State) (p : Fin 18) (r : TrainResult), s.chip ≠ 0xFFFF → s.fld PWR_STATUS_state < 2 →
    (s.fld (PRT_STATUS_state p.val) = 0 ∨ s.fld (PRT_STATUS_state p.val) = 1 ∨ s.fld (PRT_STATUS_state p.val) = 5 ∨
      (s.fld (PRT_STATUS_state p.val) = 3 ∧ s.fld (PRT_STATUS_fence_cause p.val) = 7)) →
    ∃ t, exec (.portTraining p r) s = .next t ∧
      t.fld (PRT_EVENT_COUNT_trainings p.val) = min (s.fld (PRT_EVENT_COUNT_trainings p.val) + 1) 255 ∧
      (r.ok = true → 8 ≤ lanesIn r.rxPass → 8 ≤ lanesIn r.txPass →
        t.fld (PRT_STATUS_state p.val) = 2 ∧ t.fld (PRT_STATUS_fence_cause p.val) = 0 ∧
        t.fld (PRT_LANE_rx_ok p.val) = r.rxPass.toNat ∧ t.fld (PRT_LANE_rx_spare p.val) = spareAfter r.rxPass ∧
        t.fld (PRT_LANE_tx_spare p.val) = spareAfter r.txPass ∧ t.fld (PRT_PEER_peer_chip p.val) = r.peerChip.toNat ∧
        t.fld (PRT_PEER_peer_port p.val) = r.peerPort.toNat ∧ t.fld (PRT_PEER_peer_dir p.val) = r.peerDir.toNat ∧
        (t.tport p.val).linkDelay = r.delay ∧ t.tide.ns % 2048 = 0) ∧
      (r.ok = false ∨ lanesIn r.rxPass < 8 ∨ lanesIn r.txPass < 8 →
        t.fld (PRT_STATUS_state p.val) = 0 ∧ t.fld (PRT_STATUS_train_fail p.val) = 1))

/-- R499 to R502: a lane that loses lock. The spare only shows it; a data lane with the spare free shows a fault and asks for the spare; the transmitter
switches at the boundary after the request, unless a fence is due by then; a parked port that sees the wake pattern wakes the module. R489 to R494: a
line block on an up port whose lane markers are the lanes' own and which asks for no switch. Every uncorrectable codeword is counted, and so is every
cell that fails its CRC where the codewords are good; a port that is not up takes none. -/
def Obligations.LanesAndLineBlocks : Prop :=
  (∀ (s : State) (p : Fin 18),
    (s.portUp p.val = true → exec (.laneCdrLockLoss p 8) s = .next (s.setFlag (PRT_STATUS_spare_bad p.val))) ∧
    (∀ l : Fin 9, s.portUp p.val = true → l.val < 8 → l.val ∉ (s.port p.val).faulty →
      ∃ t, exec (.laneCdrLockLoss p l) s = .next t ∧ t.fld (PRT_STATUS_lane_fault p.val) = 1 ∧
        bitOf (t.fld (PRT_LANE_rx_ok p.val)) (s.rxLane p.val l.val) = false ∧ l.val ∈ (t.port p.val).faulty ∧
        (s.fld (PRT_LANE_rx_spare p.val) = 0xF → (s.port p.val).faulty = [] → (t.port p.val).switchReq = l.val + 1) ∧
        (s.fld (PRT_LANE_rx_spare p.val) ≠ 0xF → (t.port p.val).fencePend.isSome = true)) ∧
    (∀ l x, (s.port p.val).switchPend = some (l, x) → (s.port p.val).fencePend = none → l < 16 →
      ∃ t, exec (.spareLaneSwitch p) s = .next t ∧ t.fld (PRT_LANE_tx_spare p.val) = l ∧ (t.port p.val).switchPend = none ∧
        t.fld (PRT_EVENT_COUNT_lane_switches p.val) = min (s.fld (PRT_EVENT_COUNT_lane_switches p.val) + 1) 255 ∧
        t.tide.ns = max s.tide.ns (boundaryAfter x) % 2 ^ 64 ∧ RegsBut [PRT_LANE p.val, PRT_EVENT_COUNT p.val] s t) ∧
    (s.fld (PRT_STATUS_state p.val) = 4 ∨ s.fld (PRT_STATUS_state p.val) = 5 →
      exec (.wakePatternDetect p) s = .next ((s.setFlag (PRT_STATUS_wake_seen p.val)).wakeBy 2)) ∧
    (s.fld (PRT_STATUS_state p.val) ≠ 4 → s.fld (PRT_STATUS_state p.val) ≠ 5 → exec (.wakePatternDetect p) s = .next s)) ∧
  (∀ (s : State) (p : Fin 18) (b : LineBlock),
    (s.portUp p.val = false → exec (.lineBlockReceive p b) s = .next s) ∧
    (s.portUp p.val = true → (∀ l < 9, b.markers.getD l 0#8 = BitVec.ofNat 8 (0xA0 + l)) →
      (∀ w0 w1 w2, b.words = [w0, w1, w2] →
        ∃ t, exec (.lineBlockReceive p b) s = .next t ∧
          t.fld (PRT_FEC_UNCORR_uncorrectable p.val) = min (s.fld (PRT_FEC_UNCORR_uncorrectable p.val) +
            b2n (!wordGood w0) + b2n (!wordGood w1) + b2n (!wordGood w2)) (2 ^ 32 - 1)) ∧
      (b.words = [.ok [], .ok [], .ok []] →
        ∃ t, exec (.lineBlockReceive p b) s = .next t ∧
          t.fld (PRT_CRC_ERR_crc_errors p.val) = min (s.fld (PRT_CRC_ERR_crc_errors p.val) +
            b2n (b.cell0.hdr.crc != cellCrc b.cell0) + b2n (b.cell1.hdr.crc != cellCrc b.cell1)) (2 ^ 32 - 1))))

/-! ### Memory, the host window and repair (16_memory.md, 17_reliability.md) -/

/-- R418, R510, R517, R521, R565: the host window in S0 over open HBM. A read returns the bytes there and a write stores them, every other byte of memory
stays, and an address of the register mirror or of no place is refused and counted. Below S0 an access wakes the module. R634, R565: a BAR0 access of
another size or alignment. A read returns all ones in every 4-byte word that it covers, a write is discarded, and either is counted. Outside S0 an
access, of any form, to a register that is not answered there wakes the module, and a write is counted as refused. -/
def Obligations.HostWindowAndBar0 : Prop :=
  (∀ (s : State) (off : BitVec 40),
    (∀ n, s.fld PWR_STATUS_state = 0 → 0 < n → s.windowAddr off.toNat + n ≤ hbmTop →
      hbmRegion (s.windowAddr off.toNat + n - 1) = hbmRegion (s.windowAddr off.toNat) → s.regionFenced (hbmRegion (s.windowAddr off.toNat)) = false →
      ∃ t, exec (.bar4WindowRead off n) s = .next t ∧
        t.out = ⟨(List.range n).map (fun i => s.byte (s.windowAddr off.toNat + i)), s.anyPoison (s.windowAddr off.toNat) n, false⟩ ∧
        MemSame s t ∧ t.poison = s.poison) ∧
    (∀ bs, s.fld PWR_STATUS_state = 0 → bs ≠ [] → s.windowAddr off.toNat + bs.length ≤ hbmTop →
      hbmRegion (s.windowAddr off.toNat + bs.length - 1) = hbmRegion (s.windowAddr off.toNat) →
      s.regionFenced (hbmRegion (s.windowAddr off.toNat)) = false →
      ∃ t, exec (.bar4WindowWrite off bs) s = .next t ∧
        (∀ a, t.byte a = if s.windowAddr off.toNat ≤ a ∧ a < s.windowAddr off.toNat + bs.length
          then bs.getD (a - s.windowAddr off.toNat) 0#8 else s.byte a)) ∧
    (∀ n, s.fld PWR_STATUS_state = 0 → 0 < n → (placeOf (s.windowAddr off.toNat)).1 = .unmapped →
      ∃ t, exec (.bar4WindowRead off n) s = .next t ∧ t.out = ⟨[], false, true⟩ ∧
        t.fld HUB_ADDR_COUNT_window_refusals = min (s.fld HUB_ADDR_COUNT_window_refusals + 1) 65535 ∧ MemSame s t) ∧
    (∀ bs, s.fld PWR_STATUS_state ≠ 0 → exec (.bar4WindowWrite off bs) s = .next (s.wakeBy 4).refuseWindow)) ∧
  (∀ (s : State) (a : BitVec 26) (n : Nat), n ≠ 0 →
    (¬(n = 4 ∧ a.toNat % 4 = 0 ∨ n = 8 ∧ a.toNat % 8 = 0) → s.inS0 = true ∨ answeredAsleep a.toNat = true →
      exec (.bar0MisalignedAccess a n true) s = .next (s.bump HUB_ADDR_COUNT_unmapped_accesses) ∧
      exec (.bar0MisalignedAccess a n false) s = .next { s.bump HUB_ADDR_COUNT_unmapped_accesses with
        out := ⟨List.replicate (((a.toNat + n - 1) / 4 - a.toNat / 4 + 1) * 4) 0xFF#8, false, false⟩ }) ∧
    (s.fld PWR_STATUS_state ≠ 0 → answeredAsleep a.toNat = false →
      exec (.bar0MisalignedAccess a n true) s = .next (s.wakeBy 4).refuseWindow ∧
      exec (.bar0MisalignedAccess a n false) s = .next { s.wakeBy 4 with
        out := ⟨List.replicate (((a.toNat + n - 1) / 4 - a.toNat / 4 + 1) * 4) 0xFF#8, false, false⟩ }))

/-- R519, R520, R523: the patrol scrub reads the next line of a stack, in place; an uncorrectable line that was not poisoned is poisoned, and no byte
changes. With HBM in self-refresh or off nothing is read. R536, R546, R547, R548, R639: a repair that has taken effect is written to the copy of the
repair record with the older sequence number; the consumer's head frees places in the error ring; HUB_REDUN_CTL spreads the sampling rate to the
blocks that are present. -/
def Obligations.ScrubAndRecords : Prop :=
  (∀ (s : State) (k : Fin 24) (o : LineOutcome),
    (s.hbmIdle = true → exec (.patrolScrub k o) s = .next s) ∧
    (s.hbmIdle = false →
      ∃ t, exec (.patrolScrub k o) s = .next t ∧
        SMap.get (fun _ => 0) t.scrubPos k.val =
          (if SMap.get (fun _ => 0) s.scrubPos k.val + 1 < linesPerStack then SMap.get (fun _ => 0) s.scrubPos k.val + 1 else 0) ∧
        (o = .uncorrectable → s.flag HUB_ERR_CFG_in_device = false →
          s.poisoned (lineAddr k.val (SMap.get (fun _ => 0) s.scrubPos k.val)) = false →
          t.poisoned (lineAddr k.val (SMap.get (fun _ => 0) s.scrubPos k.val)) = true) ∧
        (o = .clean → MemSame s t))) ∧
  (∀ s : State,
    (s.repairPend = true → ∃ t, exec .repairRecordWrite s = .next t ∧ t.repairPend = false ∧
      t = { s with repairA := t.repairA, repairB := t.repairB, repairPend := false } ∧ (t.repairA = s.repairA ∨ t.repairB = s.repairB)) ∧
    (s.repairPend = false → exec .repairRecordWrite s = .next s) ∧
    (∀ v, s.errBuf = [] → exec (.hubErrHeadWrite v) s = .next (s.setFld HUB_ERR_HEAD_head (v.toNat % 2 ^ (s.fld HUB_ERR_CFG_log2_size + 1)))) ∧
    (∀ v, ∃ t, exec (.abftSampleWrite v) s = .next t ∧ t.fld HUB_REDUN_CTL_abft_sample = bitsOf v.toNat 0 1 ∧
      t.fld HUB_REDUN_CTL_dup_roots = min 2 (bitsOf v.toNat 1 2) ∧ t.fld HUB_REDUN_CTL_mirror_depth = bitsOf v.toNat 3 1 ∧
      (∀ b < 64, s.absent b = false → t.fld (BLK_ABFT_CTL_sample b) = bitsOf v.toNat 0 1) ∧
      (bitOf v.toNat 3 = false → t.shadow = []) ∧ MemSame s t) ∧
    (∀ r n x rest, s.errCoal = (r, n, x) :: rest → ∃ t, exec .errorCoalesceExpiry s = .next t ∧ t.errCoal = rest ∧
      t.errSeq = (s.errSeq + 1) % 2 ^ 32 ∧ t.tide.ns = max s.tide.ns (x + 1000000000) % 2 ^ 64))

/-! ### Power (18_power.md) -/

/-- R553, R554, R555: what a write of PWR_LIMIT, a sample of the hub governor and the two edges of PWR_BRAKE# do. -/
def Obligations.OperatingPoint : Prop := ∀ s : State,
  (∀ v : Word, ∃ t, exec (.pwrLimitWrite v) s = .next t ∧
    t.fld PWR_LIMIT_cap_w = clampNat 600 2400 (bitsOf v.toNat 0 12) ∧
    t.fld PWR_LIMIT_brake_w = clampNat 600 2400 (bitsOf v.toNat 16 12) ∧
    t.fld HUB_MODULE_STATUS_safety_veto =
      (if 2400 < bitsOf v.toNat 0 12 ∨ 2400 < bitsOf v.toNat 16 12 then 1 else s.fld HUB_MODULE_STATUS_safety_veto) ∧
    t.fld SAF_COUNT_vetoes = min (s.fld SAF_COUNT_vetoes +
      ((if 2400 < bitsOf v.toNat 0 12 then 1 else 0) + (if 2400 < bitsOf v.toNat 16 12 then 1 else 0))) 65535 ∧
    RegsBut [PWR_LIMIT, HUB_MODULE_STATUS, SAF_COUNT] s t ∧ OnlyRegs s t) ∧
  State.reset.fld PWR_LIMIT_cap_w = 2150 ∧
  (∀ avg peak : BitVec 12, exec (.powerGovernorSample avg peak) s = .next { s with
    governing :=
      (let cap := if s.flag PWR_STATUS_brake_active then min (s.fld PWR_LIMIT_cap_w) (s.fld PWR_LIMIT_brake_w) else s.fld PWR_LIMIT_cap_w
       if cap < avg.toNat then true else if avg.toNat + 50 ≤ cap then false else s.governing)
    brakeStop := s.brakeStop && decide (s.fld PWR_LIMIT_brake_w < peak.toNat) }) ∧
  (∃ t, exec .pwrBrakeAssert s = .next t ∧ t.brakeLow = true ∧
    (s.inS0 = true → s.brakeLow = false → t.fld PWR_STATUS_brake_active = 1 ∧ t.brakeStop = true) ∧
    ((s.inS0 = false ∨ s.brakeLow = true) → t.brakeStop = s.brakeStop ∧ t.regs = s.regs) ∧
    RegsBut [PWR_STATUS] s t ∧ t = { s with regs := t.regs, brakeLow := true, brakeStop := t.brakeStop }) ∧
  (∃ t, exec .pwrBrakeRelease s = .next t ∧ t.fld PWR_STATUS_brake_active = 0 ∧ t.brakeLow = false ∧
    RegsBut [PWR_STATUS] s t ∧ t = { s with regs := t.regs, brakeLow := false })

/-- R560, R562, R563, R567: a request made in S0 starts the entry when no refuser holds, and is refused, with the state as it is and the lowest code
recorded, when one does; in another state it waits for an exit or is ignored; auto-idle requests S1. R556, R562: retraining of an HBM controller's
interface becomes due or ends, and refuser 5 holds exactly while one is due; the controller takes its training code from the booted-set area (R575). -/
def Obligations.PowerRequests : Prop :=
  (∀ s : State,
    (∀ c k, ((c = Instr.requestS1 ∧ k = 1) ∨ (c = Instr.requestS2 ∧ k = 2) ∨ (c = Instr.requestS3 ∧ k = 3)) →
      (s.inS0 = true → (∀ code ∈ [1, 2, 3, 4, 5, 6], (k = 1 → code ∈ [1, 4, 6]) → s.refuses code = false) →
        exec c s = .next { s.setFld PWR_STATUS_entering 1 with entryTo := k, wakePend := none }) ∧
      (∀ code, s.inS0 = true → code ∈ [1, 2, 3, 4, 5, 6] → (k = 1 → code ∈ [1, 4, 6]) → s.refuses code = true →
        (∀ x ∈ [1, 2, 3, 4, 5, 6], (k = 1 → x ∈ [1, 4, 6]) → s.refuses x = true → code ≤ x) →
        ∃ t, exec c s = .next t ∧ t.fld PWR_STATUS_refused = 1 ∧ t.fld PWR_STATUS_last_refuser = code ∧
          t.fld PWR_STATUS_state = s.fld PWR_STATUS_state ∧ t.fld PWR_STATUS_entering = s.fld PWR_STATUS_entering ∧
          RegsBut [PWR_STATUS, PWR_REFUSE_COUNT0, PWR_REFUSE_COUNT1, PWR_REFUSE_COUNT2] s t ∧ OnlyRegs s t) ∧
      (s.inS0 = false → ¬(s.fld PWR_STATUS_state = 1 ∧ 1 < k ∧ s.flag PWR_STATUS_exiting = false) →
        exec c s = .next (s.setFlag PWR_STATUS_req_ignored))) ∧
    (s.flag PWR_CTL_auto_idle = true → s.inS0 = true → (∀ code ∈ [1, 4, 6], s.refuses code = false) →
      exec .autoIdle s = .next { s.setFld PWR_STATUS_entering 1 with entryTo := 1, wakePend := none })) ∧
  (∀ (s : State) (k : Fin 24) (on : Bool),
    ∃ t, exec (.hbmInterfaceRetraining k on) s = .next t ∧ (k.val ∈ t.retrainDue ↔ on = true) ∧
      (∀ j, j ≠ k.val → (j ∈ t.retrainDue ↔ j ∈ s.retrainDue)) ∧ (t.refuses 5 = true ↔ t.retrainDue ≠ []) ∧
      (on = true → SMap.find t.loaded (32 * 7 + k.val) = some (s.bootPart 7)) ∧ t = { s with retrainDue := t.retrainDue, loaded := t.loaded })

/-- R555, R561, R563, R564, R566, R568: an entry that is aborted leaves the state as it was and records the code, and a brake that came meanwhile acts;
one that completes reaches its state and, with a wake pending, starts the exit at once; a wake during an entry is recorded; an exit leads to S0; WAKE#
is let go. -/
def Obligations.PowerEntryWakeExit : Prop := ∀ s : State,
  (∀ abort, s.flag PWR_STATUS_entering = true → s.entryRefuser s.entryTo abort = none → s.entryTo ≤ 3 →
    ∃ t, exec (.powerEntry abort) s = .next t ∧ t.fld PWR_STATUS_state = s.entryTo ∧ t.fld PWR_STATUS_entering = 0 ∧
      t.entryTo = 0 ∧ t.wakePend = none ∧
      (∀ w, s.wakePend = some w → w < 8 → t.fld PWR_STATUS_exiting = 1 ∧ t.fld PWR_STATUS_last_wake = w)) ∧
  (∀ abort, s.flag PWR_STATUS_entering = true → s.entryRefuser s.entryTo abort = none → s.entryTo = 3 →
    ∃ t, exec (.powerEntry abort) s = .next t ∧ t.counters = [] ∧ (∀ a < hbmTop, t.byte a = 0#8) ∧ t.launches = [] ∧
      (∀ p < 18, s.fld (PRT_STATUS_state p) ≠ 2 → s.fld (PRT_STATUS_state p) ≠ 3 → t.fld (PRT_STATUS_state p) = 5)) ∧
  (∀ abort code, s.flag PWR_STATUS_entering = true → s.entryRefuser s.entryTo abort = some code →
    ∃ t, exec (.powerEntry abort) s = .next t ∧ t.fld PWR_STATUS_state = s.fld PWR_STATUS_state ∧ t.fld PWR_STATUS_entering = 0 ∧
      t.fld PWR_STATUS_last_refuser = code ∧ t.fld PWR_STATUS_aborted_flag = 1 ∧ t.entryTo = 0 ∧
      RegsBut [PWR_STATUS, PWR_ENTRY_COUNT, PWR_REFUSE_COUNT2] s t ∧ t = { s with regs := t.regs, evt := t.evt, entryTo := 0, wakePend := none, brakeStop := t.brakeStop } ∧
      (s.brakeLow = true → s.flag PWR_STATUS_brake_active = false → t.fld PWR_STATUS_brake_active = 1 ∧ t.brakeStop = true) ∧
      (s.brakeLow = false ∨ s.flag PWR_STATUS_brake_active = true →
        t.fld PWR_STATUS_brake_active = s.fld PWR_STATUS_brake_active ∧ t.brakeStop = s.brakeStop)) ∧
  (∀ src : Fin 5, s.flag PWR_STATUS_entering = true → wakeValid s.entryTo (src.val + 1) = true → s.wakePend = none →
    ∃ t, exec (.wake src) s = .next t ∧ t.wakePend = some (src.val + 1) ∧ t.fld PWR_STATUS_wake_in_entry = 1 ∧
      RegsBut [PWR_STATUS, PWR_WAKE_COUNT] s t ∧ t = { s with regs := t.regs, evt := t.evt, wakePend := some (src.val + 1) }) ∧
  (∀ src : Fin 5, s.flag PWR_STATUS_entering = false → s.flag PWR_STATUS_exiting = false → s.fld PWR_STATUS_state ≠ 0 →
    wakeValid (s.fld PWR_STATUS_state) (src.val + 1) = true →
    ∃ t, exec (.wake src) s = .next t ∧ t.fld PWR_STATUS_exiting = 1 ∧ t.fld PWR_STATUS_last_wake = src.val + 1 ∧
      (t.wakeLow = true ↔ s.wakeLow = true ∨
        (s.flag PWR_CTL_wake_host = true ∧ 2 ≤ s.fld PWR_STATUS_state ∧ src.val + 1 ≠ 3 ∧ src.val + 1 ≠ 4)) ∧
      RegsBut [PWR_STATUS, PWR_WAKE_COUNT] s t ∧ t = { s with regs := t.regs, wakeLow := t.wakeLow }) ∧
  (s.flag PWR_STATUS_exiting = true → s.fld PWR_STATUS_state = 1 → s.heldAlarms = [] → s.brakeLow = false → s.reqPend = 0 →
    ∃ t, exec .powerExit s = .next t ∧ t.fld PWR_STATUS_state = 0 ∧ t.fld PWR_STATUS_exiting = 0 ∧
      RegsBut [PWR_STATUS] s t ∧ OnlyRegs s t) ∧
  (s.flag PWR_STATUS_exiting = true → 2 ≤ s.fld PWR_STATUS_state →
    ∃ t, exec .powerExit s = .next t ∧ t.heldAlarms = [] ∧ t.lastExit = some s.tide.ns) ∧
  exec .wakeHostRelease s = .next { s with wakeLow := false }

/-! ### Firmware, attestation and configuration (19_firmware.md) -/

/-- R579 to R581: a stage or abort command that is refused changes nothing but the error it shows; one that is carried out stages the set, or undoes it;
neither writes the loader copies. A write of the flash that fails ends a staging with error 7. Whether one fails, or a reset cuts the staging, is
open: whatever `Config.stagingEnd` is, the command completes. R584, R585, R596: the confirmation of a trial with the digest of the staged set counts
and ends the timer; any other value, and any write outside a trial, is counted as bad and does nothing else. The timer's end starts a fallback of
cause 4. R595: a report of attestation ends with done or error set, and with error where the nonce lies at no place of memory; with the nonce and the
destination in open HBM the report, its signature and the certificate are written there, and done is set. -/
def Obligations.FirmwareUpdates : Prop :=
  (∀ s : State,
    (s.upd.state ≠ 0 ∨ s.flag HUB_FW_STATUS_busy = true → exec .fwStage s = .next (s.setFld HUB_FW_STATUS_error 6)) ∧
    (s.upd.state = 0 → s.flag HUB_FW_STATUS_busy = false → s.stageError s.package ≠ 0 →
      exec .fwStage s = .next (s.setFld HUB_FW_STATUS_error (s.stageError s.package))) ∧
    (s.upd.state = 0 → s.flag HUB_FW_STATUS_busy = false → s.stageError s.package = 0 →
      ∃ t, exec .fwStage s = .next t ∧ (∀ a < 0x800000, t.flashByte a = s.flashByte a) ∧
        t = { s with regs := t.regs, evt := t.evt, flash := t.flash, free := s.free + 1 } ∧
        match Config.stagingEnd s.free with
        | .whole => t.fld HUB_FW_STATUS_staged = 1 ∧ t.fld HUB_FW_STATUS_error = 0
        | .fault _ => t.fld HUB_FW_STATUS_error = 7 ∧ t.fld HUB_FW_STATUS_staged = s.fld HUB_FW_STATUS_staged
        | .cut _ => t.fld HUB_FW_STATUS_busy = 1 ∧ t.fld HUB_FW_STATUS_staged = s.fld HUB_FW_STATUS_staged) ∧
    (s.flag HUB_FW_STATUS_busy = false → s.upd.state = 1 ∨ s.upd.state = 2 ∨ s.upd.state = 3 →
      ∃ t, exec .fwAbort s = .next t ∧ t.fld HUB_FW_STATUS_error = 0 ∧ t = { s with regs := t.regs, flash := t.flash }) ∧
    (s.flag HUB_FW_STATUS_busy = true ∨ s.upd.state = 0 ∨ 4 ≤ s.upd.state → exec .fwAbort s = .next (s.setFld HUB_FW_STATUS_error 6))) ∧
  (∀ s : State,
    (∀ code : Word, s.upd.state = 4 → code.toNat = leAt s.upd.digest 0 4 →
      ∃ t, exec (.healthConfirm code) s = .next t ∧ t.fallDue = none ∧ t.fld HUB_FW_TRIAL_remaining_s = 0 ∧
        t.fld HUB_FW_COUNT_updates = min (s.fld HUB_FW_COUNT_updates + 1) 255 ∧ t = { s with regs := t.regs, flash := t.flash, fallDue := none }) ∧
    (∀ code : Word, s.upd.state ≠ 4 ∨ code.toNat ≠ leAt s.upd.digest 0 4 →
      exec (.healthConfirm code) s = .next (s.bump HUB_FW_COUNT_bad_confirms)) ∧
    (s.fld HUB_FW_STATUS_state = 4 → s.fallDue = none →
      ∃ t, exec .trialExpiry s = .next t ∧ t.fallDue = some 4 ∧ t.fld HUB_FW_TRIAL_remaining_s = 0 ∧
        t.tide.ns = max s.tide.ns (s.trialAt + s.fld HUB_FW_TRIAL_remaining_s * 1000000000) % 2 ^ 64 ∧ RegsBut [HUB_FW_TRIAL] s t)) ∧
  (∀ s : State,
    ∃ t, exec .attestStart s = .next t ∧ (t.fld HUB_ATTEST_STATUS_done = 1 ∨ t.fld HUB_ATTEST_STATUS_error = 1) ∧
      ((placeOf (s.fld HUB_ATTEST_NONCE_LO_addr_lo / 32 * 32 + s.fld HUB_ATTEST_NONCE_HI_addr_hi * 2 ^ 32)).1 = .unmapped →
        t.fld HUB_ATTEST_STATUS_error = 1) ∧
      (∀ na da body data, na = s.fld HUB_ATTEST_NONCE_LO_addr_lo / 32 * 32 + s.fld HUB_ATTEST_NONCE_HI_addr_hi * 2 ^ 32 →
        da = s.fld HUB_ATTEST_DST_LO_addr_lo / 4096 * 4096 + s.fld HUB_ATTEST_DST_HI_addr_hi * 2 ^ 32 →
        body = s.reportBody (s.bytes na 32) →
        data = body ++ padTo 3309 (Sys2Proof.Config.signature (sha3 body) 3309) ++ padTo 5261 Sys2Proof.Config.certificate →
        na + 32 ≤ hbmTop → s.regionFenced (hbmRegion na) = false → s.anyPoison na 32 = false →
        da + data.length ≤ hbmTop → hbmRegion (da + data.length - 1) = hbmRegion da → s.regionFenced (hbmRegion da) = false →
        t.fld HUB_ATTEST_STATUS_done = 1 ∧
        (∀ a, t.byte a = if da ≤ a ∧ a < da + data.length then data.getD (a - da) 0#8 else s.byte a)))

/-- R461, R589, R590: a CONFIG whose body breaks a check fails before any effect; otherwise it completes with OK where every entry has result 0 and with
CLAMPED where one has not, once its table and its report could be accessed. -/
def Obligations.ConfigCompletes : Prop := ∀ (s : State) (e : Nat), s.fresh e kindConfig = true →
  (configOk (s.desc e) = false → exec (.config e) s = .next (s.complete e [.faultFailed] .badDescriptor)) ∧
  (configOk (s.desc e) = true → cgReport (s.desc e) = 0 →
    (s.load (.unit (srcRing (s.jget e).ring)) (cgTable (s.desc e)) (16 * cgCount (s.desc e))).2.1 = .ok →
    ∃ t d rest, exec (.config e) s = .next t ∧ t.doneQ = rest ++ [d] ∧ d.entry = e ∧ (d.status = .ok ∨ d.status = .clamped) ∧
      (d.status = .ok ↔ d.c2 = 0))

/-- R10, R12, R13, R634: a write of a register that has no row of its own acts field by field, by the access code; every other register stays. -/
def Obligations.RegisterWriteByAccessCode : Prop := ∀ (s : State) (a : BitVec 26) (v : Word),
  answeredAsleep a.toNat = true ∨ s.inS0 = true → a.toNat % 4 = 0 →
  (a.toNat < 0x100000 ∧ a.toNat ∉ [HUB_MAINT_CTL, 0x7020, 0x7024, 0x7028, 0x702C, HUB_ERR_CFG, HUB_ERR_HEAD, HUB_REDUN_CTL, HUB_HEARTBEAT, PWR_CTL,
      PWR_LIMIT, PWR_THERM, HUB_FW_CMD, HUB_HEALTH_CONFIRM, HUB_ATTEST_CMD, HUB_RESET_CTL] ∨
    0x800000 ≤ a.toNat ∧ a.toNat < 0x1000000) →
  ∃ t, exec (.registerWrite a v) s = .next t ∧
    (∀ f ∈ fieldsAt a.toNat, t.fld f =
      match f.acc with
      | .ro | .wo => s.fld f
      | .rw | .rws => clampField a.toNat f.lo (bitsOf v.toNat f.lo f.width) % 2 ^ f.width
      | .lk => if s.cfg.bootLock then s.fld f else clampField a.toNat f.lo (bitsOf v.toNat f.lo f.width) % 2 ^ f.width
      | .w1c => if bitsOf v.toNat f.lo f.width = 1 then 0 else s.fld f
      | .w1s => if bitsOf v.toNat f.lo f.width = 1 then 1 else s.fld f) ∧
    RegsBut [a.toNat] s t ∧ t = { s with regs := t.regs }

/-- R10, R634, R565: a write of a register that has a row of its own is that row's command, and one of an offset that is not 4-byte aligned is discarded
and counted. R456, R565: a PCIe request in S1, S2 or S3. The blocks answered at once take a 4-byte write as in S0; any other write but a doorbell
wakes the module and is discarded and counted, and any other read wakes it and returns all ones. -/
def Obligations.RegisterWritesOfRowsAndLowPower : Prop :=
  (∀ (s : State) (v : Word),
    exec (.registerWrite (BitVec.ofNat 26 PWR_LIMIT) v) s = exec (.pwrLimitWrite v) s ∧
    exec (.registerWrite (BitVec.ofNat 26 HUB_ERR_HEAD) v) s = exec (.hubErrHeadWrite v) s ∧
    exec (.registerWrite (BitVec.ofNat 26 HUB_REDUN_CTL) v) s = exec (.abftSampleWrite v) s ∧
    exec (.registerWrite (BitVec.ofNat 26 HUB_HEALTH_CONFIRM) v) s = exec (.healthConfirm v) s ∧
    exec (.registerWrite (BitVec.ofNat 26 HUB_FW_CMD) 1#32) s = exec .fwStage s ∧
    exec (.registerWrite (BitVec.ofNat 26 HUB_FW_CMD) 2#32) s = exec .fwAbort s ∧
    exec (.registerWrite (BitVec.ofNat 26 HUB_RESET_CTL) 1#32) s = exec .warmResetRequest s ∧
    exec (.registerWrite (BitVec.ofNat 26 HUB_RESET_CTL) 2#32) s = exec .coldResetRequest s ∧
    exec (.registerWrite (BitVec.ofNat 26 HUB_MAINT_CTL) 1#32) s = exec .maintRequest s ∧
    (s.inS0 = true → ∀ p : Fin 18, exec (.registerWrite (BitVec.ofNat 26 (PRT_CTL p.val)) 1#32) s = exec (.fenceReq p) s) ∧
    (∀ a : BitVec 26, a.toNat % 4 ≠ 0 → s.inS0 = true ∨ answeredAsleep a.toNat = true → exec (.registerWrite a v) s = .next (s.bump HUB_ADDR_COUNT_unmapped_accesses))) ∧
  (∀ (s : State) (off : BitVec 40), s.fld PWR_STATUS_state ≠ 0 →
    (∀ d, answeredAsleep off.toNat = true → d.length = 4 → off.toNat % 4 = 0 →
      exec (.lowPowerPcieRequest 0 off (some d)) s = .next (s.writeReg off.toNat (BitVec.ofNat 32 (leNat d)))) ∧
    (∀ bar d, ¬(bar = 0 ∧ answeredAsleep off.toNat = true) → ¬(bar = 2 ∧ off.toNat < 65536 * 16) →
      exec (.lowPowerPcieRequest bar off (some d)) s = .next (s.wakeBy 4).refuseWindow) ∧
    (∀ bar, ¬(bar = 0 ∧ answeredAsleep off.toNat = true) →
      exec (.lowPowerPcieRequest bar off none) s = .next { s.wakeBy 4 with out := ⟨List.replicate 4 0xFF#8, false, false⟩ }))

/-! ### Performance counters (20_counters.md) -/

/-- R599, R600, R565: a read of CNT_VALUE_LO returns bits [31:0] and latches the rest of the same value for the reader alone; the host's reads do so in S0
and out of the maintenance hold, and outside S0 they wake the module and return ones. An advance past 2^48 − 1 wraps and sets the sticky overflow bit.
R604: at the end of a bandwidth window every port latches what it moved, in units of 64 bytes, and starts from 0; the written window length takes
effect. -/
def Obligations.EventCounters : Prop :=
  (∀ (s : State) (k : Fin 4096),
    (s.fld PWR_STATUS_state ≠ 0 → exec (.cntValueLoRead k .host) s = .next { s.wakeBy 4 with out := ⟨List.replicate 4 0xFF#8, false, false⟩ }) ∧
    (∀ who, (who = .host → s.inS0 = true ∧ s.fld HUB_BOOT_STATUS_phase ≠ 7) → ∃ t, exec (.cntValueLoRead k who) s = .next t ∧ t.out = ⟨leBytes 4 (s.cntVal k.val % 2 ^ 32), false, false⟩ ∧
      (∀ j, SMap.get (fun _ => 0) t.cntLatch j =
        if j = k.val * 5 + agentNo who then s.cntVal k.val / 2 ^ 32 + b2n (s.flag (CNT_VALUE_HI_overflow k.val)) * 2 ^ 16
        else SMap.get (fun _ => 0) s.cntLatch j) ∧
      t = { s with cntLatch := t.cntLatch, out := t.out }) ∧
    (s.inS0 = true → s.fld HUB_BOOT_STATUS_phase ≠ 7 → exec (.bar0MisalignedAccess (BitVec.ofNat 26 (CNT_VALUE_HI k.val)) 4 false) s =
      .next { s with out := ⟨leBytes 4 (SMap.get (fun _ => 0) s.cntLatch (k.val * 5)), false, false⟩ }) ∧
    (∀ n, counterDefined k.val = true → 2 ^ 48 ≤ s.cntVal k.val + n →
      ∃ t, exec (.counterWrap k n) s = .next t ∧ (∀ j, t.cntVal j = if j = k.val then (s.cntVal j + n) % 2 ^ 48 else s.cntVal j) ∧
        t.flag (CNT_VALUE_HI_overflow k.val) = true ∧ RegsBut [CNT_VALUE_HI k.val] s t ∧
        t = { s with cnt := t.cnt, regs := t.regs, evt := t.evt })) ∧
  (∀ s : State,
    ∃ t, exec .portBwWindowEnd s = .next t ∧ t.bwWindow = s.fld CNT_CTL_window ∧
      (∀ p < 18, t.fld (CNT_PORT_BW_TX_bytes64 p) = (s.port p).bwTx / 64 % 2 ^ 32 ∧ t.fld (CNT_PORT_BW_RX_bytes64 p) = (s.port p).bwRx / 64 % 2 ^ 32 ∧
        (t.port p).bwTx = 0 ∧ (t.port p).bwRx = 0) ∧ t.tide.ns = max s.tide.ns s.windowEnd % 2 ^ 64 ∧ MemSame s t)

/-- R605, R606: a SNAPSHOT that breaks a check fails before any effect; one of tide 0 captures at once; one whose tide has passed completes with LATE and
writes nothing; another waits, and its capture takes every SNAPSHOT of its tide. -/
def Obligations.Snapshots : Prop := ∀ (s : State) (e : Nat),
  (s.fresh e kindSnapshot = true →
    (snapshotOk (s.desc e) = false → exec (.snapshot e) s = .next (s.complete e [.faultFailed] .badDescriptor)) ∧
    (snapshotOk (s.desc e) = true → snTide (s.desc e) = 0 → ∀ a data, a = snDst (s.desc e) → data = s.snapBytes (s.desc e) →
      a + data.length ≤ hbmTop → hbmRegion (a + data.length - 1) = hbmRegion a → s.regionFenced (hbmRegion a) = false →
      ∃ t, exec (.snapshot e) s = .next t ∧ EndsAs t e .ok .none ∧
        (∀ x, t.byte x = if a ≤ x ∧ x < a + data.length then data.getD (x - a) 0#8 else s.byte x)) ∧
    (snapshotOk (s.desc e) = true → snTide (s.desc e) ≠ 0 → snTide (s.desc e) ≤ s.tide.ns →
      exec (.snapshot e) s = .next ((s.complete e [.late] .none).setFlag CNT_STATUS_snap_late)) ∧
    (snapshotOk (s.desc e) = true → s.tide.ns < snTide (s.desc e) → s.snaps.length < 16 →
      s.work.any (fun p => !p.2.done && p.2.kind == kindSnapshot && p.2.phase == 0 &&
        decide ((s.jget p.1).order < (s.jget e).order)) = false →
      ∃ t, exec (.snapshot e) s = .next t ∧ t.snaps = s.snaps ++ [e] ∧ t.fld CNT_STATUS_pending = s.snaps.length + 1 ∧
        RegsBut [CNT_STATUS] s t ∧ t = { s with regs := t.regs, snaps := s.snaps ++ [e], work := t.work })) ∧
  (e ∈ s.snaps → ∃ t, exec (.snapshotCapture e) s = .next t ∧ e ∉ t.snaps ∧
    (∀ x, x ∈ t.snaps ↔ x ∈ s.snaps ∧ snTide (s.desc x) ≠ snTide (s.desc e)) ∧
    t.tide.ns = max s.tide.ns (snTide (s.desc e)) % 2 ^ 64)

/-! ### Resets (21_reset.md) -/

/-- R609 to R611, R627: what the assertion of PERST# and the loss of the 48 V input leave. Every unit is at its cold reset value; the flash, the host's
memory and the pins outlive both, and the monitor's registers and the side interfaces outlive PERST#. -/
def Obligations.ColdResetValues : Prop := ∀ s : State,
  (∃ t, exec .perstAssert s = .next t ∧
    (∀ a, a ≠ HUB_RESET_STATUS → t.reg a = if 0x800000 ≤ a ∧ a < 0xC00000 ∨ a = RNG_JOURNAL_GEN then s.reg a else regReset a) ∧
    t.fld HUB_RESET_STATUS_last_kind = 1 ∧ (∀ a, t.byte a = 0#8) ∧ (∀ n, t.counter n = Counter.zero) ∧
    t = { State.reset with
      pending := s.pending, out := s.out, free := s.free, host := s.host, regs := t.regs
      repairA := s.repairA, repairB := s.repairB, flash := s.flash, errHist := s.errHist
      monStop := s.monStop, stackTemp := s.stackTemp, shutCause := s.shutCause, errNew := s.errNew
      brakeLow := s.brakeLow, perstLow := true, unpowered := s.unpowered
      tap := s.tap, chain := s.chain, driven := s.driven, i3cAddr := s.i3cAddr, i3cOff := s.i3cOff, i3cRst := s.i3cRst }) ∧
  (∃ t, exec .inputPowerLoss s = .next t ∧
    (∀ a, a ≠ HUB_RESET_STATUS → t.reg a = if a = RNG_JOURNAL_GEN then s.reg a else regReset a) ∧
    t.fld HUB_RESET_STATUS_last_kind = 0 ∧ (∀ a, t.byte a = 0#8) ∧
    t = { State.reset with
      pending := s.pending, out := s.out, free := s.free, host := s.host, regs := t.regs
      repairA := s.repairA, repairB := s.repairB, flash := s.flash, errHist := s.errHist
      brakeLow := s.brakeLow, perstLow := s.perstLow, unpowered := true })

/-- R609, R612 to R614, R620, R621: what the requests for a reset leave waiting. A warm request with one under way is ignored, and a region is reset only
while it is fenced and no warm reset is requested or replaying. R24, R611, R614: a requested reset of a fenced region ends the fence and is counted;
its interfaces are trained, its counters and its vats are 0, and the counters of the other regions keep their values. -/
def Obligations.RegionResets : Prop :=
  (∀ s : State,
    exec .coldResetRequest s = .next { s with coldReq := true } ∧
    exec .warmResetRequest s = .next { s with warmReq := if s.warmReq.isSome then s.warmReq else some 3 } ∧
    exec .pcieFunctionLevelReset s = .next { s with warmReq := if s.warmReq.isSome then s.warmReq else some 4 } ∧
    (∀ bits : BitVec 4, ∃ t, exec (.regionResetRequest bits) s = .next t ∧
      (∀ r < 4, r ∈ t.regionReq ↔ r ∈ s.regionReq ∨
        (bitOf bits.toNat r = true ∧ s.regionFenced r = true ∧ s.warmReq = none ∧ s.fld HUB_BOOT_STATUS_phase ≠ 5)) ∧
      (∀ r < 4, bitOf bits.toNat r = true → (s.regionFenced r = false ∨ s.warmReq ≠ none ∨ s.fld HUB_BOOT_STATUS_phase = 5) →
        t.fld HUB_RESET_STATUS_region_refused = 1) ∧
      RegsBut [HUB_RESET_STATUS] s t ∧ t = { s with regs := t.regs, evt := t.evt, regionReq := t.regionReq })) ∧
  (∀ (s : State) (r : Fin 4),
    r.val ∈ s.regionReq → s.regionFenced r.val = true → s.warmReq = none → s.canWarm = true →
    ∃ t, exec (.regionReset r) s = .next t ∧ t.regionFenced r.val = false ∧ t.fld (RGN_STATUS_running r.val) = 1 ∧ r.val ∉ t.regionReq ∧
      r.val ∉ t.shutFenced ∧ (∀ c < 6, t.fld (RGN_HBM_STATUS_trained r.val c) = 1) ∧
      t.fld HUB_RESET_STATUS_region_resets = min (s.fld HUB_RESET_STATUS_region_resets + 1) (2 ^ HUB_RESET_STATUS_region_resets.width - 1) ∧
      (∀ n < 65536, t.counter n = if homeOf n = r.val then Counter.zero else s.counter n) ∧
      (∀ i < 16, ∀ a, vatAt (16 * r.val + i) ≤ a → a < vatAt (16 * r.val + i) + vatSize → t.byte a = 0#8))

/-- R473, R573, R574, R575, R587, R609, R615, R617: the resets that boot the whole module. With a loader copy and an installed set that verify and no
update under way, the boot ends in phase 6 with acceptance open, the kind of the reset shown, a set copied into the booted-set area, every interface
trained, every region running and a journal of a new generation; with neither loader copy the module holds in phase 7, in maintenance mode, with the
firmware check as the monitor's cause. -/
def Obligations.ColdResetsBoot : Prop := ∀ (s : State) (rep : BootReport) (c : Instr) (kind : Nat),
  (c = Instr.coldReset rep ∧ kind = 2 ∧ s.coldReq = true ∧ s.perstLow = false ∧ s.unpowered = false) ∨
    (c = Instr.powerOn rep ∧ kind = 0 ∧ s.perstLow = false) ∨
    (c = Instr.perstRelease rep ∧ kind = s.fld HUB_RESET_STATUS_last_kind ∧ s.perstLow = true ∧ s.unpowered = false) →
  (s.upd.state = 0 → s.setIntact = true → rep.romPass = true → rep.monitorPass = true → rep.loader0 = true ∨ rep.loader1 = true →
    ∃ t, exec c s = .next t ∧ t.fld HUB_BOOT_STATUS_phase = 6 ∧
      (rep.board0 = false → rep.board1 = false →
        t.fld HUB_RESET_STATUS_last_kind = kind ∧ t.fld HUB_FW_STATUS_board_record_bad = 1 ∧
        t.booted = (List.range 8).map (partEntry s.imageByte) ∧ t.logEntries.length = 11 ∧
        (∀ k < 24, t.fld (RGN_HBM_STATUS_trained (k / 6) (k % 6)) = 1) ∧ (∀ r < 4, t.fld (RGN_STATUS_running r) = 1) ∧
        t.fld RNG_JOURNAL_GEN_generation = (s.fld RNG_JOURNAL_GEN_generation + 1) % 2 ^ 32 ∧
        (c ≠ Instr.perstRelease rep → t.journal = [] ∧ t.counters = [] ∧ t.fld HUB_MODULE_STATUS_maintenance_mode = 0))) ∧
  (rep.loader0 = false → rep.loader1 = false →
    ∃ t, exec c s = .next t ∧ t.fld HUB_BOOT_STATUS_phase = 7 ∧ t.fld HUB_MODULE_STATUS_maintenance_mode = 1 ∧ t.fld SAF_CAUSE_cause = 8)

/-- R573, R585, R609, R612, R620: the resets that restart the management cluster alone. With a loader copy and a set that verify, a warm reset ends in
phase 5 with the replay to come, its kind shown, its request gone and the work in flight abandoned; a fallback restores the set before, of whose
digests the boot makes sure, and is counted; with neither loader copy the module holds in phase 7, in maintenance mode. R480, R481, R612: the replay
of phase 5 opens acceptance. An entry that was accepted and not started executes again; one whose record was journalled writes that record again; and
web traffic resumes. -/
def Obligations.WarmResetsAndReplay : Prop :=
  (∀ (s : State) (rep : BootReport), s.canWarm = true → s.flag SAF_STATUS_shutdown = false →
    (∀ k, s.warmReq = some k → k < 8 → s.upd.state = 0 → s.setIntact = true → rep.romPass = true → rep.monitorPass = true →
      rep.loader0 = true ∨ rep.loader1 = true →
      ∃ t, exec (.warmReset rep) s = .next t ∧ t.fld HUB_BOOT_STATUS_phase = 5 ∧ t.fld RNG_JOURNAL_STATUS_replaying = 1 ∧
        t.fld HUB_MODULE_STATUS_maintenance_mode = 1 ∧ t.fld HUB_RESET_STATUS_last_kind = k ∧ t.warmReq = none ∧ t.fallDue = none ∧
        t.launches = [] ∧ t.work = [] ∧ t.counters = s.counters ∧ t.flash = s.flash) ∧
    (∀ cause, s.fallDue = some cause → s.applyReverse.setIntact = true → rep.prevRomPass = true → rep.prevMonitorPass = true →
      rep.loader0 = true ∨ rep.loader1 = true →
      ∃ t, exec (.fallback rep) s = .next t ∧ t.fld HUB_BOOT_STATUS_phase = 5 ∧ t.fld RNG_JOURNAL_STATUS_replaying = 1 ∧
        t.fld HUB_RESET_STATUS_last_kind = 6 ∧ t.warmReq = none ∧ t.fallDue = none ∧ t.fld HUB_FW_STATUS_fell_back = 1 ∧
        t.fld HUB_FW_COUNT_fallbacks = min (s.fld HUB_FW_COUNT_fallbacks + 1) 255 ∧
        (∀ i < imageSectors * sectorSize, t.imageByte i = s.applyReverse.imageByte i)) ∧
    (∀ c, (c = Instr.warmReset rep ∧ s.warmReq ≠ none) ∨ (c = Instr.fallback rep ∧ s.fallDue ≠ none) →
      rep.loader0 = false → rep.loader1 = false →
      ∃ t, exec c s = .next t ∧ t.fld HUB_BOOT_STATUS_phase = 7 ∧ t.fld HUB_MODULE_STATUS_maintenance_mode = 1)) ∧
  (∀ s : State, s.fld HUB_BOOT_STATUS_phase = 5 →
    (∃ t, exec .journalReplay s = .next t ∧ t.fld HUB_BOOT_STATUS_phase = 6 ∧ t.fld RNG_JOURNAL_STATUS_replaying = 0 ∧
      (s.flag HUB_MAINT_CTL_maint_req = false → s.maintEnd = false → t.fld HUB_MODULE_STATUS_maintenance_mode = 0)) ∧
    (∀ e j, s.journal = [(e, j)] → s.commits = [] → s.groups = [] → s.waits = [] → s.doneQ = [] →
      ∃ t, exec .journalReplay s = .next t ∧ MemSame s t ∧
        (j.state = 1 → SMap.get qDefault t.ringQ j.ring = SMap.get qDefault s.ringQ j.ring ++ [e] ∧
          t.fld RNG_REPLAY_COUNT_reexecuted =
            min (s.fld RNG_REPLAY_COUNT_reexecuted + 1) (2 ^ RNG_REPLAY_COUNT_reexecuted.width - 1)) ∧
        (j.state = 3 → ∃ d, t.doneQ = [d] ∧ d.entry = e ∧ d.journalled = true) ∧
        (∀ p < 18, s.portUp p = true → t.fld (WEB_PORT_STATUS_stopped p) = s.fld (WEB_PORT_CTL_stop_req p))))

/-! ### The module's side interfaces and maintenance mode (22_module_interface.md, 01_architecture.md R30) -/

/-- R632, R637: the test access port, while it is powered. The chain drives its pins only while PERST# is asserted. R633: the I3C target. A 2-byte private
write sets the mailbox offset, another length leaves it; a read returns the mailbox's bytes; the common command codes assign the address and take down
a reset action. -/
def Obligations.SideInterfaces : Prop :=
  (∀ s : State, s.unpowered = false → s.fld PWR_STATUS_state ≠ 3 →
    (∀ pins : BitVec 8, s.perstLow = true → exec (.extest pins) s = .next { s with tap := 2, chain := pins.toNat, driven := some pins.toNat }) ∧
    (∀ pins : BitVec 8, s.perstLow = false → ∃ t, exec (.extest pins) s = .next t ∧ t.driven = none ∧ t.tap = 2 ∧
      t = { s with tap := 2, chain := t.chain, driven := none }) ∧
    (∀ pins : BitVec 8, ∃ t, exec (.samplePreload pins) s = .next t ∧ t.tap = 1 ∧ t.driven = none ∧
      (bitOf t.chain 0 = true ↔ s.perstLow = false) ∧ t.out = ⟨leBytes 1 t.chain, false, false⟩ ∧
      t = { s with tap := 1, chain := t.chain, driven := none, out := t.out }) ∧
    (∀ tdi : Bool, exec (.bypass tdi) s = .next { s with tap := 0, driven := none, out := ⟨leBytes 1 (b2n tdi), false, false⟩ })) ∧
  (∀ s : State, s.unpowered = false →
    (∀ (w : List Byte) (n : Nat), (w.length = 2 → leNat w + n ≤ 4096) → (w.length ≠ 2 → s.i3cOff + n ≤ 4096) →
      exec (.i3cMailboxRead w n) s = .next { s with
        i3cOff := if w.length = 2 then leNat w else s.i3cOff
        out := ⟨(List.range n).map (fun i => s.mailboxByte ((if w.length = 2 then leNat w else s.i3cOff) + i)), false, false⟩ }) ∧
    (∀ (w : List Byte) (n : Nat), ∃ t, exec (.i3cMailboxRead w n) s = .next t ∧ t.out.data.length = n ∧
      t.i3cOff = (if w.length = 2 then leNat w else s.i3cOff) ∧ t = { s with i3cOff := t.i3cOff, out := t.out, free := t.free }) ∧
    (∀ a, exec (.i3cCcc (.entdaa a)) s = .next { s with i3cAddr := a.toNat }) ∧
    (∀ a, exec (.i3cCcc (.setdasa a)) s = .next { s with i3cAddr := a.toNat }) ∧
    (∀ a, exec (.i3cCcc (.rstact a)) s = .next { s with i3cRst := a.toNat }) ∧
    (∃ t, exec (.i3cCcc .getstatus) s = .next t ∧ t.out.data.length = 2 ∧ t = { s with out := t.out, free := s.free + 1 }))

/-- R30, R156: a request for maintenance mode is pending until every block is at an instruction boundary and no context is frozen; then it takes effect;
its release ends it at the next instruction boundary of every block, unless start-up or replay keeps the mode. -/
def Obligations.MaintenanceMode : Prop := ∀ s : State,
  (∃ t, exec .maintRequest s = .next t ∧ t.fld HUB_MAINT_CTL_maint_req = 1 ∧
    (s.flag HUB_MAINT_CTL_maint_req = false → t.fld HUB_MAINT_CTL_maint_pending = 1) ∧ RegsBut [HUB_MAINT_CTL] s t ∧ OnlyRegs s t) ∧
  (s.flag HUB_MAINT_CTL_maint_req = true → s.flag HUB_MAINT_CTL_maint_pending = true → s.maintReady = true →
    ∃ t, exec .maintModeEnter s = .next t ∧ t.fld HUB_MAINT_CTL_maint_pending = 0 ∧ t.fld HUB_MODULE_STATUS_maintenance_mode = 1 ∧
      RegsBut [HUB_MAINT_CTL, HUB_MODULE_STATUS] s t ∧ t = { s with regs := t.regs, maintEnd := false }) ∧
  (s.flag HUB_MAINT_CTL_maint_pending = true → s.maintReady = false → s.maintEnd = false → exec .maintModeEnter s = .next s) ∧
  (∃ t, exec .maintRelease s = .next t ∧ t.fld HUB_MAINT_CTL_maint_req = 0 ∧ t.fld HUB_MAINT_CTL_maint_pending = 0 ∧
    (s.atBoundary = true → t.fld HUB_MODULE_STATUS_maintenance_mode = b2n s.startingUp ∧ t.maintEnd = false) ∧
    (s.atBoundary = false → s.flag HUB_MAINT_CTL_maint_req = true → s.flag HUB_MAINT_CTL_maint_pending = false →
      t.fld HUB_MODULE_STATUS_maintenance_mode = 1 ∧ t.maintEnd = true)) ∧
  (s.maintEnd = true → s.atBoundary = true → s.flag HUB_MAINT_CTL_maint_pending = false →
    ∃ t, exec .maintModeEnter s = .next t ∧ t.maintEnd = false ∧
      t.fld HUB_MODULE_STATUS_maintenance_mode = b2n (s.startingUp || s.flag HUB_MAINT_CTL_maint_req))
end

