-- ==== Sys2Proof/Laws/Bits.lean ====
section
/-! SUPPORT. What replacing a bit field does to every field of a word. -/

namespace Sys2Proof

theorem bitsOf_lt (x lo w : Nat) : bitsOf x lo w < 2 ^ w := Nat.mod_lt _ (by positivity)

/-- A number is its part above a field, the field, and its part below. -/
theorem split_field (x lo w : Nat) : x = x / 2 ^ (lo + w) * 2 ^ (lo + w) + bitsOf x lo w * 2 ^ lo + x % 2 ^ lo := by
  have h1 := Nat.div_add_mod x (2 ^ lo)
  have h2 := Nat.div_add_mod (x / 2 ^ lo) (2 ^ w)
  rw [Nat.div_div_eq_div_mul, ← pow_add] at h2
  unfold bitsOf
  rw [pow_add]
  rw [pow_add] at h2
  calc x = 2 ^ lo * (x / 2 ^ lo) + x % 2 ^ lo := h1.symm
    _ = 2 ^ lo * (2 ^ w * (x / (2 ^ lo * 2 ^ w)) + x / 2 ^ lo % 2 ^ w) + x % 2 ^ lo := by rw [h2]
    _ = _ := by ring

/-- The same three parts after the field has been replaced. -/
theorem putBits_parts (x lo w v : Nat) :
    putBits x lo w v = x / 2 ^ (lo + w) * 2 ^ (lo + w) + v % 2 ^ w * 2 ^ lo + x % 2 ^ lo := by
  have h := split_field x lo w
  unfold putBits
  omega

theorem putBits_low (x lo w v : Nat) : putBits x lo w v % 2 ^ lo = x % 2 ^ lo := by
  rw [putBits_parts, pow_add, ← mul_assoc, mul_right_comm, ← add_mul, mul_comm, Nat.mul_add_mod, Nat.mod_mod]

theorem putBits_div (x lo w v : Nat) : putBits x lo w v / 2 ^ lo = x / 2 ^ (lo + w) * 2 ^ w + v % 2 ^ w := by
  rw [putBits_parts, pow_add, ← mul_assoc, mul_right_comm, ← add_mul, mul_comm, Nat.mul_add_div (by positivity),
    Nat.div_eq_of_lt (Nat.mod_lt _ (by positivity)), Nat.add_zero]

theorem putBits_high (x lo w v : Nat) : putBits x lo w v / 2 ^ (lo + w) = x / 2 ^ (lo + w) := by
  rw [pow_add, ← Nat.div_div_eq_div_mul, putBits_div, mul_comm, Nat.mul_add_div (by positivity),
    Nat.div_eq_of_lt (Nat.mod_lt _ (by positivity)), Nat.add_zero, pow_add]

/-- The field that was replaced holds the new value, cut to its width. -/
@[simp] theorem bitsOf_putBits_same (x lo w v : Nat) : bitsOf (putBits x lo w v) lo w = v % 2 ^ w := by
  unfold bitsOf
  rw [putBits_div, mul_comm, Nat.mul_add_mod, Nat.mod_mod]

/-- A field above it is as it was. -/
theorem bitsOf_putBits_above (x lo w v lo' w' : Nat) (h : lo + w ≤ lo') : bitsOf (putBits x lo w v) lo' w' = bitsOf x lo' w' := by
  unfold bitsOf
  obtain ⟨d, rfl⟩ := Nat.exists_eq_add_of_le h
  rw [pow_add, ← Nat.div_div_eq_div_mul, putBits_high, Nat.div_div_eq_div_mul]

/-- A field below it is as it was. -/
theorem bitsOf_putBits_below (x lo w v lo' w' : Nat) (h : lo' + w' ≤ lo) : bitsOf (putBits x lo w v) lo' w' = bitsOf x lo' w' := by
  have key : ∀ y, bitsOf y lo' w' = y % 2 ^ lo / 2 ^ lo' % 2 ^ w' := by
    intro y
    obtain ⟨d, rfl⟩ := Nat.exists_eq_add_of_le h
    unfold bitsOf
    rw [show lo' + w' + d = lo' + (w' + d) by omega, pow_add 2 lo' (w' + d), Nat.mod_mul_right_div_self, pow_add,
      Nat.mod_mul_right_mod]
  rw [key, key, putBits_low]

/-- A field with no bit in common with it is as it was. -/
theorem bitsOf_putBits_other (x lo w v lo' w' : Nat) (h : lo + w ≤ lo' ∨ lo' + w' ≤ lo) :
    bitsOf (putBits x lo w v) lo' w' = bitsOf x lo' w' :=
  h.elim (bitsOf_putBits_above x lo w v lo' w') (bitsOf_putBits_below x lo w v lo' w')

/-- Replacing a field keeps a word a word. -/
theorem putBits_lt {x lo w n : Nat} (v : Nat) (hx : x < 2 ^ n) (h : lo + w ≤ n) : putBits x lo w v < 2 ^ n := by
  rw [← Nat.div_eq_zero_iff_lt (by positivity), ← Nat.mul_div_cancel' (Nat.pow_dvd_pow 2 h), ← Nat.div_div_eq_div_mul, putBits_high,
    Nat.div_div_eq_div_mul, Nat.mul_div_cancel' (Nat.pow_dvd_pow 2 h)]
  exact Nat.div_eq_of_lt hx

@[simp] theorem b2n_true : b2n true = 1 := rfl
@[simp] theorem b2n_false : b2n false = 0 := rfl

/-- A loop whose body keeps a property keeps it. -/
theorem forUpTo_keeps {α : Type} (P : α → Prop) (n : Nat) (f : Nat → α → α) (x : α) (hx : P x) (hf : ∀ i y, P y → P (f i y)) :
    P (forUpTo n f x) := by
  unfold forUpTo
  generalize List.range n = l
  induction l generalizing x with
  | nil => exact hx
  | cons i l ih => exact ih _ (hf i x hx)

/-- A fold whose body keeps a property keeps it. -/
theorem foldl_keeps {α β : Type} (P : α → Prop) (l : List β) (f : α → β → α) (x : α) (hx : P x) (hf : ∀ y b, P y → P (f y b)) :
    P (l.foldl f x) := by
  induction l generalizing x with
  | nil => exact hx
  | cons b l ih => exact ih _ (hf x b hx)

end Sys2Proof
end

