-- ==== Sys2Proof/Laws/SMap.lean ====
section
/-! SUPPORT. The laws of the sparse map: read after write, write elsewhere, and that every operation keeps the
canonical form. -/

namespace Sys2Proof.Machine

variable {α : Type}

theorem SMap.get_eq_find (d : Nat → α) (m : SMap α) (k : Nat) :
    SMap.get d m k = (SMap.find m k).getD (d k) := by
  induction m with
  | nil => rfl
  | cons p m ih => simp only [SMap.get, SMap.find]; split <;> simp_all

theorem SMap.find_insert_same (m : SMap α) (k : Nat) (v : α) : SMap.find (SMap.insert m k v) k = some v := by
  induction m with
  | nil => simp [SMap.insert, SMap.find]
  | cons p m ih =>
    simp only [SMap.insert]
    split
    · simp [SMap.find]
    · split
      · simp [SMap.find]
      · simp [SMap.find, *]

theorem SMap.find_insert_other (m : SMap α) {k j : Nat} (v : α) (h : j ≠ k) :
    SMap.find (SMap.insert m k v) j = SMap.find m j := by
  induction m with
  | nil => simp [SMap.insert, SMap.find, h]
  | cons p m ih =>
    simp only [SMap.insert]
    split
    · simp [SMap.find, h]
    · split
      · subst_vars; simp [SMap.find, h]
      · simp [SMap.find, ih]

theorem SMap.find_erase_other (m : SMap α) {k j : Nat} (h : j ≠ k) :
    SMap.find (SMap.erase m k) j = SMap.find m j := by
  induction m with
  | nil => rfl
  | cons p m ih =>
    simp only [SMap.erase]
    split
    · subst_vars; simp [SMap.find, h, ih]
    · simp [SMap.find, ih]

theorem SMap.sortedFrom_mono {lo lo' : Nat} {m : SMap α} (h : lo' ≤ lo) (hs : SMap.sortedFrom lo m = true) :
    SMap.sortedFrom lo' m = true := by
  cases m with
  | nil => rfl
  | cons p m => simp only [SMap.sortedFrom, Bool.and_eq_true, decide_eq_true_eq] at *; exact ⟨by omega, hs.2⟩

theorem SMap.find_none_of_sorted {lo k : Nat} {m : SMap α} (hs : SMap.sortedFrom lo m = true) (h : k < lo) :
    SMap.find m k = none := by
  induction m generalizing lo with
  | nil => rfl
  | cons p m ih =>
    simp only [SMap.sortedFrom, Bool.and_eq_true, decide_eq_true_eq] at hs
    simp only [SMap.find]
    rw [if_neg (by omega)]
    exact ih hs.2 (by omega)

theorem SMap.find_erase_same (m : SMap α) (k : Nat) : SMap.find (SMap.erase m k) k = none := by
  induction m with
  | nil => rfl
  | cons p m ih =>
    simp only [SMap.erase]
    split
    · exact ih
    · simp only [SMap.find]
      rw [if_neg (by assumption)]
      exact ih

theorem SMap.sortedFrom_insert {lo k : Nat} {m : SMap α} (v : α) (hs : SMap.sortedFrom lo m = true) (hk : lo ≤ k) :
    SMap.sortedFrom lo (SMap.insert m k v) = true := by
  induction m generalizing lo with
  | nil => simp [SMap.insert, SMap.sortedFrom, hk]
  | cons p m ih =>
    simp only [SMap.sortedFrom, Bool.and_eq_true, decide_eq_true_eq] at hs
    simp only [SMap.insert]
    split
    · simp only [SMap.sortedFrom, Bool.and_eq_true, decide_eq_true_eq]; exact ⟨hk, by omega, hs.2⟩
    · split
      · subst_vars; simp only [SMap.sortedFrom, Bool.and_eq_true, decide_eq_true_eq]; exact ⟨hk, hs.2⟩
      · simp only [SMap.sortedFrom, Bool.and_eq_true, decide_eq_true_eq]
        exact ⟨hs.1, ih hs.2 (by omega)⟩

theorem SMap.sortedFrom_erase {lo k : Nat} {m : SMap α} (hs : SMap.sortedFrom lo m = true) :
    SMap.sortedFrom lo (SMap.erase m k) = true := by
  induction m generalizing lo with
  | nil => rfl
  | cons p m ih =>
    simp only [SMap.sortedFrom, Bool.and_eq_true, decide_eq_true_eq] at hs
    simp only [SMap.erase]
    split
    · exact SMap.sortedFrom_mono (by omega) (ih hs.2)
    · simp only [SMap.sortedFrom, Bool.and_eq_true, decide_eq_true_eq]; exact ⟨hs.1, ih hs.2⟩

theorem SMap.sortedFrom_filter {lo : Nat} {m : SMap α} (f : Nat × α → Bool) (hs : SMap.sortedFrom lo m = true) :
    SMap.sortedFrom lo (m.filter f) = true := by
  induction m generalizing lo with
  | nil => rfl
  | cons p m ih =>
    simp only [SMap.sortedFrom, Bool.and_eq_true, decide_eq_true_eq] at hs
    simp only [List.filter]
    split
    · simp only [SMap.sortedFrom, Bool.and_eq_true, decide_eq_true_eq]; exact ⟨hs.1, ih hs.2⟩
    · exact ih (SMap.sortedFrom_mono (by omega) hs.2)

theorem SMap.mem_insert {m : SMap α} {k : Nat} {v : α} {p : Nat × α} (h : p ∈ SMap.insert m k v) :
    p = (k, v) ∨ p ∈ m := by
  induction m with
  | nil => simpa [SMap.insert] using h
  | cons q m ih =>
    simp only [SMap.insert] at h
    split at h
    · rcases List.mem_cons.mp h with h | h
      · exact .inl h
      · exact .inr h
    · split at h
      · rcases List.mem_cons.mp h with h | h
        · exact .inl h
        · exact .inr (List.mem_cons_of_mem _ h)
      · rcases List.mem_cons.mp h with h | h
        · exact .inr (by simp [h])
        · rcases ih h with h | h
          · exact .inl h
          · exact .inr (List.mem_cons_of_mem _ h)

theorem SMap.mem_erase {m : SMap α} {k : Nat} {p : Nat × α} (h : p ∈ SMap.erase m k) : p ∈ m := by
  induction m with
  | nil => simp [SMap.erase] at h
  | cons q m ih =>
    simp only [SMap.erase] at h
    split at h
    · exact List.mem_cons_of_mem _ (ih h)
    · rcases List.mem_cons.mp h with h | h
      · simp [h]
      · exact List.mem_cons_of_mem _ (ih h)

section Canonical
variable [DecidableEq α] (d : Nat → α)

theorem SMap.wf_iff (m : SMap α) :
    SMap.wf d m = true ↔ SMap.sortedFrom 0 m = true ∧ ∀ p ∈ m, p.2 ≠ d p.1 := by
  simp [SMap.wf, List.all_eq_true]

/-- Every write keeps the canonical form. -/
theorem SMap.set_wf {m : SMap α} (k : Nat) (v : α) (h : SMap.wf d m = true) : SMap.wf d (SMap.set d m k v) = true := by
  rw [SMap.wf_iff] at *
  unfold SMap.set
  split
  · exact ⟨SMap.sortedFrom_erase h.1, fun p hp => h.2 p (SMap.mem_erase hp)⟩
  · refine ⟨SMap.sortedFrom_insert v h.1 (Nat.zero_le _), fun p hp => ?_⟩
    rcases SMap.mem_insert hp with rfl | hp
    · assumption
    · exact h.2 p hp

theorem SMap.modify_wf {m : SMap α} (k : Nat) (f : α → α) (h : SMap.wf d m = true) :
    SMap.wf d (SMap.modify d m k f) = true := SMap.set_wf d k _ h

theorem SMap.clearRange_wf {m : SMap α} (lo n : Nat) (h : SMap.wf d m = true) :
    SMap.wf d (SMap.clearRange m lo n) = true := by
  rw [SMap.wf_iff] at *
  exact ⟨SMap.sortedFrom_filter _ h.1, fun p hp => h.2 p (List.mem_filter.mp hp).1⟩

theorem SMap.filter_wf {m : SMap α} (f : Nat × α → Bool) (h : SMap.wf d m = true) :
    SMap.wf d (m.filter f) = true := by
  rw [SMap.wf_iff] at *
  exact ⟨SMap.sortedFrom_filter _ h.1, fun p hp => h.2 p (List.mem_filter.mp hp).1⟩

/-- A read after a write to the same key gives the value written. -/
theorem SMap.get_set_same (m : SMap α) (k : Nat) (v : α) :
    SMap.get d (SMap.set d m k v) k = v := by
  rw [SMap.get_eq_find]
  unfold SMap.set
  split
  · rw [SMap.find_erase_same]; simp [*]
  · rw [SMap.find_insert_same]; rfl

/-- A write leaves every other key alone. -/
theorem SMap.get_set_other {m : SMap α} {k j : Nat} (v : α) (h : j ≠ k) :
    SMap.get d (SMap.set d m k v) j = SMap.get d m j := by
  rw [SMap.get_eq_find, SMap.get_eq_find]
  unfold SMap.set
  split
  · rw [SMap.find_erase_other _ h]
  · rw [SMap.find_insert_other _ _ h]

end Canonical

/-- What a write makes every key read as. -/
theorem SMap.get_set [DecidableEq α] (d : Nat → α) (m : SMap α) (k j : Nat) (v : α) :
    SMap.get d (SMap.set d m k v) j = if j = k then v else SMap.get d m j := by
  split
  · subst_vars; exact SMap.get_set_same d m _ v
  · exact SMap.get_set_other d v ‹_›

@[simp] theorem SMap.get_nil (d : Nat → α) (k : Nat) : SMap.get d ([] : SMap α) k = d k := rfl
@[simp] theorem SMap.find_nil (k : Nat) : SMap.find ([] : SMap α) k = none := rfl

end Sys2Proof.Machine
end

