-- ==== Sys2Proof/Laws/Registers.lean ====
section
/-! SUPPORT. What a write of a register, a field, a flag or a count makes every register and every field read as. -/

namespace Sys2Proof.Machine

theorem State.reg_setReg (s : State) (a b : Nat) (v : Word) : (s.setReg a v).reg b = if b = a then v else s.reg b :=
  SMap.get_set regReset s.regs a b v

@[simp] theorem State.reg_setReg_same (s : State) (a : Nat) (v : Word) : (s.setReg a v).reg a = v := by simp [State.reg_setReg]

theorem State.reg_setReg_other (s : State) {a b : Nat} (v : Word) (h : b ≠ a) : (s.setReg a v).reg b = s.reg b := by
  simp [State.reg_setReg, h]

theorem State.reg_setFld_other (s : State) (f : Fld) (v : Nat) {b : Nat} (h : b ≠ f.addr) : (s.setFld f v).reg b = s.reg b :=
  State.reg_setReg_other s _ h

/-- A field written reads as the value, cut to its width. -/
theorem State.fld_setFld_same (s : State) (f : Fld) (v : Nat) (h : f.lo + f.width ≤ 32) : (s.setFld f v).fld f = v % 2 ^ f.width := by
  unfold State.fld State.setFld
  rw [State.reg_setReg_same, BitVec.toNat_ofNat, Nat.mod_eq_of_lt (putBits_lt v (s.reg f.addr).isLt h), bitsOf_putBits_same]

/-- A field of another register is as it was. -/
theorem State.fld_setFld_addr (s : State) (f g : Fld) (v : Nat) (h : g.addr ≠ f.addr) : (s.setFld f v).fld g = s.fld g := by
  unfold State.fld
  rw [State.reg_setFld_other s f v h]

/-- A field with no bit in common with the one written is as it was. -/
theorem State.fld_setFld_bits (s : State) (f g : Fld) (v : Nat) (hw : f.lo + f.width ≤ 32)
    (h : f.lo + f.width ≤ g.lo ∨ g.lo + g.width ≤ f.lo) : (s.setFld f v).fld g = s.fld g := by
  by_cases e : g.addr = f.addr
  · unfold State.fld State.setFld
    rw [e, State.reg_setReg_same, BitVec.toNat_ofNat, Nat.mod_eq_of_lt (putBits_lt v (s.reg f.addr).isLt hw), bitsOf_putBits_other _ _ _ _ _ _ h]
  · exact State.fld_setFld_addr s f g v e

/-- A field other than the one written, in another register or in other bits of its own, is as it was. -/
theorem State.fld_setFld_other (s : State) (f g : Fld) (v : Nat) (hw : f.lo + f.width ≤ 32)
    (h : g.addr ≠ f.addr ∨ f.lo + f.width ≤ g.lo ∨ g.lo + g.width ≤ f.lo) : (s.setFld f v).fld g = s.fld g :=
  h.elim (State.fld_setFld_addr s f g v) (State.fld_setFld_bits s f g v hw)

theorem State.fld_lt (s : State) (f : Fld) : s.fld f < 2 ^ f.width := bitsOf_lt _ _ _

@[simp] theorem State.reg_setFlag (s : State) (f : Fld) (a : Nat) : (s.setFlag f).reg a = (s.setFld f 1).reg a := rfl
@[simp] theorem State.fld_setFlag (s : State) (f g : Fld) : (s.setFlag f).fld g = (s.setFld f 1).fld g := rfl

/-- A count that was advanced reads as the sum, at most its largest value. -/
theorem State.fld_bump_same (s : State) (f : Fld) (n : Nat) (h : f.lo + f.width ≤ 32) :
    (s.bump f n).fld f = min (s.fld f + n) (2 ^ f.width - 1) := by
  unfold State.bump
  rw [State.fld_setFld_same s f _ h, Nat.mod_eq_of_lt]
  have : 0 < 2 ^ f.width := by positivity
  omega

theorem State.fld_bump_other (s : State) (f g : Fld) (n : Nat) (hw : f.lo + f.width ≤ 32)
    (h : g.addr ≠ f.addr ∨ f.lo + f.width ≤ g.lo ∨ g.lo + g.width ≤ f.lo) : (s.bump f n).fld g = s.fld g :=
  State.fld_setFld_other s f g _ hw h

theorem State.reg_bump_other (s : State) (f : Fld) (n : Nat) {b : Nat} (h : b ≠ f.addr) : (s.bump f n).reg b = s.reg b :=
  State.reg_setFld_other s f _ h

/-- An update that leaves the registers alone leaves every register as it reads. -/
theorem State.reg_congr {s t : State} (h : t.regs = s.regs) (a : Nat) : t.reg a = s.reg a := by unfold State.reg; rw [h]

theorem State.fld_congr {s t : State} (h : t.regs = s.regs) (f : Fld) : t.fld f = s.fld f := by
  unfold State.fld
  rw [State.reg_congr h]

/-- An event counter that is advanced (R598, R599). -/
theorem State.cnt_count (s : State) (k n j : Nat) : SMap.get (fun _ => 0) (s.count k n).cnt j =
    if j = k then (SMap.get (fun _ => 0) s.cnt k + n) % 2 ^ 48 else SMap.get (fun _ => 0) s.cnt j := by
  unfold State.count State.setFlagIf
  dsimp only
  split <;> exact SMap.get_set _ _ _ _ _

end Sys2Proof.Machine
end

