-- ==== Sys2Proof/Laws/State.lean ====
section
/-! SUPPORT. What each named update of the state leaves as it is: one lemma per field and update. -/

namespace Sys2Proof.Machine

@[simp] theorem State.setReg_pending (s : State) (a : Nat) (v : Word) : (s.setReg a v).pending = s.pending := rfl
@[simp] theorem State.setReg_out (s : State) (a : Nat) (v : Word) : (s.setReg a v).out = s.out := rfl
@[simp] theorem State.setReg_free (s : State) (a : Nat) (v : Word) : (s.setReg a v).free = s.free := rfl
@[simp] theorem State.setReg_evt (s : State) (a : Nat) (v : Word) : (s.setReg a v).evt = s.evt := rfl
@[simp] theorem State.setReg_mem (s : State) (a : Nat) (v : Word) : (s.setReg a v).mem = s.mem := rfl
@[simp] theorem State.setReg_poison (s : State) (a : Nat) (v : Word) : (s.setReg a v).poison = s.poison := rfl
@[simp] theorem State.setReg_host (s : State) (a : Nat) (v : Word) : (s.setReg a v).host = s.host := rfl
@[simp] theorem State.setReg_tide (s : State) (a : Nat) (v : Word) : (s.setReg a v).tide = s.tide := rfl
@[simp] theorem State.setReg_tports (s : State) (a : Nat) (v : Word) : (s.setReg a v).tports = s.tports := rfl
@[simp] theorem State.setReg_ports (s : State) (a : Nat) (v : Word) : (s.setReg a v).ports = s.ports := rfl
@[simp] theorem State.setReg_held (s : State) (a : Nat) (v : Word) : (s.setReg a v).held = s.held := rfl
@[simp] theorem State.setReg_holdReq (s : State) (a : Nat) (v : Word) : (s.setReg a v).holdReq = s.holdReq := rfl
@[simp] theorem State.setReg_tx (s : State) (a : Nat) (v : Word) : (s.setReg a v).tx = s.tx := rfl
@[simp] theorem State.setReg_rx (s : State) (a : Nat) (v : Word) : (s.setReg a v).rx = s.rx := rfl
@[simp] theorem State.setReg_started (s : State) (a : Nat) (v : Word) : (s.setReg a v).started = s.started := rfl
@[simp] theorem State.setReg_counters (s : State) (a : Nat) (v : Word) : (s.setReg a v).counters = s.counters := rfl
@[simp] theorem State.setReg_sync (s : State) (a : Nat) (v : Word) : (s.setReg a v).sync = s.sync := rfl
@[simp] theorem State.setReg_gated (s : State) (a : Nat) (v : Word) : (s.setReg a v).gated = s.gated := rfl
@[simp] theorem State.setReg_frozen (s : State) (a : Nat) (v : Word) : (s.setReg a v).frozen = s.frozen := rfl
@[simp] theorem State.setReg_fires (s : State) (a : Nat) (v : Word) : (s.setReg a v).fires = s.fires := rfl
@[simp] theorem State.setReg_syncRaise (s : State) (a : Nat) (v : Word) : (s.setReg a v).syncRaise = s.syncRaise := rfl
@[simp] theorem State.setReg_syncFwd (s : State) (a : Nat) (v : Word) : (s.setReg a v).syncFwd = s.syncFwd := rfl
@[simp] theorem State.setReg_acceptNo (s : State) (a : Nat) (v : Word) : (s.setReg a v).acceptNo = s.acceptNo := rfl
@[simp] theorem State.setReg_mirrorA (s : State) (a : Nat) (v : Word) : (s.setReg a v).mirrorA = s.mirrorA := rfl
@[simp] theorem State.setReg_mirrorB (s : State) (a : Nat) (v : Word) : (s.setReg a v).mirrorB = s.mirrorB := rfl
@[simp] theorem State.setReg_shadow (s : State) (a : Nat) (v : Word) : (s.setReg a v).shadow = s.shadow := rfl
@[simp] theorem State.setReg_work (s : State) (a : Nat) (v : Word) : (s.setReg a v).work = s.work := rfl
@[simp] theorem State.setReg_ringQ (s : State) (a : Nat) (v : Word) : (s.setReg a v).ringQ = s.ringQ := rfl
@[simp] theorem State.setReg_doneQ (s : State) (a : Nat) (v : Word) : (s.setReg a v).doneQ = s.doneQ := rfl
@[simp] theorem State.setReg_waits (s : State) (a : Nat) (v : Word) : (s.setReg a v).waits = s.waits := rfl
@[simp] theorem State.setReg_gaveUp (s : State) (a : Nat) (v : Word) : (s.setReg a v).gaveUp = s.gaveUp := rfl
@[simp] theorem State.setReg_groups (s : State) (a : Nat) (v : Word) : (s.setReg a v).groups = s.groups := rfl
@[simp] theorem State.setReg_commits (s : State) (a : Nat) (v : Word) : (s.setReg a v).commits = s.commits := rfl
@[simp] theorem State.setReg_copies (s : State) (a : Nat) (v : Word) : (s.setReg a v).copies = s.copies := rfl
@[simp] theorem State.setReg_tlpStop (s : State) (a : Nat) (v : Word) : (s.setReg a v).tlpStop = s.tlpStop := rfl
@[simp] theorem State.setReg_barLog (s : State) (a : Nat) (v : Word) : (s.setReg a v).barLog = s.barLog := rfl
@[simp] theorem State.setReg_moder (s : State) (a : Nat) (v : Word) : (s.setReg a v).moder = s.moder := rfl
@[simp] theorem State.setReg_cqPass (s : State) (a : Nat) (v : Word) : (s.setReg a v).cqPass = s.cqPass := rfl
@[simp] theorem State.setReg_replayQ (s : State) (a : Nat) (v : Word) : (s.setReg a v).replayQ = s.replayQ := rfl
@[simp] theorem State.setReg_warmReq (s : State) (a : Nat) (v : Word) : (s.setReg a v).warmReq = s.warmReq := rfl
@[simp] theorem State.setReg_coldReq (s : State) (a : Nat) (v : Word) : (s.setReg a v).coldReq = s.coldReq := rfl
@[simp] theorem State.setReg_regionReq (s : State) (a : Nat) (v : Word) : (s.setReg a v).regionReq = s.regionReq := rfl
@[simp] theorem State.setReg_rr (s : State) (a : Nat) (v : Word) : (s.setReg a v).rr = s.rr := rfl
@[simp] theorem State.setReg_errBuf (s : State) (a : Nat) (v : Word) : (s.setReg a v).errBuf = s.errBuf := rfl
@[simp] theorem State.setReg_errSeq (s : State) (a : Nat) (v : Word) : (s.setReg a v).errSeq = s.errSeq := rfl
@[simp] theorem State.setReg_errCoal (s : State) (a : Nat) (v : Word) : (s.setReg a v).errCoal = s.errCoal := rfl
@[simp] theorem State.setReg_errNew (s : State) (a : Nat) (v : Word) : (s.setReg a v).errNew = s.errNew := rfl
@[simp] theorem State.setReg_cfg (s : State) (a : Nat) (v : Word) : (s.setReg a v).cfg = s.cfg := rfl
@[simp] theorem State.setReg_blocks (s : State) (a : Nat) (v : Word) : (s.setReg a v).blocks = s.blocks := rfl
@[simp] theorem State.setReg_pan (s : State) (a : Nat) (v : Word) : (s.setReg a v).pan = s.pan := rfl
@[simp] theorem State.setReg_panRows (s : State) (a : Nat) (v : Word) : (s.setReg a v).panRows = s.panRows := rfl
@[simp] theorem State.setReg_stat (s : State) (a : Nat) (v : Word) : (s.setReg a v).stat = s.stat := rfl
@[simp] theorem State.setReg_lanes (s : State) (a : Nat) (v : Word) : (s.setReg a v).lanes = s.lanes := rfl
@[simp] theorem State.setReg_launches (s : State) (a : Nat) (v : Word) : (s.setReg a v).launches = s.launches := rfl
@[simp] theorem State.setReg_blkErr (s : State) (a : Nat) (v : Word) : (s.setReg a v).blkErr = s.blkErr := rfl
@[simp] theorem State.setReg_quarRows (s : State) (a : Nat) (v : Word) : (s.setReg a v).quarRows = s.quarRows := rfl
@[simp] theorem State.setReg_repairA (s : State) (a : Nat) (v : Word) : (s.setReg a v).repairA = s.repairA := rfl
@[simp] theorem State.setReg_repairB (s : State) (a : Nat) (v : Word) : (s.setReg a v).repairB = s.repairB := rfl
@[simp] theorem State.setReg_repairPend (s : State) (a : Nat) (v : Word) : (s.setReg a v).repairPend = s.repairPend := rfl
@[simp] theorem State.setReg_softRep (s : State) (a : Nat) (v : Word) : (s.setReg a v).softRep = s.softRep := rfl
@[simp] theorem State.setReg_monStop (s : State) (a : Nat) (v : Word) : (s.setReg a v).monStop = s.monStop := rfl
@[simp] theorem State.setReg_brakeStop (s : State) (a : Nat) (v : Word) : (s.setReg a v).brakeStop = s.brakeStop := rfl
@[simp] theorem State.setReg_brakeLow (s : State) (a : Nat) (v : Word) : (s.setReg a v).brakeLow = s.brakeLow := rfl
@[simp] theorem State.setReg_governing (s : State) (a : Nat) (v : Word) : (s.setReg a v).governing = s.governing := rfl
@[simp] theorem State.setReg_stackTemp (s : State) (a : Nat) (v : Word) : (s.setReg a v).stackTemp = s.stackTemp := rfl
@[simp] theorem State.setReg_entryTo (s : State) (a : Nat) (v : Word) : (s.setReg a v).entryTo = s.entryTo := rfl
@[simp] theorem State.setReg_wakePend (s : State) (a : Nat) (v : Word) : (s.setReg a v).wakePend = s.wakePend := rfl
@[simp] theorem State.setReg_reqPend (s : State) (a : Nat) (v : Word) : (s.setReg a v).reqPend = s.reqPend := rfl
@[simp] theorem State.setReg_wakeLow (s : State) (a : Nat) (v : Word) : (s.setReg a v).wakeLow = s.wakeLow := rfl
@[simp] theorem State.setReg_lastExit (s : State) (a : Nat) (v : Word) : (s.setReg a v).lastExit = s.lastExit := rfl
@[simp] theorem State.setReg_retrainDue (s : State) (a : Nat) (v : Word) : (s.setReg a v).retrainDue = s.retrainDue := rfl
@[simp] theorem State.setReg_movedNow (s : State) (a : Nat) (v : Word) : (s.setReg a v).movedNow = s.movedNow := rfl
@[simp] theorem State.setReg_movedLast (s : State) (a : Nat) (v : Word) : (s.setReg a v).movedLast = s.movedLast := rfl
@[simp] theorem State.setReg_heldAlarms (s : State) (a : Nat) (v : Word) : (s.setReg a v).heldAlarms = s.heldAlarms := rfl
@[simp] theorem State.setReg_scrubPos (s : State) (a : Nat) (v : Word) : (s.setReg a v).scrubPos = s.scrubPos := rfl
@[simp] theorem State.setReg_scrubPass (s : State) (a : Nat) (v : Word) : (s.setReg a v).scrubPass = s.scrubPass := rfl
@[simp] theorem State.setReg_scrubDie (s : State) (a : Nat) (v : Word) : (s.setReg a v).scrubDie = s.scrubDie := rfl
@[simp] theorem State.setReg_scrubRow (s : State) (a : Nat) (v : Word) : (s.setReg a v).scrubRow = s.scrubRow := rfl
@[simp] theorem State.setReg_wins (s : State) (a : Nat) (v : Word) : (s.setReg a v).wins = s.wins := rfl
@[simp] theorem State.setReg_hcells (s : State) (a : Nat) (v : Word) : (s.setReg a v).hcells = s.hcells := rfl
@[simp] theorem State.setReg_norms (s : State) (a : Nat) (v : Word) : (s.setReg a v).norms = s.norms := rfl
@[simp] theorem State.setReg_verdicts (s : State) (a : Nat) (v : Word) : (s.setReg a v).verdicts = s.verdicts := rfl
@[simp] theorem State.setReg_normIn (s : State) (a : Nat) (v : Word) : (s.setReg a v).normIn = s.normIn := rfl
@[simp] theorem State.setReg_stepSums (s : State) (a : Nat) (v : Word) : (s.setReg a v).stepSums = s.stepSums := rfl
@[simp] theorem State.setReg_maps (s : State) (a : Nat) (v : Word) : (s.setReg a v).maps = s.maps := rfl
@[simp] theorem State.setReg_mapPend (s : State) (a : Nat) (v : Word) : (s.setReg a v).mapPend = s.mapPend := rfl
@[simp] theorem State.setReg_ringJobs (s : State) (a : Nat) (v : Word) : (s.setReg a v).ringJobs = s.ringJobs := rfl
@[simp] theorem State.setReg_rootJobs (s : State) (a : Nat) (v : Word) : (s.setReg a v).rootJobs = s.rootJobs := rfl
@[simp] theorem State.setReg_solvers (s : State) (a : Nat) (v : Word) : (s.setReg a v).solvers = s.solvers := rfl
@[simp] theorem State.setReg_relayed (s : State) (a : Nat) (v : Word) : (s.setReg a v).relayed = s.relayed := rfl
@[simp] theorem State.setReg_flash (s : State) (a : Nat) (v : Word) : (s.setReg a v).flash = s.flash := rfl
@[simp] theorem State.setReg_nextToken (s : State) (a : Nat) (v : Word) : (s.setReg a v).nextToken = s.nextToken := rfl
@[simp] theorem State.setReg_errHist (s : State) (a : Nat) (v : Word) : (s.setReg a v).errHist = s.errHist := rfl
@[simp] theorem State.setReg_cnt (s : State) (a : Nat) (v : Word) : (s.setReg a v).cnt = s.cnt := rfl
@[simp] theorem State.setReg_cntLatch (s : State) (a : Nat) (v : Word) : (s.setReg a v).cntLatch = s.cntLatch := rfl
@[simp] theorem State.setReg_cntRem (s : State) (a : Nat) (v : Word) : (s.setReg a v).cntRem = s.cntRem := rfl
@[simp] theorem State.setReg_bwWindow (s : State) (a : Nat) (v : Word) : (s.setReg a v).bwWindow = s.bwWindow := rfl
@[simp] theorem State.setReg_snaps (s : State) (a : Nat) (v : Word) : (s.setReg a v).snaps = s.snaps := rfl
@[simp] theorem State.setReg_perstLow (s : State) (a : Nat) (v : Word) : (s.setReg a v).perstLow = s.perstLow := rfl
@[simp] theorem State.setReg_unpowered (s : State) (a : Nat) (v : Word) : (s.setReg a v).unpowered = s.unpowered := rfl
@[simp] theorem State.setReg_shutFenced (s : State) (a : Nat) (v : Word) : (s.setReg a v).shutFenced = s.shutFenced := rfl
@[simp] theorem State.setReg_shutCause (s : State) (a : Nat) (v : Word) : (s.setReg a v).shutCause = s.shutCause := rfl
@[simp] theorem State.setReg_maintEnd (s : State) (a : Nat) (v : Word) : (s.setReg a v).maintEnd = s.maintEnd := rfl
@[simp] theorem State.setReg_booted (s : State) (a : Nat) (v : Word) : (s.setReg a v).booted = s.booted := rfl
@[simp] theorem State.setReg_loaded (s : State) (a : Nat) (v : Word) : (s.setReg a v).loaded = s.loaded := rfl
@[simp] theorem State.setReg_restartDue (s : State) (a : Nat) (v : Word) : (s.setReg a v).restartDue = s.restartDue := rfl
@[simp] theorem State.setReg_restartReport (s : State) (a : Nat) (v : Word) : (s.setReg a v).restartReport = s.restartReport := rfl
@[simp] theorem State.setReg_fallDue (s : State) (a : Nat) (v : Word) : (s.setReg a v).fallDue = s.fallDue := rfl
@[simp] theorem State.setReg_trialAt (s : State) (a : Nat) (v : Word) : (s.setReg a v).trialAt = s.trialAt := rfl
@[simp] theorem State.setReg_logValue (s : State) (a : Nat) (v : Word) : (s.setReg a v).logValue = s.logValue := rfl
@[simp] theorem State.setReg_logEntries (s : State) (a : Nat) (v : Word) : (s.setReg a v).logEntries = s.logEntries := rfl
@[simp] theorem State.setReg_serial (s : State) (a : Nat) (v : Word) : (s.setReg a v).serial = s.serial := rfl
@[simp] theorem State.setReg_tap (s : State) (a : Nat) (v : Word) : (s.setReg a v).tap = s.tap := rfl
@[simp] theorem State.setReg_chain (s : State) (a : Nat) (v : Word) : (s.setReg a v).chain = s.chain := rfl
@[simp] theorem State.setReg_driven (s : State) (a : Nat) (v : Word) : (s.setReg a v).driven = s.driven := rfl
@[simp] theorem State.setReg_i3cAddr (s : State) (a : Nat) (v : Word) : (s.setReg a v).i3cAddr = s.i3cAddr := rfl
@[simp] theorem State.setReg_i3cOff (s : State) (a : Nat) (v : Word) : (s.setReg a v).i3cOff = s.i3cOff := rfl
@[simp] theorem State.setReg_i3cRst (s : State) (a : Nat) (v : Word) : (s.setReg a v).i3cRst = s.i3cRst := rfl

@[simp] theorem State.setFld_pending (s : State) (f : Fld) (v : Nat) : (s.setFld f v).pending = s.pending := rfl
@[simp] theorem State.setFld_out (s : State) (f : Fld) (v : Nat) : (s.setFld f v).out = s.out := rfl
@[simp] theorem State.setFld_free (s : State) (f : Fld) (v : Nat) : (s.setFld f v).free = s.free := rfl
@[simp] theorem State.setFld_evt (s : State) (f : Fld) (v : Nat) : (s.setFld f v).evt = s.evt := rfl
@[simp] theorem State.setFld_mem (s : State) (f : Fld) (v : Nat) : (s.setFld f v).mem = s.mem := rfl
@[simp] theorem State.setFld_poison (s : State) (f : Fld) (v : Nat) : (s.setFld f v).poison = s.poison := rfl
@[simp] theorem State.setFld_host (s : State) (f : Fld) (v : Nat) : (s.setFld f v).host = s.host := rfl
@[simp] theorem State.setFld_tide (s : State) (f : Fld) (v : Nat) : (s.setFld f v).tide = s.tide := rfl
@[simp] theorem State.setFld_tports (s : State) (f : Fld) (v : Nat) : (s.setFld f v).tports = s.tports := rfl
@[simp] theorem State.setFld_ports (s : State) (f : Fld) (v : Nat) : (s.setFld f v).ports = s.ports := rfl
@[simp] theorem State.setFld_held (s : State) (f : Fld) (v : Nat) : (s.setFld f v).held = s.held := rfl
@[simp] theorem State.setFld_holdReq (s : State) (f : Fld) (v : Nat) : (s.setFld f v).holdReq = s.holdReq := rfl
@[simp] theorem State.setFld_tx (s : State) (f : Fld) (v : Nat) : (s.setFld f v).tx = s.tx := rfl
@[simp] theorem State.setFld_rx (s : State) (f : Fld) (v : Nat) : (s.setFld f v).rx = s.rx := rfl
@[simp] theorem State.setFld_started (s : State) (f : Fld) (v : Nat) : (s.setFld f v).started = s.started := rfl
@[simp] theorem State.setFld_counters (s : State) (f : Fld) (v : Nat) : (s.setFld f v).counters = s.counters := rfl
@[simp] theorem State.setFld_sync (s : State) (f : Fld) (v : Nat) : (s.setFld f v).sync = s.sync := rfl
@[simp] theorem State.setFld_gated (s : State) (f : Fld) (v : Nat) : (s.setFld f v).gated = s.gated := rfl
@[simp] theorem State.setFld_frozen (s : State) (f : Fld) (v : Nat) : (s.setFld f v).frozen = s.frozen := rfl
@[simp] theorem State.setFld_fires (s : State) (f : Fld) (v : Nat) : (s.setFld f v).fires = s.fires := rfl
@[simp] theorem State.setFld_syncRaise (s : State) (f : Fld) (v : Nat) : (s.setFld f v).syncRaise = s.syncRaise := rfl
@[simp] theorem State.setFld_syncFwd (s : State) (f : Fld) (v : Nat) : (s.setFld f v).syncFwd = s.syncFwd := rfl
@[simp] theorem State.setFld_acceptNo (s : State) (f : Fld) (v : Nat) : (s.setFld f v).acceptNo = s.acceptNo := rfl
@[simp] theorem State.setFld_mirrorA (s : State) (f : Fld) (v : Nat) : (s.setFld f v).mirrorA = s.mirrorA := rfl
@[simp] theorem State.setFld_mirrorB (s : State) (f : Fld) (v : Nat) : (s.setFld f v).mirrorB = s.mirrorB := rfl
@[simp] theorem State.setFld_shadow (s : State) (f : Fld) (v : Nat) : (s.setFld f v).shadow = s.shadow := rfl
@[simp] theorem State.setFld_work (s : State) (f : Fld) (v : Nat) : (s.setFld f v).work = s.work := rfl
@[simp] theorem State.setFld_ringQ (s : State) (f : Fld) (v : Nat) : (s.setFld f v).ringQ = s.ringQ := rfl
@[simp] theorem State.setFld_doneQ (s : State) (f : Fld) (v : Nat) : (s.setFld f v).doneQ = s.doneQ := rfl
@[simp] theorem State.setFld_waits (s : State) (f : Fld) (v : Nat) : (s.setFld f v).waits = s.waits := rfl
@[simp] theorem State.setFld_gaveUp (s : State) (f : Fld) (v : Nat) : (s.setFld f v).gaveUp = s.gaveUp := rfl
@[simp] theorem State.setFld_groups (s : State) (f : Fld) (v : Nat) : (s.setFld f v).groups = s.groups := rfl
@[simp] theorem State.setFld_commits (s : State) (f : Fld) (v : Nat) : (s.setFld f v).commits = s.commits := rfl
@[simp] theorem State.setFld_copies (s : State) (f : Fld) (v : Nat) : (s.setFld f v).copies = s.copies := rfl
@[simp] theorem State.setFld_tlpStop (s : State) (f : Fld) (v : Nat) : (s.setFld f v).tlpStop = s.tlpStop := rfl
@[simp] theorem State.setFld_barLog (s : State) (f : Fld) (v : Nat) : (s.setFld f v).barLog = s.barLog := rfl
@[simp] theorem State.setFld_moder (s : State) (f : Fld) (v : Nat) : (s.setFld f v).moder = s.moder := rfl
@[simp] theorem State.setFld_cqPass (s : State) (f : Fld) (v : Nat) : (s.setFld f v).cqPass = s.cqPass := rfl
@[simp] theorem State.setFld_replayQ (s : State) (f : Fld) (v : Nat) : (s.setFld f v).replayQ = s.replayQ := rfl
@[simp] theorem State.setFld_warmReq (s : State) (f : Fld) (v : Nat) : (s.setFld f v).warmReq = s.warmReq := rfl
@[simp] theorem State.setFld_coldReq (s : State) (f : Fld) (v : Nat) : (s.setFld f v).coldReq = s.coldReq := rfl
@[simp] theorem State.setFld_regionReq (s : State) (f : Fld) (v : Nat) : (s.setFld f v).regionReq = s.regionReq := rfl
@[simp] theorem State.setFld_rr (s : State) (f : Fld) (v : Nat) : (s.setFld f v).rr = s.rr := rfl
@[simp] theorem State.setFld_errBuf (s : State) (f : Fld) (v : Nat) : (s.setFld f v).errBuf = s.errBuf := rfl
@[simp] theorem State.setFld_errSeq (s : State) (f : Fld) (v : Nat) : (s.setFld f v).errSeq = s.errSeq := rfl
@[simp] theorem State.setFld_errCoal (s : State) (f : Fld) (v : Nat) : (s.setFld f v).errCoal = s.errCoal := rfl
@[simp] theorem State.setFld_errNew (s : State) (f : Fld) (v : Nat) : (s.setFld f v).errNew = s.errNew := rfl
@[simp] theorem State.setFld_cfg (s : State) (f : Fld) (v : Nat) : (s.setFld f v).cfg = s.cfg := rfl
@[simp] theorem State.setFld_blocks (s : State) (f : Fld) (v : Nat) : (s.setFld f v).blocks = s.blocks := rfl
@[simp] theorem State.setFld_pan (s : State) (f : Fld) (v : Nat) : (s.setFld f v).pan = s.pan := rfl
@[simp] theorem State.setFld_panRows (s : State) (f : Fld) (v : Nat) : (s.setFld f v).panRows = s.panRows := rfl
@[simp] theorem State.setFld_stat (s : State) (f : Fld) (v : Nat) : (s.setFld f v).stat = s.stat := rfl
@[simp] theorem State.setFld_lanes (s : State) (f : Fld) (v : Nat) : (s.setFld f v).lanes = s.lanes := rfl
@[simp] theorem State.setFld_launches (s : State) (f : Fld) (v : Nat) : (s.setFld f v).launches = s.launches := rfl
@[simp] theorem State.setFld_blkErr (s : State) (f : Fld) (v : Nat) : (s.setFld f v).blkErr = s.blkErr := rfl
@[simp] theorem State.setFld_quarRows (s : State) (f : Fld) (v : Nat) : (s.setFld f v).quarRows = s.quarRows := rfl
@[simp] theorem State.setFld_repairA (s : State) (f : Fld) (v : Nat) : (s.setFld f v).repairA = s.repairA := rfl
@[simp] theorem State.setFld_repairB (s : State) (f : Fld) (v : Nat) : (s.setFld f v).repairB = s.repairB := rfl
@[simp] theorem State.setFld_repairPend (s : State) (f : Fld) (v : Nat) : (s.setFld f v).repairPend = s.repairPend := rfl
@[simp] theorem State.setFld_softRep (s : State) (f : Fld) (v : Nat) : (s.setFld f v).softRep = s.softRep := rfl
@[simp] theorem State.setFld_monStop (s : State) (f : Fld) (v : Nat) : (s.setFld f v).monStop = s.monStop := rfl
@[simp] theorem State.setFld_brakeStop (s : State) (f : Fld) (v : Nat) : (s.setFld f v).brakeStop = s.brakeStop := rfl
@[simp] theorem State.setFld_brakeLow (s : State) (f : Fld) (v : Nat) : (s.setFld f v).brakeLow = s.brakeLow := rfl
@[simp] theorem State.setFld_governing (s : State) (f : Fld) (v : Nat) : (s.setFld f v).governing = s.governing := rfl
@[simp] theorem State.setFld_stackTemp (s : State) (f : Fld) (v : Nat) : (s.setFld f v).stackTemp = s.stackTemp := rfl
@[simp] theorem State.setFld_entryTo (s : State) (f : Fld) (v : Nat) : (s.setFld f v).entryTo = s.entryTo := rfl
@[simp] theorem State.setFld_wakePend (s : State) (f : Fld) (v : Nat) : (s.setFld f v).wakePend = s.wakePend := rfl
@[simp] theorem State.setFld_reqPend (s : State) (f : Fld) (v : Nat) : (s.setFld f v).reqPend = s.reqPend := rfl
@[simp] theorem State.setFld_wakeLow (s : State) (f : Fld) (v : Nat) : (s.setFld f v).wakeLow = s.wakeLow := rfl
@[simp] theorem State.setFld_lastExit (s : State) (f : Fld) (v : Nat) : (s.setFld f v).lastExit = s.lastExit := rfl
@[simp] theorem State.setFld_retrainDue (s : State) (f : Fld) (v : Nat) : (s.setFld f v).retrainDue = s.retrainDue := rfl
@[simp] theorem State.setFld_movedNow (s : State) (f : Fld) (v : Nat) : (s.setFld f v).movedNow = s.movedNow := rfl
@[simp] theorem State.setFld_movedLast (s : State) (f : Fld) (v : Nat) : (s.setFld f v).movedLast = s.movedLast := rfl
@[simp] theorem State.setFld_heldAlarms (s : State) (f : Fld) (v : Nat) : (s.setFld f v).heldAlarms = s.heldAlarms := rfl
@[simp] theorem State.setFld_scrubPos (s : State) (f : Fld) (v : Nat) : (s.setFld f v).scrubPos = s.scrubPos := rfl
@[simp] theorem State.setFld_scrubPass (s : State) (f : Fld) (v : Nat) : (s.setFld f v).scrubPass = s.scrubPass := rfl
@[simp] theorem State.setFld_scrubDie (s : State) (f : Fld) (v : Nat) : (s.setFld f v).scrubDie = s.scrubDie := rfl
@[simp] theorem State.setFld_scrubRow (s : State) (f : Fld) (v : Nat) : (s.setFld f v).scrubRow = s.scrubRow := rfl
@[simp] theorem State.setFld_wins (s : State) (f : Fld) (v : Nat) : (s.setFld f v).wins = s.wins := rfl
@[simp] theorem State.setFld_hcells (s : State) (f : Fld) (v : Nat) : (s.setFld f v).hcells = s.hcells := rfl
@[simp] theorem State.setFld_norms (s : State) (f : Fld) (v : Nat) : (s.setFld f v).norms = s.norms := rfl
@[simp] theorem State.setFld_verdicts (s : State) (f : Fld) (v : Nat) : (s.setFld f v).verdicts = s.verdicts := rfl
@[simp] theorem State.setFld_normIn (s : State) (f : Fld) (v : Nat) : (s.setFld f v).normIn = s.normIn := rfl
@[simp] theorem State.setFld_stepSums (s : State) (f : Fld) (v : Nat) : (s.setFld f v).stepSums = s.stepSums := rfl
@[simp] theorem State.setFld_maps (s : State) (f : Fld) (v : Nat) : (s.setFld f v).maps = s.maps := rfl
@[simp] theorem State.setFld_mapPend (s : State) (f : Fld) (v : Nat) : (s.setFld f v).mapPend = s.mapPend := rfl
@[simp] theorem State.setFld_ringJobs (s : State) (f : Fld) (v : Nat) : (s.setFld f v).ringJobs = s.ringJobs := rfl
@[simp] theorem State.setFld_rootJobs (s : State) (f : Fld) (v : Nat) : (s.setFld f v).rootJobs = s.rootJobs := rfl
@[simp] theorem State.setFld_solvers (s : State) (f : Fld) (v : Nat) : (s.setFld f v).solvers = s.solvers := rfl
@[simp] theorem State.setFld_relayed (s : State) (f : Fld) (v : Nat) : (s.setFld f v).relayed = s.relayed := rfl
@[simp] theorem State.setFld_flash (s : State) (f : Fld) (v : Nat) : (s.setFld f v).flash = s.flash := rfl
@[simp] theorem State.setFld_nextToken (s : State) (f : Fld) (v : Nat) : (s.setFld f v).nextToken = s.nextToken := rfl
@[simp] theorem State.setFld_errHist (s : State) (f : Fld) (v : Nat) : (s.setFld f v).errHist = s.errHist := rfl
@[simp] theorem State.setFld_cnt (s : State) (f : Fld) (v : Nat) : (s.setFld f v).cnt = s.cnt := rfl
@[simp] theorem State.setFld_cntLatch (s : State) (f : Fld) (v : Nat) : (s.setFld f v).cntLatch = s.cntLatch := rfl
@[simp] theorem State.setFld_cntRem (s : State) (f : Fld) (v : Nat) : (s.setFld f v).cntRem = s.cntRem := rfl
@[simp] theorem State.setFld_bwWindow (s : State) (f : Fld) (v : Nat) : (s.setFld f v).bwWindow = s.bwWindow := rfl
@[simp] theorem State.setFld_snaps (s : State) (f : Fld) (v : Nat) : (s.setFld f v).snaps = s.snaps := rfl
@[simp] theorem State.setFld_perstLow (s : State) (f : Fld) (v : Nat) : (s.setFld f v).perstLow = s.perstLow := rfl
@[simp] theorem State.setFld_unpowered (s : State) (f : Fld) (v : Nat) : (s.setFld f v).unpowered = s.unpowered := rfl
@[simp] theorem State.setFld_shutFenced (s : State) (f : Fld) (v : Nat) : (s.setFld f v).shutFenced = s.shutFenced := rfl
@[simp] theorem State.setFld_shutCause (s : State) (f : Fld) (v : Nat) : (s.setFld f v).shutCause = s.shutCause := rfl
@[simp] theorem State.setFld_maintEnd (s : State) (f : Fld) (v : Nat) : (s.setFld f v).maintEnd = s.maintEnd := rfl
@[simp] theorem State.setFld_booted (s : State) (f : Fld) (v : Nat) : (s.setFld f v).booted = s.booted := rfl
@[simp] theorem State.setFld_loaded (s : State) (f : Fld) (v : Nat) : (s.setFld f v).loaded = s.loaded := rfl
@[simp] theorem State.setFld_restartDue (s : State) (f : Fld) (v : Nat) : (s.setFld f v).restartDue = s.restartDue := rfl
@[simp] theorem State.setFld_restartReport (s : State) (f : Fld) (v : Nat) : (s.setFld f v).restartReport = s.restartReport := rfl
@[simp] theorem State.setFld_fallDue (s : State) (f : Fld) (v : Nat) : (s.setFld f v).fallDue = s.fallDue := rfl
@[simp] theorem State.setFld_trialAt (s : State) (f : Fld) (v : Nat) : (s.setFld f v).trialAt = s.trialAt := rfl
@[simp] theorem State.setFld_logValue (s : State) (f : Fld) (v : Nat) : (s.setFld f v).logValue = s.logValue := rfl
@[simp] theorem State.setFld_logEntries (s : State) (f : Fld) (v : Nat) : (s.setFld f v).logEntries = s.logEntries := rfl
@[simp] theorem State.setFld_serial (s : State) (f : Fld) (v : Nat) : (s.setFld f v).serial = s.serial := rfl
@[simp] theorem State.setFld_tap (s : State) (f : Fld) (v : Nat) : (s.setFld f v).tap = s.tap := rfl
@[simp] theorem State.setFld_chain (s : State) (f : Fld) (v : Nat) : (s.setFld f v).chain = s.chain := rfl
@[simp] theorem State.setFld_driven (s : State) (f : Fld) (v : Nat) : (s.setFld f v).driven = s.driven := rfl
@[simp] theorem State.setFld_i3cAddr (s : State) (f : Fld) (v : Nat) : (s.setFld f v).i3cAddr = s.i3cAddr := rfl
@[simp] theorem State.setFld_i3cOff (s : State) (f : Fld) (v : Nat) : (s.setFld f v).i3cOff = s.i3cOff := rfl
@[simp] theorem State.setFld_i3cRst (s : State) (f : Fld) (v : Nat) : (s.setFld f v).i3cRst = s.i3cRst := rfl

@[simp] theorem State.setFlag_pending (s : State) (f : Fld) : (s.setFlag f).pending = s.pending := rfl
@[simp] theorem State.setFlag_out (s : State) (f : Fld) : (s.setFlag f).out = s.out := rfl
@[simp] theorem State.setFlag_free (s : State) (f : Fld) : (s.setFlag f).free = s.free := rfl
@[simp] theorem State.setFlag_mem (s : State) (f : Fld) : (s.setFlag f).mem = s.mem := rfl
@[simp] theorem State.setFlag_poison (s : State) (f : Fld) : (s.setFlag f).poison = s.poison := rfl
@[simp] theorem State.setFlag_host (s : State) (f : Fld) : (s.setFlag f).host = s.host := rfl
@[simp] theorem State.setFlag_tide (s : State) (f : Fld) : (s.setFlag f).tide = s.tide := rfl
@[simp] theorem State.setFlag_tports (s : State) (f : Fld) : (s.setFlag f).tports = s.tports := rfl
@[simp] theorem State.setFlag_ports (s : State) (f : Fld) : (s.setFlag f).ports = s.ports := rfl
@[simp] theorem State.setFlag_held (s : State) (f : Fld) : (s.setFlag f).held = s.held := rfl
@[simp] theorem State.setFlag_holdReq (s : State) (f : Fld) : (s.setFlag f).holdReq = s.holdReq := rfl
@[simp] theorem State.setFlag_tx (s : State) (f : Fld) : (s.setFlag f).tx = s.tx := rfl
@[simp] theorem State.setFlag_rx (s : State) (f : Fld) : (s.setFlag f).rx = s.rx := rfl
@[simp] theorem State.setFlag_started (s : State) (f : Fld) : (s.setFlag f).started = s.started := rfl
@[simp] theorem State.setFlag_counters (s : State) (f : Fld) : (s.setFlag f).counters = s.counters := rfl
@[simp] theorem State.setFlag_sync (s : State) (f : Fld) : (s.setFlag f).sync = s.sync := rfl
@[simp] theorem State.setFlag_gated (s : State) (f : Fld) : (s.setFlag f).gated = s.gated := rfl
@[simp] theorem State.setFlag_frozen (s : State) (f : Fld) : (s.setFlag f).frozen = s.frozen := rfl
@[simp] theorem State.setFlag_fires (s : State) (f : Fld) : (s.setFlag f).fires = s.fires := rfl
@[simp] theorem State.setFlag_syncRaise (s : State) (f : Fld) : (s.setFlag f).syncRaise = s.syncRaise := rfl
@[simp] theorem State.setFlag_syncFwd (s : State) (f : Fld) : (s.setFlag f).syncFwd = s.syncFwd := rfl
@[simp] theorem State.setFlag_acceptNo (s : State) (f : Fld) : (s.setFlag f).acceptNo = s.acceptNo := rfl
@[simp] theorem State.setFlag_mirrorA (s : State) (f : Fld) : (s.setFlag f).mirrorA = s.mirrorA := rfl
@[simp] theorem State.setFlag_mirrorB (s : State) (f : Fld) : (s.setFlag f).mirrorB = s.mirrorB := rfl
@[simp] theorem State.setFlag_shadow (s : State) (f : Fld) : (s.setFlag f).shadow = s.shadow := rfl
@[simp] theorem State.setFlag_work (s : State) (f : Fld) : (s.setFlag f).work = s.work := rfl
@[simp] theorem State.setFlag_ringQ (s : State) (f : Fld) : (s.setFlag f).ringQ = s.ringQ := rfl
@[simp] theorem State.setFlag_doneQ (s : State) (f : Fld) : (s.setFlag f).doneQ = s.doneQ := rfl
@[simp] theorem State.setFlag_waits (s : State) (f : Fld) : (s.setFlag f).waits = s.waits := rfl
@[simp] theorem State.setFlag_gaveUp (s : State) (f : Fld) : (s.setFlag f).gaveUp = s.gaveUp := rfl
@[simp] theorem State.setFlag_groups (s : State) (f : Fld) : (s.setFlag f).groups = s.groups := rfl
@[simp] theorem State.setFlag_commits (s : State) (f : Fld) : (s.setFlag f).commits = s.commits := rfl
@[simp] theorem State.setFlag_copies (s : State) (f : Fld) : (s.setFlag f).copies = s.copies := rfl
@[simp] theorem State.setFlag_tlpStop (s : State) (f : Fld) : (s.setFlag f).tlpStop = s.tlpStop := rfl
@[simp] theorem State.setFlag_barLog (s : State) (f : Fld) : (s.setFlag f).barLog = s.barLog := rfl
@[simp] theorem State.setFlag_moder (s : State) (f : Fld) : (s.setFlag f).moder = s.moder := rfl
@[simp] theorem State.setFlag_cqPass (s : State) (f : Fld) : (s.setFlag f).cqPass = s.cqPass := rfl
@[simp] theorem State.setFlag_replayQ (s : State) (f : Fld) : (s.setFlag f).replayQ = s.replayQ := rfl
@[simp] theorem State.setFlag_warmReq (s : State) (f : Fld) : (s.setFlag f).warmReq = s.warmReq := rfl
@[simp] theorem State.setFlag_coldReq (s : State) (f : Fld) : (s.setFlag f).coldReq = s.coldReq := rfl
@[simp] theorem State.setFlag_regionReq (s : State) (f : Fld) : (s.setFlag f).regionReq = s.regionReq := rfl
@[simp] theorem State.setFlag_rr (s : State) (f : Fld) : (s.setFlag f).rr = s.rr := rfl
@[simp] theorem State.setFlag_errBuf (s : State) (f : Fld) : (s.setFlag f).errBuf = s.errBuf := rfl
@[simp] theorem State.setFlag_errSeq (s : State) (f : Fld) : (s.setFlag f).errSeq = s.errSeq := rfl
@[simp] theorem State.setFlag_errCoal (s : State) (f : Fld) : (s.setFlag f).errCoal = s.errCoal := rfl
@[simp] theorem State.setFlag_errNew (s : State) (f : Fld) : (s.setFlag f).errNew = s.errNew := rfl
@[simp] theorem State.setFlag_cfg (s : State) (f : Fld) : (s.setFlag f).cfg = s.cfg := rfl
@[simp] theorem State.setFlag_blocks (s : State) (f : Fld) : (s.setFlag f).blocks = s.blocks := rfl
@[simp] theorem State.setFlag_pan (s : State) (f : Fld) : (s.setFlag f).pan = s.pan := rfl
@[simp] theorem State.setFlag_panRows (s : State) (f : Fld) : (s.setFlag f).panRows = s.panRows := rfl
@[simp] theorem State.setFlag_stat (s : State) (f : Fld) : (s.setFlag f).stat = s.stat := rfl
@[simp] theorem State.setFlag_lanes (s : State) (f : Fld) : (s.setFlag f).lanes = s.lanes := rfl
@[simp] theorem State.setFlag_launches (s : State) (f : Fld) : (s.setFlag f).launches = s.launches := rfl
@[simp] theorem State.setFlag_blkErr (s : State) (f : Fld) : (s.setFlag f).blkErr = s.blkErr := rfl
@[simp] theorem State.setFlag_quarRows (s : State) (f : Fld) : (s.setFlag f).quarRows = s.quarRows := rfl
@[simp] theorem State.setFlag_repairA (s : State) (f : Fld) : (s.setFlag f).repairA = s.repairA := rfl
@[simp] theorem State.setFlag_repairB (s : State) (f : Fld) : (s.setFlag f).repairB = s.repairB := rfl
@[simp] theorem State.setFlag_repairPend (s : State) (f : Fld) : (s.setFlag f).repairPend = s.repairPend := rfl
@[simp] theorem State.setFlag_softRep (s : State) (f : Fld) : (s.setFlag f).softRep = s.softRep := rfl
@[simp] theorem State.setFlag_monStop (s : State) (f : Fld) : (s.setFlag f).monStop = s.monStop := rfl
@[simp] theorem State.setFlag_brakeStop (s : State) (f : Fld) : (s.setFlag f).brakeStop = s.brakeStop := rfl
@[simp] theorem State.setFlag_brakeLow (s : State) (f : Fld) : (s.setFlag f).brakeLow = s.brakeLow := rfl
@[simp] theorem State.setFlag_governing (s : State) (f : Fld) : (s.setFlag f).governing = s.governing := rfl
@[simp] theorem State.setFlag_stackTemp (s : State) (f : Fld) : (s.setFlag f).stackTemp = s.stackTemp := rfl
@[simp] theorem State.setFlag_entryTo (s : State) (f : Fld) : (s.setFlag f).entryTo = s.entryTo := rfl
@[simp] theorem State.setFlag_wakePend (s : State) (f : Fld) : (s.setFlag f).wakePend = s.wakePend := rfl
@[simp] theorem State.setFlag_reqPend (s : State) (f : Fld) : (s.setFlag f).reqPend = s.reqPend := rfl
@[simp] theorem State.setFlag_wakeLow (s : State) (f : Fld) : (s.setFlag f).wakeLow = s.wakeLow := rfl
@[simp] theorem State.setFlag_lastExit (s : State) (f : Fld) : (s.setFlag f).lastExit = s.lastExit := rfl
@[simp] theorem State.setFlag_retrainDue (s : State) (f : Fld) : (s.setFlag f).retrainDue = s.retrainDue := rfl
@[simp] theorem State.setFlag_movedNow (s : State) (f : Fld) : (s.setFlag f).movedNow = s.movedNow := rfl
@[simp] theorem State.setFlag_movedLast (s : State) (f : Fld) : (s.setFlag f).movedLast = s.movedLast := rfl
@[simp] theorem State.setFlag_heldAlarms (s : State) (f : Fld) : (s.setFlag f).heldAlarms = s.heldAlarms := rfl
@[simp] theorem State.setFlag_scrubPos (s : State) (f : Fld) : (s.setFlag f).scrubPos = s.scrubPos := rfl
@[simp] theorem State.setFlag_scrubPass (s : State) (f : Fld) : (s.setFlag f).scrubPass = s.scrubPass := rfl
@[simp] theorem State.setFlag_scrubDie (s : State) (f : Fld) : (s.setFlag f).scrubDie = s.scrubDie := rfl
@[simp] theorem State.setFlag_scrubRow (s : State) (f : Fld) : (s.setFlag f).scrubRow = s.scrubRow := rfl
@[simp] theorem State.setFlag_wins (s : State) (f : Fld) : (s.setFlag f).wins = s.wins := rfl
@[simp] theorem State.setFlag_hcells (s : State) (f : Fld) : (s.setFlag f).hcells = s.hcells := rfl
@[simp] theorem State.setFlag_norms (s : State) (f : Fld) : (s.setFlag f).norms = s.norms := rfl
@[simp] theorem State.setFlag_verdicts (s : State) (f : Fld) : (s.setFlag f).verdicts = s.verdicts := rfl
@[simp] theorem State.setFlag_normIn (s : State) (f : Fld) : (s.setFlag f).normIn = s.normIn := rfl
@[simp] theorem State.setFlag_stepSums (s : State) (f : Fld) : (s.setFlag f).stepSums = s.stepSums := rfl
@[simp] theorem State.setFlag_maps (s : State) (f : Fld) : (s.setFlag f).maps = s.maps := rfl
@[simp] theorem State.setFlag_mapPend (s : State) (f : Fld) : (s.setFlag f).mapPend = s.mapPend := rfl
@[simp] theorem State.setFlag_ringJobs (s : State) (f : Fld) : (s.setFlag f).ringJobs = s.ringJobs := rfl
@[simp] theorem State.setFlag_rootJobs (s : State) (f : Fld) : (s.setFlag f).rootJobs = s.rootJobs := rfl
@[simp] theorem State.setFlag_solvers (s : State) (f : Fld) : (s.setFlag f).solvers = s.solvers := rfl
@[simp] theorem State.setFlag_relayed (s : State) (f : Fld) : (s.setFlag f).relayed = s.relayed := rfl
@[simp] theorem State.setFlag_flash (s : State) (f : Fld) : (s.setFlag f).flash = s.flash := rfl
@[simp] theorem State.setFlag_nextToken (s : State) (f : Fld) : (s.setFlag f).nextToken = s.nextToken := rfl
@[simp] theorem State.setFlag_errHist (s : State) (f : Fld) : (s.setFlag f).errHist = s.errHist := rfl
@[simp] theorem State.setFlag_cnt (s : State) (f : Fld) : (s.setFlag f).cnt = s.cnt := rfl
@[simp] theorem State.setFlag_cntLatch (s : State) (f : Fld) : (s.setFlag f).cntLatch = s.cntLatch := rfl
@[simp] theorem State.setFlag_cntRem (s : State) (f : Fld) : (s.setFlag f).cntRem = s.cntRem := rfl
@[simp] theorem State.setFlag_bwWindow (s : State) (f : Fld) : (s.setFlag f).bwWindow = s.bwWindow := rfl
@[simp] theorem State.setFlag_snaps (s : State) (f : Fld) : (s.setFlag f).snaps = s.snaps := rfl
@[simp] theorem State.setFlag_perstLow (s : State) (f : Fld) : (s.setFlag f).perstLow = s.perstLow := rfl
@[simp] theorem State.setFlag_unpowered (s : State) (f : Fld) : (s.setFlag f).unpowered = s.unpowered := rfl
@[simp] theorem State.setFlag_shutFenced (s : State) (f : Fld) : (s.setFlag f).shutFenced = s.shutFenced := rfl
@[simp] theorem State.setFlag_shutCause (s : State) (f : Fld) : (s.setFlag f).shutCause = s.shutCause := rfl
@[simp] theorem State.setFlag_maintEnd (s : State) (f : Fld) : (s.setFlag f).maintEnd = s.maintEnd := rfl
@[simp] theorem State.setFlag_booted (s : State) (f : Fld) : (s.setFlag f).booted = s.booted := rfl
@[simp] theorem State.setFlag_loaded (s : State) (f : Fld) : (s.setFlag f).loaded = s.loaded := rfl
@[simp] theorem State.setFlag_restartDue (s : State) (f : Fld) : (s.setFlag f).restartDue = s.restartDue := rfl
@[simp] theorem State.setFlag_restartReport (s : State) (f : Fld) : (s.setFlag f).restartReport = s.restartReport := rfl
@[simp] theorem State.setFlag_fallDue (s : State) (f : Fld) : (s.setFlag f).fallDue = s.fallDue := rfl
@[simp] theorem State.setFlag_trialAt (s : State) (f : Fld) : (s.setFlag f).trialAt = s.trialAt := rfl
@[simp] theorem State.setFlag_logValue (s : State) (f : Fld) : (s.setFlag f).logValue = s.logValue := rfl
@[simp] theorem State.setFlag_logEntries (s : State) (f : Fld) : (s.setFlag f).logEntries = s.logEntries := rfl
@[simp] theorem State.setFlag_serial (s : State) (f : Fld) : (s.setFlag f).serial = s.serial := rfl
@[simp] theorem State.setFlag_tap (s : State) (f : Fld) : (s.setFlag f).tap = s.tap := rfl
@[simp] theorem State.setFlag_chain (s : State) (f : Fld) : (s.setFlag f).chain = s.chain := rfl
@[simp] theorem State.setFlag_driven (s : State) (f : Fld) : (s.setFlag f).driven = s.driven := rfl
@[simp] theorem State.setFlag_i3cAddr (s : State) (f : Fld) : (s.setFlag f).i3cAddr = s.i3cAddr := rfl
@[simp] theorem State.setFlag_i3cOff (s : State) (f : Fld) : (s.setFlag f).i3cOff = s.i3cOff := rfl
@[simp] theorem State.setFlag_i3cRst (s : State) (f : Fld) : (s.setFlag f).i3cRst = s.i3cRst := rfl

@[simp] theorem State.bump_pending (s : State) (f : Fld) (n : Nat) : (s.bump f n).pending = s.pending := rfl
@[simp] theorem State.bump_out (s : State) (f : Fld) (n : Nat) : (s.bump f n).out = s.out := rfl
@[simp] theorem State.bump_free (s : State) (f : Fld) (n : Nat) : (s.bump f n).free = s.free := rfl
@[simp] theorem State.bump_evt (s : State) (f : Fld) (n : Nat) : (s.bump f n).evt = s.evt := rfl
@[simp] theorem State.bump_mem (s : State) (f : Fld) (n : Nat) : (s.bump f n).mem = s.mem := rfl
@[simp] theorem State.bump_poison (s : State) (f : Fld) (n : Nat) : (s.bump f n).poison = s.poison := rfl
@[simp] theorem State.bump_host (s : State) (f : Fld) (n : Nat) : (s.bump f n).host = s.host := rfl
@[simp] theorem State.bump_tide (s : State) (f : Fld) (n : Nat) : (s.bump f n).tide = s.tide := rfl
@[simp] theorem State.bump_tports (s : State) (f : Fld) (n : Nat) : (s.bump f n).tports = s.tports := rfl
@[simp] theorem State.bump_ports (s : State) (f : Fld) (n : Nat) : (s.bump f n).ports = s.ports := rfl
@[simp] theorem State.bump_held (s : State) (f : Fld) (n : Nat) : (s.bump f n).held = s.held := rfl
@[simp] theorem State.bump_holdReq (s : State) (f : Fld) (n : Nat) : (s.bump f n).holdReq = s.holdReq := rfl
@[simp] theorem State.bump_tx (s : State) (f : Fld) (n : Nat) : (s.bump f n).tx = s.tx := rfl
@[simp] theorem State.bump_rx (s : State) (f : Fld) (n : Nat) : (s.bump f n).rx = s.rx := rfl
@[simp] theorem State.bump_started (s : State) (f : Fld) (n : Nat) : (s.bump f n).started = s.started := rfl
@[simp] theorem State.bump_counters (s : State) (f : Fld) (n : Nat) : (s.bump f n).counters = s.counters := rfl
@[simp] theorem State.bump_sync (s : State) (f : Fld) (n : Nat) : (s.bump f n).sync = s.sync := rfl
@[simp] theorem State.bump_gated (s : State) (f : Fld) (n : Nat) : (s.bump f n).gated = s.gated := rfl
@[simp] theorem State.bump_frozen (s : State) (f : Fld) (n : Nat) : (s.bump f n).frozen = s.frozen := rfl
@[simp] theorem State.bump_fires (s : State) (f : Fld) (n : Nat) : (s.bump f n).fires = s.fires := rfl
@[simp] theorem State.bump_syncRaise (s : State) (f : Fld) (n : Nat) : (s.bump f n).syncRaise = s.syncRaise := rfl
@[simp] theorem State.bump_syncFwd (s : State) (f : Fld) (n : Nat) : (s.bump f n).syncFwd = s.syncFwd := rfl
@[simp] theorem State.bump_acceptNo (s : State) (f : Fld) (n : Nat) : (s.bump f n).acceptNo = s.acceptNo := rfl
@[simp] theorem State.bump_mirrorA (s : State) (f : Fld) (n : Nat) : (s.bump f n).mirrorA = s.mirrorA := rfl
@[simp] theorem State.bump_mirrorB (s : State) (f : Fld) (n : Nat) : (s.bump f n).mirrorB = s.mirrorB := rfl
@[simp] theorem State.bump_shadow (s : State) (f : Fld) (n : Nat) : (s.bump f n).shadow = s.shadow := rfl
@[simp] theorem State.bump_work (s : State) (f : Fld) (n : Nat) : (s.bump f n).work = s.work := rfl
@[simp] theorem State.bump_ringQ (s : State) (f : Fld) (n : Nat) : (s.bump f n).ringQ = s.ringQ := rfl
@[simp] theorem State.bump_doneQ (s : State) (f : Fld) (n : Nat) : (s.bump f n).doneQ = s.doneQ := rfl
@[simp] theorem State.bump_waits (s : State) (f : Fld) (n : Nat) : (s.bump f n).waits = s.waits := rfl
@[simp] theorem State.bump_gaveUp (s : State) (f : Fld) (n : Nat) : (s.bump f n).gaveUp = s.gaveUp := rfl
@[simp] theorem State.bump_groups (s : State) (f : Fld) (n : Nat) : (s.bump f n).groups = s.groups := rfl
@[simp] theorem State.bump_commits (s : State) (f : Fld) (n : Nat) : (s.bump f n).commits = s.commits := rfl
@[simp] theorem State.bump_copies (s : State) (f : Fld) (n : Nat) : (s.bump f n).copies = s.copies := rfl
@[simp] theorem State.bump_tlpStop (s : State) (f : Fld) (n : Nat) : (s.bump f n).tlpStop = s.tlpStop := rfl
@[simp] theorem State.bump_barLog (s : State) (f : Fld) (n : Nat) : (s.bump f n).barLog = s.barLog := rfl
@[simp] theorem State.bump_moder (s : State) (f : Fld) (n : Nat) : (s.bump f n).moder = s.moder := rfl
@[simp] theorem State.bump_cqPass (s : State) (f : Fld) (n : Nat) : (s.bump f n).cqPass = s.cqPass := rfl
@[simp] theorem State.bump_replayQ (s : State) (f : Fld) (n : Nat) : (s.bump f n).replayQ = s.replayQ := rfl
@[simp] theorem State.bump_warmReq (s : State) (f : Fld) (n : Nat) : (s.bump f n).warmReq = s.warmReq := rfl
@[simp] theorem State.bump_coldReq (s : State) (f : Fld) (n : Nat) : (s.bump f n).coldReq = s.coldReq := rfl
@[simp] theorem State.bump_regionReq (s : State) (f : Fld) (n : Nat) : (s.bump f n).regionReq = s.regionReq := rfl
@[simp] theorem State.bump_rr (s : State) (f : Fld) (n : Nat) : (s.bump f n).rr = s.rr := rfl
@[simp] theorem State.bump_errBuf (s : State) (f : Fld) (n : Nat) : (s.bump f n).errBuf = s.errBuf := rfl
@[simp] theorem State.bump_errSeq (s : State) (f : Fld) (n : Nat) : (s.bump f n).errSeq = s.errSeq := rfl
@[simp] theorem State.bump_errCoal (s : State) (f : Fld) (n : Nat) : (s.bump f n).errCoal = s.errCoal := rfl
@[simp] theorem State.bump_errNew (s : State) (f : Fld) (n : Nat) : (s.bump f n).errNew = s.errNew := rfl
@[simp] theorem State.bump_cfg (s : State) (f : Fld) (n : Nat) : (s.bump f n).cfg = s.cfg := rfl
@[simp] theorem State.bump_blocks (s : State) (f : Fld) (n : Nat) : (s.bump f n).blocks = s.blocks := rfl
@[simp] theorem State.bump_pan (s : State) (f : Fld) (n : Nat) : (s.bump f n).pan = s.pan := rfl
@[simp] theorem State.bump_panRows (s : State) (f : Fld) (n : Nat) : (s.bump f n).panRows = s.panRows := rfl
@[simp] theorem State.bump_stat (s : State) (f : Fld) (n : Nat) : (s.bump f n).stat = s.stat := rfl
@[simp] theorem State.bump_lanes (s : State) (f : Fld) (n : Nat) : (s.bump f n).lanes = s.lanes := rfl
@[simp] theorem State.bump_launches (s : State) (f : Fld) (n : Nat) : (s.bump f n).launches = s.launches := rfl
@[simp] theorem State.bump_blkErr (s : State) (f : Fld) (n : Nat) : (s.bump f n).blkErr = s.blkErr := rfl
@[simp] theorem State.bump_quarRows (s : State) (f : Fld) (n : Nat) : (s.bump f n).quarRows = s.quarRows := rfl
@[simp] theorem State.bump_repairA (s : State) (f : Fld) (n : Nat) : (s.bump f n).repairA = s.repairA := rfl
@[simp] theorem State.bump_repairB (s : State) (f : Fld) (n : Nat) : (s.bump f n).repairB = s.repairB := rfl
@[simp] theorem State.bump_repairPend (s : State) (f : Fld) (n : Nat) : (s.bump f n).repairPend = s.repairPend := rfl
@[simp] theorem State.bump_softRep (s : State) (f : Fld) (n : Nat) : (s.bump f n).softRep = s.softRep := rfl
@[simp] theorem State.bump_monStop (s : State) (f : Fld) (n : Nat) : (s.bump f n).monStop = s.monStop := rfl
@[simp] theorem State.bump_brakeStop (s : State) (f : Fld) (n : Nat) : (s.bump f n).brakeStop = s.brakeStop := rfl
@[simp] theorem State.bump_brakeLow (s : State) (f : Fld) (n : Nat) : (s.bump f n).brakeLow = s.brakeLow := rfl
@[simp] theorem State.bump_governing (s : State) (f : Fld) (n : Nat) : (s.bump f n).governing = s.governing := rfl
@[simp] theorem State.bump_stackTemp (s : State) (f : Fld) (n : Nat) : (s.bump f n).stackTemp = s.stackTemp := rfl
@[simp] theorem State.bump_entryTo (s : State) (f : Fld) (n : Nat) : (s.bump f n).entryTo = s.entryTo := rfl
@[simp] theorem State.bump_wakePend (s : State) (f : Fld) (n : Nat) : (s.bump f n).wakePend = s.wakePend := rfl
@[simp] theorem State.bump_reqPend (s : State) (f : Fld) (n : Nat) : (s.bump f n).reqPend = s.reqPend := rfl
@[simp] theorem State.bump_wakeLow (s : State) (f : Fld) (n : Nat) : (s.bump f n).wakeLow = s.wakeLow := rfl
@[simp] theorem State.bump_lastExit (s : State) (f : Fld) (n : Nat) : (s.bump f n).lastExit = s.lastExit := rfl
@[simp] theorem State.bump_retrainDue (s : State) (f : Fld) (n : Nat) : (s.bump f n).retrainDue = s.retrainDue := rfl
@[simp] theorem State.bump_movedNow (s : State) (f : Fld) (n : Nat) : (s.bump f n).movedNow = s.movedNow := rfl
@[simp] theorem State.bump_movedLast (s : State) (f : Fld) (n : Nat) : (s.bump f n).movedLast = s.movedLast := rfl
@[simp] theorem State.bump_heldAlarms (s : State) (f : Fld) (n : Nat) : (s.bump f n).heldAlarms = s.heldAlarms := rfl
@[simp] theorem State.bump_scrubPos (s : State) (f : Fld) (n : Nat) : (s.bump f n).scrubPos = s.scrubPos := rfl
@[simp] theorem State.bump_scrubPass (s : State) (f : Fld) (n : Nat) : (s.bump f n).scrubPass = s.scrubPass := rfl
@[simp] theorem State.bump_scrubDie (s : State) (f : Fld) (n : Nat) : (s.bump f n).scrubDie = s.scrubDie := rfl
@[simp] theorem State.bump_scrubRow (s : State) (f : Fld) (n : Nat) : (s.bump f n).scrubRow = s.scrubRow := rfl
@[simp] theorem State.bump_wins (s : State) (f : Fld) (n : Nat) : (s.bump f n).wins = s.wins := rfl
@[simp] theorem State.bump_hcells (s : State) (f : Fld) (n : Nat) : (s.bump f n).hcells = s.hcells := rfl
@[simp] theorem State.bump_norms (s : State) (f : Fld) (n : Nat) : (s.bump f n).norms = s.norms := rfl
@[simp] theorem State.bump_verdicts (s : State) (f : Fld) (n : Nat) : (s.bump f n).verdicts = s.verdicts := rfl
@[simp] theorem State.bump_normIn (s : State) (f : Fld) (n : Nat) : (s.bump f n).normIn = s.normIn := rfl
@[simp] theorem State.bump_stepSums (s : State) (f : Fld) (n : Nat) : (s.bump f n).stepSums = s.stepSums := rfl
@[simp] theorem State.bump_maps (s : State) (f : Fld) (n : Nat) : (s.bump f n).maps = s.maps := rfl
@[simp] theorem State.bump_mapPend (s : State) (f : Fld) (n : Nat) : (s.bump f n).mapPend = s.mapPend := rfl
@[simp] theorem State.bump_ringJobs (s : State) (f : Fld) (n : Nat) : (s.bump f n).ringJobs = s.ringJobs := rfl
@[simp] theorem State.bump_rootJobs (s : State) (f : Fld) (n : Nat) : (s.bump f n).rootJobs = s.rootJobs := rfl
@[simp] theorem State.bump_solvers (s : State) (f : Fld) (n : Nat) : (s.bump f n).solvers = s.solvers := rfl
@[simp] theorem State.bump_relayed (s : State) (f : Fld) (n : Nat) : (s.bump f n).relayed = s.relayed := rfl
@[simp] theorem State.bump_flash (s : State) (f : Fld) (n : Nat) : (s.bump f n).flash = s.flash := rfl
@[simp] theorem State.bump_nextToken (s : State) (f : Fld) (n : Nat) : (s.bump f n).nextToken = s.nextToken := rfl
@[simp] theorem State.bump_errHist (s : State) (f : Fld) (n : Nat) : (s.bump f n).errHist = s.errHist := rfl
@[simp] theorem State.bump_cnt (s : State) (f : Fld) (n : Nat) : (s.bump f n).cnt = s.cnt := rfl
@[simp] theorem State.bump_cntLatch (s : State) (f : Fld) (n : Nat) : (s.bump f n).cntLatch = s.cntLatch := rfl
@[simp] theorem State.bump_cntRem (s : State) (f : Fld) (n : Nat) : (s.bump f n).cntRem = s.cntRem := rfl
@[simp] theorem State.bump_bwWindow (s : State) (f : Fld) (n : Nat) : (s.bump f n).bwWindow = s.bwWindow := rfl
@[simp] theorem State.bump_snaps (s : State) (f : Fld) (n : Nat) : (s.bump f n).snaps = s.snaps := rfl
@[simp] theorem State.bump_perstLow (s : State) (f : Fld) (n : Nat) : (s.bump f n).perstLow = s.perstLow := rfl
@[simp] theorem State.bump_unpowered (s : State) (f : Fld) (n : Nat) : (s.bump f n).unpowered = s.unpowered := rfl
@[simp] theorem State.bump_shutFenced (s : State) (f : Fld) (n : Nat) : (s.bump f n).shutFenced = s.shutFenced := rfl
@[simp] theorem State.bump_shutCause (s : State) (f : Fld) (n : Nat) : (s.bump f n).shutCause = s.shutCause := rfl
@[simp] theorem State.bump_maintEnd (s : State) (f : Fld) (n : Nat) : (s.bump f n).maintEnd = s.maintEnd := rfl
@[simp] theorem State.bump_booted (s : State) (f : Fld) (n : Nat) : (s.bump f n).booted = s.booted := rfl
@[simp] theorem State.bump_loaded (s : State) (f : Fld) (n : Nat) : (s.bump f n).loaded = s.loaded := rfl
@[simp] theorem State.bump_restartDue (s : State) (f : Fld) (n : Nat) : (s.bump f n).restartDue = s.restartDue := rfl
@[simp] theorem State.bump_restartReport (s : State) (f : Fld) (n : Nat) : (s.bump f n).restartReport = s.restartReport := rfl
@[simp] theorem State.bump_fallDue (s : State) (f : Fld) (n : Nat) : (s.bump f n).fallDue = s.fallDue := rfl
@[simp] theorem State.bump_trialAt (s : State) (f : Fld) (n : Nat) : (s.bump f n).trialAt = s.trialAt := rfl
@[simp] theorem State.bump_logValue (s : State) (f : Fld) (n : Nat) : (s.bump f n).logValue = s.logValue := rfl
@[simp] theorem State.bump_logEntries (s : State) (f : Fld) (n : Nat) : (s.bump f n).logEntries = s.logEntries := rfl
@[simp] theorem State.bump_serial (s : State) (f : Fld) (n : Nat) : (s.bump f n).serial = s.serial := rfl
@[simp] theorem State.bump_tap (s : State) (f : Fld) (n : Nat) : (s.bump f n).tap = s.tap := rfl
@[simp] theorem State.bump_chain (s : State) (f : Fld) (n : Nat) : (s.bump f n).chain = s.chain := rfl
@[simp] theorem State.bump_driven (s : State) (f : Fld) (n : Nat) : (s.bump f n).driven = s.driven := rfl
@[simp] theorem State.bump_i3cAddr (s : State) (f : Fld) (n : Nat) : (s.bump f n).i3cAddr = s.i3cAddr := rfl
@[simp] theorem State.bump_i3cOff (s : State) (f : Fld) (n : Nat) : (s.bump f n).i3cOff = s.i3cOff := rfl
@[simp] theorem State.bump_i3cRst (s : State) (f : Fld) (n : Nat) : (s.bump f n).i3cRst = s.i3cRst := rfl

@[simp] theorem State.wrapBump_pending (s : State) (f : Fld) (n : Nat) : (s.wrapBump f n).pending = s.pending := rfl
@[simp] theorem State.wrapBump_out (s : State) (f : Fld) (n : Nat) : (s.wrapBump f n).out = s.out := rfl
@[simp] theorem State.wrapBump_free (s : State) (f : Fld) (n : Nat) : (s.wrapBump f n).free = s.free := rfl
@[simp] theorem State.wrapBump_evt (s : State) (f : Fld) (n : Nat) : (s.wrapBump f n).evt = s.evt := rfl
@[simp] theorem State.wrapBump_mem (s : State) (f : Fld) (n : Nat) : (s.wrapBump f n).mem = s.mem := rfl
@[simp] theorem State.wrapBump_poison (s : State) (f : Fld) (n : Nat) : (s.wrapBump f n).poison = s.poison := rfl
@[simp] theorem State.wrapBump_host (s : State) (f : Fld) (n : Nat) : (s.wrapBump f n).host = s.host := rfl
@[simp] theorem State.wrapBump_tide (s : State) (f : Fld) (n : Nat) : (s.wrapBump f n).tide = s.tide := rfl
@[simp] theorem State.wrapBump_tports (s : State) (f : Fld) (n : Nat) : (s.wrapBump f n).tports = s.tports := rfl
@[simp] theorem State.wrapBump_ports (s : State) (f : Fld) (n : Nat) : (s.wrapBump f n).ports = s.ports := rfl
@[simp] theorem State.wrapBump_held (s : State) (f : Fld) (n : Nat) : (s.wrapBump f n).held = s.held := rfl
@[simp] theorem State.wrapBump_holdReq (s : State) (f : Fld) (n : Nat) : (s.wrapBump f n).holdReq = s.holdReq := rfl
@[simp] theorem State.wrapBump_tx (s : State) (f : Fld) (n : Nat) : (s.wrapBump f n).tx = s.tx := rfl
@[simp] theorem State.wrapBump_rx (s : State) (f : Fld) (n : Nat) : (s.wrapBump f n).rx = s.rx := rfl
@[simp] theorem State.wrapBump_started (s : State) (f : Fld) (n : Nat) : (s.wrapBump f n).started = s.started := rfl
@[simp] theorem State.wrapBump_counters (s : State) (f : Fld) (n : Nat) : (s.wrapBump f n).counters = s.counters := rfl
@[simp] theorem State.wrapBump_sync (s : State) (f : Fld) (n : Nat) : (s.wrapBump f n).sync = s.sync := rfl
@[simp] theorem State.wrapBump_gated (s : State) (f : Fld) (n : Nat) : (s.wrapBump f n).gated = s.gated := rfl
@[simp] theorem State.wrapBump_frozen (s : State) (f : Fld) (n : Nat) : (s.wrapBump f n).frozen = s.frozen := rfl
@[simp] theorem State.wrapBump_fires (s : State) (f : Fld) (n : Nat) : (s.wrapBump f n).fires = s.fires := rfl
@[simp] theorem State.wrapBump_syncRaise (s : State) (f : Fld) (n : Nat) : (s.wrapBump f n).syncRaise = s.syncRaise := rfl
@[simp] theorem State.wrapBump_syncFwd (s : State) (f : Fld) (n : Nat) : (s.wrapBump f n).syncFwd = s.syncFwd := rfl
@[simp] theorem State.wrapBump_acceptNo (s : State) (f : Fld) (n : Nat) : (s.wrapBump f n).acceptNo = s.acceptNo := rfl
@[simp] theorem State.wrapBump_mirrorA (s : State) (f : Fld) (n : Nat) : (s.wrapBump f n).mirrorA = s.mirrorA := rfl
@[simp] theorem State.wrapBump_mirrorB (s : State) (f : Fld) (n : Nat) : (s.wrapBump f n).mirrorB = s.mirrorB := rfl
@[simp] theorem State.wrapBump_shadow (s : State) (f : Fld) (n : Nat) : (s.wrapBump f n).shadow = s.shadow := rfl
@[simp] theorem State.wrapBump_work (s : State) (f : Fld) (n : Nat) : (s.wrapBump f n).work = s.work := rfl
@[simp] theorem State.wrapBump_ringQ (s : State) (f : Fld) (n : Nat) : (s.wrapBump f n).ringQ = s.ringQ := rfl
@[simp] theorem State.wrapBump_doneQ (s : State) (f : Fld) (n : Nat) : (s.wrapBump f n).doneQ = s.doneQ := rfl
@[simp] theorem State.wrapBump_waits (s : State) (f : Fld) (n : Nat) : (s.wrapBump f n).waits = s.waits := rfl
@[simp] theorem State.wrapBump_gaveUp (s : State) (f : Fld) (n : Nat) : (s.wrapBump f n).gaveUp = s.gaveUp := rfl
@[simp] theorem State.wrapBump_groups (s : State) (f : Fld) (n : Nat) : (s.wrapBump f n).groups = s.groups := rfl
@[simp] theorem State.wrapBump_commits (s : State) (f : Fld) (n : Nat) : (s.wrapBump f n).commits = s.commits := rfl
@[simp] theorem State.wrapBump_copies (s : State) (f : Fld) (n : Nat) : (s.wrapBump f n).copies = s.copies := rfl
@[simp] theorem State.wrapBump_tlpStop (s : State) (f : Fld) (n : Nat) : (s.wrapBump f n).tlpStop = s.tlpStop := rfl
@[simp] theorem State.wrapBump_barLog (s : State) (f : Fld) (n : Nat) : (s.wrapBump f n).barLog = s.barLog := rfl
@[simp] theorem State.wrapBump_moder (s : State) (f : Fld) (n : Nat) : (s.wrapBump f n).moder = s.moder := rfl
@[simp] theorem State.wrapBump_cqPass (s : State) (f : Fld) (n : Nat) : (s.wrapBump f n).cqPass = s.cqPass := rfl
@[simp] theorem State.wrapBump_replayQ (s : State) (f : Fld) (n : Nat) : (s.wrapBump f n).replayQ = s.replayQ := rfl
@[simp] theorem State.wrapBump_warmReq (s : State) (f : Fld) (n : Nat) : (s.wrapBump f n).warmReq = s.warmReq := rfl
@[simp] theorem State.wrapBump_coldReq (s : State) (f : Fld) (n : Nat) : (s.wrapBump f n).coldReq = s.coldReq := rfl
@[simp] theorem State.wrapBump_regionReq (s : State) (f : Fld) (n : Nat) : (s.wrapBump f n).regionReq = s.regionReq := rfl
@[simp] theorem State.wrapBump_rr (s : State) (f : Fld) (n : Nat) : (s.wrapBump f n).rr = s.rr := rfl
@[simp] theorem State.wrapBump_errBuf (s : State) (f : Fld) (n : Nat) : (s.wrapBump f n).errBuf = s.errBuf := rfl
@[simp] theorem State.wrapBump_errSeq (s : State) (f : Fld) (n : Nat) : (s.wrapBump f n).errSeq = s.errSeq := rfl
@[simp] theorem State.wrapBump_errCoal (s : State) (f : Fld) (n : Nat) : (s.wrapBump f n).errCoal = s.errCoal := rfl
@[simp] theorem State.wrapBump_errNew (s : State) (f : Fld) (n : Nat) : (s.wrapBump f n).errNew = s.errNew := rfl
@[simp] theorem State.wrapBump_cfg (s : State) (f : Fld) (n : Nat) : (s.wrapBump f n).cfg = s.cfg := rfl
@[simp] theorem State.wrapBump_blocks (s : State) (f : Fld) (n : Nat) : (s.wrapBump f n).blocks = s.blocks := rfl
@[simp] theorem State.wrapBump_pan (s : State) (f : Fld) (n : Nat) : (s.wrapBump f n).pan = s.pan := rfl
@[simp] theorem State.wrapBump_panRows (s : State) (f : Fld) (n : Nat) : (s.wrapBump f n).panRows = s.panRows := rfl
@[simp] theorem State.wrapBump_stat (s : State) (f : Fld) (n : Nat) : (s.wrapBump f n).stat = s.stat := rfl
@[simp] theorem State.wrapBump_lanes (s : State) (f : Fld) (n : Nat) : (s.wrapBump f n).lanes = s.lanes := rfl
@[simp] theorem State.wrapBump_launches (s : State) (f : Fld) (n : Nat) : (s.wrapBump f n).launches = s.launches := rfl
@[simp] theorem State.wrapBump_blkErr (s : State) (f : Fld) (n : Nat) : (s.wrapBump f n).blkErr = s.blkErr := rfl
@[simp] theorem State.wrapBump_quarRows (s : State) (f : Fld) (n : Nat) : (s.wrapBump f n).quarRows = s.quarRows := rfl
@[simp] theorem State.wrapBump_repairA (s : State) (f : Fld) (n : Nat) : (s.wrapBump f n).repairA = s.repairA := rfl
@[simp] theorem State.wrapBump_repairB (s : State) (f : Fld) (n : Nat) : (s.wrapBump f n).repairB = s.repairB := rfl
@[simp] theorem State.wrapBump_repairPend (s : State) (f : Fld) (n : Nat) : (s.wrapBump f n).repairPend = s.repairPend := rfl
@[simp] theorem State.wrapBump_softRep (s : State) (f : Fld) (n : Nat) : (s.wrapBump f n).softRep = s.softRep := rfl
@[simp] theorem State.wrapBump_monStop (s : State) (f : Fld) (n : Nat) : (s.wrapBump f n).monStop = s.monStop := rfl
@[simp] theorem State.wrapBump_brakeStop (s : State) (f : Fld) (n : Nat) : (s.wrapBump f n).brakeStop = s.brakeStop := rfl
@[simp] theorem State.wrapBump_brakeLow (s : State) (f : Fld) (n : Nat) : (s.wrapBump f n).brakeLow = s.brakeLow := rfl
@[simp] theorem State.wrapBump_governing (s : State) (f : Fld) (n : Nat) : (s.wrapBump f n).governing = s.governing := rfl
@[simp] theorem State.wrapBump_stackTemp (s : State) (f : Fld) (n : Nat) : (s.wrapBump f n).stackTemp = s.stackTemp := rfl
@[simp] theorem State.wrapBump_entryTo (s : State) (f : Fld) (n : Nat) : (s.wrapBump f n).entryTo = s.entryTo := rfl
@[simp] theorem State.wrapBump_wakePend (s : State) (f : Fld) (n : Nat) : (s.wrapBump f n).wakePend = s.wakePend := rfl
@[simp] theorem State.wrapBump_reqPend (s : State) (f : Fld) (n : Nat) : (s.wrapBump f n).reqPend = s.reqPend := rfl
@[simp] theorem State.wrapBump_wakeLow (s : State) (f : Fld) (n : Nat) : (s.wrapBump f n).wakeLow = s.wakeLow := rfl
@[simp] theorem State.wrapBump_lastExit (s : State) (f : Fld) (n : Nat) : (s.wrapBump f n).lastExit = s.lastExit := rfl
@[simp] theorem State.wrapBump_retrainDue (s : State) (f : Fld) (n : Nat) : (s.wrapBump f n).retrainDue = s.retrainDue := rfl
@[simp] theorem State.wrapBump_movedNow (s : State) (f : Fld) (n : Nat) : (s.wrapBump f n).movedNow = s.movedNow := rfl
@[simp] theorem State.wrapBump_movedLast (s : State) (f : Fld) (n : Nat) : (s.wrapBump f n).movedLast = s.movedLast := rfl
@[simp] theorem State.wrapBump_heldAlarms (s : State) (f : Fld) (n : Nat) : (s.wrapBump f n).heldAlarms = s.heldAlarms := rfl
@[simp] theorem State.wrapBump_scrubPos (s : State) (f : Fld) (n : Nat) : (s.wrapBump f n).scrubPos = s.scrubPos := rfl
@[simp] theorem State.wrapBump_scrubPass (s : State) (f : Fld) (n : Nat) : (s.wrapBump f n).scrubPass = s.scrubPass := rfl
@[simp] theorem State.wrapBump_scrubDie (s : State) (f : Fld) (n : Nat) : (s.wrapBump f n).scrubDie = s.scrubDie := rfl
@[simp] theorem State.wrapBump_scrubRow (s : State) (f : Fld) (n : Nat) : (s.wrapBump f n).scrubRow = s.scrubRow := rfl
@[simp] theorem State.wrapBump_wins (s : State) (f : Fld) (n : Nat) : (s.wrapBump f n).wins = s.wins := rfl
@[simp] theorem State.wrapBump_hcells (s : State) (f : Fld) (n : Nat) : (s.wrapBump f n).hcells = s.hcells := rfl
@[simp] theorem State.wrapBump_norms (s : State) (f : Fld) (n : Nat) : (s.wrapBump f n).norms = s.norms := rfl
@[simp] theorem State.wrapBump_verdicts (s : State) (f : Fld) (n : Nat) : (s.wrapBump f n).verdicts = s.verdicts := rfl
@[simp] theorem State.wrapBump_normIn (s : State) (f : Fld) (n : Nat) : (s.wrapBump f n).normIn = s.normIn := rfl
@[simp] theorem State.wrapBump_stepSums (s : State) (f : Fld) (n : Nat) : (s.wrapBump f n).stepSums = s.stepSums := rfl
@[simp] theorem State.wrapBump_maps (s : State) (f : Fld) (n : Nat) : (s.wrapBump f n).maps = s.maps := rfl
@[simp] theorem State.wrapBump_mapPend (s : State) (f : Fld) (n : Nat) : (s.wrapBump f n).mapPend = s.mapPend := rfl
@[simp] theorem State.wrapBump_ringJobs (s : State) (f : Fld) (n : Nat) : (s.wrapBump f n).ringJobs = s.ringJobs := rfl
@[simp] theorem State.wrapBump_rootJobs (s : State) (f : Fld) (n : Nat) : (s.wrapBump f n).rootJobs = s.rootJobs := rfl
@[simp] theorem State.wrapBump_solvers (s : State) (f : Fld) (n : Nat) : (s.wrapBump f n).solvers = s.solvers := rfl
@[simp] theorem State.wrapBump_relayed (s : State) (f : Fld) (n : Nat) : (s.wrapBump f n).relayed = s.relayed := rfl
@[simp] theorem State.wrapBump_flash (s : State) (f : Fld) (n : Nat) : (s.wrapBump f n).flash = s.flash := rfl
@[simp] theorem State.wrapBump_nextToken (s : State) (f : Fld) (n : Nat) : (s.wrapBump f n).nextToken = s.nextToken := rfl
@[simp] theorem State.wrapBump_errHist (s : State) (f : Fld) (n : Nat) : (s.wrapBump f n).errHist = s.errHist := rfl
@[simp] theorem State.wrapBump_cnt (s : State) (f : Fld) (n : Nat) : (s.wrapBump f n).cnt = s.cnt := rfl
@[simp] theorem State.wrapBump_cntLatch (s : State) (f : Fld) (n : Nat) : (s.wrapBump f n).cntLatch = s.cntLatch := rfl
@[simp] theorem State.wrapBump_cntRem (s : State) (f : Fld) (n : Nat) : (s.wrapBump f n).cntRem = s.cntRem := rfl
@[simp] theorem State.wrapBump_bwWindow (s : State) (f : Fld) (n : Nat) : (s.wrapBump f n).bwWindow = s.bwWindow := rfl
@[simp] theorem State.wrapBump_snaps (s : State) (f : Fld) (n : Nat) : (s.wrapBump f n).snaps = s.snaps := rfl
@[simp] theorem State.wrapBump_perstLow (s : State) (f : Fld) (n : Nat) : (s.wrapBump f n).perstLow = s.perstLow := rfl
@[simp] theorem State.wrapBump_unpowered (s : State) (f : Fld) (n : Nat) : (s.wrapBump f n).unpowered = s.unpowered := rfl
@[simp] theorem State.wrapBump_shutFenced (s : State) (f : Fld) (n : Nat) : (s.wrapBump f n).shutFenced = s.shutFenced := rfl
@[simp] theorem State.wrapBump_shutCause (s : State) (f : Fld) (n : Nat) : (s.wrapBump f n).shutCause = s.shutCause := rfl
@[simp] theorem State.wrapBump_maintEnd (s : State) (f : Fld) (n : Nat) : (s.wrapBump f n).maintEnd = s.maintEnd := rfl
@[simp] theorem State.wrapBump_booted (s : State) (f : Fld) (n : Nat) : (s.wrapBump f n).booted = s.booted := rfl
@[simp] theorem State.wrapBump_loaded (s : State) (f : Fld) (n : Nat) : (s.wrapBump f n).loaded = s.loaded := rfl
@[simp] theorem State.wrapBump_restartDue (s : State) (f : Fld) (n : Nat) : (s.wrapBump f n).restartDue = s.restartDue := rfl
@[simp] theorem State.wrapBump_restartReport (s : State) (f : Fld) (n : Nat) : (s.wrapBump f n).restartReport = s.restartReport := rfl
@[simp] theorem State.wrapBump_fallDue (s : State) (f : Fld) (n : Nat) : (s.wrapBump f n).fallDue = s.fallDue := rfl
@[simp] theorem State.wrapBump_trialAt (s : State) (f : Fld) (n : Nat) : (s.wrapBump f n).trialAt = s.trialAt := rfl
@[simp] theorem State.wrapBump_logValue (s : State) (f : Fld) (n : Nat) : (s.wrapBump f n).logValue = s.logValue := rfl
@[simp] theorem State.wrapBump_logEntries (s : State) (f : Fld) (n : Nat) : (s.wrapBump f n).logEntries = s.logEntries := rfl
@[simp] theorem State.wrapBump_serial (s : State) (f : Fld) (n : Nat) : (s.wrapBump f n).serial = s.serial := rfl
@[simp] theorem State.wrapBump_tap (s : State) (f : Fld) (n : Nat) : (s.wrapBump f n).tap = s.tap := rfl
@[simp] theorem State.wrapBump_chain (s : State) (f : Fld) (n : Nat) : (s.wrapBump f n).chain = s.chain := rfl
@[simp] theorem State.wrapBump_driven (s : State) (f : Fld) (n : Nat) : (s.wrapBump f n).driven = s.driven := rfl
@[simp] theorem State.wrapBump_i3cAddr (s : State) (f : Fld) (n : Nat) : (s.wrapBump f n).i3cAddr = s.i3cAddr := rfl
@[simp] theorem State.wrapBump_i3cOff (s : State) (f : Fld) (n : Nat) : (s.wrapBump f n).i3cOff = s.i3cOff := rfl
@[simp] theorem State.wrapBump_i3cRst (s : State) (f : Fld) (n : Nat) : (s.wrapBump f n).i3cRst = s.i3cRst := rfl

@[simp] theorem State.clearRegs_pending (s : State) (a n : Nat) : (s.clearRegs a n).pending = s.pending := rfl
@[simp] theorem State.clearRegs_out (s : State) (a n : Nat) : (s.clearRegs a n).out = s.out := rfl
@[simp] theorem State.clearRegs_free (s : State) (a n : Nat) : (s.clearRegs a n).free = s.free := rfl
@[simp] theorem State.clearRegs_evt (s : State) (a n : Nat) : (s.clearRegs a n).evt = s.evt := rfl
@[simp] theorem State.clearRegs_mem (s : State) (a n : Nat) : (s.clearRegs a n).mem = s.mem := rfl
@[simp] theorem State.clearRegs_poison (s : State) (a n : Nat) : (s.clearRegs a n).poison = s.poison := rfl
@[simp] theorem State.clearRegs_host (s : State) (a n : Nat) : (s.clearRegs a n).host = s.host := rfl
@[simp] theorem State.clearRegs_tide (s : State) (a n : Nat) : (s.clearRegs a n).tide = s.tide := rfl
@[simp] theorem State.clearRegs_tports (s : State) (a n : Nat) : (s.clearRegs a n).tports = s.tports := rfl
@[simp] theorem State.clearRegs_ports (s : State) (a n : Nat) : (s.clearRegs a n).ports = s.ports := rfl
@[simp] theorem State.clearRegs_held (s : State) (a n : Nat) : (s.clearRegs a n).held = s.held := rfl
@[simp] theorem State.clearRegs_holdReq (s : State) (a n : Nat) : (s.clearRegs a n).holdReq = s.holdReq := rfl
@[simp] theorem State.clearRegs_tx (s : State) (a n : Nat) : (s.clearRegs a n).tx = s.tx := rfl
@[simp] theorem State.clearRegs_rx (s : State) (a n : Nat) : (s.clearRegs a n).rx = s.rx := rfl
@[simp] theorem State.clearRegs_started (s : State) (a n : Nat) : (s.clearRegs a n).started = s.started := rfl
@[simp] theorem State.clearRegs_counters (s : State) (a n : Nat) : (s.clearRegs a n).counters = s.counters := rfl
@[simp] theorem State.clearRegs_sync (s : State) (a n : Nat) : (s.clearRegs a n).sync = s.sync := rfl
@[simp] theorem State.clearRegs_gated (s : State) (a n : Nat) : (s.clearRegs a n).gated = s.gated := rfl
@[simp] theorem State.clearRegs_frozen (s : State) (a n : Nat) : (s.clearRegs a n).frozen = s.frozen := rfl
@[simp] theorem State.clearRegs_fires (s : State) (a n : Nat) : (s.clearRegs a n).fires = s.fires := rfl
@[simp] theorem State.clearRegs_syncRaise (s : State) (a n : Nat) : (s.clearRegs a n).syncRaise = s.syncRaise := rfl
@[simp] theorem State.clearRegs_syncFwd (s : State) (a n : Nat) : (s.clearRegs a n).syncFwd = s.syncFwd := rfl
@[simp] theorem State.clearRegs_acceptNo (s : State) (a n : Nat) : (s.clearRegs a n).acceptNo = s.acceptNo := rfl
@[simp] theorem State.clearRegs_mirrorA (s : State) (a n : Nat) : (s.clearRegs a n).mirrorA = s.mirrorA := rfl
@[simp] theorem State.clearRegs_mirrorB (s : State) (a n : Nat) : (s.clearRegs a n).mirrorB = s.mirrorB := rfl
@[simp] theorem State.clearRegs_shadow (s : State) (a n : Nat) : (s.clearRegs a n).shadow = s.shadow := rfl
@[simp] theorem State.clearRegs_work (s : State) (a n : Nat) : (s.clearRegs a n).work = s.work := rfl
@[simp] theorem State.clearRegs_ringQ (s : State) (a n : Nat) : (s.clearRegs a n).ringQ = s.ringQ := rfl
@[simp] theorem State.clearRegs_doneQ (s : State) (a n : Nat) : (s.clearRegs a n).doneQ = s.doneQ := rfl
@[simp] theorem State.clearRegs_waits (s : State) (a n : Nat) : (s.clearRegs a n).waits = s.waits := rfl
@[simp] theorem State.clearRegs_gaveUp (s : State) (a n : Nat) : (s.clearRegs a n).gaveUp = s.gaveUp := rfl
@[simp] theorem State.clearRegs_groups (s : State) (a n : Nat) : (s.clearRegs a n).groups = s.groups := rfl
@[simp] theorem State.clearRegs_commits (s : State) (a n : Nat) : (s.clearRegs a n).commits = s.commits := rfl
@[simp] theorem State.clearRegs_copies (s : State) (a n : Nat) : (s.clearRegs a n).copies = s.copies := rfl
@[simp] theorem State.clearRegs_tlpStop (s : State) (a n : Nat) : (s.clearRegs a n).tlpStop = s.tlpStop := rfl
@[simp] theorem State.clearRegs_barLog (s : State) (a n : Nat) : (s.clearRegs a n).barLog = s.barLog := rfl
@[simp] theorem State.clearRegs_moder (s : State) (a n : Nat) : (s.clearRegs a n).moder = s.moder := rfl
@[simp] theorem State.clearRegs_cqPass (s : State) (a n : Nat) : (s.clearRegs a n).cqPass = s.cqPass := rfl
@[simp] theorem State.clearRegs_replayQ (s : State) (a n : Nat) : (s.clearRegs a n).replayQ = s.replayQ := rfl
@[simp] theorem State.clearRegs_warmReq (s : State) (a n : Nat) : (s.clearRegs a n).warmReq = s.warmReq := rfl
@[simp] theorem State.clearRegs_coldReq (s : State) (a n : Nat) : (s.clearRegs a n).coldReq = s.coldReq := rfl
@[simp] theorem State.clearRegs_regionReq (s : State) (a n : Nat) : (s.clearRegs a n).regionReq = s.regionReq := rfl
@[simp] theorem State.clearRegs_rr (s : State) (a n : Nat) : (s.clearRegs a n).rr = s.rr := rfl
@[simp] theorem State.clearRegs_errBuf (s : State) (a n : Nat) : (s.clearRegs a n).errBuf = s.errBuf := rfl
@[simp] theorem State.clearRegs_errSeq (s : State) (a n : Nat) : (s.clearRegs a n).errSeq = s.errSeq := rfl
@[simp] theorem State.clearRegs_errCoal (s : State) (a n : Nat) : (s.clearRegs a n).errCoal = s.errCoal := rfl
@[simp] theorem State.clearRegs_errNew (s : State) (a n : Nat) : (s.clearRegs a n).errNew = s.errNew := rfl
@[simp] theorem State.clearRegs_cfg (s : State) (a n : Nat) : (s.clearRegs a n).cfg = s.cfg := rfl
@[simp] theorem State.clearRegs_blocks (s : State) (a n : Nat) : (s.clearRegs a n).blocks = s.blocks := rfl
@[simp] theorem State.clearRegs_pan (s : State) (a n : Nat) : (s.clearRegs a n).pan = s.pan := rfl
@[simp] theorem State.clearRegs_panRows (s : State) (a n : Nat) : (s.clearRegs a n).panRows = s.panRows := rfl
@[simp] theorem State.clearRegs_stat (s : State) (a n : Nat) : (s.clearRegs a n).stat = s.stat := rfl
@[simp] theorem State.clearRegs_lanes (s : State) (a n : Nat) : (s.clearRegs a n).lanes = s.lanes := rfl
@[simp] theorem State.clearRegs_launches (s : State) (a n : Nat) : (s.clearRegs a n).launches = s.launches := rfl
@[simp] theorem State.clearRegs_blkErr (s : State) (a n : Nat) : (s.clearRegs a n).blkErr = s.blkErr := rfl
@[simp] theorem State.clearRegs_quarRows (s : State) (a n : Nat) : (s.clearRegs a n).quarRows = s.quarRows := rfl
@[simp] theorem State.clearRegs_repairA (s : State) (a n : Nat) : (s.clearRegs a n).repairA = s.repairA := rfl
@[simp] theorem State.clearRegs_repairB (s : State) (a n : Nat) : (s.clearRegs a n).repairB = s.repairB := rfl
@[simp] theorem State.clearRegs_repairPend (s : State) (a n : Nat) : (s.clearRegs a n).repairPend = s.repairPend := rfl
@[simp] theorem State.clearRegs_softRep (s : State) (a n : Nat) : (s.clearRegs a n).softRep = s.softRep := rfl
@[simp] theorem State.clearRegs_monStop (s : State) (a n : Nat) : (s.clearRegs a n).monStop = s.monStop := rfl
@[simp] theorem State.clearRegs_brakeStop (s : State) (a n : Nat) : (s.clearRegs a n).brakeStop = s.brakeStop := rfl
@[simp] theorem State.clearRegs_brakeLow (s : State) (a n : Nat) : (s.clearRegs a n).brakeLow = s.brakeLow := rfl
@[simp] theorem State.clearRegs_governing (s : State) (a n : Nat) : (s.clearRegs a n).governing = s.governing := rfl
@[simp] theorem State.clearRegs_stackTemp (s : State) (a n : Nat) : (s.clearRegs a n).stackTemp = s.stackTemp := rfl
@[simp] theorem State.clearRegs_entryTo (s : State) (a n : Nat) : (s.clearRegs a n).entryTo = s.entryTo := rfl
@[simp] theorem State.clearRegs_wakePend (s : State) (a n : Nat) : (s.clearRegs a n).wakePend = s.wakePend := rfl
@[simp] theorem State.clearRegs_reqPend (s : State) (a n : Nat) : (s.clearRegs a n).reqPend = s.reqPend := rfl
@[simp] theorem State.clearRegs_wakeLow (s : State) (a n : Nat) : (s.clearRegs a n).wakeLow = s.wakeLow := rfl
@[simp] theorem State.clearRegs_lastExit (s : State) (a n : Nat) : (s.clearRegs a n).lastExit = s.lastExit := rfl
@[simp] theorem State.clearRegs_retrainDue (s : State) (a n : Nat) : (s.clearRegs a n).retrainDue = s.retrainDue := rfl
@[simp] theorem State.clearRegs_movedNow (s : State) (a n : Nat) : (s.clearRegs a n).movedNow = s.movedNow := rfl
@[simp] theorem State.clearRegs_movedLast (s : State) (a n : Nat) : (s.clearRegs a n).movedLast = s.movedLast := rfl
@[simp] theorem State.clearRegs_heldAlarms (s : State) (a n : Nat) : (s.clearRegs a n).heldAlarms = s.heldAlarms := rfl
@[simp] theorem State.clearRegs_scrubPos (s : State) (a n : Nat) : (s.clearRegs a n).scrubPos = s.scrubPos := rfl
@[simp] theorem State.clearRegs_scrubPass (s : State) (a n : Nat) : (s.clearRegs a n).scrubPass = s.scrubPass := rfl
@[simp] theorem State.clearRegs_scrubDie (s : State) (a n : Nat) : (s.clearRegs a n).scrubDie = s.scrubDie := rfl
@[simp] theorem State.clearRegs_scrubRow (s : State) (a n : Nat) : (s.clearRegs a n).scrubRow = s.scrubRow := rfl
@[simp] theorem State.clearRegs_wins (s : State) (a n : Nat) : (s.clearRegs a n).wins = s.wins := rfl
@[simp] theorem State.clearRegs_hcells (s : State) (a n : Nat) : (s.clearRegs a n).hcells = s.hcells := rfl
@[simp] theorem State.clearRegs_norms (s : State) (a n : Nat) : (s.clearRegs a n).norms = s.norms := rfl
@[simp] theorem State.clearRegs_verdicts (s : State) (a n : Nat) : (s.clearRegs a n).verdicts = s.verdicts := rfl
@[simp] theorem State.clearRegs_normIn (s : State) (a n : Nat) : (s.clearRegs a n).normIn = s.normIn := rfl
@[simp] theorem State.clearRegs_stepSums (s : State) (a n : Nat) : (s.clearRegs a n).stepSums = s.stepSums := rfl
@[simp] theorem State.clearRegs_maps (s : State) (a n : Nat) : (s.clearRegs a n).maps = s.maps := rfl
@[simp] theorem State.clearRegs_mapPend (s : State) (a n : Nat) : (s.clearRegs a n).mapPend = s.mapPend := rfl
@[simp] theorem State.clearRegs_ringJobs (s : State) (a n : Nat) : (s.clearRegs a n).ringJobs = s.ringJobs := rfl
@[simp] theorem State.clearRegs_rootJobs (s : State) (a n : Nat) : (s.clearRegs a n).rootJobs = s.rootJobs := rfl
@[simp] theorem State.clearRegs_solvers (s : State) (a n : Nat) : (s.clearRegs a n).solvers = s.solvers := rfl
@[simp] theorem State.clearRegs_relayed (s : State) (a n : Nat) : (s.clearRegs a n).relayed = s.relayed := rfl
@[simp] theorem State.clearRegs_flash (s : State) (a n : Nat) : (s.clearRegs a n).flash = s.flash := rfl
@[simp] theorem State.clearRegs_nextToken (s : State) (a n : Nat) : (s.clearRegs a n).nextToken = s.nextToken := rfl
@[simp] theorem State.clearRegs_errHist (s : State) (a n : Nat) : (s.clearRegs a n).errHist = s.errHist := rfl
@[simp] theorem State.clearRegs_cnt (s : State) (a n : Nat) : (s.clearRegs a n).cnt = s.cnt := rfl
@[simp] theorem State.clearRegs_cntLatch (s : State) (a n : Nat) : (s.clearRegs a n).cntLatch = s.cntLatch := rfl
@[simp] theorem State.clearRegs_cntRem (s : State) (a n : Nat) : (s.clearRegs a n).cntRem = s.cntRem := rfl
@[simp] theorem State.clearRegs_bwWindow (s : State) (a n : Nat) : (s.clearRegs a n).bwWindow = s.bwWindow := rfl
@[simp] theorem State.clearRegs_snaps (s : State) (a n : Nat) : (s.clearRegs a n).snaps = s.snaps := rfl
@[simp] theorem State.clearRegs_perstLow (s : State) (a n : Nat) : (s.clearRegs a n).perstLow = s.perstLow := rfl
@[simp] theorem State.clearRegs_unpowered (s : State) (a n : Nat) : (s.clearRegs a n).unpowered = s.unpowered := rfl
@[simp] theorem State.clearRegs_shutFenced (s : State) (a n : Nat) : (s.clearRegs a n).shutFenced = s.shutFenced := rfl
@[simp] theorem State.clearRegs_shutCause (s : State) (a n : Nat) : (s.clearRegs a n).shutCause = s.shutCause := rfl
@[simp] theorem State.clearRegs_maintEnd (s : State) (a n : Nat) : (s.clearRegs a n).maintEnd = s.maintEnd := rfl
@[simp] theorem State.clearRegs_booted (s : State) (a n : Nat) : (s.clearRegs a n).booted = s.booted := rfl
@[simp] theorem State.clearRegs_loaded (s : State) (a n : Nat) : (s.clearRegs a n).loaded = s.loaded := rfl
@[simp] theorem State.clearRegs_restartDue (s : State) (a n : Nat) : (s.clearRegs a n).restartDue = s.restartDue := rfl
@[simp] theorem State.clearRegs_restartReport (s : State) (a n : Nat) : (s.clearRegs a n).restartReport = s.restartReport := rfl
@[simp] theorem State.clearRegs_fallDue (s : State) (a n : Nat) : (s.clearRegs a n).fallDue = s.fallDue := rfl
@[simp] theorem State.clearRegs_trialAt (s : State) (a n : Nat) : (s.clearRegs a n).trialAt = s.trialAt := rfl
@[simp] theorem State.clearRegs_logValue (s : State) (a n : Nat) : (s.clearRegs a n).logValue = s.logValue := rfl
@[simp] theorem State.clearRegs_logEntries (s : State) (a n : Nat) : (s.clearRegs a n).logEntries = s.logEntries := rfl
@[simp] theorem State.clearRegs_serial (s : State) (a n : Nat) : (s.clearRegs a n).serial = s.serial := rfl
@[simp] theorem State.clearRegs_tap (s : State) (a n : Nat) : (s.clearRegs a n).tap = s.tap := rfl
@[simp] theorem State.clearRegs_chain (s : State) (a n : Nat) : (s.clearRegs a n).chain = s.chain := rfl
@[simp] theorem State.clearRegs_driven (s : State) (a n : Nat) : (s.clearRegs a n).driven = s.driven := rfl
@[simp] theorem State.clearRegs_i3cAddr (s : State) (a n : Nat) : (s.clearRegs a n).i3cAddr = s.i3cAddr := rfl
@[simp] theorem State.clearRegs_i3cOff (s : State) (a n : Nat) : (s.clearRegs a n).i3cOff = s.i3cOff := rfl
@[simp] theorem State.clearRegs_i3cRst (s : State) (a n : Nat) : (s.clearRegs a n).i3cRst = s.i3cRst := rfl

@[simp] theorem State.setByte_pending (s : State) (a : Nat) (v : Byte) : (s.setByte a v).pending = s.pending := rfl
@[simp] theorem State.setByte_out (s : State) (a : Nat) (v : Byte) : (s.setByte a v).out = s.out := rfl
@[simp] theorem State.setByte_free (s : State) (a : Nat) (v : Byte) : (s.setByte a v).free = s.free := rfl
@[simp] theorem State.setByte_regs (s : State) (a : Nat) (v : Byte) : (s.setByte a v).regs = s.regs := rfl
@[simp] theorem State.setByte_evt (s : State) (a : Nat) (v : Byte) : (s.setByte a v).evt = s.evt := rfl
@[simp] theorem State.setByte_poison (s : State) (a : Nat) (v : Byte) : (s.setByte a v).poison = s.poison := rfl
@[simp] theorem State.setByte_host (s : State) (a : Nat) (v : Byte) : (s.setByte a v).host = s.host := rfl
@[simp] theorem State.setByte_tide (s : State) (a : Nat) (v : Byte) : (s.setByte a v).tide = s.tide := rfl
@[simp] theorem State.setByte_tports (s : State) (a : Nat) (v : Byte) : (s.setByte a v).tports = s.tports := rfl
@[simp] theorem State.setByte_ports (s : State) (a : Nat) (v : Byte) : (s.setByte a v).ports = s.ports := rfl
@[simp] theorem State.setByte_held (s : State) (a : Nat) (v : Byte) : (s.setByte a v).held = s.held := rfl
@[simp] theorem State.setByte_holdReq (s : State) (a : Nat) (v : Byte) : (s.setByte a v).holdReq = s.holdReq := rfl
@[simp] theorem State.setByte_tx (s : State) (a : Nat) (v : Byte) : (s.setByte a v).tx = s.tx := rfl
@[simp] theorem State.setByte_rx (s : State) (a : Nat) (v : Byte) : (s.setByte a v).rx = s.rx := rfl
@[simp] theorem State.setByte_started (s : State) (a : Nat) (v : Byte) : (s.setByte a v).started = s.started := rfl
@[simp] theorem State.setByte_counters (s : State) (a : Nat) (v : Byte) : (s.setByte a v).counters = s.counters := rfl
@[simp] theorem State.setByte_sync (s : State) (a : Nat) (v : Byte) : (s.setByte a v).sync = s.sync := rfl
@[simp] theorem State.setByte_gated (s : State) (a : Nat) (v : Byte) : (s.setByte a v).gated = s.gated := rfl
@[simp] theorem State.setByte_frozen (s : State) (a : Nat) (v : Byte) : (s.setByte a v).frozen = s.frozen := rfl
@[simp] theorem State.setByte_fires (s : State) (a : Nat) (v : Byte) : (s.setByte a v).fires = s.fires := rfl
@[simp] theorem State.setByte_syncRaise (s : State) (a : Nat) (v : Byte) : (s.setByte a v).syncRaise = s.syncRaise := rfl
@[simp] theorem State.setByte_syncFwd (s : State) (a : Nat) (v : Byte) : (s.setByte a v).syncFwd = s.syncFwd := rfl
@[simp] theorem State.setByte_acceptNo (s : State) (a : Nat) (v : Byte) : (s.setByte a v).acceptNo = s.acceptNo := rfl
@[simp] theorem State.setByte_mirrorA (s : State) (a : Nat) (v : Byte) : (s.setByte a v).mirrorA = s.mirrorA := rfl
@[simp] theorem State.setByte_mirrorB (s : State) (a : Nat) (v : Byte) : (s.setByte a v).mirrorB = s.mirrorB := rfl
@[simp] theorem State.setByte_shadow (s : State) (a : Nat) (v : Byte) : (s.setByte a v).shadow = s.shadow := rfl
@[simp] theorem State.setByte_work (s : State) (a : Nat) (v : Byte) : (s.setByte a v).work = s.work := rfl
@[simp] theorem State.setByte_ringQ (s : State) (a : Nat) (v : Byte) : (s.setByte a v).ringQ = s.ringQ := rfl
@[simp] theorem State.setByte_doneQ (s : State) (a : Nat) (v : Byte) : (s.setByte a v).doneQ = s.doneQ := rfl
@[simp] theorem State.setByte_waits (s : State) (a : Nat) (v : Byte) : (s.setByte a v).waits = s.waits := rfl
@[simp] theorem State.setByte_gaveUp (s : State) (a : Nat) (v : Byte) : (s.setByte a v).gaveUp = s.gaveUp := rfl
@[simp] theorem State.setByte_groups (s : State) (a : Nat) (v : Byte) : (s.setByte a v).groups = s.groups := rfl
@[simp] theorem State.setByte_commits (s : State) (a : Nat) (v : Byte) : (s.setByte a v).commits = s.commits := rfl
@[simp] theorem State.setByte_copies (s : State) (a : Nat) (v : Byte) : (s.setByte a v).copies = s.copies := rfl
@[simp] theorem State.setByte_tlpStop (s : State) (a : Nat) (v : Byte) : (s.setByte a v).tlpStop = s.tlpStop := rfl
@[simp] theorem State.setByte_barLog (s : State) (a : Nat) (v : Byte) : (s.setByte a v).barLog = s.barLog := rfl
@[simp] theorem State.setByte_moder (s : State) (a : Nat) (v : Byte) : (s.setByte a v).moder = s.moder := rfl
@[simp] theorem State.setByte_cqPass (s : State) (a : Nat) (v : Byte) : (s.setByte a v).cqPass = s.cqPass := rfl
@[simp] theorem State.setByte_replayQ (s : State) (a : Nat) (v : Byte) : (s.setByte a v).replayQ = s.replayQ := rfl
@[simp] theorem State.setByte_warmReq (s : State) (a : Nat) (v : Byte) : (s.setByte a v).warmReq = s.warmReq := rfl
@[simp] theorem State.setByte_coldReq (s : State) (a : Nat) (v : Byte) : (s.setByte a v).coldReq = s.coldReq := rfl
@[simp] theorem State.setByte_regionReq (s : State) (a : Nat) (v : Byte) : (s.setByte a v).regionReq = s.regionReq := rfl
@[simp] theorem State.setByte_rr (s : State) (a : Nat) (v : Byte) : (s.setByte a v).rr = s.rr := rfl
@[simp] theorem State.setByte_errBuf (s : State) (a : Nat) (v : Byte) : (s.setByte a v).errBuf = s.errBuf := rfl
@[simp] theorem State.setByte_errSeq (s : State) (a : Nat) (v : Byte) : (s.setByte a v).errSeq = s.errSeq := rfl
@[simp] theorem State.setByte_errCoal (s : State) (a : Nat) (v : Byte) : (s.setByte a v).errCoal = s.errCoal := rfl
@[simp] theorem State.setByte_errNew (s : State) (a : Nat) (v : Byte) : (s.setByte a v).errNew = s.errNew := rfl
@[simp] theorem State.setByte_cfg (s : State) (a : Nat) (v : Byte) : (s.setByte a v).cfg = s.cfg := rfl
@[simp] theorem State.setByte_blocks (s : State) (a : Nat) (v : Byte) : (s.setByte a v).blocks = s.blocks := rfl
@[simp] theorem State.setByte_pan (s : State) (a : Nat) (v : Byte) : (s.setByte a v).pan = s.pan := rfl
@[simp] theorem State.setByte_panRows (s : State) (a : Nat) (v : Byte) : (s.setByte a v).panRows = s.panRows := rfl
@[simp] theorem State.setByte_stat (s : State) (a : Nat) (v : Byte) : (s.setByte a v).stat = s.stat := rfl
@[simp] theorem State.setByte_lanes (s : State) (a : Nat) (v : Byte) : (s.setByte a v).lanes = s.lanes := rfl
@[simp] theorem State.setByte_launches (s : State) (a : Nat) (v : Byte) : (s.setByte a v).launches = s.launches := rfl
@[simp] theorem State.setByte_blkErr (s : State) (a : Nat) (v : Byte) : (s.setByte a v).blkErr = s.blkErr := rfl
@[simp] theorem State.setByte_quarRows (s : State) (a : Nat) (v : Byte) : (s.setByte a v).quarRows = s.quarRows := rfl
@[simp] theorem State.setByte_repairA (s : State) (a : Nat) (v : Byte) : (s.setByte a v).repairA = s.repairA := rfl
@[simp] theorem State.setByte_repairB (s : State) (a : Nat) (v : Byte) : (s.setByte a v).repairB = s.repairB := rfl
@[simp] theorem State.setByte_repairPend (s : State) (a : Nat) (v : Byte) : (s.setByte a v).repairPend = s.repairPend := rfl
@[simp] theorem State.setByte_softRep (s : State) (a : Nat) (v : Byte) : (s.setByte a v).softRep = s.softRep := rfl
@[simp] theorem State.setByte_monStop (s : State) (a : Nat) (v : Byte) : (s.setByte a v).monStop = s.monStop := rfl
@[simp] theorem State.setByte_brakeStop (s : State) (a : Nat) (v : Byte) : (s.setByte a v).brakeStop = s.brakeStop := rfl
@[simp] theorem State.setByte_brakeLow (s : State) (a : Nat) (v : Byte) : (s.setByte a v).brakeLow = s.brakeLow := rfl
@[simp] theorem State.setByte_governing (s : State) (a : Nat) (v : Byte) : (s.setByte a v).governing = s.governing := rfl
@[simp] theorem State.setByte_stackTemp (s : State) (a : Nat) (v : Byte) : (s.setByte a v).stackTemp = s.stackTemp := rfl
@[simp] theorem State.setByte_entryTo (s : State) (a : Nat) (v : Byte) : (s.setByte a v).entryTo = s.entryTo := rfl
@[simp] theorem State.setByte_wakePend (s : State) (a : Nat) (v : Byte) : (s.setByte a v).wakePend = s.wakePend := rfl
@[simp] theorem State.setByte_reqPend (s : State) (a : Nat) (v : Byte) : (s.setByte a v).reqPend = s.reqPend := rfl
@[simp] theorem State.setByte_wakeLow (s : State) (a : Nat) (v : Byte) : (s.setByte a v).wakeLow = s.wakeLow := rfl
@[simp] theorem State.setByte_lastExit (s : State) (a : Nat) (v : Byte) : (s.setByte a v).lastExit = s.lastExit := rfl
@[simp] theorem State.setByte_retrainDue (s : State) (a : Nat) (v : Byte) : (s.setByte a v).retrainDue = s.retrainDue := rfl
@[simp] theorem State.setByte_movedNow (s : State) (a : Nat) (v : Byte) : (s.setByte a v).movedNow = s.movedNow := rfl
@[simp] theorem State.setByte_movedLast (s : State) (a : Nat) (v : Byte) : (s.setByte a v).movedLast = s.movedLast := rfl
@[simp] theorem State.setByte_heldAlarms (s : State) (a : Nat) (v : Byte) : (s.setByte a v).heldAlarms = s.heldAlarms := rfl
@[simp] theorem State.setByte_scrubPos (s : State) (a : Nat) (v : Byte) : (s.setByte a v).scrubPos = s.scrubPos := rfl
@[simp] theorem State.setByte_scrubPass (s : State) (a : Nat) (v : Byte) : (s.setByte a v).scrubPass = s.scrubPass := rfl
@[simp] theorem State.setByte_scrubDie (s : State) (a : Nat) (v : Byte) : (s.setByte a v).scrubDie = s.scrubDie := rfl
@[simp] theorem State.setByte_scrubRow (s : State) (a : Nat) (v : Byte) : (s.setByte a v).scrubRow = s.scrubRow := rfl
@[simp] theorem State.setByte_wins (s : State) (a : Nat) (v : Byte) : (s.setByte a v).wins = s.wins := rfl
@[simp] theorem State.setByte_hcells (s : State) (a : Nat) (v : Byte) : (s.setByte a v).hcells = s.hcells := rfl
@[simp] theorem State.setByte_norms (s : State) (a : Nat) (v : Byte) : (s.setByte a v).norms = s.norms := rfl
@[simp] theorem State.setByte_verdicts (s : State) (a : Nat) (v : Byte) : (s.setByte a v).verdicts = s.verdicts := rfl
@[simp] theorem State.setByte_normIn (s : State) (a : Nat) (v : Byte) : (s.setByte a v).normIn = s.normIn := rfl
@[simp] theorem State.setByte_stepSums (s : State) (a : Nat) (v : Byte) : (s.setByte a v).stepSums = s.stepSums := rfl
@[simp] theorem State.setByte_maps (s : State) (a : Nat) (v : Byte) : (s.setByte a v).maps = s.maps := rfl
@[simp] theorem State.setByte_mapPend (s : State) (a : Nat) (v : Byte) : (s.setByte a v).mapPend = s.mapPend := rfl
@[simp] theorem State.setByte_ringJobs (s : State) (a : Nat) (v : Byte) : (s.setByte a v).ringJobs = s.ringJobs := rfl
@[simp] theorem State.setByte_rootJobs (s : State) (a : Nat) (v : Byte) : (s.setByte a v).rootJobs = s.rootJobs := rfl
@[simp] theorem State.setByte_solvers (s : State) (a : Nat) (v : Byte) : (s.setByte a v).solvers = s.solvers := rfl
@[simp] theorem State.setByte_relayed (s : State) (a : Nat) (v : Byte) : (s.setByte a v).relayed = s.relayed := rfl
@[simp] theorem State.setByte_flash (s : State) (a : Nat) (v : Byte) : (s.setByte a v).flash = s.flash := rfl
@[simp] theorem State.setByte_nextToken (s : State) (a : Nat) (v : Byte) : (s.setByte a v).nextToken = s.nextToken := rfl
@[simp] theorem State.setByte_errHist (s : State) (a : Nat) (v : Byte) : (s.setByte a v).errHist = s.errHist := rfl
@[simp] theorem State.setByte_cnt (s : State) (a : Nat) (v : Byte) : (s.setByte a v).cnt = s.cnt := rfl
@[simp] theorem State.setByte_cntLatch (s : State) (a : Nat) (v : Byte) : (s.setByte a v).cntLatch = s.cntLatch := rfl
@[simp] theorem State.setByte_cntRem (s : State) (a : Nat) (v : Byte) : (s.setByte a v).cntRem = s.cntRem := rfl
@[simp] theorem State.setByte_bwWindow (s : State) (a : Nat) (v : Byte) : (s.setByte a v).bwWindow = s.bwWindow := rfl
@[simp] theorem State.setByte_snaps (s : State) (a : Nat) (v : Byte) : (s.setByte a v).snaps = s.snaps := rfl
@[simp] theorem State.setByte_perstLow (s : State) (a : Nat) (v : Byte) : (s.setByte a v).perstLow = s.perstLow := rfl
@[simp] theorem State.setByte_unpowered (s : State) (a : Nat) (v : Byte) : (s.setByte a v).unpowered = s.unpowered := rfl
@[simp] theorem State.setByte_shutFenced (s : State) (a : Nat) (v : Byte) : (s.setByte a v).shutFenced = s.shutFenced := rfl
@[simp] theorem State.setByte_shutCause (s : State) (a : Nat) (v : Byte) : (s.setByte a v).shutCause = s.shutCause := rfl
@[simp] theorem State.setByte_maintEnd (s : State) (a : Nat) (v : Byte) : (s.setByte a v).maintEnd = s.maintEnd := rfl
@[simp] theorem State.setByte_booted (s : State) (a : Nat) (v : Byte) : (s.setByte a v).booted = s.booted := rfl
@[simp] theorem State.setByte_loaded (s : State) (a : Nat) (v : Byte) : (s.setByte a v).loaded = s.loaded := rfl
@[simp] theorem State.setByte_restartDue (s : State) (a : Nat) (v : Byte) : (s.setByte a v).restartDue = s.restartDue := rfl
@[simp] theorem State.setByte_restartReport (s : State) (a : Nat) (v : Byte) : (s.setByte a v).restartReport = s.restartReport := rfl
@[simp] theorem State.setByte_fallDue (s : State) (a : Nat) (v : Byte) : (s.setByte a v).fallDue = s.fallDue := rfl
@[simp] theorem State.setByte_trialAt (s : State) (a : Nat) (v : Byte) : (s.setByte a v).trialAt = s.trialAt := rfl
@[simp] theorem State.setByte_logValue (s : State) (a : Nat) (v : Byte) : (s.setByte a v).logValue = s.logValue := rfl
@[simp] theorem State.setByte_logEntries (s : State) (a : Nat) (v : Byte) : (s.setByte a v).logEntries = s.logEntries := rfl
@[simp] theorem State.setByte_serial (s : State) (a : Nat) (v : Byte) : (s.setByte a v).serial = s.serial := rfl
@[simp] theorem State.setByte_tap (s : State) (a : Nat) (v : Byte) : (s.setByte a v).tap = s.tap := rfl
@[simp] theorem State.setByte_chain (s : State) (a : Nat) (v : Byte) : (s.setByte a v).chain = s.chain := rfl
@[simp] theorem State.setByte_driven (s : State) (a : Nat) (v : Byte) : (s.setByte a v).driven = s.driven := rfl
@[simp] theorem State.setByte_i3cAddr (s : State) (a : Nat) (v : Byte) : (s.setByte a v).i3cAddr = s.i3cAddr := rfl
@[simp] theorem State.setByte_i3cOff (s : State) (a : Nat) (v : Byte) : (s.setByte a v).i3cOff = s.i3cOff := rfl
@[simp] theorem State.setByte_i3cRst (s : State) (a : Nat) (v : Byte) : (s.setByte a v).i3cRst = s.i3cRst := rfl

@[simp] theorem State.setWork_pending (s : State) (e : Nat) (w : Work) : (s.setWork e w).pending = s.pending := rfl
@[simp] theorem State.setWork_out (s : State) (e : Nat) (w : Work) : (s.setWork e w).out = s.out := rfl
@[simp] theorem State.setWork_free (s : State) (e : Nat) (w : Work) : (s.setWork e w).free = s.free := rfl
@[simp] theorem State.setWork_regs (s : State) (e : Nat) (w : Work) : (s.setWork e w).regs = s.regs := rfl
@[simp] theorem State.setWork_evt (s : State) (e : Nat) (w : Work) : (s.setWork e w).evt = s.evt := rfl
@[simp] theorem State.setWork_mem (s : State) (e : Nat) (w : Work) : (s.setWork e w).mem = s.mem := rfl
@[simp] theorem State.setWork_poison (s : State) (e : Nat) (w : Work) : (s.setWork e w).poison = s.poison := rfl
@[simp] theorem State.setWork_host (s : State) (e : Nat) (w : Work) : (s.setWork e w).host = s.host := rfl
@[simp] theorem State.setWork_tide (s : State) (e : Nat) (w : Work) : (s.setWork e w).tide = s.tide := rfl
@[simp] theorem State.setWork_tports (s : State) (e : Nat) (w : Work) : (s.setWork e w).tports = s.tports := rfl
@[simp] theorem State.setWork_ports (s : State) (e : Nat) (w : Work) : (s.setWork e w).ports = s.ports := rfl
@[simp] theorem State.setWork_held (s : State) (e : Nat) (w : Work) : (s.setWork e w).held = s.held := rfl
@[simp] theorem State.setWork_holdReq (s : State) (e : Nat) (w : Work) : (s.setWork e w).holdReq = s.holdReq := rfl
@[simp] theorem State.setWork_tx (s : State) (e : Nat) (w : Work) : (s.setWork e w).tx = s.tx := rfl
@[simp] theorem State.setWork_rx (s : State) (e : Nat) (w : Work) : (s.setWork e w).rx = s.rx := rfl
@[simp] theorem State.setWork_started (s : State) (e : Nat) (w : Work) : (s.setWork e w).started = s.started := rfl
@[simp] theorem State.setWork_counters (s : State) (e : Nat) (w : Work) : (s.setWork e w).counters = s.counters := rfl
@[simp] theorem State.setWork_sync (s : State) (e : Nat) (w : Work) : (s.setWork e w).sync = s.sync := rfl
@[simp] theorem State.setWork_gated (s : State) (e : Nat) (w : Work) : (s.setWork e w).gated = s.gated := rfl
@[simp] theorem State.setWork_frozen (s : State) (e : Nat) (w : Work) : (s.setWork e w).frozen = s.frozen := rfl
@[simp] theorem State.setWork_fires (s : State) (e : Nat) (w : Work) : (s.setWork e w).fires = s.fires := rfl
@[simp] theorem State.setWork_syncRaise (s : State) (e : Nat) (w : Work) : (s.setWork e w).syncRaise = s.syncRaise := rfl
@[simp] theorem State.setWork_syncFwd (s : State) (e : Nat) (w : Work) : (s.setWork e w).syncFwd = s.syncFwd := rfl
@[simp] theorem State.setWork_acceptNo (s : State) (e : Nat) (w : Work) : (s.setWork e w).acceptNo = s.acceptNo := rfl
@[simp] theorem State.setWork_mirrorA (s : State) (e : Nat) (w : Work) : (s.setWork e w).mirrorA = s.mirrorA := rfl
@[simp] theorem State.setWork_mirrorB (s : State) (e : Nat) (w : Work) : (s.setWork e w).mirrorB = s.mirrorB := rfl
@[simp] theorem State.setWork_shadow (s : State) (e : Nat) (w : Work) : (s.setWork e w).shadow = s.shadow := rfl
@[simp] theorem State.setWork_ringQ (s : State) (e : Nat) (w : Work) : (s.setWork e w).ringQ = s.ringQ := rfl
@[simp] theorem State.setWork_doneQ (s : State) (e : Nat) (w : Work) : (s.setWork e w).doneQ = s.doneQ := rfl
@[simp] theorem State.setWork_waits (s : State) (e : Nat) (w : Work) : (s.setWork e w).waits = s.waits := rfl
@[simp] theorem State.setWork_gaveUp (s : State) (e : Nat) (w : Work) : (s.setWork e w).gaveUp = s.gaveUp := rfl
@[simp] theorem State.setWork_groups (s : State) (e : Nat) (w : Work) : (s.setWork e w).groups = s.groups := rfl
@[simp] theorem State.setWork_commits (s : State) (e : Nat) (w : Work) : (s.setWork e w).commits = s.commits := rfl
@[simp] theorem State.setWork_copies (s : State) (e : Nat) (w : Work) : (s.setWork e w).copies = s.copies := rfl
@[simp] theorem State.setWork_tlpStop (s : State) (e : Nat) (w : Work) : (s.setWork e w).tlpStop = s.tlpStop := rfl
@[simp] theorem State.setWork_barLog (s : State) (e : Nat) (w : Work) : (s.setWork e w).barLog = s.barLog := rfl
@[simp] theorem State.setWork_moder (s : State) (e : Nat) (w : Work) : (s.setWork e w).moder = s.moder := rfl
@[simp] theorem State.setWork_cqPass (s : State) (e : Nat) (w : Work) : (s.setWork e w).cqPass = s.cqPass := rfl
@[simp] theorem State.setWork_replayQ (s : State) (e : Nat) (w : Work) : (s.setWork e w).replayQ = s.replayQ := rfl
@[simp] theorem State.setWork_warmReq (s : State) (e : Nat) (w : Work) : (s.setWork e w).warmReq = s.warmReq := rfl
@[simp] theorem State.setWork_coldReq (s : State) (e : Nat) (w : Work) : (s.setWork e w).coldReq = s.coldReq := rfl
@[simp] theorem State.setWork_regionReq (s : State) (e : Nat) (w : Work) : (s.setWork e w).regionReq = s.regionReq := rfl
@[simp] theorem State.setWork_rr (s : State) (e : Nat) (w : Work) : (s.setWork e w).rr = s.rr := rfl
@[simp] theorem State.setWork_errBuf (s : State) (e : Nat) (w : Work) : (s.setWork e w).errBuf = s.errBuf := rfl
@[simp] theorem State.setWork_errSeq (s : State) (e : Nat) (w : Work) : (s.setWork e w).errSeq = s.errSeq := rfl
@[simp] theorem State.setWork_errCoal (s : State) (e : Nat) (w : Work) : (s.setWork e w).errCoal = s.errCoal := rfl
@[simp] theorem State.setWork_errNew (s : State) (e : Nat) (w : Work) : (s.setWork e w).errNew = s.errNew := rfl
@[simp] theorem State.setWork_cfg (s : State) (e : Nat) (w : Work) : (s.setWork e w).cfg = s.cfg := rfl
@[simp] theorem State.setWork_blocks (s : State) (e : Nat) (w : Work) : (s.setWork e w).blocks = s.blocks := rfl
@[simp] theorem State.setWork_pan (s : State) (e : Nat) (w : Work) : (s.setWork e w).pan = s.pan := rfl
@[simp] theorem State.setWork_panRows (s : State) (e : Nat) (w : Work) : (s.setWork e w).panRows = s.panRows := rfl
@[simp] theorem State.setWork_stat (s : State) (e : Nat) (w : Work) : (s.setWork e w).stat = s.stat := rfl
@[simp] theorem State.setWork_lanes (s : State) (e : Nat) (w : Work) : (s.setWork e w).lanes = s.lanes := rfl
@[simp] theorem State.setWork_launches (s : State) (e : Nat) (w : Work) : (s.setWork e w).launches = s.launches := rfl
@[simp] theorem State.setWork_blkErr (s : State) (e : Nat) (w : Work) : (s.setWork e w).blkErr = s.blkErr := rfl
@[simp] theorem State.setWork_quarRows (s : State) (e : Nat) (w : Work) : (s.setWork e w).quarRows = s.quarRows := rfl
@[simp] theorem State.setWork_repairA (s : State) (e : Nat) (w : Work) : (s.setWork e w).repairA = s.repairA := rfl
@[simp] theorem State.setWork_repairB (s : State) (e : Nat) (w : Work) : (s.setWork e w).repairB = s.repairB := rfl
@[simp] theorem State.setWork_repairPend (s : State) (e : Nat) (w : Work) : (s.setWork e w).repairPend = s.repairPend := rfl
@[simp] theorem State.setWork_softRep (s : State) (e : Nat) (w : Work) : (s.setWork e w).softRep = s.softRep := rfl
@[simp] theorem State.setWork_monStop (s : State) (e : Nat) (w : Work) : (s.setWork e w).monStop = s.monStop := rfl
@[simp] theorem State.setWork_brakeStop (s : State) (e : Nat) (w : Work) : (s.setWork e w).brakeStop = s.brakeStop := rfl
@[simp] theorem State.setWork_brakeLow (s : State) (e : Nat) (w : Work) : (s.setWork e w).brakeLow = s.brakeLow := rfl
@[simp] theorem State.setWork_governing (s : State) (e : Nat) (w : Work) : (s.setWork e w).governing = s.governing := rfl
@[simp] theorem State.setWork_stackTemp (s : State) (e : Nat) (w : Work) : (s.setWork e w).stackTemp = s.stackTemp := rfl
@[simp] theorem State.setWork_entryTo (s : State) (e : Nat) (w : Work) : (s.setWork e w).entryTo = s.entryTo := rfl
@[simp] theorem State.setWork_wakePend (s : State) (e : Nat) (w : Work) : (s.setWork e w).wakePend = s.wakePend := rfl
@[simp] theorem State.setWork_reqPend (s : State) (e : Nat) (w : Work) : (s.setWork e w).reqPend = s.reqPend := rfl
@[simp] theorem State.setWork_wakeLow (s : State) (e : Nat) (w : Work) : (s.setWork e w).wakeLow = s.wakeLow := rfl
@[simp] theorem State.setWork_lastExit (s : State) (e : Nat) (w : Work) : (s.setWork e w).lastExit = s.lastExit := rfl
@[simp] theorem State.setWork_retrainDue (s : State) (e : Nat) (w : Work) : (s.setWork e w).retrainDue = s.retrainDue := rfl
@[simp] theorem State.setWork_movedNow (s : State) (e : Nat) (w : Work) : (s.setWork e w).movedNow = s.movedNow := rfl
@[simp] theorem State.setWork_movedLast (s : State) (e : Nat) (w : Work) : (s.setWork e w).movedLast = s.movedLast := rfl
@[simp] theorem State.setWork_heldAlarms (s : State) (e : Nat) (w : Work) : (s.setWork e w).heldAlarms = s.heldAlarms := rfl
@[simp] theorem State.setWork_scrubPos (s : State) (e : Nat) (w : Work) : (s.setWork e w).scrubPos = s.scrubPos := rfl
@[simp] theorem State.setWork_scrubPass (s : State) (e : Nat) (w : Work) : (s.setWork e w).scrubPass = s.scrubPass := rfl
@[simp] theorem State.setWork_scrubDie (s : State) (e : Nat) (w : Work) : (s.setWork e w).scrubDie = s.scrubDie := rfl
@[simp] theorem State.setWork_scrubRow (s : State) (e : Nat) (w : Work) : (s.setWork e w).scrubRow = s.scrubRow := rfl
@[simp] theorem State.setWork_wins (s : State) (e : Nat) (w : Work) : (s.setWork e w).wins = s.wins := rfl
@[simp] theorem State.setWork_hcells (s : State) (e : Nat) (w : Work) : (s.setWork e w).hcells = s.hcells := rfl
@[simp] theorem State.setWork_norms (s : State) (e : Nat) (w : Work) : (s.setWork e w).norms = s.norms := rfl
@[simp] theorem State.setWork_verdicts (s : State) (e : Nat) (w : Work) : (s.setWork e w).verdicts = s.verdicts := rfl
@[simp] theorem State.setWork_normIn (s : State) (e : Nat) (w : Work) : (s.setWork e w).normIn = s.normIn := rfl
@[simp] theorem State.setWork_stepSums (s : State) (e : Nat) (w : Work) : (s.setWork e w).stepSums = s.stepSums := rfl
@[simp] theorem State.setWork_maps (s : State) (e : Nat) (w : Work) : (s.setWork e w).maps = s.maps := rfl
@[simp] theorem State.setWork_mapPend (s : State) (e : Nat) (w : Work) : (s.setWork e w).mapPend = s.mapPend := rfl
@[simp] theorem State.setWork_ringJobs (s : State) (e : Nat) (w : Work) : (s.setWork e w).ringJobs = s.ringJobs := rfl
@[simp] theorem State.setWork_rootJobs (s : State) (e : Nat) (w : Work) : (s.setWork e w).rootJobs = s.rootJobs := rfl
@[simp] theorem State.setWork_solvers (s : State) (e : Nat) (w : Work) : (s.setWork e w).solvers = s.solvers := rfl
@[simp] theorem State.setWork_relayed (s : State) (e : Nat) (w : Work) : (s.setWork e w).relayed = s.relayed := rfl
@[simp] theorem State.setWork_flash (s : State) (e : Nat) (w : Work) : (s.setWork e w).flash = s.flash := rfl
@[simp] theorem State.setWork_nextToken (s : State) (e : Nat) (w : Work) : (s.setWork e w).nextToken = s.nextToken := rfl
@[simp] theorem State.setWork_errHist (s : State) (e : Nat) (w : Work) : (s.setWork e w).errHist = s.errHist := rfl
@[simp] theorem State.setWork_cnt (s : State) (e : Nat) (w : Work) : (s.setWork e w).cnt = s.cnt := rfl
@[simp] theorem State.setWork_cntLatch (s : State) (e : Nat) (w : Work) : (s.setWork e w).cntLatch = s.cntLatch := rfl
@[simp] theorem State.setWork_cntRem (s : State) (e : Nat) (w : Work) : (s.setWork e w).cntRem = s.cntRem := rfl
@[simp] theorem State.setWork_bwWindow (s : State) (e : Nat) (w : Work) : (s.setWork e w).bwWindow = s.bwWindow := rfl
@[simp] theorem State.setWork_snaps (s : State) (e : Nat) (w : Work) : (s.setWork e w).snaps = s.snaps := rfl
@[simp] theorem State.setWork_perstLow (s : State) (e : Nat) (w : Work) : (s.setWork e w).perstLow = s.perstLow := rfl
@[simp] theorem State.setWork_unpowered (s : State) (e : Nat) (w : Work) : (s.setWork e w).unpowered = s.unpowered := rfl
@[simp] theorem State.setWork_shutFenced (s : State) (e : Nat) (w : Work) : (s.setWork e w).shutFenced = s.shutFenced := rfl
@[simp] theorem State.setWork_shutCause (s : State) (e : Nat) (w : Work) : (s.setWork e w).shutCause = s.shutCause := rfl
@[simp] theorem State.setWork_maintEnd (s : State) (e : Nat) (w : Work) : (s.setWork e w).maintEnd = s.maintEnd := rfl
@[simp] theorem State.setWork_booted (s : State) (e : Nat) (w : Work) : (s.setWork e w).booted = s.booted := rfl
@[simp] theorem State.setWork_loaded (s : State) (e : Nat) (w : Work) : (s.setWork e w).loaded = s.loaded := rfl
@[simp] theorem State.setWork_restartDue (s : State) (e : Nat) (w : Work) : (s.setWork e w).restartDue = s.restartDue := rfl
@[simp] theorem State.setWork_restartReport (s : State) (e : Nat) (w : Work) : (s.setWork e w).restartReport = s.restartReport := rfl
@[simp] theorem State.setWork_fallDue (s : State) (e : Nat) (w : Work) : (s.setWork e w).fallDue = s.fallDue := rfl
@[simp] theorem State.setWork_trialAt (s : State) (e : Nat) (w : Work) : (s.setWork e w).trialAt = s.trialAt := rfl
@[simp] theorem State.setWork_logValue (s : State) (e : Nat) (w : Work) : (s.setWork e w).logValue = s.logValue := rfl
@[simp] theorem State.setWork_logEntries (s : State) (e : Nat) (w : Work) : (s.setWork e w).logEntries = s.logEntries := rfl
@[simp] theorem State.setWork_serial (s : State) (e : Nat) (w : Work) : (s.setWork e w).serial = s.serial := rfl
@[simp] theorem State.setWork_tap (s : State) (e : Nat) (w : Work) : (s.setWork e w).tap = s.tap := rfl
@[simp] theorem State.setWork_chain (s : State) (e : Nat) (w : Work) : (s.setWork e w).chain = s.chain := rfl
@[simp] theorem State.setWork_driven (s : State) (e : Nat) (w : Work) : (s.setWork e w).driven = s.driven := rfl
@[simp] theorem State.setWork_i3cAddr (s : State) (e : Nat) (w : Work) : (s.setWork e w).i3cAddr = s.i3cAddr := rfl
@[simp] theorem State.setWork_i3cOff (s : State) (e : Nat) (w : Work) : (s.setWork e w).i3cOff = s.i3cOff := rfl
@[simp] theorem State.setWork_i3cRst (s : State) (e : Nat) (w : Work) : (s.setWork e w).i3cRst = s.i3cRst := rfl

@[simp] theorem State.atTide_pending (s : State) (x : Nat) : (s.atTide x).pending = s.pending := rfl
@[simp] theorem State.atTide_out (s : State) (x : Nat) : (s.atTide x).out = s.out := rfl
@[simp] theorem State.atTide_free (s : State) (x : Nat) : (s.atTide x).free = s.free := rfl
@[simp] theorem State.atTide_regs (s : State) (x : Nat) : (s.atTide x).regs = s.regs := rfl
@[simp] theorem State.atTide_evt (s : State) (x : Nat) : (s.atTide x).evt = s.evt := rfl
@[simp] theorem State.atTide_mem (s : State) (x : Nat) : (s.atTide x).mem = s.mem := rfl
@[simp] theorem State.atTide_poison (s : State) (x : Nat) : (s.atTide x).poison = s.poison := rfl
@[simp] theorem State.atTide_host (s : State) (x : Nat) : (s.atTide x).host = s.host := rfl
@[simp] theorem State.atTide_tports (s : State) (x : Nat) : (s.atTide x).tports = s.tports := rfl
@[simp] theorem State.atTide_ports (s : State) (x : Nat) : (s.atTide x).ports = s.ports := rfl
@[simp] theorem State.atTide_held (s : State) (x : Nat) : (s.atTide x).held = s.held := rfl
@[simp] theorem State.atTide_holdReq (s : State) (x : Nat) : (s.atTide x).holdReq = s.holdReq := rfl
@[simp] theorem State.atTide_tx (s : State) (x : Nat) : (s.atTide x).tx = s.tx := rfl
@[simp] theorem State.atTide_rx (s : State) (x : Nat) : (s.atTide x).rx = s.rx := rfl
@[simp] theorem State.atTide_started (s : State) (x : Nat) : (s.atTide x).started = s.started := rfl
@[simp] theorem State.atTide_counters (s : State) (x : Nat) : (s.atTide x).counters = s.counters := rfl
@[simp] theorem State.atTide_sync (s : State) (x : Nat) : (s.atTide x).sync = s.sync := rfl
@[simp] theorem State.atTide_gated (s : State) (x : Nat) : (s.atTide x).gated = s.gated := rfl
@[simp] theorem State.atTide_frozen (s : State) (x : Nat) : (s.atTide x).frozen = s.frozen := rfl
@[simp] theorem State.atTide_fires (s : State) (x : Nat) : (s.atTide x).fires = s.fires := rfl
@[simp] theorem State.atTide_syncRaise (s : State) (x : Nat) : (s.atTide x).syncRaise = s.syncRaise := rfl
@[simp] theorem State.atTide_syncFwd (s : State) (x : Nat) : (s.atTide x).syncFwd = s.syncFwd := rfl
@[simp] theorem State.atTide_acceptNo (s : State) (x : Nat) : (s.atTide x).acceptNo = s.acceptNo := rfl
@[simp] theorem State.atTide_mirrorA (s : State) (x : Nat) : (s.atTide x).mirrorA = s.mirrorA := rfl
@[simp] theorem State.atTide_mirrorB (s : State) (x : Nat) : (s.atTide x).mirrorB = s.mirrorB := rfl
@[simp] theorem State.atTide_shadow (s : State) (x : Nat) : (s.atTide x).shadow = s.shadow := rfl
@[simp] theorem State.atTide_work (s : State) (x : Nat) : (s.atTide x).work = s.work := rfl
@[simp] theorem State.atTide_ringQ (s : State) (x : Nat) : (s.atTide x).ringQ = s.ringQ := rfl
@[simp] theorem State.atTide_doneQ (s : State) (x : Nat) : (s.atTide x).doneQ = s.doneQ := rfl
@[simp] theorem State.atTide_waits (s : State) (x : Nat) : (s.atTide x).waits = s.waits := rfl
@[simp] theorem State.atTide_gaveUp (s : State) (x : Nat) : (s.atTide x).gaveUp = s.gaveUp := rfl
@[simp] theorem State.atTide_groups (s : State) (x : Nat) : (s.atTide x).groups = s.groups := rfl
@[simp] theorem State.atTide_commits (s : State) (x : Nat) : (s.atTide x).commits = s.commits := rfl
@[simp] theorem State.atTide_copies (s : State) (x : Nat) : (s.atTide x).copies = s.copies := rfl
@[simp] theorem State.atTide_tlpStop (s : State) (x : Nat) : (s.atTide x).tlpStop = s.tlpStop := rfl
@[simp] theorem State.atTide_barLog (s : State) (x : Nat) : (s.atTide x).barLog = s.barLog := rfl
@[simp] theorem State.atTide_moder (s : State) (x : Nat) : (s.atTide x).moder = s.moder := rfl
@[simp] theorem State.atTide_cqPass (s : State) (x : Nat) : (s.atTide x).cqPass = s.cqPass := rfl
@[simp] theorem State.atTide_replayQ (s : State) (x : Nat) : (s.atTide x).replayQ = s.replayQ := rfl
@[simp] theorem State.atTide_warmReq (s : State) (x : Nat) : (s.atTide x).warmReq = s.warmReq := rfl
@[simp] theorem State.atTide_coldReq (s : State) (x : Nat) : (s.atTide x).coldReq = s.coldReq := rfl
@[simp] theorem State.atTide_regionReq (s : State) (x : Nat) : (s.atTide x).regionReq = s.regionReq := rfl
@[simp] theorem State.atTide_rr (s : State) (x : Nat) : (s.atTide x).rr = s.rr := rfl
@[simp] theorem State.atTide_errBuf (s : State) (x : Nat) : (s.atTide x).errBuf = s.errBuf := rfl
@[simp] theorem State.atTide_errSeq (s : State) (x : Nat) : (s.atTide x).errSeq = s.errSeq := rfl
@[simp] theorem State.atTide_errCoal (s : State) (x : Nat) : (s.atTide x).errCoal = s.errCoal := rfl
@[simp] theorem State.atTide_errNew (s : State) (x : Nat) : (s.atTide x).errNew = s.errNew := rfl
@[simp] theorem State.atTide_cfg (s : State) (x : Nat) : (s.atTide x).cfg = s.cfg := rfl
@[simp] theorem State.atTide_blocks (s : State) (x : Nat) : (s.atTide x).blocks = s.blocks := rfl
@[simp] theorem State.atTide_pan (s : State) (x : Nat) : (s.atTide x).pan = s.pan := rfl
@[simp] theorem State.atTide_panRows (s : State) (x : Nat) : (s.atTide x).panRows = s.panRows := rfl
@[simp] theorem State.atTide_stat (s : State) (x : Nat) : (s.atTide x).stat = s.stat := rfl
@[simp] theorem State.atTide_lanes (s : State) (x : Nat) : (s.atTide x).lanes = s.lanes := rfl
@[simp] theorem State.atTide_launches (s : State) (x : Nat) : (s.atTide x).launches = s.launches := rfl
@[simp] theorem State.atTide_blkErr (s : State) (x : Nat) : (s.atTide x).blkErr = s.blkErr := rfl
@[simp] theorem State.atTide_quarRows (s : State) (x : Nat) : (s.atTide x).quarRows = s.quarRows := rfl
@[simp] theorem State.atTide_repairA (s : State) (x : Nat) : (s.atTide x).repairA = s.repairA := rfl
@[simp] theorem State.atTide_repairB (s : State) (x : Nat) : (s.atTide x).repairB = s.repairB := rfl
@[simp] theorem State.atTide_repairPend (s : State) (x : Nat) : (s.atTide x).repairPend = s.repairPend := rfl
@[simp] theorem State.atTide_softRep (s : State) (x : Nat) : (s.atTide x).softRep = s.softRep := rfl
@[simp] theorem State.atTide_monStop (s : State) (x : Nat) : (s.atTide x).monStop = s.monStop := rfl
@[simp] theorem State.atTide_brakeStop (s : State) (x : Nat) : (s.atTide x).brakeStop = s.brakeStop := rfl
@[simp] theorem State.atTide_brakeLow (s : State) (x : Nat) : (s.atTide x).brakeLow = s.brakeLow := rfl
@[simp] theorem State.atTide_governing (s : State) (x : Nat) : (s.atTide x).governing = s.governing := rfl
@[simp] theorem State.atTide_stackTemp (s : State) (x : Nat) : (s.atTide x).stackTemp = s.stackTemp := rfl
@[simp] theorem State.atTide_entryTo (s : State) (x : Nat) : (s.atTide x).entryTo = s.entryTo := rfl
@[simp] theorem State.atTide_wakePend (s : State) (x : Nat) : (s.atTide x).wakePend = s.wakePend := rfl
@[simp] theorem State.atTide_reqPend (s : State) (x : Nat) : (s.atTide x).reqPend = s.reqPend := rfl
@[simp] theorem State.atTide_wakeLow (s : State) (x : Nat) : (s.atTide x).wakeLow = s.wakeLow := rfl
@[simp] theorem State.atTide_lastExit (s : State) (x : Nat) : (s.atTide x).lastExit = s.lastExit := rfl
@[simp] theorem State.atTide_retrainDue (s : State) (x : Nat) : (s.atTide x).retrainDue = s.retrainDue := rfl
@[simp] theorem State.atTide_movedNow (s : State) (x : Nat) : (s.atTide x).movedNow = s.movedNow := rfl
@[simp] theorem State.atTide_movedLast (s : State) (x : Nat) : (s.atTide x).movedLast = s.movedLast := rfl
@[simp] theorem State.atTide_heldAlarms (s : State) (x : Nat) : (s.atTide x).heldAlarms = s.heldAlarms := rfl
@[simp] theorem State.atTide_scrubPos (s : State) (x : Nat) : (s.atTide x).scrubPos = s.scrubPos := rfl
@[simp] theorem State.atTide_scrubPass (s : State) (x : Nat) : (s.atTide x).scrubPass = s.scrubPass := rfl
@[simp] theorem State.atTide_scrubDie (s : State) (x : Nat) : (s.atTide x).scrubDie = s.scrubDie := rfl
@[simp] theorem State.atTide_scrubRow (s : State) (x : Nat) : (s.atTide x).scrubRow = s.scrubRow := rfl
@[simp] theorem State.atTide_wins (s : State) (x : Nat) : (s.atTide x).wins = s.wins := rfl
@[simp] theorem State.atTide_hcells (s : State) (x : Nat) : (s.atTide x).hcells = s.hcells := rfl
@[simp] theorem State.atTide_norms (s : State) (x : Nat) : (s.atTide x).norms = s.norms := rfl
@[simp] theorem State.atTide_verdicts (s : State) (x : Nat) : (s.atTide x).verdicts = s.verdicts := rfl
@[simp] theorem State.atTide_normIn (s : State) (x : Nat) : (s.atTide x).normIn = s.normIn := rfl
@[simp] theorem State.atTide_stepSums (s : State) (x : Nat) : (s.atTide x).stepSums = s.stepSums := rfl
@[simp] theorem State.atTide_maps (s : State) (x : Nat) : (s.atTide x).maps = s.maps := rfl
@[simp] theorem State.atTide_mapPend (s : State) (x : Nat) : (s.atTide x).mapPend = s.mapPend := rfl
@[simp] theorem State.atTide_ringJobs (s : State) (x : Nat) : (s.atTide x).ringJobs = s.ringJobs := rfl
@[simp] theorem State.atTide_rootJobs (s : State) (x : Nat) : (s.atTide x).rootJobs = s.rootJobs := rfl
@[simp] theorem State.atTide_solvers (s : State) (x : Nat) : (s.atTide x).solvers = s.solvers := rfl
@[simp] theorem State.atTide_relayed (s : State) (x : Nat) : (s.atTide x).relayed = s.relayed := rfl
@[simp] theorem State.atTide_flash (s : State) (x : Nat) : (s.atTide x).flash = s.flash := rfl
@[simp] theorem State.atTide_nextToken (s : State) (x : Nat) : (s.atTide x).nextToken = s.nextToken := rfl
@[simp] theorem State.atTide_errHist (s : State) (x : Nat) : (s.atTide x).errHist = s.errHist := rfl
@[simp] theorem State.atTide_cnt (s : State) (x : Nat) : (s.atTide x).cnt = s.cnt := rfl
@[simp] theorem State.atTide_cntLatch (s : State) (x : Nat) : (s.atTide x).cntLatch = s.cntLatch := rfl
@[simp] theorem State.atTide_cntRem (s : State) (x : Nat) : (s.atTide x).cntRem = s.cntRem := rfl
@[simp] theorem State.atTide_bwWindow (s : State) (x : Nat) : (s.atTide x).bwWindow = s.bwWindow := rfl
@[simp] theorem State.atTide_snaps (s : State) (x : Nat) : (s.atTide x).snaps = s.snaps := rfl
@[simp] theorem State.atTide_perstLow (s : State) (x : Nat) : (s.atTide x).perstLow = s.perstLow := rfl
@[simp] theorem State.atTide_unpowered (s : State) (x : Nat) : (s.atTide x).unpowered = s.unpowered := rfl
@[simp] theorem State.atTide_shutFenced (s : State) (x : Nat) : (s.atTide x).shutFenced = s.shutFenced := rfl
@[simp] theorem State.atTide_shutCause (s : State) (x : Nat) : (s.atTide x).shutCause = s.shutCause := rfl
@[simp] theorem State.atTide_maintEnd (s : State) (x : Nat) : (s.atTide x).maintEnd = s.maintEnd := rfl
@[simp] theorem State.atTide_booted (s : State) (x : Nat) : (s.atTide x).booted = s.booted := rfl
@[simp] theorem State.atTide_loaded (s : State) (x : Nat) : (s.atTide x).loaded = s.loaded := rfl
@[simp] theorem State.atTide_restartDue (s : State) (x : Nat) : (s.atTide x).restartDue = s.restartDue := rfl
@[simp] theorem State.atTide_restartReport (s : State) (x : Nat) : (s.atTide x).restartReport = s.restartReport := rfl
@[simp] theorem State.atTide_fallDue (s : State) (x : Nat) : (s.atTide x).fallDue = s.fallDue := rfl
@[simp] theorem State.atTide_trialAt (s : State) (x : Nat) : (s.atTide x).trialAt = s.trialAt := rfl
@[simp] theorem State.atTide_logValue (s : State) (x : Nat) : (s.atTide x).logValue = s.logValue := rfl
@[simp] theorem State.atTide_logEntries (s : State) (x : Nat) : (s.atTide x).logEntries = s.logEntries := rfl
@[simp] theorem State.atTide_serial (s : State) (x : Nat) : (s.atTide x).serial = s.serial := rfl
@[simp] theorem State.atTide_tap (s : State) (x : Nat) : (s.atTide x).tap = s.tap := rfl
@[simp] theorem State.atTide_chain (s : State) (x : Nat) : (s.atTide x).chain = s.chain := rfl
@[simp] theorem State.atTide_driven (s : State) (x : Nat) : (s.atTide x).driven = s.driven := rfl
@[simp] theorem State.atTide_i3cAddr (s : State) (x : Nat) : (s.atTide x).i3cAddr = s.i3cAddr := rfl
@[simp] theorem State.atTide_i3cOff (s : State) (x : Nat) : (s.atTide x).i3cOff = s.i3cOff := rfl
@[simp] theorem State.atTide_i3cRst (s : State) (x : Nat) : (s.atTide x).i3cRst = s.i3cRst := rfl

@[simp] theorem State.countUpdate_pending (s : State) (e : Nat) : (s.countUpdate e).pending = s.pending := rfl
@[simp] theorem State.countUpdate_out (s : State) (e : Nat) : (s.countUpdate e).out = s.out := rfl
@[simp] theorem State.countUpdate_free (s : State) (e : Nat) : (s.countUpdate e).free = s.free := rfl
@[simp] theorem State.countUpdate_evt (s : State) (e : Nat) : (s.countUpdate e).evt = s.evt := rfl
@[simp] theorem State.countUpdate_mem (s : State) (e : Nat) : (s.countUpdate e).mem = s.mem := rfl
@[simp] theorem State.countUpdate_poison (s : State) (e : Nat) : (s.countUpdate e).poison = s.poison := rfl
@[simp] theorem State.countUpdate_host (s : State) (e : Nat) : (s.countUpdate e).host = s.host := rfl
@[simp] theorem State.countUpdate_tide (s : State) (e : Nat) : (s.countUpdate e).tide = s.tide := rfl
@[simp] theorem State.countUpdate_tports (s : State) (e : Nat) : (s.countUpdate e).tports = s.tports := rfl
@[simp] theorem State.countUpdate_ports (s : State) (e : Nat) : (s.countUpdate e).ports = s.ports := rfl
@[simp] theorem State.countUpdate_held (s : State) (e : Nat) : (s.countUpdate e).held = s.held := rfl
@[simp] theorem State.countUpdate_holdReq (s : State) (e : Nat) : (s.countUpdate e).holdReq = s.holdReq := rfl
@[simp] theorem State.countUpdate_tx (s : State) (e : Nat) : (s.countUpdate e).tx = s.tx := rfl
@[simp] theorem State.countUpdate_rx (s : State) (e : Nat) : (s.countUpdate e).rx = s.rx := rfl
@[simp] theorem State.countUpdate_started (s : State) (e : Nat) : (s.countUpdate e).started = s.started := rfl
@[simp] theorem State.countUpdate_counters (s : State) (e : Nat) : (s.countUpdate e).counters = s.counters := rfl
@[simp] theorem State.countUpdate_sync (s : State) (e : Nat) : (s.countUpdate e).sync = s.sync := rfl
@[simp] theorem State.countUpdate_gated (s : State) (e : Nat) : (s.countUpdate e).gated = s.gated := rfl
@[simp] theorem State.countUpdate_frozen (s : State) (e : Nat) : (s.countUpdate e).frozen = s.frozen := rfl
@[simp] theorem State.countUpdate_fires (s : State) (e : Nat) : (s.countUpdate e).fires = s.fires := rfl
@[simp] theorem State.countUpdate_syncRaise (s : State) (e : Nat) : (s.countUpdate e).syncRaise = s.syncRaise := rfl
@[simp] theorem State.countUpdate_syncFwd (s : State) (e : Nat) : (s.countUpdate e).syncFwd = s.syncFwd := rfl
@[simp] theorem State.countUpdate_acceptNo (s : State) (e : Nat) : (s.countUpdate e).acceptNo = s.acceptNo := rfl
@[simp] theorem State.countUpdate_mirrorA (s : State) (e : Nat) : (s.countUpdate e).mirrorA = s.mirrorA := rfl
@[simp] theorem State.countUpdate_mirrorB (s : State) (e : Nat) : (s.countUpdate e).mirrorB = s.mirrorB := rfl
@[simp] theorem State.countUpdate_shadow (s : State) (e : Nat) : (s.countUpdate e).shadow = s.shadow := rfl
@[simp] theorem State.countUpdate_work (s : State) (e : Nat) : (s.countUpdate e).work = s.work := rfl
@[simp] theorem State.countUpdate_ringQ (s : State) (e : Nat) : (s.countUpdate e).ringQ = s.ringQ := rfl
@[simp] theorem State.countUpdate_doneQ (s : State) (e : Nat) : (s.countUpdate e).doneQ = s.doneQ := rfl
@[simp] theorem State.countUpdate_waits (s : State) (e : Nat) : (s.countUpdate e).waits = s.waits := rfl
@[simp] theorem State.countUpdate_gaveUp (s : State) (e : Nat) : (s.countUpdate e).gaveUp = s.gaveUp := rfl
@[simp] theorem State.countUpdate_groups (s : State) (e : Nat) : (s.countUpdate e).groups = s.groups := rfl
@[simp] theorem State.countUpdate_commits (s : State) (e : Nat) : (s.countUpdate e).commits = s.commits := rfl
@[simp] theorem State.countUpdate_copies (s : State) (e : Nat) : (s.countUpdate e).copies = s.copies := rfl
@[simp] theorem State.countUpdate_tlpStop (s : State) (e : Nat) : (s.countUpdate e).tlpStop = s.tlpStop := rfl
@[simp] theorem State.countUpdate_barLog (s : State) (e : Nat) : (s.countUpdate e).barLog = s.barLog := rfl
@[simp] theorem State.countUpdate_moder (s : State) (e : Nat) : (s.countUpdate e).moder = s.moder := rfl
@[simp] theorem State.countUpdate_cqPass (s : State) (e : Nat) : (s.countUpdate e).cqPass = s.cqPass := rfl
@[simp] theorem State.countUpdate_replayQ (s : State) (e : Nat) : (s.countUpdate e).replayQ = s.replayQ := rfl
@[simp] theorem State.countUpdate_warmReq (s : State) (e : Nat) : (s.countUpdate e).warmReq = s.warmReq := rfl
@[simp] theorem State.countUpdate_coldReq (s : State) (e : Nat) : (s.countUpdate e).coldReq = s.coldReq := rfl
@[simp] theorem State.countUpdate_regionReq (s : State) (e : Nat) : (s.countUpdate e).regionReq = s.regionReq := rfl
@[simp] theorem State.countUpdate_rr (s : State) (e : Nat) : (s.countUpdate e).rr = s.rr := rfl
@[simp] theorem State.countUpdate_errBuf (s : State) (e : Nat) : (s.countUpdate e).errBuf = s.errBuf := rfl
@[simp] theorem State.countUpdate_errSeq (s : State) (e : Nat) : (s.countUpdate e).errSeq = s.errSeq := rfl
@[simp] theorem State.countUpdate_errCoal (s : State) (e : Nat) : (s.countUpdate e).errCoal = s.errCoal := rfl
@[simp] theorem State.countUpdate_errNew (s : State) (e : Nat) : (s.countUpdate e).errNew = s.errNew := rfl
@[simp] theorem State.countUpdate_cfg (s : State) (e : Nat) : (s.countUpdate e).cfg = s.cfg := rfl
@[simp] theorem State.countUpdate_blocks (s : State) (e : Nat) : (s.countUpdate e).blocks = s.blocks := rfl
@[simp] theorem State.countUpdate_pan (s : State) (e : Nat) : (s.countUpdate e).pan = s.pan := rfl
@[simp] theorem State.countUpdate_panRows (s : State) (e : Nat) : (s.countUpdate e).panRows = s.panRows := rfl
@[simp] theorem State.countUpdate_stat (s : State) (e : Nat) : (s.countUpdate e).stat = s.stat := rfl
@[simp] theorem State.countUpdate_lanes (s : State) (e : Nat) : (s.countUpdate e).lanes = s.lanes := rfl
@[simp] theorem State.countUpdate_launches (s : State) (e : Nat) : (s.countUpdate e).launches = s.launches := rfl
@[simp] theorem State.countUpdate_blkErr (s : State) (e : Nat) : (s.countUpdate e).blkErr = s.blkErr := rfl
@[simp] theorem State.countUpdate_quarRows (s : State) (e : Nat) : (s.countUpdate e).quarRows = s.quarRows := rfl
@[simp] theorem State.countUpdate_repairA (s : State) (e : Nat) : (s.countUpdate e).repairA = s.repairA := rfl
@[simp] theorem State.countUpdate_repairB (s : State) (e : Nat) : (s.countUpdate e).repairB = s.repairB := rfl
@[simp] theorem State.countUpdate_repairPend (s : State) (e : Nat) : (s.countUpdate e).repairPend = s.repairPend := rfl
@[simp] theorem State.countUpdate_softRep (s : State) (e : Nat) : (s.countUpdate e).softRep = s.softRep := rfl
@[simp] theorem State.countUpdate_monStop (s : State) (e : Nat) : (s.countUpdate e).monStop = s.monStop := rfl
@[simp] theorem State.countUpdate_brakeStop (s : State) (e : Nat) : (s.countUpdate e).brakeStop = s.brakeStop := rfl
@[simp] theorem State.countUpdate_brakeLow (s : State) (e : Nat) : (s.countUpdate e).brakeLow = s.brakeLow := rfl
@[simp] theorem State.countUpdate_governing (s : State) (e : Nat) : (s.countUpdate e).governing = s.governing := rfl
@[simp] theorem State.countUpdate_stackTemp (s : State) (e : Nat) : (s.countUpdate e).stackTemp = s.stackTemp := rfl
@[simp] theorem State.countUpdate_entryTo (s : State) (e : Nat) : (s.countUpdate e).entryTo = s.entryTo := rfl
@[simp] theorem State.countUpdate_wakePend (s : State) (e : Nat) : (s.countUpdate e).wakePend = s.wakePend := rfl
@[simp] theorem State.countUpdate_reqPend (s : State) (e : Nat) : (s.countUpdate e).reqPend = s.reqPend := rfl
@[simp] theorem State.countUpdate_wakeLow (s : State) (e : Nat) : (s.countUpdate e).wakeLow = s.wakeLow := rfl
@[simp] theorem State.countUpdate_lastExit (s : State) (e : Nat) : (s.countUpdate e).lastExit = s.lastExit := rfl
@[simp] theorem State.countUpdate_retrainDue (s : State) (e : Nat) : (s.countUpdate e).retrainDue = s.retrainDue := rfl
@[simp] theorem State.countUpdate_movedNow (s : State) (e : Nat) : (s.countUpdate e).movedNow = s.movedNow := rfl
@[simp] theorem State.countUpdate_movedLast (s : State) (e : Nat) : (s.countUpdate e).movedLast = s.movedLast := rfl
@[simp] theorem State.countUpdate_heldAlarms (s : State) (e : Nat) : (s.countUpdate e).heldAlarms = s.heldAlarms := rfl
@[simp] theorem State.countUpdate_scrubPos (s : State) (e : Nat) : (s.countUpdate e).scrubPos = s.scrubPos := rfl
@[simp] theorem State.countUpdate_scrubPass (s : State) (e : Nat) : (s.countUpdate e).scrubPass = s.scrubPass := rfl
@[simp] theorem State.countUpdate_scrubDie (s : State) (e : Nat) : (s.countUpdate e).scrubDie = s.scrubDie := rfl
@[simp] theorem State.countUpdate_scrubRow (s : State) (e : Nat) : (s.countUpdate e).scrubRow = s.scrubRow := rfl
@[simp] theorem State.countUpdate_wins (s : State) (e : Nat) : (s.countUpdate e).wins = s.wins := rfl
@[simp] theorem State.countUpdate_hcells (s : State) (e : Nat) : (s.countUpdate e).hcells = s.hcells := rfl
@[simp] theorem State.countUpdate_norms (s : State) (e : Nat) : (s.countUpdate e).norms = s.norms := rfl
@[simp] theorem State.countUpdate_verdicts (s : State) (e : Nat) : (s.countUpdate e).verdicts = s.verdicts := rfl
@[simp] theorem State.countUpdate_normIn (s : State) (e : Nat) : (s.countUpdate e).normIn = s.normIn := rfl
@[simp] theorem State.countUpdate_stepSums (s : State) (e : Nat) : (s.countUpdate e).stepSums = s.stepSums := rfl
@[simp] theorem State.countUpdate_maps (s : State) (e : Nat) : (s.countUpdate e).maps = s.maps := rfl
@[simp] theorem State.countUpdate_mapPend (s : State) (e : Nat) : (s.countUpdate e).mapPend = s.mapPend := rfl
@[simp] theorem State.countUpdate_ringJobs (s : State) (e : Nat) : (s.countUpdate e).ringJobs = s.ringJobs := rfl
@[simp] theorem State.countUpdate_rootJobs (s : State) (e : Nat) : (s.countUpdate e).rootJobs = s.rootJobs := rfl
@[simp] theorem State.countUpdate_solvers (s : State) (e : Nat) : (s.countUpdate e).solvers = s.solvers := rfl
@[simp] theorem State.countUpdate_relayed (s : State) (e : Nat) : (s.countUpdate e).relayed = s.relayed := rfl
@[simp] theorem State.countUpdate_flash (s : State) (e : Nat) : (s.countUpdate e).flash = s.flash := rfl
@[simp] theorem State.countUpdate_nextToken (s : State) (e : Nat) : (s.countUpdate e).nextToken = s.nextToken := rfl
@[simp] theorem State.countUpdate_errHist (s : State) (e : Nat) : (s.countUpdate e).errHist = s.errHist := rfl
@[simp] theorem State.countUpdate_cnt (s : State) (e : Nat) : (s.countUpdate e).cnt = s.cnt := rfl
@[simp] theorem State.countUpdate_cntLatch (s : State) (e : Nat) : (s.countUpdate e).cntLatch = s.cntLatch := rfl
@[simp] theorem State.countUpdate_cntRem (s : State) (e : Nat) : (s.countUpdate e).cntRem = s.cntRem := rfl
@[simp] theorem State.countUpdate_bwWindow (s : State) (e : Nat) : (s.countUpdate e).bwWindow = s.bwWindow := rfl
@[simp] theorem State.countUpdate_snaps (s : State) (e : Nat) : (s.countUpdate e).snaps = s.snaps := rfl
@[simp] theorem State.countUpdate_perstLow (s : State) (e : Nat) : (s.countUpdate e).perstLow = s.perstLow := rfl
@[simp] theorem State.countUpdate_unpowered (s : State) (e : Nat) : (s.countUpdate e).unpowered = s.unpowered := rfl
@[simp] theorem State.countUpdate_shutFenced (s : State) (e : Nat) : (s.countUpdate e).shutFenced = s.shutFenced := rfl
@[simp] theorem State.countUpdate_shutCause (s : State) (e : Nat) : (s.countUpdate e).shutCause = s.shutCause := rfl
@[simp] theorem State.countUpdate_maintEnd (s : State) (e : Nat) : (s.countUpdate e).maintEnd = s.maintEnd := rfl
@[simp] theorem State.countUpdate_booted (s : State) (e : Nat) : (s.countUpdate e).booted = s.booted := rfl
@[simp] theorem State.countUpdate_loaded (s : State) (e : Nat) : (s.countUpdate e).loaded = s.loaded := rfl
@[simp] theorem State.countUpdate_restartDue (s : State) (e : Nat) : (s.countUpdate e).restartDue = s.restartDue := rfl
@[simp] theorem State.countUpdate_restartReport (s : State) (e : Nat) : (s.countUpdate e).restartReport = s.restartReport := rfl
@[simp] theorem State.countUpdate_fallDue (s : State) (e : Nat) : (s.countUpdate e).fallDue = s.fallDue := rfl
@[simp] theorem State.countUpdate_trialAt (s : State) (e : Nat) : (s.countUpdate e).trialAt = s.trialAt := rfl
@[simp] theorem State.countUpdate_logValue (s : State) (e : Nat) : (s.countUpdate e).logValue = s.logValue := rfl
@[simp] theorem State.countUpdate_logEntries (s : State) (e : Nat) : (s.countUpdate e).logEntries = s.logEntries := rfl
@[simp] theorem State.countUpdate_serial (s : State) (e : Nat) : (s.countUpdate e).serial = s.serial := rfl
@[simp] theorem State.countUpdate_tap (s : State) (e : Nat) : (s.countUpdate e).tap = s.tap := rfl
@[simp] theorem State.countUpdate_chain (s : State) (e : Nat) : (s.countUpdate e).chain = s.chain := rfl
@[simp] theorem State.countUpdate_driven (s : State) (e : Nat) : (s.countUpdate e).driven = s.driven := rfl
@[simp] theorem State.countUpdate_i3cAddr (s : State) (e : Nat) : (s.countUpdate e).i3cAddr = s.i3cAddr := rfl
@[simp] theorem State.countUpdate_i3cOff (s : State) (e : Nat) : (s.countUpdate e).i3cOff = s.i3cOff := rfl
@[simp] theorem State.countUpdate_i3cRst (s : State) (e : Nat) : (s.countUpdate e).i3cRst = s.i3cRst := rfl

@[simp] theorem State.complete_pending (s : State) (e : Nat) (st : List Status) (err : ErrCode) (m n : Nat) : (s.complete e st err m n).pending = s.pending := rfl
@[simp] theorem State.complete_out (s : State) (e : Nat) (st : List Status) (err : ErrCode) (m n : Nat) : (s.complete e st err m n).out = s.out := rfl
@[simp] theorem State.complete_free (s : State) (e : Nat) (st : List Status) (err : ErrCode) (m n : Nat) : (s.complete e st err m n).free = s.free := rfl
@[simp] theorem State.complete_evt (s : State) (e : Nat) (st : List Status) (err : ErrCode) (m n : Nat) : (s.complete e st err m n).evt = s.evt := rfl
@[simp] theorem State.complete_mem (s : State) (e : Nat) (st : List Status) (err : ErrCode) (m n : Nat) : (s.complete e st err m n).mem = s.mem := rfl
@[simp] theorem State.complete_poison (s : State) (e : Nat) (st : List Status) (err : ErrCode) (m n : Nat) : (s.complete e st err m n).poison = s.poison := rfl
@[simp] theorem State.complete_host (s : State) (e : Nat) (st : List Status) (err : ErrCode) (m n : Nat) : (s.complete e st err m n).host = s.host := rfl
@[simp] theorem State.complete_tide (s : State) (e : Nat) (st : List Status) (err : ErrCode) (m n : Nat) : (s.complete e st err m n).tide = s.tide := rfl
@[simp] theorem State.complete_tports (s : State) (e : Nat) (st : List Status) (err : ErrCode) (m n : Nat) : (s.complete e st err m n).tports = s.tports := rfl
@[simp] theorem State.complete_ports (s : State) (e : Nat) (st : List Status) (err : ErrCode) (m n : Nat) : (s.complete e st err m n).ports = s.ports := rfl
@[simp] theorem State.complete_held (s : State) (e : Nat) (st : List Status) (err : ErrCode) (m n : Nat) : (s.complete e st err m n).held = s.held := rfl
@[simp] theorem State.complete_holdReq (s : State) (e : Nat) (st : List Status) (err : ErrCode) (m n : Nat) : (s.complete e st err m n).holdReq = s.holdReq := rfl
@[simp] theorem State.complete_tx (s : State) (e : Nat) (st : List Status) (err : ErrCode) (m n : Nat) : (s.complete e st err m n).tx = s.tx := rfl
@[simp] theorem State.complete_rx (s : State) (e : Nat) (st : List Status) (err : ErrCode) (m n : Nat) : (s.complete e st err m n).rx = s.rx := rfl
@[simp] theorem State.complete_started (s : State) (e : Nat) (st : List Status) (err : ErrCode) (m n : Nat) : (s.complete e st err m n).started = s.started := rfl
@[simp] theorem State.complete_counters (s : State) (e : Nat) (st : List Status) (err : ErrCode) (m n : Nat) : (s.complete e st err m n).counters = s.counters := rfl
@[simp] theorem State.complete_sync (s : State) (e : Nat) (st : List Status) (err : ErrCode) (m n : Nat) : (s.complete e st err m n).sync = s.sync := rfl
@[simp] theorem State.complete_gated (s : State) (e : Nat) (st : List Status) (err : ErrCode) (m n : Nat) : (s.complete e st err m n).gated = s.gated := rfl
@[simp] theorem State.complete_frozen (s : State) (e : Nat) (st : List Status) (err : ErrCode) (m n : Nat) : (s.complete e st err m n).frozen = s.frozen := rfl
@[simp] theorem State.complete_fires (s : State) (e : Nat) (st : List Status) (err : ErrCode) (m n : Nat) : (s.complete e st err m n).fires = s.fires := rfl
@[simp] theorem State.complete_syncRaise (s : State) (e : Nat) (st : List Status) (err : ErrCode) (m n : Nat) : (s.complete e st err m n).syncRaise = s.syncRaise := rfl
@[simp] theorem State.complete_syncFwd (s : State) (e : Nat) (st : List Status) (err : ErrCode) (m n : Nat) : (s.complete e st err m n).syncFwd = s.syncFwd := rfl
@[simp] theorem State.complete_acceptNo (s : State) (e : Nat) (st : List Status) (err : ErrCode) (m n : Nat) : (s.complete e st err m n).acceptNo = s.acceptNo := rfl
@[simp] theorem State.complete_mirrorA (s : State) (e : Nat) (st : List Status) (err : ErrCode) (m n : Nat) : (s.complete e st err m n).mirrorA = s.mirrorA := rfl
@[simp] theorem State.complete_mirrorB (s : State) (e : Nat) (st : List Status) (err : ErrCode) (m n : Nat) : (s.complete e st err m n).mirrorB = s.mirrorB := rfl
@[simp] theorem State.complete_shadow (s : State) (e : Nat) (st : List Status) (err : ErrCode) (m n : Nat) : (s.complete e st err m n).shadow = s.shadow := rfl
@[simp] theorem State.complete_gaveUp (s : State) (e : Nat) (st : List Status) (err : ErrCode) (m n : Nat) : (s.complete e st err m n).gaveUp = s.gaveUp := rfl
@[simp] theorem State.complete_groups (s : State) (e : Nat) (st : List Status) (err : ErrCode) (m n : Nat) : (s.complete e st err m n).groups = s.groups := rfl
@[simp] theorem State.complete_commits (s : State) (e : Nat) (st : List Status) (err : ErrCode) (m n : Nat) : (s.complete e st err m n).commits = s.commits := rfl
@[simp] theorem State.complete_tlpStop (s : State) (e : Nat) (st : List Status) (err : ErrCode) (m n : Nat) : (s.complete e st err m n).tlpStop = s.tlpStop := rfl
@[simp] theorem State.complete_barLog (s : State) (e : Nat) (st : List Status) (err : ErrCode) (m n : Nat) : (s.complete e st err m n).barLog = s.barLog := rfl
@[simp] theorem State.complete_moder (s : State) (e : Nat) (st : List Status) (err : ErrCode) (m n : Nat) : (s.complete e st err m n).moder = s.moder := rfl
@[simp] theorem State.complete_cqPass (s : State) (e : Nat) (st : List Status) (err : ErrCode) (m n : Nat) : (s.complete e st err m n).cqPass = s.cqPass := rfl
@[simp] theorem State.complete_replayQ (s : State) (e : Nat) (st : List Status) (err : ErrCode) (m n : Nat) : (s.complete e st err m n).replayQ = s.replayQ := rfl
@[simp] theorem State.complete_warmReq (s : State) (e : Nat) (st : List Status) (err : ErrCode) (m n : Nat) : (s.complete e st err m n).warmReq = s.warmReq := rfl
@[simp] theorem State.complete_coldReq (s : State) (e : Nat) (st : List Status) (err : ErrCode) (m n : Nat) : (s.complete e st err m n).coldReq = s.coldReq := rfl
@[simp] theorem State.complete_regionReq (s : State) (e : Nat) (st : List Status) (err : ErrCode) (m n : Nat) : (s.complete e st err m n).regionReq = s.regionReq := rfl
@[simp] theorem State.complete_rr (s : State) (e : Nat) (st : List Status) (err : ErrCode) (m n : Nat) : (s.complete e st err m n).rr = s.rr := rfl
@[simp] theorem State.complete_errBuf (s : State) (e : Nat) (st : List Status) (err : ErrCode) (m n : Nat) : (s.complete e st err m n).errBuf = s.errBuf := rfl
@[simp] theorem State.complete_errSeq (s : State) (e : Nat) (st : List Status) (err : ErrCode) (m n : Nat) : (s.complete e st err m n).errSeq = s.errSeq := rfl
@[simp] theorem State.complete_errCoal (s : State) (e : Nat) (st : List Status) (err : ErrCode) (m n : Nat) : (s.complete e st err m n).errCoal = s.errCoal := rfl
@[simp] theorem State.complete_errNew (s : State) (e : Nat) (st : List Status) (err : ErrCode) (m n : Nat) : (s.complete e st err m n).errNew = s.errNew := rfl
@[simp] theorem State.complete_cfg (s : State) (e : Nat) (st : List Status) (err : ErrCode) (m n : Nat) : (s.complete e st err m n).cfg = s.cfg := rfl
@[simp] theorem State.complete_blocks (s : State) (e : Nat) (st : List Status) (err : ErrCode) (m n : Nat) : (s.complete e st err m n).blocks = s.blocks := rfl
@[simp] theorem State.complete_pan (s : State) (e : Nat) (st : List Status) (err : ErrCode) (m n : Nat) : (s.complete e st err m n).pan = s.pan := rfl
@[simp] theorem State.complete_panRows (s : State) (e : Nat) (st : List Status) (err : ErrCode) (m n : Nat) : (s.complete e st err m n).panRows = s.panRows := rfl
@[simp] theorem State.complete_stat (s : State) (e : Nat) (st : List Status) (err : ErrCode) (m n : Nat) : (s.complete e st err m n).stat = s.stat := rfl
@[simp] theorem State.complete_lanes (s : State) (e : Nat) (st : List Status) (err : ErrCode) (m n : Nat) : (s.complete e st err m n).lanes = s.lanes := rfl
@[simp] theorem State.complete_launches (s : State) (e : Nat) (st : List Status) (err : ErrCode) (m n : Nat) : (s.complete e st err m n).launches = s.launches := rfl
@[simp] theorem State.complete_blkErr (s : State) (e : Nat) (st : List Status) (err : ErrCode) (m n : Nat) : (s.complete e st err m n).blkErr = s.blkErr := rfl
@[simp] theorem State.complete_quarRows (s : State) (e : Nat) (st : List Status) (err : ErrCode) (m n : Nat) : (s.complete e st err m n).quarRows = s.quarRows := rfl
@[simp] theorem State.complete_repairA (s : State) (e : Nat) (st : List Status) (err : ErrCode) (m n : Nat) : (s.complete e st err m n).repairA = s.repairA := rfl
@[simp] theorem State.complete_repairB (s : State) (e : Nat) (st : List Status) (err : ErrCode) (m n : Nat) : (s.complete e st err m n).repairB = s.repairB := rfl
@[simp] theorem State.complete_repairPend (s : State) (e : Nat) (st : List Status) (err : ErrCode) (m n : Nat) : (s.complete e st err m n).repairPend = s.repairPend := rfl
@[simp] theorem State.complete_softRep (s : State) (e : Nat) (st : List Status) (err : ErrCode) (m n : Nat) : (s.complete e st err m n).softRep = s.softRep := rfl
@[simp] theorem State.complete_monStop (s : State) (e : Nat) (st : List Status) (err : ErrCode) (m n : Nat) : (s.complete e st err m n).monStop = s.monStop := rfl
@[simp] theorem State.complete_brakeStop (s : State) (e : Nat) (st : List Status) (err : ErrCode) (m n : Nat) : (s.complete e st err m n).brakeStop = s.brakeStop := rfl
@[simp] theorem State.complete_brakeLow (s : State) (e : Nat) (st : List Status) (err : ErrCode) (m n : Nat) : (s.complete e st err m n).brakeLow = s.brakeLow := rfl
@[simp] theorem State.complete_governing (s : State) (e : Nat) (st : List Status) (err : ErrCode) (m n : Nat) : (s.complete e st err m n).governing = s.governing := rfl
@[simp] theorem State.complete_stackTemp (s : State) (e : Nat) (st : List Status) (err : ErrCode) (m n : Nat) : (s.complete e st err m n).stackTemp = s.stackTemp := rfl
@[simp] theorem State.complete_entryTo (s : State) (e : Nat) (st : List Status) (err : ErrCode) (m n : Nat) : (s.complete e st err m n).entryTo = s.entryTo := rfl
@[simp] theorem State.complete_wakePend (s : State) (e : Nat) (st : List Status) (err : ErrCode) (m n : Nat) : (s.complete e st err m n).wakePend = s.wakePend := rfl
@[simp] theorem State.complete_reqPend (s : State) (e : Nat) (st : List Status) (err : ErrCode) (m n : Nat) : (s.complete e st err m n).reqPend = s.reqPend := rfl
@[simp] theorem State.complete_wakeLow (s : State) (e : Nat) (st : List Status) (err : ErrCode) (m n : Nat) : (s.complete e st err m n).wakeLow = s.wakeLow := rfl
@[simp] theorem State.complete_lastExit (s : State) (e : Nat) (st : List Status) (err : ErrCode) (m n : Nat) : (s.complete e st err m n).lastExit = s.lastExit := rfl
@[simp] theorem State.complete_retrainDue (s : State) (e : Nat) (st : List Status) (err : ErrCode) (m n : Nat) : (s.complete e st err m n).retrainDue = s.retrainDue := rfl
@[simp] theorem State.complete_movedNow (s : State) (e : Nat) (st : List Status) (err : ErrCode) (m n : Nat) : (s.complete e st err m n).movedNow = s.movedNow := rfl
@[simp] theorem State.complete_movedLast (s : State) (e : Nat) (st : List Status) (err : ErrCode) (m n : Nat) : (s.complete e st err m n).movedLast = s.movedLast := rfl
@[simp] theorem State.complete_heldAlarms (s : State) (e : Nat) (st : List Status) (err : ErrCode) (m n : Nat) : (s.complete e st err m n).heldAlarms = s.heldAlarms := rfl
@[simp] theorem State.complete_scrubPos (s : State) (e : Nat) (st : List Status) (err : ErrCode) (m n : Nat) : (s.complete e st err m n).scrubPos = s.scrubPos := rfl
@[simp] theorem State.complete_scrubPass (s : State) (e : Nat) (st : List Status) (err : ErrCode) (m n : Nat) : (s.complete e st err m n).scrubPass = s.scrubPass := rfl
@[simp] theorem State.complete_scrubDie (s : State) (e : Nat) (st : List Status) (err : ErrCode) (m n : Nat) : (s.complete e st err m n).scrubDie = s.scrubDie := rfl
@[simp] theorem State.complete_scrubRow (s : State) (e : Nat) (st : List Status) (err : ErrCode) (m n : Nat) : (s.complete e st err m n).scrubRow = s.scrubRow := rfl
@[simp] theorem State.complete_wins (s : State) (e : Nat) (st : List Status) (err : ErrCode) (m n : Nat) : (s.complete e st err m n).wins = s.wins := rfl
@[simp] theorem State.complete_hcells (s : State) (e : Nat) (st : List Status) (err : ErrCode) (m n : Nat) : (s.complete e st err m n).hcells = s.hcells := rfl
@[simp] theorem State.complete_norms (s : State) (e : Nat) (st : List Status) (err : ErrCode) (m n : Nat) : (s.complete e st err m n).norms = s.norms := rfl
@[simp] theorem State.complete_verdicts (s : State) (e : Nat) (st : List Status) (err : ErrCode) (m n : Nat) : (s.complete e st err m n).verdicts = s.verdicts := rfl
@[simp] theorem State.complete_normIn (s : State) (e : Nat) (st : List Status) (err : ErrCode) (m n : Nat) : (s.complete e st err m n).normIn = s.normIn := rfl
@[simp] theorem State.complete_stepSums (s : State) (e : Nat) (st : List Status) (err : ErrCode) (m n : Nat) : (s.complete e st err m n).stepSums = s.stepSums := rfl
@[simp] theorem State.complete_maps (s : State) (e : Nat) (st : List Status) (err : ErrCode) (m n : Nat) : (s.complete e st err m n).maps = s.maps := rfl
@[simp] theorem State.complete_mapPend (s : State) (e : Nat) (st : List Status) (err : ErrCode) (m n : Nat) : (s.complete e st err m n).mapPend = s.mapPend := rfl
@[simp] theorem State.complete_ringJobs (s : State) (e : Nat) (st : List Status) (err : ErrCode) (m n : Nat) : (s.complete e st err m n).ringJobs = s.ringJobs := rfl
@[simp] theorem State.complete_rootJobs (s : State) (e : Nat) (st : List Status) (err : ErrCode) (m n : Nat) : (s.complete e st err m n).rootJobs = s.rootJobs := rfl
@[simp] theorem State.complete_solvers (s : State) (e : Nat) (st : List Status) (err : ErrCode) (m n : Nat) : (s.complete e st err m n).solvers = s.solvers := rfl
@[simp] theorem State.complete_relayed (s : State) (e : Nat) (st : List Status) (err : ErrCode) (m n : Nat) : (s.complete e st err m n).relayed = s.relayed := rfl
@[simp] theorem State.complete_flash (s : State) (e : Nat) (st : List Status) (err : ErrCode) (m n : Nat) : (s.complete e st err m n).flash = s.flash := rfl
@[simp] theorem State.complete_nextToken (s : State) (e : Nat) (st : List Status) (err : ErrCode) (m n : Nat) : (s.complete e st err m n).nextToken = s.nextToken := rfl
@[simp] theorem State.complete_errHist (s : State) (e : Nat) (st : List Status) (err : ErrCode) (m n : Nat) : (s.complete e st err m n).errHist = s.errHist := rfl
@[simp] theorem State.complete_cnt (s : State) (e : Nat) (st : List Status) (err : ErrCode) (m n : Nat) : (s.complete e st err m n).cnt = s.cnt := rfl
@[simp] theorem State.complete_cntLatch (s : State) (e : Nat) (st : List Status) (err : ErrCode) (m n : Nat) : (s.complete e st err m n).cntLatch = s.cntLatch := rfl
@[simp] theorem State.complete_cntRem (s : State) (e : Nat) (st : List Status) (err : ErrCode) (m n : Nat) : (s.complete e st err m n).cntRem = s.cntRem := rfl
@[simp] theorem State.complete_bwWindow (s : State) (e : Nat) (st : List Status) (err : ErrCode) (m n : Nat) : (s.complete e st err m n).bwWindow = s.bwWindow := rfl
@[simp] theorem State.complete_snaps (s : State) (e : Nat) (st : List Status) (err : ErrCode) (m n : Nat) : (s.complete e st err m n).snaps = s.snaps := rfl
@[simp] theorem State.complete_perstLow (s : State) (e : Nat) (st : List Status) (err : ErrCode) (m n : Nat) : (s.complete e st err m n).perstLow = s.perstLow := rfl
@[simp] theorem State.complete_unpowered (s : State) (e : Nat) (st : List Status) (err : ErrCode) (m n : Nat) : (s.complete e st err m n).unpowered = s.unpowered := rfl
@[simp] theorem State.complete_shutFenced (s : State) (e : Nat) (st : List Status) (err : ErrCode) (m n : Nat) : (s.complete e st err m n).shutFenced = s.shutFenced := rfl
@[simp] theorem State.complete_shutCause (s : State) (e : Nat) (st : List Status) (err : ErrCode) (m n : Nat) : (s.complete e st err m n).shutCause = s.shutCause := rfl
@[simp] theorem State.complete_maintEnd (s : State) (e : Nat) (st : List Status) (err : ErrCode) (m n : Nat) : (s.complete e st err m n).maintEnd = s.maintEnd := rfl
@[simp] theorem State.complete_booted (s : State) (e : Nat) (st : List Status) (err : ErrCode) (m n : Nat) : (s.complete e st err m n).booted = s.booted := rfl
@[simp] theorem State.complete_loaded (s : State) (e : Nat) (st : List Status) (err : ErrCode) (m n : Nat) : (s.complete e st err m n).loaded = s.loaded := rfl
@[simp] theorem State.complete_restartDue (s : State) (e : Nat) (st : List Status) (err : ErrCode) (m n : Nat) : (s.complete e st err m n).restartDue = s.restartDue := rfl
@[simp] theorem State.complete_restartReport (s : State) (e : Nat) (st : List Status) (err : ErrCode) (m n : Nat) : (s.complete e st err m n).restartReport = s.restartReport := rfl
@[simp] theorem State.complete_fallDue (s : State) (e : Nat) (st : List Status) (err : ErrCode) (m n : Nat) : (s.complete e st err m n).fallDue = s.fallDue := rfl
@[simp] theorem State.complete_trialAt (s : State) (e : Nat) (st : List Status) (err : ErrCode) (m n : Nat) : (s.complete e st err m n).trialAt = s.trialAt := rfl
@[simp] theorem State.complete_logValue (s : State) (e : Nat) (st : List Status) (err : ErrCode) (m n : Nat) : (s.complete e st err m n).logValue = s.logValue := rfl
@[simp] theorem State.complete_logEntries (s : State) (e : Nat) (st : List Status) (err : ErrCode) (m n : Nat) : (s.complete e st err m n).logEntries = s.logEntries := rfl
@[simp] theorem State.complete_serial (s : State) (e : Nat) (st : List Status) (err : ErrCode) (m n : Nat) : (s.complete e st err m n).serial = s.serial := rfl
@[simp] theorem State.complete_tap (s : State) (e : Nat) (st : List Status) (err : ErrCode) (m n : Nat) : (s.complete e st err m n).tap = s.tap := rfl
@[simp] theorem State.complete_chain (s : State) (e : Nat) (st : List Status) (err : ErrCode) (m n : Nat) : (s.complete e st err m n).chain = s.chain := rfl
@[simp] theorem State.complete_driven (s : State) (e : Nat) (st : List Status) (err : ErrCode) (m n : Nat) : (s.complete e st err m n).driven = s.driven := rfl
@[simp] theorem State.complete_i3cAddr (s : State) (e : Nat) (st : List Status) (err : ErrCode) (m n : Nat) : (s.complete e st err m n).i3cAddr = s.i3cAddr := rfl
@[simp] theorem State.complete_i3cOff (s : State) (e : Nat) (st : List Status) (err : ErrCode) (m n : Nat) : (s.complete e st err m n).i3cOff = s.i3cOff := rfl
@[simp] theorem State.complete_i3cRst (s : State) (e : Nat) (st : List Status) (err : ErrCode) (m n : Nat) : (s.complete e st err m n).i3cRst = s.i3cRst := rfl

end Sys2Proof.Machine
end

