-- ==== Sys2Proof/Laws/Memory.lean ====
section
/-! SUPPORT. The laws of memory: what a write makes every byte read as, and that every operation on memory, host memory and the register file keeps
the canonical form. -/

namespace Sys2Proof.Machine

/-! ### What leaves memory as it is -/

@[simp] theorem State.setFlagIf_mem (s : State) (c : Bool) (f : Fld) : (s.setFlagIf c f).mem = s.mem := by
  unfold State.setFlagIf; split <;> rfl

@[simp] theorem State.count_mem (s : State) (k n : Nat) : (s.count k n).mem = s.mem := by simp [State.count]

@[simp] theorem State.countBytes_mem (s : State) (k n : Nat) : (s.countBytes k n).mem = s.mem := by simp [State.countBytes]

@[simp] theorem State.setFlagIf_host (s : State) (c : Bool) (f : Fld) : (s.setFlagIf c f).host = s.host := by
  unfold State.setFlagIf; split <;> rfl

@[simp] theorem State.count_host (s : State) (k n : Nat) : (s.count k n).host = s.host := by simp [State.count]

/-- States with the same memory read the same bytes. -/
theorem State.byte_congr {s t : State} (h : t.mem = s.mem) (a : Nat) : t.byte a = s.byte a := by unfold State.byte; rw [h]

/-! ### Read after write -/

theorem State.byte_setByte (s : State) (a x : Nat) (v : Byte) : (s.setByte a v).byte x = if x = a then v else s.byte x :=
  SMap.get_set memDefault s.mem a x v

/-- A byte string written reads back, and every other byte reads as before. -/
theorem State.byte_setBytes (s : State) (a : Nat) (bs : List Byte) (x : Nat) :
    (s.setBytes a bs).byte x = if a ≤ x ∧ x < a + bs.length then bs.getD (x - a) 0#8 else s.byte x := by
  induction bs generalizing s a with
  | nil => rw [if_neg (by simp only [List.length_nil]; omega)]; rfl
  | cons b bs ih =>
    rw [State.setBytes, ih, State.byte_setByte, List.length_cons]
    rcases Nat.lt_trichotomy x a with h | h | h
    · rw [if_neg (by omega), if_neg (by omega), if_neg (by omega)]
    · subst h; rw [if_neg (by omega), if_pos rfl, if_pos (by omega)]; simp
    · obtain ⟨k, hk⟩ : ∃ k, x - a = k + 1 := ⟨x - a - 1, by omega⟩
      have e : x - (a + 1) = k := by omega
      by_cases g : x < a + 1 + bs.length
      · rw [if_pos (by omega), if_pos (by omega), hk, e]; rfl
      · rw [if_neg (by omega), if_neg (by omega), if_neg (by omega)]

/-- The memory that a write of one line leaves. -/
theorem State.writeLine_mem (s : State) (a : Nat) (bs : List Byte) : (s.writeLine a bs).mem = (s.setBytes a bs).mem := by
  have h : ∀ (t : State) (c : Nat) (l : List Byte), t.mem = s.mem → (t.setBytes c l).mem = (s.setBytes c l).mem := by
    intro t c l
    induction l generalizing t s c with
    | nil => exact id
    | cons b l ih => intro e; exact ih (s := s.setByte c b) (t := t.setByte c b) (c := c + 1) (by simp [State.setByte, e])
  unfold State.writeLine
  dsimp only
  split
  · exact h _ a bs (by simp)
  · split
    · exact h _ a bs (by simp)
    · rw [State.setFlag_mem]; exact h _ a bs (by simp)

theorem State.byte_writeLine (s : State) (a : Nat) (bs : List Byte) (x : Nat) : (s.writeLine a bs).byte x = (s.setBytes a bs).byte x :=
  State.byte_congr (s.writeLine_mem a bs) x

/-- A write to HBM reads back, and every other byte reads as before: with fuel for its lines it is a write of the bytes. -/
theorem State.byte_writeHbm (fuel : Nat) (s : State) (a : Nat) (bs : List Byte) (h : bs.length < fuel) (x : Nat) :
    (s.writeHbm a bs fuel).byte x = if a ≤ x ∧ x < a + bs.length then bs.getD (x - a) 0#8 else s.byte x := by
  induction fuel generalizing s a bs with
  | zero => omega
  | succ fuel ih =>
    unfold State.writeHbm
    split
    · next e => rw [List.isEmpty_iff.mp e, if_neg (by simp only [List.length_nil]; omega)]
    · next e =>
      have hl : 0 < bs.length := by
        cases bs with
        | nil => simp at e
        | cons => simp
      have hd : (bs.drop (64 - a % 64)).length < fuel := by rw [List.length_drop]; omega
      rw [ih _ _ _ hd, State.byte_writeLine, State.byte_setBytes, List.length_drop, List.length_take]
      by_cases c1 : a + (64 - a % 64) ≤ x
      · by_cases c2 : x < a + bs.length
        · rw [if_pos (by omega), if_pos (by omega), List.getD_eq_getElem?_getD, List.getElem?_drop, List.getD_eq_getElem?_getD]
          congr 2; omega
        · rw [if_neg (by omega), if_neg (by omega), if_neg (by omega)]
      · rw [if_neg (by omega)]
        by_cases c2 : a ≤ x ∧ x < a + bs.length
        · rw [if_pos (by omega), if_pos c2, List.getD_eq_getElem?_getD, List.getElem?_take_of_lt (by omega), List.getD_eq_getElem?_getD]
        · rw [if_neg (by omega), if_neg c2]

/-- A unit's direct write to HBM or a vat reads back, and leaves every other byte. -/
theorem State.byte_put (s : State) (a : Nat) (bs : List Byte) (x : Nat) :
    (s.put a bs).byte x = if a ≤ x ∧ x < a + bs.length then bs.getD (x - a) 0#8 else s.byte x := by
  unfold State.put
  split
  · exact State.byte_writeHbm _ s a bs (by omega) x
  · exact State.byte_setBytes s a bs x

/-! ### The canonical form is kept -/

theorem Memory.wf_congr {s t : State} (h : t.mem = s.mem) : Memory.wf t = Memory.wf s := by unfold Memory.wf; rw [h]

theorem State.setByte_wf {s : State} (a : Nat) (v : Byte) (h : Memory.wf s = true) : Memory.wf (s.setByte a v) = true :=
  SMap.set_wf memDefault a v h

theorem State.setBytes_wf {s : State} (a : Nat) (bs : List Byte) (h : Memory.wf s = true) : Memory.wf (s.setBytes a bs) = true := by
  induction bs generalizing s a with
  | nil => exact h
  | cons b bs ih => exact ih (a + 1) (State.setByte_wf a b h)

theorem State.writeLine_wf {s : State} (a : Nat) (bs : List Byte) (h : Memory.wf s = true) : Memory.wf (s.writeLine a bs) = true := by
  rw [Memory.wf_congr (s.writeLine_mem a bs)]; exact State.setBytes_wf a bs h

theorem State.writeHbm_wf (fuel : Nat) {s : State} (a : Nat) (bs : List Byte) (h : Memory.wf s = true) :
    Memory.wf (s.writeHbm a bs fuel) = true := by
  induction fuel generalizing s a bs with
  | zero => exact h
  | succ fuel ih =>
    unfold State.writeHbm
    split
    · exact h
    · exact ih _ _ (State.writeLine_wf _ _ h)

theorem State.put_wf {s : State} (a : Nat) (bs : List Byte) (h : Memory.wf s = true) : Memory.wf (s.put a bs) = true := by
  unfold State.put
  split
  · exact State.writeHbm_wf _ a bs h
  · exact State.setBytes_wf a bs h

theorem State.clearVat_wf {s : State} (b : Nat) (h : Memory.wf s = true) : Memory.wf (s.clearVat b) = true :=
  SMap.clearRange_wf memDefault _ _ h

theorem State.loseHbm_wf {s : State} (h : Memory.wf s = true) : Memory.wf s.loseHbm = true := by
  rw [Memory.wf_congr (t := s.loseHbm) (s := { s with mem := SMap.clearRange s.mem 0 hbmTop }) rfl]
  exact SMap.clearRange_wf memDefault _ _ h

theorem State.coldValues_wf (s : State) (kind : Nat) : Memory.wf (s.coldValues kind) = true := rfl

theorem State.reset_wf : Memory.wf State.reset = true := rfl

theorem State.putHost_wf {s : State} (a : Nat) (bs : List Byte) (h : Memory.hostWf s = true) : Memory.hostWf (s.putHost a bs) = true := by
  induction bs generalizing s a with
  | nil => exact h
  | cons b bs ih => exact ih (a + 1) (SMap.set_wf memDefault a b h)

theorem State.setHost_wf {s : State} (a : Nat) (bs : List Byte) (h : Memory.hostWf s = true) : Memory.hostWf (s.setHost a bs) = true := by
  unfold State.setHost
  split
  · exact h
  · exact State.putHost_wf a bs h

theorem State.setReg_wf {s : State} (a : Nat) (v : Word) (h : Registers.wf s = true) : Registers.wf (s.setReg a v) = true :=
  SMap.set_wf regReset a v h

theorem State.setFld_wf {s : State} (f : Fld) (v : Nat) (h : Registers.wf s = true) : Registers.wf (s.setFld f v) = true :=
  State.setReg_wf _ _ h

theorem State.setFlag_wf {s : State} (f : Fld) (h : Registers.wf s = true) : Registers.wf (s.setFlag f) = true :=
  State.setReg_wf _ _ h

theorem State.bump_wf {s : State} (f : Fld) (n : Nat) (h : Registers.wf s = true) : Registers.wf (s.bump f n) = true :=
  State.setReg_wf _ _ h

theorem State.clearRegs_wf {s : State} (lo n : Nat) (h : Registers.wf s = true) : Registers.wf (s.clearRegs lo n) = true :=
  SMap.clearRange_wf regReset _ _ h

end Sys2Proof.Machine
end

