-- ==== Sys2Proof/Laws/Bus.lean ====
section
/-! SUPPORT. The laws of a unit's read: what a read of open HBM with no poisoned line answers, and what it leaves as it is. -/

namespace Sys2Proof.Machine

/-- No counter's overflow flag lies in a register whose offset is a multiple of 8. -/
theorem reg_count_even (s : State) (k n a : Nat) (h : a % 8 = 0) : (s.count k n).reg a = s.reg a := by
  have hne : a ≠ (CNT_VALUE_HI_overflow k).addr := by simp only [CNT_VALUE_HI_overflow, CNT_VALUE_HI]; omega
  unfold State.count State.setFlagIf
  dsimp only
  split
  · rw [State.reg_setFlag, State.reg_setFld_other _ _ _ hne]; unfold State.reg; dsimp only
  · unfold State.reg; dsimp only

theorem fld_count_even (s : State) (k n : Nat) (f : Fld) (h : f.addr % 8 = 0) : (s.count k n).fld f = s.fld f := by
  unfold State.fld; rw [reg_count_even _ _ _ _ h]

@[simp] theorem setFlagIf_poison (s : State) (c : Bool) (f : Fld) : (s.setFlagIf c f).poison = s.poison := by
  unfold State.setFlagIf; split <;> rfl

@[simp] theorem count_poison (s : State) (k n : Nat) : (s.count k n).poison = s.poison := by simp [State.count]

@[simp] theorem countBytes_poison (s : State) (k n : Nat) : (s.countBytes k n).poison = s.poison := by simp [State.countBytes]

theorem fld_countBytes_even (s : State) (k n : Nat) (f : Fld) (h : f.addr % 8 = 0) : (s.countBytes k n).fld f = s.fld f := by
  unfold State.countBytes; dsimp only; rw [fld_count_even _ _ _ _ h]; unfold State.fld State.reg; dsimp only

/-- What a read of HBM with no poisoned line leaves as it is: the poison marks, memory, and every field of a register at a multiple of 8. -/
theorem noteHbmRead_keeps (s : State) (a n : Nat) (f : Fld) (hp : s.poison = []) (h : f.addr % 8 = 0) :
    (s.noteHbmRead a n).poison = [] ∧ (s.noteHbmRead a n).fld f = s.fld f ∧ (s.noteHbmRead a n).mem = s.mem := by
  unfold State.noteHbmRead
  split
  · exact ⟨hp, rfl, rfl⟩
  · rw [countBytes_poison, fld_countBytes_even _ _ _ _ h, State.countBytes_mem]
    refine forUpTo_keeps (fun t : State => t.poison = [] ∧ t.fld f = s.fld f ∧ t.mem = s.mem) _ _ s ⟨hp, rfl, rfl⟩ ?_
    rintro i y ⟨h1, h2, h3⟩
    simp only [State.noteLineRead, h1, SMap.get_nil, Bool.false_eq_true, if_false]
    exact ⟨by simp [h1], by rw [fld_count_even _ _ _ _ h, h2], by simp [h3]⟩

/-- A unit's read of open HBM with no poisoned line gives the bytes, succeeds, and is counted (R510, R512, R520). -/
theorem load_hbm (s : State) (who : Who) (a n : Nat) (hn : 0 < n) (ha : a < hbmTop) (hl : n ≤ 0x003600000000 - a % 0x003600000000)
    (hf : s.regionFenced (hbmRegion a) = false) (hp : s.poison = []) :
    s.load who a n = (s.bytes a n, .ok, s.noteHbmRead a n) := by
  have hpl : placeOf a = (.hbm, 0x003600000000 - a % 0x003600000000) := by unfold placeOf; simp [ha]
  have hk : max 1 (pieceLen a n) = n := by unfold pieceLen; rw [hpl]; show max 1 (min n _) = n; omega
  have hpiece : s.readPiece who a n = (s.bytes a n, .ok, s.noteHbmRead a n) := by
    have ho : s.openAt a = .ok := by unfold State.openAt; rw [hpl]; simp [hf]
    unfold State.readPiece
    rw [ho, hpl]
    simp [State.anyPoison, hp]
  unfold State.load
  rw [State.busRead.eq_def]
  simp only [Nat.pos_iff_ne_zero.mp hn, if_false, hk, hpiece]
  cases n with
  | zero => omega
  | succ m => simp [State.busRead, AccEnd.join]

end Sys2Proof.Machine
end

