-- ==== Sys2Proof/Machine/Connectors.lean ====
section
/-! DEFINITION. The module's connectors, pins and supplies, and what each power state keeps running (18_power.md R557, R558, R569;
22_module_interface.md R622 to R626, R628 to R631): facts of the board, with the state that they depend on. -/

namespace Sys2Proof.Machine

/-! ### Connectors (R622 to R624) -/

/-- A row of the H connector (R622). -/
inductive HRow where
  | a
  | b
  deriving DecidableEq, Repr

/-- Contacts of one H row, wafers of the F connector, and contacts of a wafer (R622). -/
def hContacts : Nat := 80
def fWafers : Nat := 18
def fContacts : Nat := 60

/-- The signals of the H connector (R623). -/
inductive HSignal where
  | petp (lane : Fin 16) | petn (lane : Fin 16) | perp (lane : Fin 16) | pern (lane : Fin 16)
  | refclkp | refclkn | perst | wake | pwrBrake | thermAlert | modulePresent | i3cScl | i3cSda
  | tck | tms | tdi | tdo | trst | jtagVref | tideRef | tidePps | tideOut
  deriving DecidableEq, Repr

/-- Where a signal lies; every contact that no signal names is ground (R622, R623). -/
def HSignal.contact : HSignal → HRow × Nat
  | .petp l => (.a, 3 * l.val + 2)
  | .petn l => (.a, 3 * l.val + 3)
  | .perp l => (.b, 3 * l.val + 2)
  | .pern l => (.b, 3 * l.val + 3)
  | .refclkp => (.a, 50)
  | .refclkn => (.a, 51)
  | .perst => (.b, 50)
  | .wake => (.b, 51)
  | .pwrBrake => (.b, 52)
  | .thermAlert => (.b, 53)
  | .modulePresent => (.b, 54)
  | .i3cScl => (.b, 55)
  | .i3cSda => (.b, 56)
  | .tck => (.b, 57)
  | .tms => (.b, 58)
  | .tdi => (.b, 59)
  | .tdo => (.b, 60)
  | .trst => (.b, 61)
  | .jtagVref => (.b, 62)
  | .tideRef => (.b, 64)
  | .tidePps => (.b, 66)
  | .tideOut => (.b, 68)

/-- Whether the module can drive a signal (R623). -/
def HSignal.output : HSignal → Bool
  | .petp _ | .petn _ | .wake | .thermAlert | .modulePresent | .i3cScl | .i3cSda | .tdo | .tideOut => true
  | _ => false

/-- Whether a signal is an input of the module (R623). -/
def HSignal.input : HSignal → Bool
  | .petp _ | .petn _ | .thermAlert | .modulePresent | .tdo | .tideOut => false
  | _ => true

/-- The contacts of lane `l` on the wafer of a port: its transmit and its receive pair (R624). -/
def fTransmit (l : Fin 9) : Nat × Nat := (3 * l.val + 2, 3 * l.val + 3)
def fReceive (l : Fin 9) : Nat × Nat := (3 * l.val + 29, 3 * l.val + 30)

/-- Whether contact `c` of a wafer is ground (R624). -/
def fGround (c : Nat) : Bool :=
  (List.range 9).all (fun l => c != 3 * l + 2 && c != 3 * l + 3 && c != 3 * l + 29 && c != 3 * l + 30)

/-! ### Levels, pulls and limits (R625, R626, R628 to R631) -/

/-- A range with its ends; an end that the manual does not give is open. -/
structure Limit where
  least : Option Int
  most : Option Int
  deriving DecidableEq, Repr

/-- Whether a quantity is within a limit. -/
def Limit.holds (l : Limit) (x : Int) : Bool := (l.least.all (fun a => decide (a ≤ x))) && (l.most.all (fun b => decide (x ≤ b)))

/-- The 48 V input (R626): operating and absolute voltage in mV, currents in mA, the load step in W, ripple in mV, inrush in mA. -/
def supplyVoltage : Limit := ⟨some 40000, some 60000⟩
def supplyAbsolute : Limit := ⟨some 0, some 64000⟩
def supplyCurrent : Limit := ⟨none, some 60000⟩
def supplyPeak20us : Limit := ⟨none, some 72000⟩
def supplyStep : Limit := ⟨none, some 1500⟩
def supplyRipple : Limit := ⟨none, some 1000⟩
def supplyInrush : Limit := ⟨none, some 10000⟩

/-- The levels of a 3.3 V pin in mV, and its leakage unpowered in nA (R628). -/
def pinHigh : Limit := ⟨some 2000, some 3600⟩
def pinLow : Limit := ⟨some (-300), some 800⟩
def pinOutLow : Limit := ⟨none, some 400⟩
def pinOutHigh : Limit := ⟨some 2400, none⟩
def pinLeakage : Limit := ⟨none, some 10000⟩

/-- The module's own pull on a pin (R629): up, down or none. They are connected only while the always-on supply is up. -/
def HSignal.pull : HSignal → Option Bool
  | .pwrBrake | .tms | .tdi => some true
  | .tck | .trst | .tidePps | .tideOut => some false
  | _ => none

def State.pull (s : State) (x : HSignal) : Option Bool := if s.unpowered then none else x.pull

/-- Skew between the lanes of a port in ps, and loss of a lane at 32 GHz in dB (R625). -/
def laneSkew : Limit := ⟨none, some 20000⟩
def laneLoss : Limit := ⟨none, some 28⟩

/-- TIDE_REF: frequency in Hz, amplitude in mV, jitter in ps; TIDE_PPS: period in ns, width in ns, rise time in ns (R630). -/
def refFrequency : Limit := ⟨some 9999900, some 10000100⟩
def refAmplitude : Limit := ⟨some 400, some 3300⟩
def refJitter : Limit := ⟨none, some 10⟩
def ppsPeriod : Limit := ⟨some 999999000, some 1000001000⟩
def ppsWidth : Limit := ⟨some 100, some 500000000⟩
def ppsRise : Limit := ⟨none, some 10⟩

/-- The cold plate (R631): inlet in °C, flow in ml/min, pressure drop at 2.0 L/min and static pressure in kPa, air in °C and in percent of
humidity, storage in °C. -/
def coolantInlet : Limit := ⟨some 15, some 45⟩
def coolantFlow : Limit := ⟨some 2000, none⟩
def coolantDrop : Limit := ⟨none, some 40⟩
def coolantPressure : Limit := ⟨none, some 350⟩
def airTemperature : Limit := ⟨some 5, some 45⟩
def airHumidity : Limit := ⟨some 10, some 85⟩
def storageTemperature : Limit := ⟨some (-40), some 70⟩

/-! ### What a power state keeps running (R557, R558) -/

/-- How a domain runs (R557). -/
inductive Running where
  | full | clockGated | powerGated | minimal
  deriving DecidableEq, Repr

/-- How the HBM stacks stand (R557). -/
inductive HbmMode where
  | active | selfRefresh | off
  deriving DecidableEq, Repr

/-- The domains in a power state (R557): compute dies, hub, its management cores, HBM, and whether the PCIe link is in L0 (else L1). -/
structure Domains where
  dies : Running
  hub : Running
  cores : Running
  hbm : HbmMode
  linkL0 : Bool
  deriving DecidableEq, Repr

/-- The domains of power state `k` (R557). -/
def domainsOf (k : Nat) : Domains :=
  if k = 0 then ⟨.full, .full, .full, .active, true⟩
  else if k = 1 then ⟨.clockGated, .full, .full, .active, true⟩
  else if k = 2 then ⟨.powerGated, .full, .clockGated, .selfRefresh, false⟩
  else ⟨.powerGated, .minimal, .powerGated, .off, false⟩

/-- The domains as they stand: a protective shutdown gates the compute dies and puts the stacks into self-refresh (R540). -/
def State.domains (s : State) : Domains :=
  if s.flag SAF_STATUS_shutdown then { domainsOf 0 with dies := .powerGated, hbm := .selfRefresh } else domainsOf (s.fld PWR_STATUS_state)

/-- Bias of a domain in mV and supply of its SRAM in mV with its assists (R558); none where it is off. -/
structure Supply where
  bias : Option Int
  sram : Option (Nat × Bool)
  deriving DecidableEq, Repr

/-- The compute dies in power state `k` (R558): in S0 `fwd`, up to 80 mV, is the forward bias that Merdy sets for the die. -/
def dieSupply (k fwd : Nat) : Supply :=
  if k = 0 then ⟨some (min 80 fwd : Nat), some (800, true)⟩ else if k = 1 then ⟨some (-200), some (600, false)⟩ else ⟨none, none⟩

/-- The hub in power state `k` (R558); in S3 the domains that stay running keep 0 mV. -/
def hubSupply (k : Nat) (keeps : Bool) : Supply :=
  if k < 3 then ⟨some 0, some (800, true)⟩ else ⟨some (if keeps then 0 else -300), some (600, false)⟩

/-! ### Outputs that are not driven (R569) -/

/-- Whether the module drives an output (R569, R568, R556): the open-drain ones only while they are low. -/
def State.drives (s : State) : HSignal → Bool
  | .tdo => !s.unpowered && s.fld PWR_STATUS_state != 3
  | .tideOut | .modulePresent => !s.unpowered
  | .wake => s.wakeLow
  | .thermAlert => s.flag PWR_STATUS_therm_alert
  | x => x.output && !s.unpowered

/-- Whether the fabric-side transmit lanes of port `p` are driven (R569, R503): not in S2 once the port has parked, and not in S3. -/
def State.drivesLanes (s : State) (p : Nat) : Bool :=
  !s.unpowered && s.fld PWR_STATUS_state != 3 && !(s.fld PWR_STATUS_state == 2 && (s.port p).parkFrames == 0)

end Sys2Proof.Machine
end

