-- ==== Sys2Proof/WellFormed.lean ====
section
/-! DEFINITION. Which command terms a sender can form: cells of 928 payload bytes (R65), data of a length that a bus write carries, records
and report lists of their size. The meanings are total: on any other term a byte that is missing reads as 0. -/

namespace Sys2Proof

/-- A cell carries 928 payload bytes (R65). -/
def Cell.wf (c : Cell) : Bool := c.payload.length == 928

/-- A line block has nine lane markers and three codewords, and its cells are well formed (R489, R490, R492). -/
def LineBlock.wf (b : LineBlock) : Bool :=
  b.markers.length == 9 && b.words.length == 3 && b.cell0.wf && b.cell1.wf

/-- A boot report's scrub finds lines that a stack has (R509), on dies and rows of their width (R537). -/
def BootReport.wf (r : BootReport) : Bool :=
  r.scrubFinds.all (fun p => decide (p.2.1 < 603979776) && (match p.2.2 with
    | .corrected die ch ps bank row _ => decide (die < 12) && decide (ch < 256) && decide (ps < 256) && decide (bank < 256) && decide (row < 2 ^ 24)
    | _ => true))

/-- Whether a command term is one that a sender can form. -/
def Instr.wf : Instr → Bool
  | .coldReset rep => rep.wf
  | .powerOn rep => rep.wf
  | .perstRelease rep => rep.wf
  | .warmReset rep => rep.wf
  | .fallback rep => rep.wf
  | .tideCellReceive _ c _ _ => c.wf
  | .lineBlockReceive _ b => b.wf
  | .dataCellReceive _ c _ => c.wf
  | .controlCellReceive _ c => c.wf
  | .syncCellReceive _ c => c.wf
  | .verdictCellReceive _ c _ => c.wf
  | .verdictAnswerReceive _ c r => c.wf && decide (r.length ≤ 928)
  | .registerWrite a _ => decide (a.toNat % 4 = 0)
  | .panWindowRead _ off len => decide (0 < len) && decide (off.toNat + len ≤ 2 ^ 21)
  | .panWindowWrite _ off data => decide (0 < data.length) && decide (off.toNat + data.length ≤ 2 ^ 21)
  | .counterLoad off len _ => decide (0 < len) && decide (off.toNat + len ≤ 2 ^ 19)
  | .counterStoreSet _ d _ => decide (0 < d.length)
  | .counterStoreAdd _ d _ => decide (0 < d.length)
  | .descriptorDoorbell _ _ d => decide (0 < d.length)
  | .completionDoorbell _ _ d => decide (0 < d.length)
  | .bar4WindowRead _ len => decide (0 < len)
  | .bar4WindowWrite _ d => decide (0 < d.length)
  | .bar0MisalignedAccess a len _ => decide (a.toNat % 4 ≠ 0 ∨ len ≠ 4)
  | .lowPowerPcieRequest _ _ d => match d with
    | some b => decide (0 < b.length)
    | none => true
  | _ => true

end Sys2Proof
end

