-- ==== Sys2Proof/Tests/Slice0.lean ====
section
/-! SUPPORT. The model's own tests: for every statement with hypotheses, states and operands that meet them (`witness_…`, at boundary values where a
clause has a range), an ill-formed term for every check of `Instr.wf`, and values that the manual's references give (`test_…`). -/

open Sys2Proof Sys2Proof.Machine

namespace Sys2Proof.Tests

set_option Elab.async false

/-- A byte string of `len` bytes from fields (offset, size, value), the rest 0. -/
def mkBytes (len : Nat) (fs : List (Nat × Nat × Nat)) : List Byte :=
  (List.range len).map fun i => match fs.find? (fun f => decide (f.1 ≤ i) && decide (i < f.1 + f.2.1)) with
    | some f => BitVec.ofNat 8 (f.2.2 / 256 ^ (i - f.1))
    | none => 0#8

/-- A word from fields (lowest bit, value). -/
def mkWord (fs : List (Nat × Nat)) : Nat := fs.foldl (fun a f => a + f.2 * 2 ^ f.1) 0

/-- The module in service: start-up has ended. -/
def up : State := (State.reset.setFld HUB_BOOT_STATUS_phase 6).setFld HUB_MODULE_STATUS_maintenance_mode 0

/-- The module in service with chip ID 5. -/
def upC : State := { up with cfg := { up.cfg with chip := 5 } }

/-- The global address of counter `n` of module `c`. -/
def ctrAt (c n : Nat) : Nat := c * 2 ^ 48 + counterBase + 8 * n

/-- A block program of `n` instructions in context 0 of block 0, before its first. -/
def lOf (n : Nat) : Launch := ⟨9, 0, 0, 0, n, 0, 0, 0, 0, 0, [], [], false, false, none⟩

/-- `s` with registers' fields set. -/
def withFlds (s : State) (l : List (Fld × Nat)) : State := l.foldl (fun t f => t.setFld f.1 f.2) s

/-- `s` with bytes placed at an address of HBM or of a vat. -/
def withMem (s : State) (a : Nat) (bs : List Byte) : State := s.setBytes a bs

/-- `s` with journal entry `e` accepted on ring 5 and not dispatched: kind, header flags, group and context, and body fields. -/
def withEntry (s : State) (e kind flags gc : Nat) (body : List (Nat × Nat × Nat)) (dl : Nat := 0) : State :=
  s.jput e ⟨mkBytes 64 ([(0, 1, kind), (1, 1, flags), (2, 2, gc), (4, 4, e), (8, 8, dl)] ++ body), 5, 1, false, 0, e, []⟩

/-- `s` with that descriptor dispatched and not begun. -/
def withDesc (s : State) (e kind flags gc : Nat) (body : List (Nat × Nat × Nat)) (dl : Nat := 0) : State :=
  (withEntry s e kind flags gc body dl).setWork e ⟨kind, 5, false, 0⟩

/-- `s` with a block program of `words` at HBM address 0 running in context 0 of block 0 as entry 9. -/
def withProg (s : State) (words : List Nat) : State :=
  let s1 := (List.range words.length).foldl (fun t k => t.setBytes (16 * k) (leBytes 16 (words.getD k 0))) s
  let s2 := withDesc s1 9 kindLaunch 0 0 []
  { (s2.begun 9) with launches := [⟨9, 0, 0, 0, words.length, 0, 0, 0, 0, 0, [], [], false, false, none⟩] }

/-- A cell of a type in a slot, of a stream, with payload bytes. -/
def mkCell (ct slot stream : Nat) (pl : List Byte) : Cell :=
  ⟨{ ctype := BitVec.ofNat 8 ct, flags := 0, stream := BitVec.ofNat 16 stream, frame := 0, slot := BitVec.ofNat 8 slot, rsv9 := 0, epoch := 0, tag := 0,
     index := 0, source := 0, length := 928#16, rsv24 := 0, crc := 0 }, padTo 928 pl, []⟩

/-- `s` with port `p` up. -/
def withPort (s : State) (p : Nat) : State := (s.setFld (PRT_STATUS_state p) 2).setFld (WEB_PORT_STATUS_control_only p) 0

/-! ### Witnesses: The queue, faults and the safety monitor -/

def sForms : State := { up with pending := [.bar4WindowWrite 64#40 [1#8, 0#8, 2#8]] }
def sFormsNext : State := match step sForms with | .next t => t | _ => sForms
def sAbsent : State := withFlds up [(mapFld 5, 128)]
def sBlk2 : State := { up with blkErr := [(4, 1)] }
def sFenced : State := withFlds up [(RGN_STATUS_fenced 2, 1)]
def sMirror : State := withFlds up [(RGN_STATUS_fenced (up.fld RNG_JOURNAL_STATUS_mirror_b), 1), (HUB_MODULE_STATUS_acceptance_paused, 1)]
def sShut : State := { withFlds up [(SAF_STATUS_shutdown, 1), (SAF_INPUT_volts, 4800)] with shutCause := 1 }
theorem witness_forms :
    Memory.wf sForms = true ∧ Memory.hostWf sForms = true ∧ Registers.wf sForms = true ∧ step sForms = Host.Outcome.next sFormsNext := ⟨by decide +kernel, by decide +kernel, by decide +kernel, rfl⟩
theorem witness_blockError_absent :
    sAbsent.absent 5 = true := by decide +kernel
theorem witness_blockError_first :
    up.absent 63 = false ∧ up.regionFenced (63 / 16) = false := by decide +kernel
theorem witness_blockError_second :
    sBlk2.absent 4 = false ∧ sBlk2.regionFenced (4 / 16) = false ∧ SMap.get (fun x => 0) sBlk2.blkErr (sBlk2.phys 4) ≠ 0 := by decide +kernel
theorem witness_fence_fenced :
    sFenced.regionFenced 2 = true := by decide +kernel
theorem witness_fence_mirror :
    up.regionFenced 0 = false ∧ (up.fld RNG_JOURNAL_STATUS_mirror_a = 0 ∨ up.fld RNG_JOURNAL_STATUS_mirror_b = 0) := by decide +kernel
theorem witness_fence_last :
    up.regionFenced 3 = false := by decide +kernel
theorem witness_mirrors :
    sMirror.flag HUB_MODULE_STATUS_acceptance_paused = true ∧ sMirror.mirrorAOk = true ∧ sMirror.mirrorBOk = false ∧ 3 < 4 ∧ sMirror.regionFenced 3 =
    false ∧ sMirror.fld RNG_JOURNAL_STATUS_mirror_a ≠ 3 := by decide +kernel
theorem witness_power_throttle :
    28800 ≤ 28800 := by decide +kernel
theorem witness_power_edge :
    100 ≤ 28800 := by decide +kernel
theorem witness_power_let_go :
    0 ≤ 28800 := by decide +kernel
theorem witness_temp_die :
    ∀ (k : ℕ), k = sensorIndex (Sensor.die 3) → 99 < up.fld (SAF_TEMP_trip k) ∧ k ≠ 5 ∧ k ≠ 4 := by rintro _ rfl; decide +kernel
theorem witness_temp_hub :
    ∀ (k : ℕ), k = sensorIndex Sensor.hub → 94 < up.fld (SAF_TEMP_trip k) ∧ k ≠ 5 := by rintro _ rfl; decide +kernel
theorem witness_temp_stack :
    ∀ (k : ℕ), k = sensorIndex (Sensor.stack 23) → 94 < up.fld (SAF_TEMP_trip k) ∧ k ≠ 4 := by rintro _ rfl; decide +kernel
theorem witness_temp_trip_die :
    ∀ (k : ℕ), k = sensorIndex (Sensor.die 0) → up.fld (SAF_TEMP_trip k) ≤ 255 ∧ up.flag SAF_STATUS_shutdown = false := by rintro _ rfl; decide +kernel
theorem witness_temp_trip_hub :
    ∀ (k : ℕ), k = sensorIndex Sensor.hub → up.fld (SAF_TEMP_trip k) ≤ 255 ∧ up.flag SAF_STATUS_shutdown = false := by rintro _ rfl; decide +kernel
theorem witness_temp_trip_stack :
    ∀ (k : ℕ), k = sensorIndex (Sensor.stack 0) → up.fld (SAF_TEMP_trip k) ≤ 255 ∧ up.flag SAF_STATUS_shutdown = false := by rintro _ rfl; decide +kernel
theorem witness_shutdownCauseClear :
    sShut.flag SAF_STATUS_shutdown = true ∧ sShut.causeCleared = true := by decide +kernel
theorem witness_power_trip :
    28800 ≤ 28800 := by decide +kernel
theorem witness_temp_hot_die :
    ∀ (k : ℕ), k = sensorIndex (Sensor.die 3) → 100 < up.fld (SAF_TEMP_trip k) ∧ k ≠ 5 ∧ k ≠ 4 ∧ up.fld (SAF_TEMP_throttle k) ≤ 100 := by rintro _ rfl; decide +kernel
theorem witness_temp_hot_hub :
    ∀ (k : ℕ), k = sensorIndex Sensor.hub → 96 < up.fld (SAF_TEMP_trip k) ∧ k ≠ 5 := by rintro _ rfl; decide +kernel
theorem witness_temp_hot_stack :
    ∀ (k : ℕ), k = sensorIndex (Sensor.stack 23) → 95 < up.fld (SAF_TEMP_trip k) ∧ k ≠ 4 ∧ up.fld (SAF_TEMP_throttle k) ≤ 95 := by rintro _ rfl; decide +kernel

/-! ### Witnesses: The tide -/

def sPort : State := withPort up 0
def sPort17 : State := withPort { up with tide := { TideUnit.zero with ns := 5000, frac := 7 } } 17
def cTide : Cell := mkCell 2 0 0 (mkBytes 40 [(0, 8, 4000), (8, 2, 5), (12, 8, 3000), (20, 8, 3500), (28, 2, 9), (30, 2, 3), (32, 2, 77), (34, 1, 2), (35, 1, 4)])
def sHeard : State := sPort17.setTport 17 { TidePort.zero with t1 := 3000 * 65536 + 3, t1Min := 3000 * 65536 + 3 }
def cTideGen : Cell := mkCell 2 0 0 (mkBytes 42 [(0, 8, 4000), (8, 2, 5), (12, 8, 3000), (20, 8, 3500), (28, 2, 9), (30, 2, 3), (41, 1, 255)])
def cTideFirst : Cell := mkCell 2 0 0 (mkBytes 40 [(0, 8, 4000), (32, 2, 77)])
def sRoot : State := withFlds { up with tide := { TideUnit.zero with quiet := 64, ns := 9999 } } [(TID_CTL_root_enable, 1), (TID_CTL_root_priority, 3)]
def sHold : State := { withFlds up [(TID_STATUS_holdover, 1), (TID_STATUS_locked, 1)] with tide := { TideUnit.zero with holdoverFrames := 2000, ns := 77 } }
def sDeep : State := withFlds up [(PWR_STATUS_state, 2)]
def sFollow : State := { up with tide := { TideUnit.zero with ns := 2047, frac := 3, follow := some (300, -70000, 3000) } }
def sFollowBack : State := { up with tide := { TideUnit.zero with ns := 2047, follow := some (1, -(2 ^ 60), 100) } }
def sRefOk : State := withFlds { up with tide := { TideUnit.zero with ns := 10000, refEdges := 5, refRate := 3 } } [(TID_STATUS_ref_ok, 1), (TID_STATUS_pps_ok, 1)]
def sPpsRoot : State := withFlds { up with tide := { TideUnit.zero with ns := 10000, frac := 9 } } [(TID_STATUS_is_root, 1), (TID_CTL_use_pps, 1), (TID_CTL_epoch_arm, 1), (TID_EPOCH_SET_LO_epoch_lo, 0x80000001), (TID_EPOCH_SET_HI_epoch_hi, 7), (TID_STATUS_epoch_gen, 255)]
def sPpsEdge : State := withFlds sPpsRoot [(TID_CTL_epoch_arm, 0)]
def sRootNoPps : State := withFlds sPpsRoot [(TID_CTL_use_pps, 0)]
def sOut : State := withFlds { up with tide := { TideUnit.zero with ns := 5000001 } } [(TID_OUT_CTL_enable, 1), (TID_OUT_CTL_period_ms, 1), (TID_OUT_CTL_width_us, 10)]
def sOutAt : State := withFlds { up with tide := { TideUnit.zero with ns := 5000000 } } [(TID_OUT_CTL_enable, 1), (TID_OUT_CTL_period_ms, 1)]
def sOutHigh : State := { sOut with tide := { sOut.tide with outHigh := true, outRise := some 6000000 } }
def sAlarm : State := withFlds { up with tide := { TideUnit.zero with ns := 100 } } [(TID_ALARM_LO_value_lo 15, 101), (TID_ALARM_LO_value_lo 0, 100)]
def sArmed : State := withFlds { sAlarm with tide := { sAlarm.tide with alarms := [(15, 101)] } } [(TID_ALARM_CTL_armed 15, 1)]
def sWebE : State := withDesc (withMem up 0x1000 (mkBytes 2048 [(0, 4, 5), (1024, 4, 9)])) 1 kindWebTable 0 0 [(16, 4, 0x20001), (20, 1, 7), (24, 8, 4096), (32, 8, 0x1000)]
def sWebE2 : State := withDesc (withMem up 0x1000 (mkBytes 2048 [(0, 4, 5), (1024, 4, 9)])) 1 kindWebTable 0 0 [(16, 4, 0x20001), (20, 1, 1), (24, 8, 0x10001), (32, 8, 0x1000)]
def sWebCancel : State := (withDesc up 1 kindWebTable 0 0 [(16, 4, 2), (20, 1, 10)]).setSwap 1 true (some 1)
def sSwap : State := (up.setSwap 17 true (some 4096)).setReg (bankAt 17 true 1 4) 0x15#32
theorem witness_tideCell_down :
    up.portUp 3 = false ∨ cTide.hdr.ctype ≠ 2#8 := by decide +kernel
theorem witness_tideCell_type :
    sPort.portUp 0 = false ∨ (mkCell 0 9 0 []).hdr.ctype ≠ 2#8 := by decide +kernel
theorem witness_tideCell_first :
    sPort.portUp 0 = true ∧ cTideFirst.hdr.ctype = 2#8 ∧ ¬(sPort.tport 0).heardAt (leAt cTideFirst.payload 12 8 * 65536 + leAt cTideFirst.payload 30 2) =
    true ∧ leAt cTideFirst.payload 41 1 = sPort.fld TID_STATUS_epoch_gen := by decide +kernel
theorem witness_tideCell :
    sPort17.portUp 17 = true ∧ cTide.hdr.ctype = 2#8 ∧ ¬(sPort17.tport 17).heardAt (leAt cTide.payload 12 8 * 65536 + leAt cTide.payload 30 2) = true ∧
    leAt cTide.payload 41 1 = sPort17.fld TID_STATUS_epoch_gen := by decide +kernel
theorem witness_tideCell_heard :
    sHeard.portUp 17 = true ∧ cTide.hdr.ctype = 2#8 ∧ (sHeard.tport 17).heardAt (leAt cTide.payload 12 8 * 65536 + leAt cTide.payload 30 2) = true ∧ leAt
    cTide.payload 41 1 = sHeard.fld TID_STATUS_epoch_gen := by decide +kernel
theorem witness_tideCell_gen :
    sHeard.portUp 17 = true ∧ cTideGen.hdr.ctype = 2#8 ∧ (sHeard.tport 17).heardAt (leAt cTideGen.payload 12 8 * 65536 + leAt cTideGen.payload 30 2) =
    true ∧ leAt cTideGen.payload 41 1 ≠ sHeard.fld TID_STATUS_epoch_gen := by decide +kernel
theorem witness_rootTimeout :
    sRoot.flag TID_CTL_root_enable = true ∧ sRoot.flag TID_STATUS_is_root = false ∧ 64 ≤ sRoot.tide.quiet := by decide +kernel
theorem witness_holdoverEnter :
    (64 ≤ sRoot.tide.quiet ∧ sRoot.flag TID_STATUS_is_root = false ∨ 2 ≤ sRoot.fld PWR_STATUS_state) ∧ sRoot.flag TID_STATUS_holdover = false := by decide +kernel
theorem witness_holdoverEnter_power :
    (64 ≤ sDeep.tide.quiet ∧ sDeep.flag TID_STATUS_is_root = false ∨ 2 ≤ sDeep.fld PWR_STATUS_state) ∧ sDeep.flag TID_STATUS_holdover = false := by decide +kernel
theorem witness_holdoverExpiry :
    sHold.flag TID_STATUS_holdover = true ∧ sHold.flag TID_STATUS_locked = true ∧ 2000 ≤ sHold.tide.holdoverFrames := by decide +kernel
theorem witness_epochFollow :
    ∀ (x : ℕ), x = max sFollow.tide.ns (boundaryAfter 3000) % 2 ^ 64 * 65536 + sFollow.tide.frac → sFollow.tide.follow = some (300, -70000, 3000) ∧ (0 : ℤ) ≤ ↑x + -70000 := by rintro _ rfl; decide +kernel
theorem witness_epochFollow_none :
    up.tide.follow = none := by decide +kernel
theorem witness_epochFollow_far :
    ∀ (x : ℕ), x = max sFollowBack.tide.ns (boundaryAfter 100) % 2 ^ 64 * 65536 + sFollowBack.tide.frac → sFollowBack.tide.follow = some (1, -2 ^ 60, 100) := by rintro _ rfl; decide +kernel
theorem witness_refLoss :
    sRefOk.flag TID_STATUS_ref_ok = true := by decide +kernel
theorem witness_ppsLoss :
    sRefOk.flag TID_STATUS_pps_ok = true := by decide +kernel
theorem witness_ppsEdge_arm :
    sPpsRoot.flag TID_STATUS_is_root = true ∧ sPpsRoot.flag TID_CTL_epoch_arm = true ∧ sPpsRoot.flag TID_CTL_use_pps = true := by decide +kernel
theorem witness_ppsEdge2 :
    sRootNoPps.flag TID_STATUS_is_root = true ∧ sRootNoPps.flag TID_CTL_epoch_arm = true := by decide +kernel
theorem witness_ppsEdge4 :
    sPpsEdge.flag TID_STATUS_is_root = true ∧ (sPpsEdge.flag TID_STATUS_is_root = false ∨ sPpsEdge.flag TID_CTL_epoch_arm = false) ∧ sPpsEdge.flag
    TID_CTL_epoch_arm = false ∧ sPpsEdge.flag TID_CTL_use_pps = true := by decide +kernel
theorem witness_ppsEdge3 :
    (sRefOk.flag TID_STATUS_is_root = false ∨ sRefOk.flag TID_CTL_epoch_arm = false) ∧ sRefOk.flag TID_CTL_epoch_arm = false := by decide +kernel
theorem witness_epochArm_pps :
    sPpsRoot.flag TID_STATUS_is_root = true ∧ sPpsRoot.flag TID_CTL_use_pps = true := by decide +kernel
theorem witness_epochArm_now :
    sRootNoPps.flag TID_STATUS_is_root = true ∧ sRootNoPps.flag TID_CTL_use_pps = false := by decide +kernel
theorem witness_epochArm_follower :
    up.flag TID_STATUS_is_root = false := by decide +kernel
theorem witness_nowLo :
    sOut.fld HUB_BOOT_STATUS_phase ≠ 7 := by decide +kernel
theorem witness_nowHi :
    sOut.fld HUB_BOOT_STATUS_phase ≠ 7 := by decide +kernel
theorem witness_alarmArm_wait :
    ∀ (x : ℕ), x = sAlarm.fld (TID_ALARM_LO_value_lo ↑15) + sAlarm.fld (TID_ALARM_HI_value_hi ↑15) * 2 ^ 32 → sAlarm.flag (TID_ALARM_CTL_armed 15) = false
    ∧ sAlarm.tide.ns < x := by rintro _ rfl; decide +kernel
theorem witness_alarmArm_late :
    ∀ (x : ℕ), x = sAlarm.fld (TID_ALARM_LO_value_lo ↑0) + sAlarm.fld (TID_ALARM_HI_value_hi ↑0) * 2 ^ 32 → sAlarm.flag (TID_ALARM_CTL_armed 0) = false ∧
    x ≤ sAlarm.tide.ns := by rintro _ rfl; decide +kernel
theorem witness_alarmArm_ctl :
    ∀ (x : ℕ), x = sAlarm.fld (TID_ALARM_LO_value_lo ↑0) + sAlarm.fld (TID_ALARM_HI_value_hi ↑0) * 2 ^ 32 → sAlarm.flag (TID_ALARM_CTL_armed 0) = false ∧
    x ≤ sAlarm.tide.ns := by rintro _ rfl; decide +kernel
theorem witness_alarmArm_ctl2 :
    ∀ (x : ℕ), x = sAlarm.fld (TID_ALARM_LO_value_lo ↑15) + sAlarm.fld (TID_ALARM_HI_value_hi ↑15) * 2 ^ 32 → sAlarm.flag (TID_ALARM_CTL_armed 15) = false
    ∧ sAlarm.tide.ns < x := by rintro _ rfl; decide +kernel
theorem witness_alarmFire :
    sArmed.flag (TID_ALARM_CTL_armed 15) = true := by decide +kernel
theorem witness_tideOutRise :
    sOut.flag TID_OUT_CTL_enable = true ∧ sOut.tide.outHigh = false ∧ sOut.outPeriod ≠ 0 := by decide +kernel
theorem witness_tideOutRise_at :
    sOutAt.flag TID_OUT_CTL_enable = true ∧ sOutAt.tide.outHigh = false ∧ sOutAt.outPeriod ≠ 0 := by decide +kernel
theorem witness_tideOutFall :
    sOutHigh.tide.outRise = some 6000000 := by decide +kernel
theorem witness_webTable :
    sWebE.fresh 1 kindWebTable = true ∧ bitOf (leAt (sWebE.desc 1) 20 1) 3 = false ∧ webTableOk (sWebE.desc 1) = true ∧ dGroup (sWebE.desc 1) = 0 ∧ (∀ x ∈
    webNamed (sWebE.desc 1), sWebE.swapBusy x.1 x.2 = false) ∧ sWebE.webBehind 1 = false ∧ sWebE.tide.ns + 2 * 2048 ≤ roundFrame (leAt (sWebE.desc 1) 24
    8) ∧ (sWebE.load (Who.unit (srcRing (sWebE.jget 1).ring)) (leAt (sWebE.desc 1) 32 8) (1024 * if bitOf (leAt (sWebE.desc 1) 20 1) 2 = true then 1 else
    (webNamed (sWebE.desc 1)).length)).2.1 = AccEnd.ok := by decide +kernel
theorem witness_webTable_two :
    sWebE2.fresh 1 kindWebTable = true ∧ bitOf (leAt (sWebE2.desc 1) 20 1) 3 = false ∧ webTableOk (sWebE2.desc 1) = true ∧ dGroup (sWebE2.desc 1) = 0 ∧ (∀
    x ∈ webNamed (sWebE2.desc 1), sWebE2.swapBusy x.1 x.2 = false) ∧ sWebE2.webBehind 1 = false ∧ sWebE2.tide.ns + 2 * 2048 ≤ roundFrame (leAt
    (sWebE2.desc 1) 24 8) ∧ (sWebE2.load (Who.unit (srcRing (sWebE2.jget 1).ring)) (leAt (sWebE2.desc 1) 32 8) (1024 * if bitOf (leAt (sWebE2.desc 1) 20
    1) 2 = true then 1 else (webNamed (sWebE2.desc 1)).length)).2.1 = AccEnd.ok := by decide +kernel
theorem witness_webCancel :
    sWebCancel.fresh 1 kindWebTable = true ∧ bitOf (leAt (sWebCancel.desc 1) 20 1) 3 = true ∧ webTableOk (sWebCancel.desc 1) = true ∧ dGroup
    (sWebCancel.desc 1) = 0 ∧ ∃ x ∈ webNamed (sWebCancel.desc 1), ∃ y, sWebCancel.swapOf x.1 x.2 = some y ∧ sWebCancel.tide.ns < y := by decide +kernel
theorem witness_bankSwap :
    sSwap.swapOf 17 (Dir.rx == Dir.rx) = some 4096 := by decide +kernel

/-! ### Witnesses: The web -/

def sUp0 : State := withPort { up with tide := { TideUnit.zero with ns := 4096 } } 0
def sUp17 : State := withPort { up with tide := { TideUnit.zero with ns := 4095 } } 17
def sFwd : State := (withPort up 3).setPort 3 { PortUnit.zero with fwd := [(mkCell 0 9 7 [1#8], 5), (mkCell 0 8 0 [], 6)] }
def sFwd0 : State := ((withPort up 3).setReg (bankAt 3 false 0 9) (BitVec.ofNat 32 (1 + 4 * 77))).setPort 3 { PortUnit.zero with fwd := [(mkCell 0 9 77 [1#8], 5)] }
def xRelay : TxXfer := { TxXfer.new 77 5 0 .relay [[1#8, 2#8], [3#8]] 0xFFFF false with next := 1 }
def sRelay : State := { (withPort up 3).setReg (bankAt 3 false 0 9) (BitVec.ofNat 32 (1 + 4 * 77)) with tx := [xRelay] }
def cUpset : Cell := ⟨⟨9, 0, 3, 0, 200, 0, 0, 0, 0, 0, 0, 0, 0⟩, [], []⟩
def sFwdHeld : State := { sFwd0 with held := [77] }
def sMis : State := (withPort up 0).setReg (bankAt 0 true 0 4) (BitVec.ofNat 32 (1 + 4 * 6))
def sThru : State := ((withPort up 2).setReg (bankAt 2 true 0 255) (BitVec.ofNat 32 (2 + 4 * 0xFFFF + 2 ^ 18 * 17))).setReg (bankAt 17 false 0 9) (BitVec.ofNat 32 (1 + 4 * 0xFFFF))
def bLand : RxBind := { RxBind.new 1 .plain 0 0x1000 1857 0 with mark := 0 }
def bLand1 : RxBind := { RxBind.new 1 .plain 0 0x1000 5000 0 with mark := 3, written := 2784 }
def sLand (b : RxBind) : State := { (withDesc (withPort up 0) 1 kindStream 0 0 [(16, 1, 1), (18, 2, 6)]).setReg (bankAt 0 true 0 4) (BitVec.ofNat 32 (1 + 4 * 6)) with rx := [(6, { RxStream.zero with bound := some b })] }
def cLand (k : Nat) : Cell := let c := mkCell 0 4 6 ((List.range 928).map (fun i => BitVec.ofNat 8 (i * 7 + 1))); { c with hdr := { c.hdr with index := BitVec.ofNat 32 k } }
def xTx : TxXfer := { TxXfer.new 77 5 0 (.entry 1) [[1#8], [2#8], [3#8]] 0xFFFF false with next := 2, landed := 1 }
def sTx : State := { withDesc (withPort up 1) 1 kindStream 0 0 [] with tx := [xTx] }
def cCtl (n : Notice) : Cell := { mkCell 3 1 0 [] with notices := [n] }
def xGap : TxXfer := { xTx with gap := 65, hold := 64 }
def sGap : State := { up with tx := [xGap, { xTx with tag := 6 }] }
def bGap3 : RxBind := { bLand with gap := 1000000, tag := 9, port := 17 }
def bGap : RxBind := { bLand with gap := 1000000, tag := 9 }
theorem witness_frame :
    up.frame ≤ up.tide.done := by decide +kernel
theorem witness_frame2 :
    sUp0.tide.done < sUp0.frame := by decide +kernel
theorem witness_frame3 :
    sUp17.tide.done < sUp17.frame := by decide +kernel
theorem witness_slot0 :
    sUp0.portUp 0 = true ∧ 0 < 4 := by decide +kernel
theorem witness_slot_upset :
    sUp17.portUp 17 = true ∧ (cUpset.hdr.crc ≠ cellCrc cUpset ∨ malformedCell cUpset 255 = true) := by decide +kernel
theorem witness_slot3 :
    sUp17.portUp 17 = true ∧ 3 < 4 := by decide +kernel
theorem witness_slot4 :
    sUp17.portUp 17 = true ∧ 4 ≤ 4 := by decide +kernel
theorem witness_slot255 :
    sRelay.portUp 3 = true ∧ 4 ≤ 255 := by decide +kernel
theorem witness_slot9 :
    sRelay.portUp 3 = true ∧ 4 ≤ 9 := by decide +kernel
theorem witness_forward_none :
    (sFwd.port 3).fwd = [(mkCell 0 9 7 [1#8], 5), (mkCell 0 8 0 [], 6)] ∧ (mkCell 0 9 7 [1#8], 5).1.hdr.ctype = 0#8 ∧ sFwd.portHas 3 false (mkCell 0 9 7
    [1#8], 5).1.hdr.stream.toNat = false := by decide +kernel
theorem witness_forward_slot :
    (sFwd0.port 3).fwd = [(mkCell 0 9 77 [1#8], 5)] ∧ (mkCell 0 9 77 [1#8], 5).1.hdr.ctype = 0#8 ∧ sFwd0.portHas 3 false (mkCell 0 9 77 [1#8],
    5).1.hdr.stream.toNat = true ∧ sFwd0.carries 3 = true ∧ sFwd0.held.contains (mkCell 0 9 77 [1#8], 5).1.hdr.stream.toNat = false ∧ sFwd0.slotFrom 3
    (max sFwd0.tide.ns ((mkCell 0 9 77 [1#8], 5).2 + 16)) (entryHas false (mkCell 0 9 77 [1#8], 5).1.hdr.stream.toNat) = some 9 := by decide +kernel
theorem witness_forward_held :
    (sFwdHeld.port 3).fwd = [(mkCell 0 9 77 [1#8], 5)] ∧ (mkCell 0 9 77 [1#8], 5).1.hdr.ctype = 0#8 ∧ sFwdHeld.portHas 3 false (mkCell 0 9 77 [1#8],
    5).1.hdr.stream.toNat = true ∧ (sFwdHeld.carries 3 = false ∨ sFwdHeld.held.contains (mkCell 0 9 77 [1#8], 5).1.hdr.stream.toNat = true) := by decide +kernel
theorem witness_forward_ctl :
    ((sFwd0.setFld (WEB_PORT_STATUS_control_only 3) 1).port 3).fwd = [(mkCell 0 9 77 [1#8], 5)] ∧ (mkCell 0 9 77 [1#8], 5).1.hdr.ctype = 0#8 ∧
    (sFwd0.setFld (WEB_PORT_STATUS_control_only 3) 1).portHas 3 false (mkCell 0 9 77 [1#8], 5).1.hdr.stream.toNat = true ∧ ((sFwd0.setFld
    (WEB_PORT_STATUS_control_only 3) 1).carries 3 = false ∨ (sFwd0.setFld (WEB_PORT_STATUS_control_only 3) 1).held.contains (mkCell 0 9 77 [1#8],
    5).1.hdr.stream.toNat = true) := by decide +kernel
theorem witness_relay :
    (sRelay.nextTx fun x => x.owner == TxOwner.relay && x.stream == 77) = some xRelay ∧ sRelay.held.contains 77 = false ∧ List.find? (fun p =>
    sRelay.carries p) (sRelay.streamPorts false 77) = some 3 ∧ sRelay.slotFrom 3 (sRelay.tide.ns + 16) (entryHas false 77) = some 9 ∧ xRelay.be = false := by decide +kernel
theorem witness_cell_mismatch :
    sMis.portUp 0 = true ∧ 4 ≤ BitVec.toNat (mkCell 0 4 7 []).hdr.slot ∧ (mkCell 0 4 7 []).hdr.ctype = 0#8 ∧ entryUse (sMis.entry 0 true (BitVec.toNat
    (mkCell 0 4 7 []).hdr.slot)) = 1 ∧ (mkCell 0 4 7 []).hdr.stream.toNat ≠ entryStream (sMis.entry 0 true (BitVec.toNat (mkCell 0 4 7 []).hdr.slot)) := by decide +kernel
theorem witness_cell_forward :
    sThru.portUp 2 = true ∧ 4 ≤ BitVec.toNat (mkCell 0 255 65535 [1#8]).hdr.slot ∧ (mkCell 0 255 65535 [1#8]).hdr.ctype = 0#8 ∧ entryUse (sThru.entry 2
    true (BitVec.toNat (mkCell 0 255 65535 [1#8]).hdr.slot)) = 2 ∧ (mkCell 0 255 65535 [1#8]).hdr.stream.toNat = entryStream (sThru.entry 2 true
    (BitVec.toNat (mkCell 0 255 65535 [1#8]).hdr.slot)) ∧ entryFwd (sThru.entry 2 true (BitVec.toNat (mkCell 0 255 65535 [1#8]).hdr.slot)) = 17 ∧ 17 < 18
    ∧ sThru.portHas 17 false (mkCell 0 255 65535 [1#8]).hdr.stream.toNat = true := by decide +kernel
theorem witness_cell_land :
    (sLand bLand).portUp 0 = true ∧ 4 ≤ BitVec.toNat (cLand 0).hdr.slot ∧ (cLand 0).hdr.ctype = 0#8 ∧ entryUse ((sLand bLand).entry 0 true (BitVec.toNat
    (cLand 0).hdr.slot)) = 1 ∧ (cLand 0).hdr.stream.toNat = entryStream ((sLand bLand).entry 0 true (BitVec.toNat (cLand 0).hdr.slot)) ∧ (sLand
    bLand).inS0 = true ∧ (cLand 0).hdr.stream.toNat < 49152 ∧ ((sLand bLand).rxOf (cLand 0).hdr.stream.toNat).bound = some bLand ∧ bLand.kind =
    RxKind.plain ∧ bLand.tag = (cLand 0).hdr.tag.toNat ∧ (cLand 0).hdr.index.toNat = bLand.mark ∧ bitOf (BitVec.toNat (cLand 0).hdr.flags) 1 = false ∧ 928
    * bLand.mark + 928 < bLand.len ∧ (cLand 0).payload.length = 928 ∧ (cLand 0).hdr.length = 928#16 ∧ bLand.base + bLand.len ≤ hbmTop ∧ hbmRegion
    (bLand.base + bLand.len - 1) = hbmRegion bLand.base ∧ (sLand bLand).regionFenced (hbmRegion bLand.base) = false := by decide +kernel
theorem witness_cell_land3 :
    (sLand bLand1).portUp 0 = true ∧ 4 ≤ BitVec.toNat (cLand 3).hdr.slot ∧ (cLand 3).hdr.ctype = 0#8 ∧ entryUse ((sLand bLand1).entry 0 true (BitVec.toNat
    (cLand 3).hdr.slot)) = 1 ∧ (cLand 3).hdr.stream.toNat = entryStream ((sLand bLand1).entry 0 true (BitVec.toNat (cLand 3).hdr.slot)) ∧ (sLand
    bLand1).inS0 = true ∧ (cLand 3).hdr.stream.toNat < 49152 ∧ ((sLand bLand1).rxOf (cLand 3).hdr.stream.toNat).bound = some bLand1 ∧ bLand1.kind =
    RxKind.plain ∧ bLand1.tag = (cLand 3).hdr.tag.toNat ∧ (cLand 3).hdr.index.toNat = bLand1.mark ∧ bitOf (BitVec.toNat (cLand 3).hdr.flags) 1 = false ∧
    928 * bLand1.mark + 928 < bLand1.len ∧ (cLand 3).payload.length = 928 ∧ (cLand 3).hdr.length = 928#16 ∧ bLand1.base + bLand1.len ≤ hbmTop ∧ hbmRegion
    (bLand1.base + bLand1.len - 1) = hbmRegion bLand1.base ∧ (sLand bLand1).regionFenced (hbmRegion bLand1.base) = false := by decide +kernel
theorem witness_landed :
    sTx.portUp 1 = true ∧ (cCtl (Notice.landed 77 5 2 false false false)).hdr.ctype = 3#8 ∧ sTx.tx = [xTx] ∧ xTx.loc = false ∧ xTx.stream = 77 ∧ xTx.tag =
    5 ∧ (77 ≠ 0#16 ∨ 5 ≠ 0#32) ∧ (cCtl (Notice.landed 77 5 2 false false false)).notices = [Notice.landed 77 5 2 false false false] ∧ 2 < xTx.cells.length
    ∧ xTx.landed < xTx.cells.length := by decide +kernel
theorem witness_landed_old :
    sTx.portUp 1 = true ∧ (cCtl (Notice.landed 77 5 0 false false false)).hdr.ctype = 3#8 ∧ sTx.tx = [xTx] ∧ xTx.loc = false ∧ xTx.stream = 77 ∧ xTx.tag =
    5 ∧ (77 ≠ 0#16 ∨ 5 ≠ 0#32) ∧ (cCtl (Notice.landed 77 5 0 false false false)).notices = [Notice.landed 77 5 0 false false false] ∧ 0 < xTx.cells.length
    ∧ xTx.landed < xTx.cells.length := by decide +kernel
theorem witness_goBack :
    sTx.portUp 1 = true ∧ (cCtl (Notice.goBack 77 5 0)).hdr.ctype = 3#8 ∧ sTx.tx = [xTx] ∧ xTx.loc = false ∧ xTx.stream = 77 ∧ xTx.tag = 5 ∧ (77 ≠ 0#16 ∨
    5 ≠ 0#32) ∧ (cCtl (Notice.goBack 77 5 0)).notices = [Notice.goBack 77 5 0] ∧ 0 ≤ xTx.cells.length := by decide +kernel
theorem witness_goBack_end :
    sTx.portUp 1 = true ∧ (cCtl (Notice.goBack 77 5 3)).hdr.ctype = 3#8 ∧ sTx.tx = [xTx] ∧ xTx.loc = false ∧ xTx.stream = 77 ∧ xTx.tag = 5 ∧ (77 ≠ 0#16 ∨
    5 ≠ 0#32) ∧ (cCtl (Notice.goBack 77 5 3)).notices = [Notice.goBack 77 5 3] ∧ 3 ≤ xTx.cells.length := by decide +kernel
theorem witness_requeue_tx :
    xGap ∈ sGap.tx ∧ xGap.stream = 77 ∧ xGap.tag = 5 ∧ ∀ y ∈ sGap.tx, y.stream = 77 → y.tag = 5 → sGap.holdLimit y.hold < y.gap := by decide +kernel
theorem witness_requeue_rx :
    6 < 49152 ∧ ((sLand bGap).rxOf 6).bound = some bGap ∧ bGap.tag = 9 ∧ (sLand bGap).holdLimit bGap.hold < bGap.gap ∧ (sLand bGap).fld
    (WEB_PORT_STATUS_requeue_count bGap.port) < 2 ^ 16 - 1 := by decide +kernel
theorem witness_requeue_rx_port :
    6 < 49152 ∧ ((sLand bGap3).rxOf 6).bound = some bGap3 ∧ bGap3.tag = 9 ∧ (sLand bGap3).holdLimit bGap3.hold < bGap3.gap ∧ bGap3.port < 18 ∧ (sLand
    bGap3).fld (WEB_PORT_STATUS_requeue_count bGap3.port) < 2 ^ 16 - 1 := by decide +kernel

/-! ### Witnesses: The tensor array -/

def stream3 (acc clear : Nat) : Nat := mkWord [(0, opArrStream), (12, acc), (15, clear), (24, 1), (32, 1), (40, 2), (52, 5), (64, 0), (81, 512)]
def vatF : State := withMem (withMem up (vatAt 0) (mkBytes 600 [(0, 2, 0x3F80), (2, 2, 0x4000), (256, 2, 0xBF80), (258, 2, 0x4040)])) (vatAt 0 + 0x8000) (mkBytes 800 [(0, 2, 0x3F80), (2, 2, 0x4000), (256, 2, 0x4040), (512, 2, 0x3F80), (514, 2, 0x7F80)])
def sStream : State := withProg vatF [stream3 0 1, 0]
def sStreamAcc : State := (withProg vatF [stream3 0 0]).setPanWord 0 5 1 ⟨0x3F800000, false, 0⟩
def sStream16 : State := let s := (withProg vatF [stream3 1 0]); (List.range 2).foldl (fun t r => t.setPanRow 0 (5 + r) { t.panRow 0 (5 + r) with w16 := true }) s
def tile3 (w : Nat) : KeptTile := ⟨(arrOp w).fmtS, (arrOp w).statT, vatF.vatSlice 0 (arrOp w).stat (16384 * (arrFmt (arrOp w).fmtS).bytes)⟩
def repl (w m : Nat) : Replay := ⟨0, 9, w, 0, m⟩
def sReplay : State := sStream.setBlk 0 { sStream.blk 0 with replay := some (repl (stream3 0 1) 3) }
def sRow : State := { up.setBlk 63 { BlockUnit.zero with rowTest := some ⟨0, 9, stream3 0 1, 0, 3⟩ } with quarRows := [(up.phys 63, [3, 131])] }
def sReinit : State := withFlds (up.setBlk 63 { BlockUnit.zero with reinit := true, verifyCount := 5, planes := [(0, [1#8])] }) [(BLK_FAB_PLANE_valid 63 0, 1)]
def sVer : State := sStream
def sSwitch : State := { withProg up [0] with launches := [{ lOf 1 with ctx := 3 }] }
def elem (op m : Nat) : Nat := mkWord [(0, opArrElem), (16, op), (40, m), (52, 7), (64, 0), (81, 512)]
def sStepE : State := withProg vatF [0, elem 0 0]
def sElem (op m : Nat) : State := withProg vatF [elem op m, 0]
def ill (op : Nat) : Nat := mkWord [(0, op), (127, 1)]
def sIll (op : Nat) : State := withProg vatF [ill op]
def fedL (op : Nat) : Launch := (((sIll op).fed 0).launches.head?).getD (lOf 1)
def fedJ (op : Nat) : FabJob := ⟨0, 9, ill op⟩
theorem witness_arrStream :
    sStream.nextInstr 0 0 = some (lOf 2, stream3 0 1) ∧ iBits (stream3 0 1) 0 8 = opArrStream ∧ arrLegal sStream (lOf 2) (stream3 0 1) = true ∧ List.find?
    (fun x => x.entry == (lOf 2).entry) sStream.launches = some (lOf 2) ∧ (sStream.blk 0).drains = [] ∧ sStream.firstBad 0 (arrOp (stream3 0 1)) 0 (arrOp
    (stream3 0 1)).m = none ∧ ((arrOp (stream3 0 1)).keep = true → tile3 (stream3 0 1) = ((sStream.blk 0).tiles.find 0).getD KeptTile.none) ∧ ((arrOp
    (stream3 0 1)).keep = false → tile3 (stream3 0 1) =
    { fmt := (arrOp (stream3 0 1)).fmtS, trans := (arrOp (stream3 0 1)).statT, bytes := sStream.vatSlice 0 (arrOp (stream3 0 1)).stat (16384 * (arrFmt (arrOp (stream3 0 1)).fmtS).bytes) })
    ∧ (sStream.verifies 0 = true → (sStream.runTap 0 0 (arrOp (stream3 0 1))).checksFail 0 (arrOp (stream3 0 1)) (tile3 (stream3 0 1)) ArrUpset.none 0 =
    none) ∧ (sStream.blk 0).taps.find 0 = none := by decide +kernel
theorem witness_arrStream_acc :
    sStreamAcc.nextInstr 0 0 = some (lOf 1, stream3 0 0) ∧ iBits (stream3 0 0) 0 8 = opArrStream ∧ arrLegal sStreamAcc (lOf 1) (stream3 0 0) = true ∧
    List.find? (fun x => x.entry == (lOf 1).entry) sStreamAcc.launches = some (lOf 1) ∧ (sStreamAcc.blk 0).drains = [] ∧ sStreamAcc.firstBad 0 (arrOp
    (stream3 0 0)) 0 (arrOp (stream3 0 0)).m = none ∧ ((arrOp (stream3 0 0)).keep = true → tile3 (stream3 0 0) = ((sStreamAcc.blk 0).tiles.find 0).getD
    KeptTile.none) ∧ ((arrOp (stream3 0 0)).keep = false → tile3 (stream3 0 0) =
    { fmt := (arrOp (stream3 0 0)).fmtS, trans := (arrOp (stream3 0 0)).statT, bytes := sStreamAcc.vatSlice 0 (arrOp (stream3 0 0)).stat (16384 * (arrFmt (arrOp (stream3 0 0)).fmtS).bytes) })
    ∧ (sStreamAcc.verifies 0 = true → (sStreamAcc.runTap 0 0 (arrOp (stream3 0 0))).checksFail 0 (arrOp (stream3 0 0)) (tile3 (stream3 0 0)) ArrUpset.none
    0 = none) ∧ (sStreamAcc.blk 0).taps.find 0 = none := by decide +kernel
theorem witness_arrStream_16 :
    sStream16.nextInstr 0 0 = some (lOf 1, stream3 1 0) ∧ iBits (stream3 1 0) 0 8 = opArrStream ∧ arrLegal sStream16 (lOf 1) (stream3 1 0) = true ∧
    List.find? (fun x => x.entry == (lOf 1).entry) sStream16.launches = some (lOf 1) ∧ (sStream16.blk 0).drains = [] ∧ sStream16.firstBad 0 (arrOp
    (stream3 1 0)) 0 (arrOp (stream3 1 0)).m = none ∧ ((arrOp (stream3 1 0)).keep = true → tile3 (stream3 1 0) = ((sStream16.blk 0).tiles.find 0).getD
    KeptTile.none) ∧ ((arrOp (stream3 1 0)).keep = false → tile3 (stream3 1 0) =
    { fmt := (arrOp (stream3 1 0)).fmtS, trans := (arrOp (stream3 1 0)).statT, bytes := sStream16.vatSlice 0 (arrOp (stream3 1 0)).stat (16384 * (arrFmt (arrOp (stream3 1 0)).fmtS).bytes) })
    ∧ (sStream16.verifies 0 = true → (sStream16.runTap 0 0 (arrOp (stream3 1 0))).checksFail 0 (arrOp (stream3 1 0)) (tile3 (stream3 1 0)) ArrUpset.none 0
    = none) ∧ (sStream16.blk 0).taps.find 0 = none := by decide +kernel
theorem witness_seen :
    sVer.checksFail 0 (arrOp (stream3 0 1)) (tile3 (stream3 0 1)) ArrUpset.none 0 = none ∧ (sVer.sumsOf 0 (arrOp (stream3 0 1)) (tile3 (stream3 0 1))
    1).compared = true ∧ 1 < (arrOp (stream3 0 1)).m := by decide +kernel
theorem witness_upset :
    sVer.nextInstr 0 0 = some (lOf 2, stream3 0 1) ∧ iBits (stream3 0 1) 0 8 = opArrStream ∧ arrLegal sVer (lOf 2) (stream3 0 1) = true ∧ List.find? (fun
    x => x.entry == (lOf 2).entry) sVer.launches = some (lOf 2) ∧ (sVer.blk 0).drains = [] ∧ sVer.firstBad 0 (arrOp (stream3 0 1)) 0 (arrOp (stream3 0
    1)).m = none ∧ (sVer.blk 0).taps.find 0 = none ∧ ((arrOp (stream3 0 1)).keep = true → tile3 (stream3 0 1) = ((sVer.blk 0).tiles.find 0).getD
    KeptTile.none) ∧ ((arrOp (stream3 0 1)).keep = false → tile3 (stream3 0 1) =
    { fmt := (arrOp (stream3 0 1)).fmtS, trans := (arrOp (stream3 0 1)).statT, bytes := sVer.vatSlice 0 (arrOp (stream3 0 1)).stat (16384 * (arrFmt (arrOp (stream3 0 1)).fmtS).bytes) })
    ∧ sVer.verifies 0 = true ∧ sVer.checksFail 0 (arrOp (stream3 0 1)) (tile3 (stream3 0 1)) (ArrUpset.column 1) 0 = some (0, 1) := by decide +kernel
theorem witness_upset0 :
    sVer.nextInstr 0 0 = some (lOf 2, stream3 0 1) ∧ iBits (stream3 0 1) 0 8 = opArrStream ∧ arrLegal sVer (lOf 2) (stream3 0 1) = true ∧ List.find? (fun
    x => x.entry == (lOf 2).entry) sVer.launches = some (lOf 2) ∧ (sVer.blk 0).drains = [] ∧ sVer.firstBad 0 (arrOp (stream3 0 1)) 0 (arrOp (stream3 0
    1)).m = none ∧ (sVer.blk 0).taps.find 0 = none ∧ ((arrOp (stream3 0 1)).keep = true → tile3 (stream3 0 1) = ((sVer.blk 0).tiles.find 0).getD
    KeptTile.none) ∧ ((arrOp (stream3 0 1)).keep = false → tile3 (stream3 0 1) =
    { fmt := (arrOp (stream3 0 1)).fmtS, trans := (arrOp (stream3 0 1)).statT, bytes := sVer.vatSlice 0 (arrOp (stream3 0 1)).stat (16384 * (arrFmt (arrOp (stream3 0 1)).fmtS).bytes) })
    ∧ sVer.verifies 0 = true ∧ sVer.checksFail 0 (arrOp (stream3 0 1)) (tile3 (stream3 0 1)) (ArrUpset.column 0) 0 = some (0, 0) := by decide +kernel
theorem witness_replay :
    (sReplay.blk 0).replay = some (repl (stream3 0 1) 3) ∧ sReplay.regionFenced (0 / 16) = false ∧ List.find? (fun x => x.entry == (repl (stream3 0 1)
    3).entry) sReplay.launches = some (lOf 2) ∧ (lOf 2).block = 0 ∧ sReplay.firstBad 0 (arrOp (repl (stream3 0 1) 3).word) (repl (stream3 0 1) 3).fromRow
    (arrOp (repl (stream3 0 1) 3).word).m = none ∧ sReplay.checksFail 0 (arrOp (repl (stream3 0 1) 3).word) (((sReplay.blk 0).tiles.find (repl (stream3 0
    1) 3).ctx).getD KeptTile.none) ArrUpset.none (repl (stream3 0 1) 3).fromRow = none := by decide +kernel
theorem witness_rowTest :
    (sRow.blk 63).rowTest = some (repl (stream3 0 1) 3) ∧ sRow.regionFenced (63 / 16) = false ∧ (sRow.quarOf (sRow.phys 63)).length < 3 ∧ 0 ∉ sRow.quarOf
    (sRow.phys 63) := by decide +kernel
theorem witness_rowTest_last :
    (sRow.blk 63).rowTest = some (repl (stream3 0 1) 3) ∧ sRow.regionFenced (63 / 16) = false ∧ (sRow.quarOf (sRow.phys 63)).length < 3 ∧ 130 ∉
    sRow.quarOf (sRow.phys 63) := by decide +kernel
theorem witness_rowTest_none :
    (sRow.blk 63).rowTest = some (repl (stream3 0 1) 3) ∧ sRow.regionFenced (63 / 16) = false := by decide +kernel
theorem witness_reinit :
    (sReinit.blk 63).reinit = true := by decide +kernel
theorem witness_switch :
    sSwitch.arbiter 0 = some 3 ∧ (sSwitch.blk 0).current ≠ 3 ∧ sSwitch.blockStopped 0 = false ∧ (sSwitch.blk 0).rowTest = none ∧ (sSwitch.blk 0).reinit =
    false := by decide +kernel
theorem witness_stepCmd :
    sStepE.nextInstr 0 0 = some (lOf 2, 0) ∧ List.find? (fun x => x.entry == (lOf 2).entry) sStepE.launches = some (lOf 2) ∧ iBits 0 0 8 ∉ opcodes ∧ (lOf
    2).pc + 1 < (lOf 2).len := by decide +kernel
theorem witness_elem :
    (sElem 0 2).nextInstr 0 0 = some (lOf 2, elem 0 2) ∧ List.find? (fun x => x.entry == (lOf 2).entry) (sElem 0 2).launches = some (lOf 2) ∧ iBits (elem
    0 2) 0 8 = opArrElem ∧ elemLegal (sElem 0 2) (lOf 2) (elem 0 2) = true ∧ (iBits (elem 0 2) 16 3 = 2 → ∀ m < (arrOp (elem 0 2)).m, (sElem 0 2).rowBad 0
    ((arrOp (elem 0 2)).panRow + m) 0 128 = false) := by decide +kernel
theorem witness_elem_fma :
    (sElem 2 0).nextInstr 0 0 = some (lOf 2, elem 2 0) ∧ List.find? (fun x => x.entry == (lOf 2).entry) (sElem 2 0).launches = some (lOf 2) ∧ iBits (elem
    2 0) 0 8 = opArrElem ∧ elemLegal (sElem 2 0) (lOf 2) (elem 2 0) = true ∧ (iBits (elem 2 0) 16 3 = 2 → ∀ m < (arrOp (elem 2 0)).m, (sElem 2 0).rowBad 0
    ((arrOp (elem 2 0)).panRow + m) 0 128 = false) := by decide +kernel
theorem witness_elem_min :
    (sElem 4 0).nextInstr 0 0 = some (lOf 2, elem 4 0) ∧ List.find? (fun x => x.entry == (lOf 2).entry) (sElem 4 0).launches = some (lOf 2) ∧ iBits (elem
    4 0) 0 8 = opArrElem ∧ elemLegal (sElem 4 0) (lOf 2) (elem 4 0) = true ∧ (iBits (elem 4 0) 16 3 = 2 → ∀ m < (arrOp (elem 4 0)).m, (sElem 4 0).rowBad 0
    ((arrOp (elem 4 0)).panRow + m) 0 128 = false) := by decide +kernel

/-! ### Witnesses: The pans -/

def sSig (w : Nat) : State := withProg upC [w, 0]
def wSig (op n : Nat) : Nat := mkWord [(0, opSynSignal), (8, op), (32, 77), (64, ctrAt 5 n)]
def wWait (c n : Nat) : Nat := mkWord [(0, opSynWait), (8, 1), (10, c), (32, 3), (64, ctrAt 5 n)]
def panF : State := ((up.setPanWord 0 7 0 ⟨0x3F800000, false, 0⟩).setPanWord 0 7 1 ⟨0xC0490FDB, false, 0⟩).setPanWord 0 8 127 ⟨0x7F800000, false, 0⟩
def drn (fmt rows n tie dk : Nat) : Nat := mkWord [(0, opPanDrain), (9, fmt), (16, dk), (20, tie), (24, 255), (32, rows - 1), (48, 7), (64, 3), (96, n - 1)]
def sDrn (w : Nat) : State := withProg panF [w, 0]
def sTie (w k : Nat) : State := withFlds (sDrn w) [(BLK_TIE_CFG_members 0 2, 2), (BLK_TIE_CFG_issued 0 2, k)]
def sDk (w : Nat) : State := withFlds (sDrn w) [(BLK_DECKLE_COL_KEEP_keep 0 3 0, 5), (BLK_DECKLE_RUN_start 0 3 0, 1), (BLK_DECKLE_RUN_count 0 3 0, 1)]
def drn16 : Nat := mkWord [(0, opPanDrain), (8, 1), (9, 1), (32, 1), (48, 7), (64, 3), (81, 5), (96, 9)]
def sDrn16 : State := let s := sDrn drn16; (List.range 2).foldl (fun t r => t.setPanRow 0 (7 + r) { t.panRow 0 (7 + r) with w16 := true }) s
def cpy (op r st w : Nat) : Nat := mkWord [(0, op), (8, w), (32, r - 1), (48, 7), (64, 3), (81, st)]
def sCpy (w : Nat) : State := withProg (withMem panF (vatAt 0 + 192) (mkBytes 600 [(0, 4, 5), (508, 4, 0x7FC00000), (512, 4, 9)])) [w, 0]
def panB : State := (up.setPanWord 63 4095 127 ⟨0x12345678, true, 3⟩).setPanWord 63 0 0 ⟨0xAABBCCDD, false, 0⟩
def sHeldW : State := (withDesc panB 9 kindLaunch 0 0 []).setBlk 63 { BlockUnit.zero with drains := [⟨0, 9, mkWord [(0, opPanDrain), (48, 7)], 0, []⟩] }
def aWin : WinAccess := ⟨7 * 512, 8, none, none⟩
def aWinC : WinAccess := ⟨7 * 512, 4, some [1#8, 2#8, 3#8, 4#8], some 4⟩
def sWinW : State := sHeldW.setBlk 63 { sHeldW.blk 63 with winWait := [aWin] }
def sWinD : State := withDesc (sHeldW.setBlk 63 { sHeldW.blk 63 with winWait := [aWinC] }) 4 kindCopy 0 0 []
def sMaintM : State := withFlds up [(HUB_MODULE_STATUS_maintenance_mode, 1)]
def sDbgP : State := sMaintM.setBlk 2 { BlockUnit.zero with dbgPending := true }
def sDbg : State := withFlds (panB) [(PAN_DBG_CTL_dbg_active 63, 1), (PAN_DBG_CTL_inject_parity 63, 1), (PAN_DBG_ROW_row 63, 4095)]
theorem witness_synSignal :
    (sSig (wSig 0 0)).nextInstr 0 0 = some (lOf 2, wSig 0 0) ∧ List.find? (fun x => x.entry == (lOf 2).entry) (sSig (wSig 0 0)).launches = some (lOf 2) ∧
    counterOf (gLocal (iBits (wSig 0 0) 64 64)) = some 0 ∧ gChip (iBits (wSig 0 0) 64 64) = (sSig (wSig 0 0)).chip ∧ iBits (wSig 0 0) 0 8 = opSynSignal ∧
    synSignalLegal (sSig (wSig 0 0)) (lOf 2) (wSig 0 0) = true ∧ bitOf (wSig 0 0) 10 = false := by decide +kernel
theorem witness_synSignal_last :
    (sSig (wSig 3 65535)).nextInstr 0 0 = some (lOf 2, wSig 3 65535) ∧ List.find? (fun x => x.entry == (lOf 2).entry) (sSig (wSig 3 65535)).launches =
    some (lOf 2) ∧ counterOf (gLocal (iBits (wSig 3 65535) 64 64)) = some 65535 ∧ gChip (iBits (wSig 3 65535) 64 64) = (sSig (wSig 3 65535)).chip ∧ iBits
    (wSig 3 65535) 0 8 = opSynSignal ∧ synSignalLegal (sSig (wSig 3 65535)) (lOf 2) (wSig 3 65535) = true ∧ bitOf (wSig 3 65535) 10 = false := by decide +kernel
theorem witness_synWait :
    (sSig (wWait 0 0)).nextInstr 0 0 = some (lOf 2, wWait 0 0) ∧ List.find? (fun x => x.entry == (lOf 2).entry) (sSig (wWait 0 0)).launches = some (lOf 2)
    ∧ counterOf (gLocal (iBits (wWait 0 0) 64 64)) = some 0 ∧ gChip (iBits (wWait 0 0) 64 64) = (sSig (wWait 0 0)).chip ∧ iBits (wWait 0 0) 0 8 =
    opSynWait ∧ synWaitLegal (sSig (wWait 0 0)) (lOf 2) (wWait 0 0) = true := by decide +kernel
theorem witness_synWait_claim :
    (sSig (wWait 0 65535)).nextInstr 0 0 = some (lOf 2, wWait 0 65535) ∧ List.find? (fun x => x.entry == (lOf 2).entry) (sSig (wWait 0 65535)).launches =
    some (lOf 2) ∧ counterOf (gLocal (iBits (wWait 0 65535) 64 64)) = some 65535 ∧ gChip (iBits (wWait 0 65535) 64 64) = (sSig (wWait 0 65535)).chip ∧
    iBits (wWait 0 65535) 0 8 = opSynWait ∧ synWaitLegal (sSig (wWait 0 65535)) (lOf 2) (wWait 0 65535) = true := by decide +kernel
theorem witness_drain :
    (sDrn (drn 0 2 128 0 0)).nextInstr 0 0 = some (lOf 2, drn 0 2 128 0 0) ∧ List.find? (fun x => x.entry == (lOf 2).entry) (sDrn (drn 0 2 128 0
    0)).launches = some (lOf 2) ∧ iBits (drn 0 2 128 0 0) 0 8 = opPanDrain ∧ drainLegal (sDrn (drn 0 2 128 0 0)) (lOf 2) (drn 0 2 128 0 0) = true ∧
    ((drainOp (drn 0 2 128 0 0)).tie = 0 ∨ (sDrn (drn 0 2 128 0 0)).drainDue 0
    { ctx := (lOf 2).ctx, entry := (lOf 2).entry, word := drn 0 2 128 0 0, keep := 0, runs := [] } = true) ∧ ∀ j < (drainOp (drn 0 2 128 0 0)).rows, (sDrn
    (drn 0 2 128 0 0)).rowBad 0 ((drainOp (drn 0 2 128 0 0)).panRow + j) 0 (drainOp (drn 0 2 128 0 0)).n = false := by decide +kernel
theorem witness_drain_fp8 :
    (sDrn (drn 3 1 5 0 0)).nextInstr 0 0 = some (lOf 2, drn 3 1 5 0 0) ∧ List.find? (fun x => x.entry == (lOf 2).entry) (sDrn (drn 3 1 5 0 0)).launches =
    some (lOf 2) ∧ iBits (drn 3 1 5 0 0) 0 8 = opPanDrain ∧ drainLegal (sDrn (drn 3 1 5 0 0)) (lOf 2) (drn 3 1 5 0 0) = true ∧ ((drainOp (drn 3 1 5 0
    0)).tie = 0 ∨ (sDrn (drn 3 1 5 0 0)).drainDue 0 { ctx := (lOf 2).ctx, entry := (lOf 2).entry, word := drn 3 1 5 0 0, keep := 0, runs := [] } = true) ∧
    ∀ j < (drainOp (drn 3 1 5 0 0)).rows, (sDrn (drn 3 1 5 0 0)).rowBad 0 ((drainOp (drn 3 1 5 0 0)).panRow + j) 0 (drainOp (drn 3 1 5 0 0)).n = false := by decide +kernel
theorem witness_drain_q32 :
    (sDrn (drn 5 1 5 0 0)).nextInstr 0 0 = some (lOf 2, drn 5 1 5 0 0) ∧ List.find? (fun x => x.entry == (lOf 2).entry) (sDrn (drn 5 1 5 0 0)).launches =
    some (lOf 2) ∧ iBits (drn 5 1 5 0 0) 0 8 = opPanDrain ∧ drainLegal (sDrn (drn 5 1 5 0 0)) (lOf 2) (drn 5 1 5 0 0) = true ∧ ((drainOp (drn 5 1 5 0
    0)).tie = 0 ∨ (sDrn (drn 5 1 5 0 0)).drainDue 0 { ctx := (lOf 2).ctx, entry := (lOf 2).entry, word := drn 5 1 5 0 0, keep := 0, runs := [] } = true) ∧
    ∀ j < (drainOp (drn 5 1 5 0 0)).rows, (sDrn (drn 5 1 5 0 0)).rowBad 0 ((drainOp (drn 5 1 5 0 0)).panRow + j) 0 (drainOp (drn 5 1 5 0 0)).n = false := by decide +kernel
theorem witness_drain_deckle :
    (sDk (drn 1 2 5 0 3)).nextInstr 0 0 = some (lOf 2, drn 1 2 5 0 3) ∧ List.find? (fun x => x.entry == (lOf 2).entry) (sDk (drn 1 2 5 0 3)).launches =
    some (lOf 2) ∧ iBits (drn 1 2 5 0 3) 0 8 = opPanDrain ∧ drainLegal (sDk (drn 1 2 5 0 3)) (lOf 2) (drn 1 2 5 0 3) = true ∧ ((drainOp (drn 1 2 5 0
    3)).tie = 0 ∨ (sDk (drn 1 2 5 0 3)).drainDue 0 { ctx := (lOf 2).ctx, entry := (lOf 2).entry, word := drn 1 2 5 0 3, keep := 0, runs := [] } = true) ∧
    ∀ j < (drainOp (drn 1 2 5 0 3)).rows, (sDk (drn 1 2 5 0 3)).rowBad 0 ((drainOp (drn 1 2 5 0 3)).panRow + j) 0 (drainOp (drn 1 2 5 0 3)).n = false := by decide +kernel
theorem witness_drain_16 :
    sDrn16.nextInstr 0 0 = some (lOf 2, drn16) ∧ List.find? (fun x => x.entry == (lOf 2).entry) sDrn16.launches = some (lOf 2) ∧ iBits drn16 0 8 =
    opPanDrain ∧ drainLegal sDrn16 (lOf 2) drn16 = true ∧ ((drainOp drn16).tie = 0 ∨ sDrn16.drainDue 0
    { ctx := (lOf 2).ctx, entry := (lOf 2).entry, word := drn16, keep := 0, runs := [] } = true) ∧ ∀ j < (drainOp drn16).rows, sDrn16.rowBad 0 ((drainOp
    drn16).panRow + j) 0 (drainOp drn16).n = false := by decide +kernel
theorem witness_drain_tie :
    (sTie (drn 0 1 3 2 0) 2).nextInstr 0 0 = some (lOf 2, drn 0 1 3 2 0) ∧ List.find? (fun x => x.entry == (lOf 2).entry) (sTie (drn 0 1 3 2 0)
    2).launches = some (lOf 2) ∧ iBits (drn 0 1 3 2 0) 0 8 = opPanDrain ∧ drainLegal (sTie (drn 0 1 3 2 0) 2) (lOf 2) (drn 0 1 3 2 0) = true ∧ ((drainOp
    (drn 0 1 3 2 0)).tie = 0 ∨ (sTie (drn 0 1 3 2 0) 2).drainDue 0
    { ctx := (lOf 2).ctx, entry := (lOf 2).entry, word := drn 0 1 3 2 0, keep := 0, runs := [] } = true) ∧ (∀ j < (drainOp (drn 0 1 3 2 0)).rows, (sTie
    (drn 0 1 3 2 0) 2).rowBad 0 ((drainOp (drn 0 1 3 2 0)).panRow + j) 0 (drainOp (drn 0 1 3 2 0)).n = false) ∧ (drainOp (drn 0 1 3 2 0)).tie ≠ 0 := by decide +kernel
theorem witness_drain_tie_waits :
    (sTie (drn 0 1 3 2 0) 1).nextInstr 0 0 = some (lOf 2, drn 0 1 3 2 0) ∧ List.find? (fun x => x.entry == (lOf 2).entry) (sTie (drn 0 1 3 2 0)
    1).launches = some (lOf 2) ∧ iBits (drn 0 1 3 2 0) 0 8 = opPanDrain ∧ drainLegal (sTie (drn 0 1 3 2 0) 1) (lOf 2) (drn 0 1 3 2 0) = true ∧ (drainOp
    (drn 0 1 3 2 0)).tie ≠ 0 ∧ (sTie (drn 0 1 3 2 0) 1).drainDue 0
    { ctx := (lOf 2).ctx, entry := (lOf 2).entry, word := drn 0 1 3 2 0, keep := 0, runs := [] } = false := by decide +kernel
theorem witness_panLoad :
    (sCpy (cpy opPanLoad 2 0 0)).nextInstr 0 0 = some (lOf 2, cpy opPanLoad 2 0 0) ∧ List.find? (fun x => x.entry == (lOf 2).entry) (sCpy (cpy opPanLoad 2
    0 0)).launches = some (lOf 2) ∧ iBits (cpy opPanLoad 2 0 0) 0 8 = opPanLoad ∧ copyLegal false (sCpy (cpy opPanLoad 2 0 0)) (lOf 2) (cpy opPanLoad 2 0
    0) = true := by decide +kernel
theorem witness_panLoad16 :
    (sCpy (cpy opPanLoad 1 9 1)).nextInstr 0 0 = some (lOf 2, cpy opPanLoad 1 9 1) ∧ List.find? (fun x => x.entry == (lOf 2).entry) (sCpy (cpy opPanLoad 1
    9 1)).launches = some (lOf 2) ∧ iBits (cpy opPanLoad 1 9 1) 0 8 = opPanLoad ∧ copyLegal false (sCpy (cpy opPanLoad 1 9 1)) (lOf 2) (cpy opPanLoad 1 9
    1) = true := by decide +kernel
theorem witness_panStore :
    (sCpy (cpy opPanStore 2 0 0)).nextInstr 0 0 = some (lOf 2, cpy opPanStore 2 0 0) ∧ List.find? (fun x => x.entry == (lOf 2).entry) (sCpy (cpy
    opPanStore 2 0 0)).launches = some (lOf 2) ∧ iBits (cpy opPanStore 2 0 0) 0 8 = opPanStore ∧ copyLegal true (sCpy (cpy opPanStore 2 0 0)) (lOf 2) (cpy
    opPanStore 2 0 0) = true ∧ ∀ j < (copyOp (cpy opPanStore 2 0 0)).rows, (sCpy (cpy opPanStore 2 0 0)).rowBad 0 ((copyOp (cpy opPanStore 2 0 0)).panRow
    + j) 0 128 = false := by decide +kernel
theorem witness_panStore9 :
    (sCpy (cpy opPanStore 2 9 0)).nextInstr 0 0 = some (lOf 2, cpy opPanStore 2 9 0) ∧ List.find? (fun x => x.entry == (lOf 2).entry) (sCpy (cpy
    opPanStore 2 9 0)).launches = some (lOf 2) ∧ iBits (cpy opPanStore 2 9 0) 0 8 = opPanStore ∧ copyLegal true (sCpy (cpy opPanStore 2 9 0)) (lOf 2) (cpy
    opPanStore 2 9 0) = true ∧ ∀ j < (copyOp (cpy opPanStore 2 9 0)).rows, (sCpy (cpy opPanStore 2 9 0)).rowBad 0 ((copyOp (cpy opPanStore 2 9 0)).panRow
    + j) 0 128 = false := by decide +kernel
theorem witness_winRead :
    panB.absent 63 = false ∧ panB.regionFenced (63 / 16) = false ∧ 0 < 7 ∧ 0 + 7 ≤ panSize ∧ panB.rowsHeld 63 (winRows 0 7).1 (winRows 0 7).2 = false := by decide +kernel
theorem witness_winRead_bad :
    panB.absent 63 = false ∧ panB.regionFenced (63 / 16) = false ∧ 0 < 1 ∧ 2097151 + 1 ≤ panSize ∧ panB.rowsHeld 63 (winRows 2097151 1).1 (winRows 2097151
    1).2 = false := by decide +kernel
theorem witness_winRead_held :
    sHeldW.absent 63 = false ∧ sHeldW.regionFenced (63 / 16) = false ∧ 0 < 1 ∧ 3584 + 1 ≤ panSize ∧ sHeldW.rowsHeld 63 (winRows 3584 1).1 (winRows 3584
    1).2 = true := by decide +kernel
theorem witness_winWrite :
    panB.absent 63 = false ∧ panB.regionFenced (63 / 16) = false ∧ 0 < [1#8, 2#8, 3#8, 4#8].length ∧ 2097148 + [1#8, 2#8, 3#8, 4#8].length ≤ panSize ∧
    panB.rowsHeld 63 (winRows 2097148 [1#8, 2#8, 3#8, 4#8].length).1 (winRows 2097148 [1#8, 2#8, 3#8, 4#8].length).2 = false ∧ 2097148 % 4 = 0 ∧ [1#8,
    2#8, 3#8, 4#8].length % 4 = 0 := by decide +kernel
theorem witness_winWrite_off :
    panB.absent 63 = false ∧ panB.regionFenced (63 / 16) = false ∧ 0 < [1#8, 2#8, 3#8, 4#8].length ∧ 2 + [1#8, 2#8, 3#8, 4#8].length ≤ panSize ∧
    panB.rowsHeld 63 (winRows 2 [1#8, 2#8, 3#8, 4#8].length).1 (winRows 2 [1#8, 2#8, 3#8, 4#8].length).2 = false ∧ [1#8, 2#8, 3#8, 4#8].length % 4 = 0 ∧
    (2 % 4 ≠ 0 ∨ [1#8, 2#8, 3#8, 4#8].length % 4 ≠ 0) := by decide +kernel
theorem witness_winWrite_len :
    panB.absent 63 = false ∧ panB.regionFenced (63 / 16) = false ∧ 0 < [1#8, 2#8, 3#8].length ∧ 4 + [1#8, 2#8, 3#8].length ≤ panSize ∧ panB.rowsHeld 63
    (winRows 4 [1#8, 2#8, 3#8].length).1 (winRows 4 [1#8, 2#8, 3#8].length).2 = false ∧ 4 % 4 = 0 ∧ (4 % 4 ≠ 0 ∨ [1#8, 2#8, 3#8].length % 4 ≠ 0) := by decide +kernel
theorem witness_winWrite_held :
    sHeldW.absent 63 = false ∧ sHeldW.regionFenced (63 / 16) = false ∧ 0 < [1#8].length ∧ 3584 + [1#8].length ≤ panSize ∧ sHeldW.rowsHeld 63 (winRows 3584
    [1#8].length).1 (winRows 3584 [1#8].length).2 = true := by decide +kernel
theorem witness_winTimeout_copy :
    sWinD.absent 63 = false ∧ sWinD.regionFenced (63 / 16) = false ∧ (sWinD.blk 63).winWait = [aWinC] ∧ sWinD.rowsHeld 63 (winRows aWinC.off aWinC.len).1
    (winRows aWinC.off aWinC.len).2 = true := by decide +kernel
theorem witness_winTimeout :
    sWinW.absent 63 = false ∧ sWinW.regionFenced (63 / 16) = false ∧ (sWinW.blk 63).winWait = [aWin] ∧ sWinW.rowsHeld 63 (winRows aWin.off aWin.len).1
    (winRows aWin.off aWin.len).2 = true ∧ aWin.entry = none ∧ aWin.data = none := by decide +kernel
theorem witness_dbgReq :
    sMaintM.flag HUB_MODULE_STATUS_maintenance_mode = true ∧ sMaintM.flag (PAN_DBG_CTL_dbg_active 2) = false := by decide +kernel
theorem witness_dbgReq_not :
    up.flag HUB_MODULE_STATUS_maintenance_mode = false := by decide +kernel
theorem witness_dbgEnter :
    (sDbgP.blk 2).dbgPending = true ∧ sDbgP.flight 2 = [] := by decide +kernel
theorem witness_dbgWrite :
    sDbg.flag (PAN_DBG_CTL_dbg_active 63) = true := by decide +kernel
theorem witness_dbgWrite_not :
    up.flag (PAN_DBG_CTL_dbg_active 0) = false := by decide +kernel

/-! ### Witnesses: The element fabric -/

def wCfg (p a : Nat) : Nat := mkWord [(0, opFabCfg), (8, p), (32, a)]
def sCfg (p a : Nat) : State := withProg up [wCfg p a, 0]
def fj (w : Nat) : FabJob := ⟨0, 9, w⟩
def fl (s : State) : Launch := ((s.fed 0).launches.head?).getD (lOf 1)
def img : List Byte := mkBytes 80 [(2, 1, 1), (4, 1, 1), (5, 1, 1), (6, 1, 1), (7, 1, 4)]
def imgR : List Byte := mkBytes 80 [(2, 1, 1), (3, 1, 2), (4, 1, 1), (6, 1, 1), (7, 1, 4)]
def wRun (mode : Nat) : Nat := mkWord [(0, opFabRun), (9, mode), (11, 3), (16, 1), (32, 2), (48, 1)]
def recOf (out : Nat) : List Byte := mkBytes 64 [(0, 4, 0x1000), (4, 4, 64), (40, 1, 4), (41, 1, 0xF), (42, 1, 0xF), (24, 4, 0x2000), (28, 4, 64), (43, 1, out), (44, 1, 0xF)]
def sRun (g : List Byte) (mode out : Nat) : State := let s := withProg (withMem (withMem up (vatAt 0 + 64) (recOf out)) (vatAt 0 + 0x1000) (mkBytes 80 [(0, 4, 0x3F800000), (4, 4, 0x40000000), (64, 4, 0x41000000)])) [wRun mode, 0]; withFlds (s.setBlk 0 { s.blk 0 with planes := [(0, g)] }) [(BLK_FAB_PLANE_valid 0 0, 1)]
def wLane (op d a n : Nat) : Nat := mkWord [(0, opFabLane), (8, op), (12, d), (16, a), (20, n - 1), (32, 0x40000000), (64, 3)]
def sLane (w : Nat) : State := withProg (withMem ((((up.setLane 0 0 0 0 0x40800000).setLane 0 0 15 63 0x3F800000).setLane 0 0 1 5 0xBF800000)) (vatAt 0 + 192) (mkBytes 600 [(0, 4, 7), (252, 4, 9), (256, 4, 10)])) [w, 0]
def sPlane : State := up.setBlk 63 { BlockUnit.zero with planes := [(1, [1#8])] }
def smp (c : Bool) : Sample := ⟨15, c, [0x3F80, 0x4000, 0xBF80] ++ List.replicate 125 0⟩
def sSmp : State := (up.setStat 63 15 0 1 0x3F800000).setBlk 63 { BlockUnit.zero with samples := [smp false, smp true] }
def sSmpC : State := (up.setStat 63 15 0 1 0x3F800000).setBlk 63 { BlockUnit.zero with samples := [smp true] }
def wTap : Nat := mkWord [(0, opGrmTap), (9, 1), (16, 3), (22, 3), (28, 15), (32, 8), (64, 5)]
def sTap : State := withProg up [wTap, 0]
def sTap2 : State := sTap.setBlk 0 { sTap.blk 0 with taps := [(0, Tap.none)] }
def wGd : Nat := mkWord [(0, opGrmDrain), (8, 15), (32, 0x1FC00)]
def sGd : State := withProg ((up.setStat 0 15 0 1 0x3F800000).setStat 0 15 127 127 9) [wGd, 0]
theorem witness_fabQueue :
    (sCfg 1 5).nextInstr 0 0 = some (lOf 2, wCfg 1 5) ∧ isFab (wCfg 1 5) = true := by decide +kernel
theorem witness_fabCfg_bad :
    ∀ (s1 : State), s1 = ((sCfg 1 5).fed ↑0).setBlk (↑0) (have __src := ((sCfg 1 5).fed ↑0).blk ↑0;
    { tiles := __src.tiles, taps := __src.taps, samples := __src.samples, verifyCount := __src.verifyCount, replay := __src.replay, rowTest := __src.rowTest, reinit := __src.reinit, drains := __src.drains, winWait := __src.winWait, planes := __src.planes, dbgPending := __src.dbgPending, current := __src.current, lastBg := __src.lastBg, tieRows := __src.tieRows, fabQ := [] })
    → (((sCfg 1 5).fed 0).blk 0).fabQ = [fj (wCfg 1 5)] ∧ (fj (wCfg 1 5)).ctx = 0 ∧ ((sCfg 1 5).fed 0).blockStopped 0 = false ∧ ((sCfg 1 5).fed
    0).fabWaits 0 (fj (wCfg 1 5)) = false ∧ List.find? (fun x => x.entry == (fj (wCfg 1 5)).entry) s1.launches = some (fl (sCfg 1 5)) ∧ (fl (sCfg 1
    5)).block = 0 ∧ (fl (sCfg 1 5)).ctx = 0 ∧ iBits (fj (wCfg 1 5)).word 0 8 = opFabCfg ∧ cfgLegal s1 (fl (sCfg 1 5)) (fj (wCfg 1 5)).word = true ∧
    imageOk ((sCfg 1 5).bytes (vatAt 0 + iBits (fj (wCfg 1 5)).word 32 17 * 64) imageSize) = false := by rintro _ rfl; decide +kernel
set_option maxRecDepth 8000 in
theorem witness_fabRun :
    ∀ (s1 : State) (o : FabOp) (outs : List FabStream), s1 = ((sRun img 0 1).fed ↑0).setBlk (↑0) (have __src := ((sRun img 0 1).fed ↑0).blk ↑0;
    { tiles := __src.tiles, taps := __src.taps, samples := __src.samples, verifyCount := __src.verifyCount, replay := __src.replay, rowTest := __src.rowTest, reinit := __src.reinit, drains := __src.drains, winWait := __src.winWait, planes := __src.planes, dbgPending := __src.dbgPending, current := __src.current, lastBg := __src.lastBg, tieRows := __src.tieRows, fabQ := [] })
    → o = fabOp (sRun img 0 1) (↑0) (fj (wRun 0)).word → outs = List.filter FabStream.used (List.drop 3 o.streams) → (((sRun img 0 1).fed 0).blk 0).fabQ =
    [fj (wRun 0)] ∧ (fj (wRun 0)).ctx = 0 ∧ ((sRun img 0 1).fed 0).blockStopped 0 = false ∧ ((sRun img 0 1).fed 0).fabWaits 0 (fj (wRun 0)) = false ∧
    List.find? (fun x => x.entry == (fj (wRun 0)).entry) s1.launches = some (fl (sRun img 0 1)) ∧ (fl (sRun img 0 1)).block = 0 ∧ (fl (sRun img 0 1)).ctx
    = 0 ∧ iBits (fj (wRun 0)).word 0 8 = opFabRun ∧ runLegal s1 (fl (sRun img 0 1)) (fj (wRun 0)).word = true ∧ o.mode = 0 ∧ o.replayable = true := by rintro _ _ _ rfl rfl rfl; decide +kernel
set_option maxRecDepth 8000 in
theorem witness_fabRun_reduce :
    ∀ (s1 : State) (o : FabOp) (outs : List FabStream), s1 = ((sRun imgR 1 15).fed ↑0).setBlk (↑0) (have __src := ((sRun imgR 1 15).fed ↑0).blk ↑0;
    { tiles := __src.tiles, taps := __src.taps, samples := __src.samples, verifyCount := __src.verifyCount, replay := __src.replay, rowTest := __src.rowTest, reinit := __src.reinit, drains := __src.drains, winWait := __src.winWait, planes := __src.planes, dbgPending := __src.dbgPending, current := __src.current, lastBg := __src.lastBg, tieRows := __src.tieRows, fabQ := [] })
    → o = fabOp (sRun imgR 1 15) (↑0) (fj (wRun 1)).word → outs = List.filter FabStream.used (List.drop 3 o.streams) → (((sRun imgR 1 15).fed 0).blk
    0).fabQ = [fj (wRun 1)] ∧ (fj (wRun 1)).ctx = 0 ∧ ((sRun imgR 1 15).fed 0).blockStopped 0 = false ∧ ((sRun imgR 1 15).fed 0).fabWaits 0 (fj (wRun 1))
    = false ∧ List.find? (fun x => x.entry == (fj (wRun 1)).entry) s1.launches = some (fl (sRun imgR 1 15)) ∧ (fl (sRun imgR 1 15)).block = 0 ∧ (fl (sRun
    imgR 1 15)).ctx = 0 ∧ iBits (fj (wRun 1)).word 0 8 = opFabRun ∧ runLegal s1 (fl (sRun imgR 1 15)) (fj (wRun 1)).word = true ∧ o.mode ≠ 0 ∧
    o.replayable = true := by rintro _ _ _ rfl rfl rfl; decide +kernel
set_option maxRecDepth 8000 in
theorem witness_fabRun_reduce2 :
    ∀ (s1 : State) (o : FabOp) (outs : List FabStream), s1 = ((sRun imgR 2 15).fed ↑0).setBlk (↑0) (have __src := ((sRun imgR 2 15).fed ↑0).blk ↑0;
    { tiles := __src.tiles, taps := __src.taps, samples := __src.samples, verifyCount := __src.verifyCount, replay := __src.replay, rowTest := __src.rowTest, reinit := __src.reinit, drains := __src.drains, winWait := __src.winWait, planes := __src.planes, dbgPending := __src.dbgPending, current := __src.current, lastBg := __src.lastBg, tieRows := __src.tieRows, fabQ := [] })
    → o = fabOp (sRun imgR 2 15) (↑0) (fj (wRun 2)).word → outs = List.filter FabStream.used (List.drop 3 o.streams) → (((sRun imgR 2 15).fed 0).blk
    0).fabQ = [fj (wRun 2)] ∧ (fj (wRun 2)).ctx = 0 ∧ ((sRun imgR 2 15).fed 0).blockStopped 0 = false ∧ ((sRun imgR 2 15).fed 0).fabWaits 0 (fj (wRun 2))
    = false ∧ List.find? (fun x => x.entry == (fj (wRun 2)).entry) s1.launches = some (fl (sRun imgR 2 15)) ∧ (fl (sRun imgR 2 15)).block = 0 ∧ (fl (sRun
    imgR 2 15)).ctx = 0 ∧ iBits (fj (wRun 2)).word 0 8 = opFabRun ∧ runLegal s1 (fl (sRun imgR 2 15)) (fj (wRun 2)).word = true ∧ o.mode ≠ 0 ∧
    o.replayable = true := by rintro _ _ _ rfl rfl rfl; decide +kernel
theorem witness_lane_mul :
    ∀ (s1 : State), s1 = ((sLane (wLane 0 1 0 2)).fed ↑0).setBlk (↑0) (have __src := ((sLane (wLane 0 1 0 2)).fed ↑0).blk ↑0;
    { tiles := __src.tiles, taps := __src.taps, samples := __src.samples, verifyCount := __src.verifyCount, replay := __src.replay, rowTest := __src.rowTest, reinit := __src.reinit, drains := __src.drains, winWait := __src.winWait, planes := __src.planes, dbgPending := __src.dbgPending, current := __src.current, lastBg := __src.lastBg, tieRows := __src.tieRows, fabQ := [] })
    → (((sLane (wLane 0 1 0 2)).fed 0).blk 0).fabQ = [fj (wLane 0 1 0 2)] ∧ (fj (wLane 0 1 0 2)).ctx = 0 ∧ ((sLane (wLane 0 1 0 2)).fed 0).blockStopped 0
    = false ∧ ((sLane (wLane 0 1 0 2)).fed 0).fabWaits 0 (fj (wLane 0 1 0 2)) = false ∧ List.find? (fun x => x.entry == (fj (wLane 0 1 0 2)).entry)
    s1.launches = some (fl (sLane (wLane 0 1 0 2))) ∧ (fl (sLane (wLane 0 1 0 2))).block = 0 ∧ (fl (sLane (wLane 0 1 0 2))).ctx = 0 ∧ iBits (fj (wLane 0 1
    0 2)).word 0 8 = opFabLane ∧ laneLegal s1 (fl (sLane (wLane 0 1 0 2))) (fj (wLane 0 1 0 2)).word = true ∧ (laneOp (fj (wLane 0 1 0 2)).word).op ≠ 9 := by rintro _ rfl; decide +kernel
theorem witness_lane_last :
    ∀ (s1 : State), s1 = ((sLane (wLane 7 0 15 1)).fed ↑0).setBlk (↑0) (have __src := ((sLane (wLane 7 0 15 1)).fed ↑0).blk ↑0;
    { tiles := __src.tiles, taps := __src.taps, samples := __src.samples, verifyCount := __src.verifyCount, replay := __src.replay, rowTest := __src.rowTest, reinit := __src.reinit, drains := __src.drains, winWait := __src.winWait, planes := __src.planes, dbgPending := __src.dbgPending, current := __src.current, lastBg := __src.lastBg, tieRows := __src.tieRows, fabQ := [] })
    → (((sLane (wLane 7 0 15 1)).fed 0).blk 0).fabQ = [fj (wLane 7 0 15 1)] ∧ (fj (wLane 7 0 15 1)).ctx = 0 ∧ ((sLane (wLane 7 0 15 1)).fed
    0).blockStopped 0 = false ∧ ((sLane (wLane 7 0 15 1)).fed 0).fabWaits 0 (fj (wLane 7 0 15 1)) = false ∧ List.find? (fun x => x.entry == (fj (wLane 7 0
    15 1)).entry) s1.launches = some (fl (sLane (wLane 7 0 15 1))) ∧ (fl (sLane (wLane 7 0 15 1))).block = 0 ∧ (fl (sLane (wLane 7 0 15 1))).ctx = 0 ∧
    iBits (fj (wLane 7 0 15 1)).word 0 8 = opFabLane ∧ laneLegal s1 (fl (sLane (wLane 7 0 15 1))) (fj (wLane 7 0 15 1)).word = true ∧ (laneOp (fj (wLane 7
    0 15 1)).word).op ≠ 9 := by rintro _ rfl; decide +kernel
theorem witness_lane_all :
    ∀ (s1 : State), s1 = ((sLane (wLane 6 0 0 16)).fed ↑0).setBlk (↑0) (have __src := ((sLane (wLane 6 0 0 16)).fed ↑0).blk ↑0;
    { tiles := __src.tiles, taps := __src.taps, samples := __src.samples, verifyCount := __src.verifyCount, replay := __src.replay, rowTest := __src.rowTest, reinit := __src.reinit, drains := __src.drains, winWait := __src.winWait, planes := __src.planes, dbgPending := __src.dbgPending, current := __src.current, lastBg := __src.lastBg, tieRows := __src.tieRows, fabQ := [] })
    → (((sLane (wLane 6 0 0 16)).fed 0).blk 0).fabQ = [fj (wLane 6 0 0 16)] ∧ (fj (wLane 6 0 0 16)).ctx = 0 ∧ ((sLane (wLane 6 0 0 16)).fed
    0).blockStopped 0 = false ∧ ((sLane (wLane 6 0 0 16)).fed 0).fabWaits 0 (fj (wLane 6 0 0 16)) = false ∧ List.find? (fun x => x.entry == (fj (wLane 6 0
    0 16)).entry) s1.launches = some (fl (sLane (wLane 6 0 0 16))) ∧ (fl (sLane (wLane 6 0 0 16))).block = 0 ∧ (fl (sLane (wLane 6 0 0 16))).ctx = 0 ∧
    iBits (fj (wLane 6 0 0 16)).word 0 8 = opFabLane ∧ laneLegal s1 (fl (sLane (wLane 6 0 0 16))) (fj (wLane 6 0 0 16)).word = true ∧ (laneOp (fj (wLane 6
    0 0 16)).word).op ≠ 9 := by rintro _ rfl; decide +kernel
theorem witness_lane_overlap :
    ∀ (s1 : State), s1 = ((sLane (wLane 7 1 0 15)).fed ↑0).setBlk (↑0) (have __src := ((sLane (wLane 7 1 0 15)).fed ↑0).blk ↑0;
    { tiles := __src.tiles, taps := __src.taps, samples := __src.samples, verifyCount := __src.verifyCount, replay := __src.replay, rowTest := __src.rowTest, reinit := __src.reinit, drains := __src.drains, winWait := __src.winWait, planes := __src.planes, dbgPending := __src.dbgPending, current := __src.current, lastBg := __src.lastBg, tieRows := __src.tieRows, fabQ := [] })
    → (((sLane (wLane 7 1 0 15)).fed 0).blk 0).fabQ = [fj (wLane 7 1 0 15)] ∧ (fj (wLane 7 1 0 15)).ctx = 0 ∧ ((sLane (wLane 7 1 0 15)).fed
    0).blockStopped 0 = false ∧ ((sLane (wLane 7 1 0 15)).fed 0).fabWaits 0 (fj (wLane 7 1 0 15)) = false ∧ List.find? (fun x => x.entry == (fj (wLane 7 1
    0 15)).entry) s1.launches = some (fl (sLane (wLane 7 1 0 15))) ∧ (fl (sLane (wLane 7 1 0 15))).block = 0 ∧ (fl (sLane (wLane 7 1 0 15))).ctx = 0 ∧
    iBits (fj (wLane 7 1 0 15)).word 0 8 = opFabLane ∧ laneLegal s1 (fl (sLane (wLane 7 1 0 15))) (fj (wLane 7 1 0 15)).word = true ∧ (laneOp (fj (wLane 7
    1 0 15)).word).op ≠ 9 := by rintro _ rfl; decide +kernel
theorem witness_lane_load :
    ∀ (s1 : State), s1 = ((sLane (wLane 8 14 0 2)).fed ↑0).setBlk (↑0) (have __src := ((sLane (wLane 8 14 0 2)).fed ↑0).blk ↑0;
    { tiles := __src.tiles, taps := __src.taps, samples := __src.samples, verifyCount := __src.verifyCount, replay := __src.replay, rowTest := __src.rowTest, reinit := __src.reinit, drains := __src.drains, winWait := __src.winWait, planes := __src.planes, dbgPending := __src.dbgPending, current := __src.current, lastBg := __src.lastBg, tieRows := __src.tieRows, fabQ := [] })
    → (((sLane (wLane 8 14 0 2)).fed 0).blk 0).fabQ = [fj (wLane 8 14 0 2)] ∧ (fj (wLane 8 14 0 2)).ctx = 0 ∧ ((sLane (wLane 8 14 0 2)).fed
    0).blockStopped 0 = false ∧ ((sLane (wLane 8 14 0 2)).fed 0).fabWaits 0 (fj (wLane 8 14 0 2)) = false ∧ List.find? (fun x => x.entry == (fj (wLane 8
    14 0 2)).entry) s1.launches = some (fl (sLane (wLane 8 14 0 2))) ∧ (fl (sLane (wLane 8 14 0 2))).block = 0 ∧ (fl (sLane (wLane 8 14 0 2))).ctx = 0 ∧
    iBits (fj (wLane 8 14 0 2)).word 0 8 = opFabLane ∧ laneLegal s1 (fl (sLane (wLane 8 14 0 2))) (fj (wLane 8 14 0 2)).word = true ∧ (laneOp (fj (wLane 8
    14 0 2)).word).op ≠ 9 := by rintro _ rfl; decide +kernel
theorem witness_lane_store :
    ∀ (s1 : State), s1 = ((sLane (wLane 9 0 0 2)).fed ↑0).setBlk (↑0) (have __src := ((sLane (wLane 9 0 0 2)).fed ↑0).blk ↑0;
    { tiles := __src.tiles, taps := __src.taps, samples := __src.samples, verifyCount := __src.verifyCount, replay := __src.replay, rowTest := __src.rowTest, reinit := __src.reinit, drains := __src.drains, winWait := __src.winWait, planes := __src.planes, dbgPending := __src.dbgPending, current := __src.current, lastBg := __src.lastBg, tieRows := __src.tieRows, fabQ := [] })
    → (((sLane (wLane 9 0 0 2)).fed 0).blk 0).fabQ = [fj (wLane 9 0 0 2)] ∧ (fj (wLane 9 0 0 2)).ctx = 0 ∧ ((sLane (wLane 9 0 0 2)).fed 0).blockStopped 0
    = false ∧ ((sLane (wLane 9 0 0 2)).fed 0).fabWaits 0 (fj (wLane 9 0 0 2)) = false ∧ List.find? (fun x => x.entry == (fj (wLane 9 0 0 2)).entry)
    s1.launches = some (fl (sLane (wLane 9 0 0 2))) ∧ (fl (sLane (wLane 9 0 0 2))).block = 0 ∧ (fl (sLane (wLane 9 0 0 2))).ctx = 0 ∧ iBits (fj (wLane 9 0
    0 2)).word 0 8 = opFabLane ∧ laneLegal s1 (fl (sLane (wLane 9 0 0 2))) (fj (wLane 9 0 0 2)).word = true ∧ (laneOp (fj (wLane 9 0 0 2)).word).op = 9 := by rintro _ rfl; decide +kernel
theorem witness_planeScan :
    sPlane.absent 63 = false ∧ sPlane.regionFenced (63 / 16) = false ∧ sPlane.image 63 1 ≠ none := by decide +kernel
theorem witness_gramRow :
    sSmp.absent 63 = false ∧ sSmp.regionFenced (63 / 16) = false ∧ (sSmp.blk 63).samples = [smp false, smp true] ∧ (smp false).clear = false := by decide +kernel
theorem witness_gramRow_clear :
    sSmpC.absent 63 = false ∧ sSmpC.regionFenced (63 / 16) = false ∧ (sSmpC.blk 63).samples = [smp true] := by decide +kernel
theorem witness_tap :
    sTap.nextInstr 0 0 = some (lOf 2, wTap) ∧ List.find? (fun x => x.entry == (lOf 2).entry) sTap.launches = some (lOf 2) ∧ iBits wTap 0 8 = opGrmTap ∧
    tapLegal sTap (lOf 2) wTap = true ∧ (lOf 2).pc + 1 < (lOf 2).len := by decide +kernel
theorem witness_tap_again :
    sTap2.nextInstr 0 0 = some (lOf 2, wTap) ∧ List.find? (fun x => x.entry == (lOf 2).entry) sTap2.launches = some (lOf 2) ∧ iBits wTap 0 8 = opGrmTap ∧
    tapLegal sTap2 (lOf 2) wTap = true ∧ (lOf 2).pc + 1 < (lOf 2).len ∧ (sTap2.blk 0).taps.find (lOf 2).ctx ≠ none := by decide +kernel
theorem witness_gramDrain :
    sGd.nextInstr 0 0 = some (lOf 2, wGd) ∧ List.find? (fun x => x.entry == (lOf 2).entry) sGd.launches = some (lOf 2) ∧ iBits wGd 0 8 = opGrmDrain ∧
    gdrainLegal sGd (lOf 2) wGd = true ∧ (sGd.blk 0).samples = [] := by decide +kernel

/-! ### Witnesses: Curvature statistics, roots, solves and updates -/

def vConf (step code : Nat) : Verdict := { Verdict.zero with step := step, code := code, phase := 3 }
def stBody : List (Nat × Nat × Nat) := [(16, 3, 5), (28, 4, 2), (32, 4, 0x3F000000), (36, 4, 7), (40, 8, 0x20000), (48, 8, 0x2000)]
def sStats (vs : List Verdict) (f : Nat) : State := { withDesc (withMem (withMem up 0x2000 (mkBytes 64 [(8, 3, 5), (11, 1, 1), (12, 4, 128)])) 0x20000 (mkBytes 8 [(0, 4, f)])) 1 kindStats 0 0 stBody with verdicts := vs }
def sStatsLate : State := withDesc up 1 kindStats 16 0 stBody 777
def sStatsBad : State := withDesc up 1 kindStats 0 0 [(16, 3, 5)]
def sStatsPast : State := { sStatsLate with tide := { TideUnit.zero with ns := 778 } }
def rtBody : List (Nat × Nat × Nat) := [(16, 8, 0x100000), (24, 8, 0x200000), (32, 8, 0x300000), (48, 2, 0x3C00), (50, 2, 0x3F80), (52, 2, 1), (58, 1, 8), (59, 1, 2), (60, 1, 40)]
def sRoot0 (dl : Nat) : State := withDesc (withMem up 0x200000 (mkBytes 64 [(4, 4, 128), (8, 1, 1), (9, 2, 1)])) 1 kindRoot 16 0 rtBody dl
def jobOf (k : Nat) : RootJob := { rootInit [] [] [2] [] with n := 1, x := [0x3F80], m := [0x3F80], k := k, res := 0x40000000 }
def rtTolNeg : List (Nat × Nat × Nat) := [(48, 2, 0xBF80), (50, 2, 0x3F80), (58, 1, 8), (59, 1, 2), (60, 1, 40), (24, 8, 0x200000), (32, 8, 0x300000)]
def sIter : State := { withDesc up 1 kindRoot 16 0 rtTolNeg 5000 with rootJobs := [(1, jobOf 0)] }
def sIterEnd : State := { withDesc up 1 kindRoot 16 0 rtBody 5000 with rootJobs := [(1, jobOf 3)] }
def slBody (op : Nat) : List (Nat × Nat × Nat) := [(16, 1, op), (18, 1, 3), (20, 4, 9), (28, 2, 5), (30, 2, 0x3F80), (32, 8, 0x1000), (40, 8, 0x2000), (48, 8, 0x3000), (56, 8, 0x10000), (24, 4, 1)]
def memSl : State := withMem up 0x1000 (mkBytes 128 [(0, 4, 2), (4, 4, 4), (8, 4, 0x3F800000), (64, 4, 0x40000000), (68, 4, 0), (72, 4, 0x3F800000), (76, 4, 0x400001), (80, 4, 0x3F800000), (84, 4, 0), (88, 4, 0x40400000), (92, 4, 0x400001)])
def memUp : State := withMem up 0x1000 (mkBytes 8 [(0, 4, 3), (4, 4, 0x3F800000)])
def sysOf : Solver := { Solver.zero with valid := true, id := 9, ws := 0x10000, n := 2, f := 4, lam := 16, entries := [(32, 0), (16, 0x400001), (16, 0), (48, 0x400001)], gather := [] }
def sLoad (op : Nat) : State := withDesc memSl 1 kindSolve 0 0 (slBody op)
def sUpd (op : Nat) : State := { withDesc memUp 1 kindSolve 0 0 (slBody op) with solvers := [(3, sysOf)] }
def sSolve (fl dl : Nat) : State := { withDesc (withMem up 0x2000 (mkBytes 8 [(0, 4, 0x3F800000), (4, 4, 0x40000000)])) 1 kindSolve fl 0 (slBody 4) dl with solvers := [(3, sysOf)] }
def sSolvePast : State := { sSolve 16 5000 with tide := { TideUnit.zero with ns := 5000 } }
def upBody (m : Nat) : List (Nat × Nat × Nat) := [(16, 8, 0x4000), (24, 8, 0x1000), (32, 4, 7), (36, 1, m), (37, 1, 3), (40, 8, 0x2000), (48, 8, if m = 2 then 0x3000 else 0)]
def memU : State := withMem (withMem (withMem up 0x2000 (mkBytes 64 [(0, 4, 0x3C23D70A), (4, 4, 0x3F666666), (8, 4, 0x3DCCCCCD), (12, 4, 0x3F7FBE77), (16, 4, 0x3A83126F), (20, 4, 0x322BCC77), (28, 4, 0x3F800000), (32, 4, 0x3F800000)])) 0x4000 (mkBytes 64 [(8, 3, 5), (12, 4, 4), (0, 8, 6)])) 0x1000 (mkBytes 16 [(0, 4, 0x3F800000), (8, 4, 0xBF800000)])
def gUpd : Group := { Group.zero with begin_ := 2, expected := 2 }
def sUpdate (m : Nat) (vs : List Verdict) : State := { withDesc memU 1 kindUpdate 0 7 (upBody m) with groups := [(7, gUpd)], verdicts := vs }
theorem witness_stats_skip :
    ∀ (x : List Byte × AccEnd × State), x = (sStats [vConf 7 3] 0).load devUnit (stArea ((sStats [vConf 7 3] 0).desc 1)) 64 → (sStats [vConf 7 3] 0).fresh
    1 kindStats = true ∧ dGroup ((sStats [vConf 7 3] 0).desc 1) = 0 ∧ statsOk ((sStats [vConf 7 3] 0).desc 1) = true ∧ (sStats [vConf 7 3] 0).statsLate
    ((sStats [vConf 7 3] 0).desc 1) = false ∧ ((sStats [vConf 7 3] 0).earlier 1 kindStats fun d => stArea d == stArea ((sStats [vConf 7 3] 0).desc 1)) =
    false ∧ (∀ p ∈ (sStats [vConf 7 3] 0).work, p.2.done = true ∨ p.2.kind ≠ kindStats ∨ p.1 = 1 ∨ p.2.phase = 0 ∨ stArea ((sStats [vConf 7 3] 0).desc
    p.1) ≠ stArea ((sStats [vConf 7 3] 0).desc 1)) ∧ x.2.1 = AccEnd.ok ∧ statsHeaderOk ((sStats [vConf 7 3] 0).desc 1) x.1 = true ∧ (sStats [vConf 7 3]
    0).statsPlace ((sStats [vConf 7 3] 0).desc 1) x.1 = ErrCode.none ∧ (sStats [vConf 7 3] 0).confirmedCode (leAt ((sStats [vConf 7 3] 0).desc 1) 36 4) =
    some 3 ∧ (3 = 3 ∨ 3 = 4) := by rintro _ rfl; decide +kernel
theorem witness_stats_veto :
    ∀ (x : List Byte × AccEnd × State), x = (sStats [vConf 7 4] 0).load devUnit (stArea ((sStats [vConf 7 4] 0).desc 1)) 64 → (sStats [vConf 7 4] 0).fresh
    1 kindStats = true ∧ dGroup ((sStats [vConf 7 4] 0).desc 1) = 0 ∧ statsOk ((sStats [vConf 7 4] 0).desc 1) = true ∧ (sStats [vConf 7 4] 0).statsLate
    ((sStats [vConf 7 4] 0).desc 1) = false ∧ ((sStats [vConf 7 4] 0).earlier 1 kindStats fun d => stArea d == stArea ((sStats [vConf 7 4] 0).desc 1)) =
    false ∧ (∀ p ∈ (sStats [vConf 7 4] 0).work, p.2.done = true ∨ p.2.kind ≠ kindStats ∨ p.1 = 1 ∨ p.2.phase = 0 ∨ stArea ((sStats [vConf 7 4] 0).desc
    p.1) ≠ stArea ((sStats [vConf 7 4] 0).desc 1)) ∧ x.2.1 = AccEnd.ok ∧ statsHeaderOk ((sStats [vConf 7 4] 0).desc 1) x.1 = true ∧ (sStats [vConf 7 4]
    0).statsPlace ((sStats [vConf 7 4] 0).desc 1) x.1 = ErrCode.none ∧ (sStats [vConf 7 4] 0).confirmedCode (leAt ((sStats [vConf 7 4] 0).desc 1) 36 4) =
    some 4 ∧ (4 = 3 ∨ 4 = 4) := by rintro _ rfl; decide +kernel
theorem witness_stats_waits :
    ∀ (x : List Byte × AccEnd × State), x = (sStats [] 0).load devUnit (stArea ((sStats [] 0).desc 1)) 64 → (sStats [] 0).fresh 1 kindStats = true ∧
    dGroup ((sStats [] 0).desc 1) = 0 ∧ statsOk ((sStats [] 0).desc 1) = true ∧ (sStats [] 0).statsLate ((sStats [] 0).desc 1) = false ∧ ((sStats []
    0).earlier 1 kindStats fun d => stArea d == stArea ((sStats [] 0).desc 1)) = false ∧ (∀ p ∈ (sStats [] 0).work, p.2.done = true ∨ p.2.kind ≠ kindStats
    ∨ p.1 = 1 ∨ p.2.phase = 0 ∨ stArea ((sStats [] 0).desc p.1) ≠ stArea ((sStats [] 0).desc 1)) ∧ x.2.1 = AccEnd.ok ∧ statsHeaderOk ((sStats [] 0).desc
    1) x.1 = true ∧ (sStats [] 0).statsPlace ((sStats [] 0).desc 1) x.1 = ErrCode.none ∧ (sStats [] 0).confirmedCode (leAt ((sStats [] 0).desc 1) 36 4) =
    none := by rintro _ rfl; decide +kernel
theorem witness_stats_past :
    sStatsPast.fresh 1 kindStats = true ∧ dGroup (sStatsPast.desc 1) = 0 ∧ statsOk (sStatsPast.desc 1) = true ∧ sStatsPast.statsLate (sStatsPast.desc 1) =
    true := by decide +kernel
theorem witness_stats_bad :
    sStatsBad.fresh 1 kindStats = true ∧ dGroup (sStatsBad.desc 1) = 0 ∧ statsOk (sStatsBad.desc 1) = false := by decide +kernel
theorem witness_stats_late :
    sStatsLate.fresh 1 kindStats = true ∧ dGroup (sStatsLate.desc 1) = 0 ∧ dDeadlineValid (sStatsLate.desc 1) = true ∧ sStatsLate.confirmedCode (leAt
    (sStatsLate.desc 1) 36 4) = none := by decide +kernel
theorem witness_root_iterate :
    ∀ (xm : List ℕ × List ℕ) (r : ℕ), xm = iterate (jobOf 0).n (rtCode (sIter.desc 1)) (jobOf 0).x (jobOf 0).m → r = Machine.residual (jobOf 0).n xm.2 →
    sIter.rootJob 1 = some (jobOf 0) ∧ (jobOf 0).lost = false ∧ (jobOf 0).pub = none ∧ sIter.slotPoisoned (sIter.desc 1) (jobOf 0) = false ∧ f32finite r =
    true ∧ f32lt 1073741824 r = false ∧ sIter.tide.ns ≤ dDeadline (sIter.desc 1) ∧ f32le r (rtTol (sIter.desc 1)) = false ∧ ((jobOf 0).k + 1 < 2 ∨ f32le
    (jobOf 0).res r = false) ∧ (jobOf 0).k + 1 ≠ rtKmax (sIter.desc 1) := by rintro _ _ rfl rfl; decide +kernel
theorem witness_root_deadline :
    sIterEnd.doing 1 kindRoot = true ∧ dDeadlineValid (sIterEnd.desc 1) = true ∧ sIterEnd.rootJob 1 = some (jobOf 3) := by decide +kernel
theorem witness_root_deadline_fresh :
    (sRoot0 900).fresh 1 kindRoot = true ∧ dDeadlineValid ((sRoot0 900).desc 1) = true ∧ (sRoot0 900).rootJob 1 = none := by decide +kernel
set_option maxRecDepth 8000 in
theorem witness_solver_load :
    ∀ (r : ℕ) (x : List Byte × AccEnd × State) (nn : ℕ) (y : List Byte × AccEnd × State) (raw : List (ℕ × ℕ)) (vals : List (FVal × ℕ)) (lam : FVal) (g :
    ℤ) (f' : ℕ) (es : List (ℤ × ℕ)) (l : ℤ), r = slRegion ((sLoad 1).desc 1) → x = (sLoad 1).load devUnit (leAt ((sLoad 1).desc 1) 32 8) 64 → nn = leAt
    x.1 4 4 → y = x.2.2.load devUnit (leAt ((sLoad 1).desc 1) 32 8 + 64) (8 * nn) → raw = List.map (fun i => (leAt y.1 (8 * i) 4, leAt y.1 (8 * i + 4) 4))
    (List.range nn) → vals = List.map (fun t => (Fmt.fp32.decode t.1, t.2)) raw → lam = Fmt.fp32.decode (leAt x.1 8 4) → g = List.foldl max (-128)
    (List.map (fun t => gOf (rowMag lam t.2 t.1)) (rowsOf (fun x => x.2) vals []).zipIdx) → f' = min 40 (fBound (slHead ((sLoad 1).desc 1)) g).toNat → es
    = List.map (fun t => (((toSq f' t.1).getD (0, false)).1, t.2)) vals → l = ((toSq f' lam).getD (0, false)).1 → (sLoad 1).fresh 1 kindSolve = true ∧
    solveOk ((sLoad 1).desc 1) = true ∧ (sLoad 1).solveTurn 1 = true ∧ (sLoad 1).regionFenced r = false ∧ slOp ((sLoad 1).desc 1) 0 = true ∧ x.2.1 =
    AccEnd.ok ∧ y.2.1 = AccEnd.ok ∧ structOk (leAt x.1 0 4) nn x.1 raw = true ∧ (∀ v ∈ vals, v.1.isFin = true) ∧ lam.isFin = true ∧ 0 ≤ fBound (slHead
    ((sLoad 1).desc 1)) g ∧ rulesHold (slHead ((sLoad 1).desc 1)) l es = true ∧ slOp ((sLoad 1).desc 1) 2 = false := by rintro _ _ _ _ _ _ _ _ _ _ _ rfl rfl rfl rfl rfl rfl rfl rfl rfl rfl rfl; decide +kernel
set_option maxRecDepth 8000 in
theorem witness_solver_load_solve :
    ∀ (r : ℕ) (x : List Byte × AccEnd × State) (nn : ℕ) (y : List Byte × AccEnd × State) (raw : List (ℕ × ℕ)) (vals : List (FVal × ℕ)) (lam : FVal) (g :
    ℤ) (f' : ℕ) (es : List (ℤ × ℕ)) (l : ℤ), r = slRegion ((sLoad 5).desc 1) → x = (sLoad 5).load devUnit (leAt ((sLoad 5).desc 1) 32 8) 64 → nn = leAt
    x.1 4 4 → y = x.2.2.load devUnit (leAt ((sLoad 5).desc 1) 32 8 + 64) (8 * nn) → raw = List.map (fun i => (leAt y.1 (8 * i) 4, leAt y.1 (8 * i + 4) 4))
    (List.range nn) → vals = List.map (fun t => (Fmt.fp32.decode t.1, t.2)) raw → lam = Fmt.fp32.decode (leAt x.1 8 4) → g = List.foldl max (-128)
    (List.map (fun t => gOf (rowMag lam t.2 t.1)) (rowsOf (fun x => x.2) vals []).zipIdx) → f' = min 3 (fBound (slHead ((sLoad 5).desc 1)) g).toNat → es =
    List.map (fun t => (((toSq f' t.1).getD (0, false)).1, t.2)) vals → l = ((toSq f' lam).getD (0, false)).1 → (sLoad 5).fresh 1 kindSolve = true ∧
    solveOk ((sLoad 5).desc 1) = true ∧ (sLoad 5).solveTurn 1 = true ∧ (sLoad 5).regionFenced r = false ∧ slOp ((sLoad 5).desc 1) 0 = true ∧ x.2.1 =
    AccEnd.ok ∧ y.2.1 = AccEnd.ok ∧ structOk (leAt x.1 0 4) nn x.1 raw = true ∧ (∀ v ∈ vals, v.1.isFin = true) ∧ lam.isFin = true ∧ 0 ≤ fBound (slHead
    ((sLoad 5).desc 1)) g ∧ rulesHold (slHead ((sLoad 5).desc 1)) l es = true ∧ slOp ((sLoad 5).desc 1) 2 = true := by rintro _ _ _ _ _ _ _ _ _ _ _ rfl rfl rfl rfl rfl rfl rfl rfl rfl rfl rfl; decide +kernel
theorem witness_solver_update :
    ∀ (r : ℕ) (y : List Byte × AccEnd × State) (b : List (ℕ × FVal)), r = slRegion ((sUpd 2).desc 1) → y = (sUpd 2).load devUnit (leAt ((sUpd 2).desc 1)
    32 8) (8 * slCount ((sUpd 2).desc 1)) → b = List.map (fun i => (leAt y.1 (8 * i) 4, Fmt.fp32.decode (leAt y.1 (8 * i + 4) 4))) (List.range (slCount
    ((sUpd 2).desc 1))) → (sUpd 2).fresh 1 kindSolve = true ∧ solveOk ((sUpd 2).desc 1) = true ∧ (sUpd 2).solveTurn 1 = true ∧ (sUpd 2).regionFenced r =
    false ∧ slOp ((sUpd 2).desc 1) 1 = true ∧ systemOk ((sUpd 2).solver r) ((sUpd 2).desc 1) = true ∧ wrongWork ((sUpd 2).solver r) ((sUpd 2).desc 1) =
    false ∧ y.2.1 = AccEnd.ok ∧ (∀ t ∈ b, t.1 < ((sUpd 2).solver r).entries.length ∨ t.1 = 4294967295) ∧ (applyBatch ((sUpd 2).solver r).h ((sUpd
    2).solver r).f (((sUpd 2).solver r).lam, ((sUpd 2).solver r).entries) b).2 = true ∧ slOp ((sUpd 2).desc 1) 2 = false := by rintro _ _ _ rfl rfl rfl; decide +kernel
theorem witness_solver_update_solve :
    ∀ (r : ℕ) (y : List Byte × AccEnd × State) (b : List (ℕ × FVal)), r = slRegion ((sUpd 6).desc 1) → y = (sUpd 6).load devUnit (leAt ((sUpd 6).desc 1)
    32 8) (8 * slCount ((sUpd 6).desc 1)) → b = List.map (fun i => (leAt y.1 (8 * i) 4, Fmt.fp32.decode (leAt y.1 (8 * i + 4) 4))) (List.range (slCount
    ((sUpd 6).desc 1))) → (sUpd 6).fresh 1 kindSolve = true ∧ solveOk ((sUpd 6).desc 1) = true ∧ (sUpd 6).solveTurn 1 = true ∧ (sUpd 6).regionFenced r =
    false ∧ slOp ((sUpd 6).desc 1) 1 = true ∧ systemOk ((sUpd 6).solver r) ((sUpd 6).desc 1) = true ∧ wrongWork ((sUpd 6).solver r) ((sUpd 6).desc 1) =
    false ∧ y.2.1 = AccEnd.ok ∧ (∀ t ∈ b, t.1 < ((sUpd 6).solver r).entries.length ∨ t.1 = 4294967295) ∧ (applyBatch ((sUpd 6).solver r).h ((sUpd
    6).solver r).f (((sUpd 6).solver r).lam, ((sUpd 6).solver r).entries) b).2 = true ∧ slOp ((sUpd 6).desc 1) 2 = true := by rintro _ _ _ rfl rfl rfl; decide +kernel
theorem witness_solver_solve :
    ∀ (x y : List Byte × AccEnd × State), x = (sSolve 0 0).load devUnit (leAt ((sSolve 0 0).desc 1) 40 8) (4 * ((sSolve 0 0).solver 3).n) → (y = if slOp
    ((sSolve 0 0).desc 1) 3 = true then x.2.2.load devUnit (leAt ((sSolve 0 0).desc 1) 48 8) (4 * ((sSolve 0 0).solver 3).n) else ([], AccEnd.ok, x.2.2))
    → 3 = slRegion ((sSolve 0 0).desc 1) ∧ (sSolve 0 0).solveNext 1 = true ∧ solveOk ((sSolve 0 0).desc 1) = true ∧ (sSolve 0 0).regionFenced 3 = false ∧
    systemOk ((sSolve 0 0).solver 3) ((sSolve 0 0).desc 1) = true ∧ wrongWork ((sSolve 0 0).solver 3) ((sSolve 0 0).desc 1) = false ∧ (sSolve 0
    0).solveAdd 1 = [] ∧ x.2.1 = AccEnd.ok ∧ y.2.1 = AccEnd.ok := by rintro _ _ rfl rfl; decide +kernel
theorem witness_solver_deadline :
    ∀ (x y : List Byte × AccEnd × State), x = ((sSolve 16 5000).atTide (dDeadline ((sSolve 16 5000).desc 1))).load devUnit (leAt ((sSolve 16 5000).desc 1)
    40 8) (4 * ((sSolve 16 5000).solver 3).n) → (y = if slOp ((sSolve 16 5000).desc 1) 3 = true then x.2.2.load devUnit (leAt ((sSolve 16 5000).desc 1) 48
    8) (4 * ((sSolve 16 5000).solver 3).n) else ([], AccEnd.ok, x.2.2)) → 3 = slRegion ((sSolve 16 5000).desc 1) ∧ (sSolve 16 5000).solveNext 1 = true ∧
    solveOk ((sSolve 16 5000).desc 1) = true ∧ (sSolve 16 5000).regionFenced 3 = false ∧ systemOk ((sSolve 16 5000).solver 3) ((sSolve 16 5000).desc 1) =
    true ∧ wrongWork ((sSolve 16 5000).solver 3) ((sSolve 16 5000).desc 1) = false ∧ (sSolve 16 5000).solveAdd 1 = [] ∧ dDeadlineValid ((sSolve 16
    5000).desc 1) = true ∧ x.2.1 = AccEnd.ok ∧ y.2.1 = AccEnd.ok := by rintro _ _ rfl rfl; decide +kernel
theorem witness_solver_deadline0 :
    ∀ (x y : List Byte × AccEnd × State), x = ((sSolve 16 5000).atTide (dDeadline ((sSolve 16 5000).desc 1))).load devUnit (leAt ((sSolve 16 5000).desc 1)
    40 8) (4 * ((sSolve 16 5000).solver 3).n) → (y = if slOp ((sSolve 16 5000).desc 1) 3 = true then x.2.2.load devUnit (leAt ((sSolve 16 5000).desc 1) 48
    8) (4 * ((sSolve 16 5000).solver 3).n) else ([], AccEnd.ok, x.2.2)) → 3 = slRegion ((sSolve 16 5000).desc 1) ∧ (sSolve 16 5000).solveNext 1 = true ∧
    solveOk ((sSolve 16 5000).desc 1) = true ∧ (sSolve 16 5000).regionFenced 3 = false ∧ systemOk ((sSolve 16 5000).solver 3) ((sSolve 16 5000).desc 1) =
    true ∧ wrongWork ((sSolve 16 5000).solver 3) ((sSolve 16 5000).desc 1) = false ∧ (sSolve 16 5000).solveAdd 1 = [] ∧ dDeadlineValid ((sSolve 16
    5000).desc 1) = true ∧ x.2.1 = AccEnd.ok ∧ y.2.1 = AccEnd.ok := by rintro _ _ rfl rfl; decide +kernel
theorem witness_solver_past :
    ∀ (x y : List Byte × AccEnd × State), x = sSolvePast.load devUnit (leAt (sSolvePast.desc 1) 40 8) (4 * (sSolvePast.solver 3).n) → (y = if slOp
    (sSolvePast.desc 1) 3 = true then x.2.2.load devUnit (leAt (sSolvePast.desc 1) 48 8) (4 * (sSolvePast.solver 3).n) else ([], AccEnd.ok, x.2.2)) → 3 =
    slRegion (sSolvePast.desc 1) ∧ sSolvePast.solveNext 1 = true ∧ solveOk (sSolvePast.desc 1) = true ∧ sSolvePast.regionFenced 3 = false ∧ systemOk
    (sSolvePast.solver 3) (sSolvePast.desc 1) = true ∧ wrongWork (sSolvePast.solver 3) (sSolvePast.desc 1) = false ∧ sSolvePast.solveAdd 1 = [] ∧ x.2.1 =
    AccEnd.ok ∧ y.2.1 = AccEnd.ok ∧ sSolvePast.deadlinePast (sSolvePast.desc 1) = true := by rintro _ _ rfl rfl; decide +kernel
theorem witness_update_waits :
    ∀ (y h : List Byte × AccEnd × State), y = (sUpdate 0 []).load devUnit (leAt ((sUpdate 0 []).desc 1) 40 8) 64 → h = y.2.2.load devUnit (leAt ((sUpdate
    0 []).desc 1) 16 8) 64 → (sUpdate 0 []).fresh 1 kindUpdate = true ∧ updateOk ((sUpdate 0 []).desc 1) = true ∧ y.2.1 = AccEnd.ok ∧ h.2.1 = AccEnd.ok ∧
    (hyperOf y.1).ok = true ∧ dZero y.1 40 63 = true ∧ (sUpdate 0 []).sidesOk ((sUpdate 0 []).desc 1) (shardOf h.1) = true ∧ (sUpdate 0 []).openGroup
    (dGroup ((sUpdate 0 []).desc 1)) = some gUpd ∧ (sUpdate 0 []).placeErr (leAt ((sUpdate 0 []).desc 1) 37 1 % 64) = ErrCode.none ∧ (sUpdate 0
    []).updateHolds 1 (leAt ((sUpdate 0 []).desc 1) 16 8) = false ∧ ((sUpdate 0 []).earlier 1 kindUpdate fun z => leAt z 16 8 == leAt ((sUpdate 0 []).desc
    1) 16 8) = false ∧ gUpd.members.length < gUpd.expected ∧ gUpd.effects.length < 4096 ∧ (sUpdate 0 []).effectsHeld < 32768 ∧ (sUpdate 0 []).verdictFor
    ((sUpdate 0 []).desc 1) = none := by rintro _ _ rfl rfl; decide +kernel
theorem witness_update_skip :
    ∀ (y h : List Byte × AccEnd × State), y = (sUpdate 0 [vConf 7 3]).load devUnit (leAt ((sUpdate 0 [vConf 7 3]).desc 1) 40 8) 64 → h = y.2.2.load
    devUnit (leAt ((sUpdate 0 [vConf 7 3]).desc 1) 16 8) 64 → (sUpdate 0 [vConf 7 3]).fresh 1 kindUpdate = true ∧ updateOk ((sUpdate 0 [vConf 7 3]).desc
    1) = true ∧ y.2.1 = AccEnd.ok ∧ h.2.1 = AccEnd.ok ∧ (hyperOf y.1).ok = true ∧ dZero y.1 40 63 = true ∧ (sUpdate 0 [vConf 7 3]).sidesOk ((sUpdate 0
    [vConf 7 3]).desc 1) (shardOf h.1) = true ∧ (sUpdate 0 [vConf 7 3]).openGroup (dGroup ((sUpdate 0 [vConf 7 3]).desc 1)) = some gUpd ∧ (sUpdate 0
    [vConf 7 3]).placeErr (leAt ((sUpdate 0 [vConf 7 3]).desc 1) 37 1 % 64) = ErrCode.none ∧ (sUpdate 0 [vConf 7 3]).updateHolds 1 (leAt ((sUpdate 0
    [vConf 7 3]).desc 1) 16 8) = false ∧ ((sUpdate 0 [vConf 7 3]).earlier 1 kindUpdate fun z => leAt z 16 8 == leAt ((sUpdate 0 [vConf 7 3]).desc 1) 16 8)
    = false ∧ gUpd.members.length < gUpd.expected ∧ gUpd.effects.length < 4096 ∧ (sUpdate 0 [vConf 7 3]).effectsHeld < 32768 ∧ (sUpdate 0 [vConf 7
    3]).verdictFor ((sUpdate 0 [vConf 7 3]).desc 1) = some (vConf 7 3) ∧ ((vConf 7 3).code = 3 ∨ (vConf 7 3).code = 4) := by rintro _ _ rfl rfl; decide +kernel
theorem witness_update_veto :
    ∀ (y h : List Byte × AccEnd × State), y = (sUpdate 2 [vConf 7 4]).load devUnit (leAt ((sUpdate 2 [vConf 7 4]).desc 1) 40 8) 64 → h = y.2.2.load
    devUnit (leAt ((sUpdate 2 [vConf 7 4]).desc 1) 16 8) 64 → (sUpdate 2 [vConf 7 4]).fresh 1 kindUpdate = true ∧ updateOk ((sUpdate 2 [vConf 7 4]).desc
    1) = true ∧ y.2.1 = AccEnd.ok ∧ h.2.1 = AccEnd.ok ∧ (hyperOf y.1).ok = true ∧ dZero y.1 40 63 = true ∧ (sUpdate 2 [vConf 7 4]).sidesOk ((sUpdate 2
    [vConf 7 4]).desc 1) (shardOf h.1) = true ∧ (sUpdate 2 [vConf 7 4]).openGroup (dGroup ((sUpdate 2 [vConf 7 4]).desc 1)) = some gUpd ∧ (sUpdate 2
    [vConf 7 4]).placeErr (leAt ((sUpdate 2 [vConf 7 4]).desc 1) 37 1 % 64) = ErrCode.none ∧ (sUpdate 2 [vConf 7 4]).updateHolds 1 (leAt ((sUpdate 2
    [vConf 7 4]).desc 1) 16 8) = false ∧ ((sUpdate 2 [vConf 7 4]).earlier 1 kindUpdate fun z => leAt z 16 8 == leAt ((sUpdate 2 [vConf 7 4]).desc 1) 16 8)
    = false ∧ gUpd.members.length < gUpd.expected ∧ gUpd.effects.length < 4096 ∧ (sUpdate 2 [vConf 7 4]).effectsHeld < 32768 ∧ (sUpdate 2 [vConf 7
    4]).verdictFor ((sUpdate 2 [vConf 7 4]).desc 1) = some (vConf 7 4) ∧ ((vConf 7 4).code = 3 ∨ (vConf 7 4).code = 4) := by rintro _ _ rfl rfl; decide +kernel
set_option maxRecDepth 8000 in
theorem witness_update :
    ∀ (y h g a c : List Byte × AccEnd × State), y = (sUpdate 0 [vConf 7 1]).load devUnit (leAt ((sUpdate 0 [vConf 7 1]).desc 1) 40 8) 64 → h = y.2.2.load
    devUnit (leAt ((sUpdate 0 [vConf 7 1]).desc 1) 16 8) 64 → g = h.2.2.load devUnit (leAt ((sUpdate 0 [vConf 7 1]).desc 1) 24 8) (4 * (shardOf h.1).n) →
    (a = if bitsOf (leAt ((sUpdate 0 [vConf 7 1]).desc 1) 36 1) 0 2 = 2 then g.2.2.load devUnit (leAt ((sUpdate 0 [vConf 7 1]).desc 1) 48 8) (4 * (shardOf
    h.1).n) else ([], AccEnd.ok, g.2.2)) → c = a.2.2.load devUnit (sheetAt (leAt ((sUpdate 0 [vConf 7 1]).desc 1) 16 8) (shardOf h.1).n (shardOf
    h.1).bittern ((shardOf h.1).version % 2 == 1)) (sheetSize (shardOf h.1).n (shardOf h.1).bittern) → (sUpdate 0 [vConf 7 1]).fresh 1 kindUpdate = true ∧
    updateOk ((sUpdate 0 [vConf 7 1]).desc 1) = true ∧ y.2.1 = AccEnd.ok ∧ h.2.1 = AccEnd.ok ∧ (hyperOf y.1).ok = true ∧ dZero y.1 40 63 = true ∧ (sUpdate
    0 [vConf 7 1]).sidesOk ((sUpdate 0 [vConf 7 1]).desc 1) (shardOf h.1) = true ∧ (sUpdate 0 [vConf 7 1]).openGroup (dGroup ((sUpdate 0 [vConf 7 1]).desc
    1)) = some gUpd ∧ (sUpdate 0 [vConf 7 1]).placeErr (leAt ((sUpdate 0 [vConf 7 1]).desc 1) 37 1 % 64) = ErrCode.none ∧ (sUpdate 0 [vConf 7
    1]).updateHolds 1 (leAt ((sUpdate 0 [vConf 7 1]).desc 1) 16 8) = false ∧ ((sUpdate 0 [vConf 7 1]).earlier 1 kindUpdate fun z => leAt z 16 8 == leAt
    ((sUpdate 0 [vConf 7 1]).desc 1) 16 8) = false ∧ gUpd.members.length < gUpd.expected ∧ gUpd.effects.length < 4096 ∧ (sUpdate 0 [vConf 7
    1]).effectsHeld < 32768 ∧ (sUpdate 0 [vConf 7 1]).verdictFor ((sUpdate 0 [vConf 7 1]).desc 1) = some (vConf 7 1) ∧ (vConf 7 1).code ≠ 3 ∧ (vConf 7
    1).code ≠ 4 ∧ (sUpdate 0 [vConf 7 1]).sheetRead (leAt ((sUpdate 0 [vConf 7 1]).desc 1) 16 8) ((shardOf h.1).version % 2 == 0) = false ∧ g.2.1 =
    AccEnd.ok ∧ a.2.1 = AccEnd.ok ∧ c.2.1 = AccEnd.ok := by rintro _ _ _ _ _ rfl rfl rfl rfl rfl; decide +kernel
set_option maxRecDepth 8000 in
theorem witness_update_ext :
    ∀ (y h g a c : List Byte × AccEnd × State), y = (sUpdate 2 [vConf 7 2]).load devUnit (leAt ((sUpdate 2 [vConf 7 2]).desc 1) 40 8) 64 → h = y.2.2.load
    devUnit (leAt ((sUpdate 2 [vConf 7 2]).desc 1) 16 8) 64 → g = h.2.2.load devUnit (leAt ((sUpdate 2 [vConf 7 2]).desc 1) 24 8) (4 * (shardOf h.1).n) →
    (a = if bitsOf (leAt ((sUpdate 2 [vConf 7 2]).desc 1) 36 1) 0 2 = 2 then g.2.2.load devUnit (leAt ((sUpdate 2 [vConf 7 2]).desc 1) 48 8) (4 * (shardOf
    h.1).n) else ([], AccEnd.ok, g.2.2)) → c = a.2.2.load devUnit (sheetAt (leAt ((sUpdate 2 [vConf 7 2]).desc 1) 16 8) (shardOf h.1).n (shardOf
    h.1).bittern ((shardOf h.1).version % 2 == 1)) (sheetSize (shardOf h.1).n (shardOf h.1).bittern) → (sUpdate 2 [vConf 7 2]).fresh 1 kindUpdate = true ∧
    updateOk ((sUpdate 2 [vConf 7 2]).desc 1) = true ∧ y.2.1 = AccEnd.ok ∧ h.2.1 = AccEnd.ok ∧ (hyperOf y.1).ok = true ∧ dZero y.1 40 63 = true ∧ (sUpdate
    2 [vConf 7 2]).sidesOk ((sUpdate 2 [vConf 7 2]).desc 1) (shardOf h.1) = true ∧ (sUpdate 2 [vConf 7 2]).openGroup (dGroup ((sUpdate 2 [vConf 7 2]).desc
    1)) = some gUpd ∧ (sUpdate 2 [vConf 7 2]).placeErr (leAt ((sUpdate 2 [vConf 7 2]).desc 1) 37 1 % 64) = ErrCode.none ∧ (sUpdate 2 [vConf 7
    2]).updateHolds 1 (leAt ((sUpdate 2 [vConf 7 2]).desc 1) 16 8) = false ∧ ((sUpdate 2 [vConf 7 2]).earlier 1 kindUpdate fun z => leAt z 16 8 == leAt
    ((sUpdate 2 [vConf 7 2]).desc 1) 16 8) = false ∧ gUpd.members.length < gUpd.expected ∧ gUpd.effects.length < 4096 ∧ (sUpdate 2 [vConf 7
    2]).effectsHeld < 32768 ∧ (sUpdate 2 [vConf 7 2]).verdictFor ((sUpdate 2 [vConf 7 2]).desc 1) = some (vConf 7 2) ∧ (vConf 7 2).code ≠ 3 ∧ (vConf 7
    2).code ≠ 4 ∧ (sUpdate 2 [vConf 7 2]).sheetRead (leAt ((sUpdate 2 [vConf 7 2]).desc 1) 16 8) ((shardOf h.1).version % 2 == 0) = false ∧ g.2.1 =
    AccEnd.ok ∧ a.2.1 = AccEnd.ok ∧ c.2.1 = AccEnd.ok := by rintro _ _ _ _ _ rfl rfl rfl rfl rfl; decide +kernel

/-! ### Witnesses: Clipped statistics -/

def rtBodyR : List (Nat × Nat × Nat) := [(16, 8, 0x100000), (24, 8, 0x200000), (32, 8, 0x300000), (48, 2, 0x3C00), (50, 2, 0x3F80), (52, 2, 1), (58, 1, 24), (59, 1, 2), (60, 1, 40)]
def sResume0 : State := withDesc (withMem up 0x200000 (mkBytes 64 [(4, 4, 128), (8, 1, 1), (9, 2, 1)])) 1 kindRoot 16 0 rtBodyR 100000
def sResume : State := withMem sResume0 0x300000 (mkBytes 192 [(0, 1, 2), (16, 8, rootSig (sResume0.desc 1) []), (64, 1, 1), (68, 4, 6), (128, 1, 1), (132, 4, 5)])
set_option maxRecDepth 8000 in
theorem witness_root_resume :
    ∀ (x y z : List Byte × AccEnd × State), (x = if rtRaw (sResume.desc 1) = true then ([], AccEnd.ok, sResume) else sResume.load devUnit (rtSource
    (sResume.desc 1)) 64) → y = x.2.2.load devUnit (rtArea (sResume.desc 1)) 64 → z = y.2.2.load devUnit (slotSpan (sResume.desc 1) x.1).1 (slotSpan
    (sResume.desc 1) x.1).2 → sResume.fresh 1 kindRoot = true ∧ rootBodyOk (sResume.desc 1) = true ∧ sResume.tide.ns < dDeadline (sResume.desc 1) ∧ x.2.1
    = AccEnd.ok ∧ y.2.1 = AccEnd.ok ∧ rootHeadOk (sResume.desc 1) x.1 y.1 = true ∧ sResume.placementErr (sResume.desc 1) (leAt (sResume.desc 1) 59 1) =
    ErrCode.none ∧ (rtFlag (sResume.desc 1) 6 = true → sResume.placementErr (sResume.desc 1) (leAt (sResume.desc 1) 61 1) = ErrCode.none) ∧
    sResume.rootWaits 1 (sResume.desc 1) = false ∧ sResume.canResume (sResume.desc 1) x.1 = true ∧ sResume.le (rtWork (sResume.desc 1)) 1 = 2 ∧ z.2.1 =
    AccEnd.ok := by rintro _ _ _ rfl rfl rfl; decide +kernel

/-! ### Witnesses: Groups -/

def sBegin := withDesc up 1 kindGroupBegin 0 7 [(16,4,2)]
def sBeginMax := withDesc up 1 kindGroupBegin 0 4095 [(16,4,4096)]
def sOpen := (withDesc (withDesc up 2 kindGroupCommit 0 7 []) 3 kindGroupAbort 0 7 [])
def gOpen : State := { sOpen with groups := [(7, { Group.zero with begin_ := 1, expected := 1 })] }
def gFull : State := { sOpen with groups := [(7, { Group.zero with begin_ := 1, expected := 1, commit := some 2, members := [⟨4, [.ok], 3, 0⟩] })] }
def gDead : State := { (withDesc up 2 kindGroupCommit 16 7 [] 5000) with groups := [(7, { Group.zero with begin_ := 1, expected := 1, commit := some 2 })] }
def sBeginV := withDesc up 1 kindGroupBegin 0 7 [(16, 4, 2), (20, 1, 1), (22, 2, 5), (24, 4, 9), (32, 8, 4096)]
def gOne : Group := { Group.zero with begin_ := 1, expected := 1 }
def gDue : Group := { gOne with commit := some 2 }
def gReady : Group := { gOne with commit := some 2, members := [⟨4, [.ok], 3, 0⟩] }
def cHalf : CommitRec := ⟨7, 2, [.write 0x1000 [1#8], .write 0x2000 [2#8]], 2, 1, false, []⟩
def gWritten : State := { sOpen with commits := [cHalf] }
theorem witness_groupBegin :
    sBegin.fresh 1 kindGroupBegin = true ∧ sBegin.groupBeginOk (sBegin.desc 1) = true ∧ bitOf (leAt (sBegin.desc 1) 20 1) 0 = false := by decide +kernel
theorem witness_groupBegin_max :
    sBeginMax.fresh 1 kindGroupBegin = true ∧ sBeginMax.groupBeginOk (sBeginMax.desc 1) = true ∧ bitOf (leAt (sBeginMax.desc 1) 20 1) 0 = false := by decide +kernel
theorem witness_groupBegin_bound :
    sBeginV.fresh 1 kindGroupBegin = true ∧ sBeginV.groupBeginOk (sBeginV.desc 1) = true ∧ bitOf (leAt (sBeginV.desc 1) 20 1) 0 = true ∧ sBeginV.verdictOf
    (leAt (sBeginV.desc 1) 24 4) = none ∧ sBeginV.restartDue = false := by decide +kernel
theorem witness_groupCommit_closed :
    sOpen.fresh 2 kindGroupCommit = true ∧ dZero (sOpen.desc 2) 16 63 = true ∧ sOpen.groupOf (dGroup (sOpen.desc 2)) = none := by decide +kernel
theorem witness_groupCommit_open :
    gOpen.fresh 2 kindGroupCommit = true ∧ dZero (gOpen.desc 2) 16 63 = true ∧ gOpen.groupOf (dGroup (gOpen.desc 2)) = some gOne ∧ gOne.commit = none := by decide +kernel
theorem witness_groupAbort_late :
    gWritten.fresh 3 kindGroupAbort = true ∧ dZero (gWritten.desc 3) 16 63 = true ∧ (gWritten.recOf (dGroup (gWritten.desc 3))).isSome = true := by decide +kernel
theorem witness_groupAbort_closed :
    sOpen.fresh 3 kindGroupAbort = true ∧ dZero (sOpen.desc 3) 16 63 = true ∧ sOpen.recOf (dGroup (sOpen.desc 3)) = none ∧ sOpen.groupOf (dGroup
    (sOpen.desc 3)) = none := by decide +kernel
theorem witness_groupAbort_open :
    gOpen.fresh 3 kindGroupAbort = true ∧ dZero (gOpen.desc 3) 16 63 = true ∧ (gOpen.openGroup (dGroup (gOpen.desc 3))).isSome = true := by decide +kernel
theorem witness_groupCommitExecute :
    gFull.openGroup 7 = some gReady ∧ gReady.commit = some 2 ∧ gReady.members.length = gReady.expected ∧ gReady.bound = none ∧ gFull.lateMembers gReady =
    [] ∧ gFull.mirrorAOk = true ∧ gFull.mirrorBOk = true ∧ dDeadlineValid (gFull.desc 2) = false ∧ gReady.effects = [] := by decide +kernel
theorem witness_groupCommitExecute_more :
    gWritten.recOf 7 = some cHalf ∧ cHalf.mirrors = 2 ∧ cHalf.made < cHalf.effects.length := by decide +kernel
theorem witness_groupDeadline :
    gDead.openGroup 7 = some gDue ∧ gDue.commit = some 2 ∧ dDeadlineValid (gDead.desc 2) = true := by decide +kernel

/-! ### Witnesses: Reduction and verdicts -/

def upV : State := { upC with cfg := { upC.cfg with shCount := 4 } }
def hvBody (w : Nat) : List (Nat × Nat × Nat) := [(16, 1, 1), (20, 4, 7), (24, 3, 5), (28, 2, w), (30, 2, 1), (32, 4, 3), (36, 4, 64), (40, 8, 0x1000), (48, 8, 0x9000), (56, 1, 1), (57, 1, 1), (60, 4, 3)]
def sHv (w st : Nat) : State := { withDesc upV 1 kindReduce 16 0 (hvBody w) 5000 with wins := [(w, { Window.zero with state := st, step := 6 })] }
def sHvBad : State := withDesc upV 1 kindReduce 0 0 (hvBody 0) 5000
def xIn (done : Bool) : WinXfer := ⟨9, 3, 7 * 65536, 1, true, false, done, false, 0, false, 18, false⟩
def sWin (l : List WinXfer) (st : Nat) : State := { withDesc upV 1 kindReduce 16 0 (hvBody 6143) 5000 with wins := [(6143, { Window.zero with state := st, step := 7, entry := 1, sluice := 5000, elems := 3, off := 64, xfers := l })] }
def vOf (step code : Nat) : Verdict := { Verdict.zero with step := step, code := code, phase := 3 }
def sRead (l : List WinXfer) (vs : List Verdict) : State := ({ sWin l 2 with verdicts := vs }).setCell (cellKey 6143 ((sWin l 2).win 6143) false 1) 0 ⟨2 ^ 24, false, false⟩
def rec0 : List Byte := mkBytes 16 [(0, 8, 5), (11, 1, 24), (12, 4, 7)]
def sNorm (vs : List Verdict) : State := { upV with normIn := [rec0], verdicts := vs }
def vWait : Verdict := { Verdict.zero with step := 7, bound := true, vtide := 4096 }
def sNormB : State := { sNorm [vWait] with tide := { TideUnit.zero with ns := 4119 } }
def vSend (ph code : Nat) : Verdict := { vWait with phase := ph, code := code, reason := 2, origin := 5 }
def sSend (ph code : Nat) : State := { withPort upV 17 with verdicts := [vSend ph code] }
def vWin : Verdict := { vWait with phase := 2, code := 1, window := 4, ports := [3, 17], factor := 0x3F800000 }
def sCmp : State := { withPort upV 17 with verdicts := [vWin], tide := { TideUnit.zero with ns := 4200 } }
def cV (code : Nat) : Cell := { mkCell 5 3 0 (verdictBytes vWin code vWin.reason vWin.origin) with notices := [] }
def cV2 : Cell := { mkCell 5 3 0 (verdictBytes { vWin with digest := 9 } 1 vWin.reason vWin.origin) with notices := [] }
def cV3 : Cell := { mkCell 5 3 0 (verdictBytes { vWin with domain := 8, step := 12 } 4 vWin.reason vWin.origin) with notices := [] }
def sLock : State := withFlds (withPort upV 3) [(TID_STATUS_locked, 1)]
def vAll : Verdict := { vWin with ports := [] }
def sAll : State := { upV with verdicts := [vAll] }
def sConf : State := { upV with verdicts := [vOf 7 2] }
theorem witness_harvest_bad :
    sHvBad.fresh 1 kindReduce = true ∧ rRole (sHvBad.desc 1) = 1 ∧ sHvBad.harvestOk (sHvBad.desc 1) = false := by decide +kernel
theorem witness_harvest_open :
    (sHv 0 1).fresh 1 kindReduce = true ∧ rRole ((sHv 0 1).desc 1) = 1 ∧ (sHv 0 1).harvestOk ((sHv 0 1).desc 1) = true ∧ (((sHv 0 1).win (rWindow ((sHv 0
    1).desc 1))).state = 1 ∨ ((sHv 0 1).win (rWindow ((sHv 0 1).desc 1))).state = 2) := by decide +kernel
theorem witness_harvest_closing :
    (sHv 6143 2).fresh 1 kindReduce = true ∧ rRole ((sHv 6143 2).desc 1) = 1 ∧ (sHv 6143 2).harvestOk ((sHv 6143 2).desc 1) = true ∧ (((sHv 6143 2).win
    (rWindow ((sHv 6143 2).desc 1))).state = 1 ∨ ((sHv 6143 2).win (rWindow ((sHv 6143 2).desc 1))).state = 2) := by decide +kernel
theorem witness_harvest_free :
    (sHv 0 0).fresh 1 kindReduce = true ∧ rRole ((sHv 0 0).desc 1) = 1 ∧ (sHv 0 0).harvestOk ((sHv 0 0).desc 1) = true ∧ ((sHv 0 0).win (rWindow ((sHv 0
    0).desc 1))).state ≠ 1 ∧ ((sHv 0 0).win (rWindow ((sHv 0 0).desc 1))).state ≠ 2 ∧ ((sHv 0 0).win (rWindow ((sHv 0 0).desc 1))).hasCarry = false ∧ (sHv
    0 0).restartDue = false := by decide +kernel
theorem witness_harvest_trail :
    (sHv 6143 3).fresh 1 kindReduce = true ∧ rRole ((sHv 6143 3).desc 1) = 1 ∧ (sHv 6143 3).harvestOk ((sHv 6143 3).desc 1) = true ∧ ((sHv 6143 3).win
    (rWindow ((sHv 6143 3).desc 1))).state ≠ 1 ∧ ((sHv 6143 3).win (rWindow ((sHv 6143 3).desc 1))).state ≠ 2 ∧ ((sHv 6143 3).win (rWindow ((sHv 6143
    3).desc 1))).hasCarry = false ∧ (sHv 6143 3).restartDue = false := by decide +kernel
theorem witness_sluice :
    ((sWin [xIn true] 1).win 6143).state = 1 ∧ (∀ y ∈ includedOf ((sWin [xIn true] 1).win 6143), y.done = true) ∧ max (sWin [xIn true] 1).tide.ns ((sWin
    [xIn true] 1).win 6143).sluice < 2 ^ 64 := by decide +kernel
theorem witness_sluice_none :
    ((sWin [] 1).win 6143).state = 1 ∧ (∀ y ∈ includedOf ((sWin [] 1).win 6143), y.done = true) ∧ max (sWin [] 1).tide.ns ((sWin [] 1).win 6143).sluice <
    2 ^ 64 := by decide +kernel
theorem witness_sluice_waits :
    ((sWin [xIn true, xIn false] 1).win 6143).state = 1 ∧ ∃ y ∈ includedOf ((sWin [xIn true, xIn false] 1).win 6143), y.done = false := by decide +kernel
theorem witness_grace :
    ((sWin [xIn true] 1).win 6143).state = 1 := by decide +kernel
theorem witness_grace_torn :
    ((sWin [xIn true, xIn false] 1).win 6143).state = 1 ∧ ∃ y ∈ includedOf ((sWin [xIn true, xIn false] 1).win 6143), y.done = false := by decide +kernel
theorem witness_readout_waits :
    ((sRead [xIn true] [vOf 7 1]).win 6143).state = 2 ∧ (sRead [xIn true] [vOf 7 1]).confirmedCode (prevStep ((sRead [xIn true] [vOf 7 1]).win 6143).step)
    = none := by decide +kernel
theorem witness_readout :
    ((sRead [xIn true] [vOf 6 1]).win 6143).state = 2 ∧ (sRead [xIn true] [vOf 6 1]).confirmedCode (prevStep ((sRead [xIn true] [vOf 6 1]).win 6143).step)
    = some 1 := by decide +kernel
theorem witness_readout_short :
    ((sRead [] [vOf 6 3]).win 6143).state = 2 ∧ (sRead [] [vOf 6 3]).confirmedCode (prevStep ((sRead [] [vOf 6 3]).win 6143).step) = some 3 ∧ (includedOf
    ((sRead [] [vOf 6 3]).win 6143)).length < hExpected ((sRead [] [vOf 6 3]).desc ((sRead [] [vOf 6 3]).win 6143).entry) := by decide +kernel
theorem witness_norm :
    (sNorm []).normIn = [rec0] ∧ ∀ (v : Verdict), (sNorm []).verdictOf (leAt rec0 12 4) = some v → v.phase < 2 ∧ (v.bound = true → (sNorm []).tide.ns <
    v.vtide + 24) := by decide +kernel
theorem witness_norm_bound :
    sNormB.normIn = [rec0] ∧ ∀ (v : Verdict), sNormB.verdictOf (leAt rec0 12 4) = some v → v.phase < 2 ∧ (v.bound = true → sNormB.tide.ns < v.vtide + 24) := by decide +kernel
theorem witness_vsend :
    (sSend 1 1).verdictOf 7 = some (vSend 1 1) ∧ (vSend 1 1).bound = true ∧ (vSend 1 1).phase < 2 ∧ (vSend 1 1).phase = 1 ∧ (vSend 1 1).code ≠ 4 := by decide +kernel
theorem witness_vsend_none :
    (sSend 0 0).verdictOf 7 = some (vSend 0 0) ∧ (vSend 0 0).bound = true ∧ (vSend 0 0).phase < 2 ∧ (vSend 0 0).phase = 0 ∧ (vSend 0 0).code ≠ 4 := by decide +kernel
theorem witness_vsend_veto :
    (sSend 0 4).verdictOf 7 = some (vSend 0 4) ∧ (vSend 0 4).bound = true ∧ (vSend 0 4).phase < 2 ∧ (vSend 0 4).phase = 0 := by decide +kernel
theorem witness_vcell_domain :
    sCmp.portUp 17 = true ∧ sCmp.awaited 17 = [vWin] ∧ cV3.hdr.ctype = 5#8 ∧ cV3.hdr.length ≠ 0#16 ∧ bitOf (leAt cV3.payload 4 1) 7 = false ∧ leAt
    cV3.payload 24 2 ≠ vWin.domain := by decide +kernel
theorem witness_vcell_match :
    sCmp.portUp 17 = true ∧ sCmp.awaited 17 = [vWin] ∧ (cV 1).hdr.ctype = 5#8 ∧ (cV 1).hdr.length ≠ 0#16 ∧ bitOf (leAt (cV 1).payload 4 1) 7 = false ∧
    leAt (cV 1).payload 24 2 = vWin.domain ∧ vWin.code ≠ 4 ∧ leAt (cV 1).payload 4 1 ≠ 0 ∧ leAt (cV 1).payload 4 1 ≠ 4 ∧ List.take 6 (cV 1).payload =
    List.take 6 (verdictBytes vWin vWin.code vWin.reason vWin.origin) ∧ bytesAt (cV 1).payload 8 16 = bytesAt (verdictBytes vWin vWin.code vWin.reason
    vWin.origin) 8 16 := by decide +kernel
theorem witness_vcell_differs :
    sCmp.portUp 17 = true ∧ sCmp.awaited 17 = [vWin] ∧ (cV 2).hdr.ctype = 5#8 ∧ (cV 2).hdr.length ≠ 0#16 ∧ bitOf (leAt (cV 2).payload 4 1) 7 = false ∧
    leAt (cV 2).payload 24 2 = vWin.domain ∧ vWin.code ≠ 4 ∧ (leAt (cV 2).payload 4 1 = 0 ∨ leAt (cV 2).payload 4 1 = 4 ∨ List.take 6 (cV 2).payload ≠
    List.take 6 (verdictBytes vWin vWin.code vWin.reason vWin.origin) ∨ bytesAt (cV 2).payload 8 16 ≠ bytesAt (verdictBytes vWin vWin.code vWin.reason
    vWin.origin) 8 16) := by decide +kernel
theorem witness_vcell_veto :
    sCmp.portUp 17 = true ∧ sCmp.awaited 17 = [vWin] ∧ (cV 4).hdr.ctype = 5#8 ∧ (cV 4).hdr.length ≠ 0#16 ∧ bitOf (leAt (cV 4).payload 4 1) 7 = false ∧
    leAt (cV 4).payload 24 2 = vWin.domain ∧ vWin.code ≠ 4 ∧ (leAt (cV 4).payload 4 1 = 0 ∨ leAt (cV 4).payload 4 1 = 4 ∨ List.take 6 (cV 4).payload ≠
    List.take 6 (verdictBytes vWin vWin.code vWin.reason vWin.origin) ∨ bytesAt (cV 4).payload 8 16 ≠ bytesAt (verdictBytes vWin vWin.code vWin.reason
    vWin.origin) 8 16) := by decide +kernel
theorem witness_vcell_none :
    sCmp.portUp 17 = true ∧ sCmp.awaited 17 = [vWin] ∧ (cV 0).hdr.ctype = 5#8 ∧ (cV 0).hdr.length ≠ 0#16 ∧ bitOf (leAt (cV 0).payload 4 1) 7 = false ∧
    leAt (cV 0).payload 24 2 = vWin.domain ∧ vWin.code ≠ 4 ∧ (leAt (cV 0).payload 4 1 = 0 ∨ leAt (cV 0).payload 4 1 = 4 ∨ List.take 6 (cV 0).payload ≠
    List.take 6 (verdictBytes vWin vWin.code vWin.reason vWin.origin) ∨ bytesAt (cV 0).payload 8 16 ≠ bytesAt (verdictBytes vWin vWin.code vWin.reason
    vWin.origin) 8 16) := by decide +kernel
theorem witness_vcell_digest :
    sCmp.portUp 17 = true ∧ sCmp.awaited 17 = [vWin] ∧ cV2.hdr.ctype = 5#8 ∧ cV2.hdr.length ≠ 0#16 ∧ bitOf (leAt cV2.payload 4 1) 7 = false ∧ leAt
    cV2.payload 24 2 = vWin.domain ∧ vWin.code ≠ 4 ∧ (leAt cV2.payload 4 1 = 0 ∨ leAt cV2.payload 4 1 = 4 ∨ List.take 6 cV2.payload ≠ List.take 6
    (verdictBytes vWin vWin.code vWin.reason vWin.origin) ∨ bytesAt cV2.payload 8 16 ≠ bytesAt (verdictBytes vWin vWin.code vWin.reason vWin.origin) 8 16) := by decide +kernel
theorem witness_vcell_failed :
    sCmp.portUp 17 = true ∧ sCmp.awaited 17 = [vWin] ∧ vWin.code ≠ 4 := by decide +kernel
theorem witness_vcell_missing :
    sCmp.portUp 17 = true ∧ sCmp.awaited 17 = [vWin] ∧ sCmp.verdictOf 7 = some vWin ∧ vWin.code ≠ 4 := by decide +kernel
theorem witness_vconfirm :
    sAll.verdictOf 7 = some vAll ∧ vAll.phase = 2 := by decide +kernel
theorem witness_vconfirm_miss :
    sCmp.verdictOf 7 = some vWin ∧ vWin.phase = 2 := by decide +kernel
theorem witness_query :
    sLock.flag TID_STATUS_locked = true ∧ sLock.confirmedCode 7 = none := by decide +kernel
theorem witness_query_in :
    sConf.verdictOf 7 = some (vOf 7 2) ∧ (vOf 7 2).phase = 3 := by decide +kernel
theorem witness_answer :
    sCmp.portUp 17 = true ∧ (cV 130).hdr.ctype = 5#8 ∧ bitOf (leAt (cV 130).payload 4 1) 7 = true ∧ sCmp.confirmedCode (leAt (cV 130).payload 0 4) = none := by decide +kernel
theorem witness_answer_new :
    (withPort upV 17).portUp 17 = true ∧ (cV 129).hdr.ctype = 5#8 ∧ bitOf (leAt (cV 129).payload 4 1) 7 = true ∧ (withPort upV 17).confirmedCode (leAt (cV
    129).payload 0 4) = none := by decide +kernel

/-! ### Witnesses: Owner maps -/

def mapHdr (id runs : Nat) : List Byte := mkBytes 64 [(0, 2, id), (2, 2, 7), (4, 3, 5), (8, 4, 100), (12, 2, runs)]
def mapEnt : List Byte := mkBytes 32 [(0, 4, 0), (4, 4, 60), (8, 2, 3), (16, 4, 60), (20, 4, 40), (24, 2, 4)]
def memMap (id : Nat) : State := withMem (withMem up 0x1000 (mapHdr id 2)) 0x1040 mapEnt
def sMapE (id t : Nat) : State := withDesc (memMap id) 1 kindOwnerMap 0 0 [(16, 8, 0x1000), (24, 2, id), (32, 8, t)]
def sMapBad : State := withDesc (memMap 0) 1 kindOwnerMap 0 0 [(16, 8, 0x1000), (24, 2, 0), (27, 1, 1)]
def mapA : OwnerMap := mapOf (mapHdr 1023 2) mapEnt
def sMapRem : State := { withDesc up 1 kindOwnerMap 0 0 [(24, 2, 1023), (26, 1, 1)] with maps := [(5, mapA), (1023, mapA)] }
def chg (id t : Nat) (e : Option Nat) : MapChange := ⟨e, false, id, mapA, t, false⟩
def sChg (e : Option Nat) : State := { withDesc up 1 kindOwnerMap 0 0 [(24, 2, 7)] with mapPend := [chg 5 8192 none, chg 7 4096 e] }
theorem witness_map_bad :
    sMapBad.fresh 1 kindOwnerMap = true ∧ bitOf (leAt (sMapBad.desc 1) 26 1) 0 = false ∧ dGroup (sMapBad.desc 1) = 0 ∧ ownerMapOk (sMapBad.desc 1) = false := by decide +kernel
set_option maxRecDepth 8000 in
theorem witness_map_now :
    ∀ (h x : List Byte × AccEnd × State), h = (sMapE 0 0).load (Who.unit (srcOther 1)) (leAt ((sMapE 0 0).desc 1) 16 8) 64 → x = h.2.2.load (Who.unit
    (srcOther 1)) (leAt ((sMapE 0 0).desc 1) 16 8 + 64) (16 * leAt h.1 12 2) → (sMapE 0 0).fresh 1 kindOwnerMap = true ∧ bitOf (leAt ((sMapE 0 0).desc 1)
    26 1) 0 = false ∧ dGroup ((sMapE 0 0).desc 1) = 0 ∧ h.2.1 = AccEnd.ok ∧ x.2.1 = AccEnd.ok ∧ ownerMapOk ((sMapE 0 0).desc 1) = true ∧ leAt ((sMapE 0
    0).desc 1) 16 8 % 64 = 0 ∧ leAt ((sMapE 0 0).desc 1) 16 8 < hbmTop ∧ tableOk h.1 x.1 (leAt ((sMapE 0 0).desc 1) 24 2) = true ∧ (sMapE 0 0).mapFits
    (leAt ((sMapE 0 0).desc 1) 24 2) (mapOf h.1 x.1) = true ∧ (sMapE 0 0).mapNow (leAt ((sMapE 0 0).desc 1) 24 2) (roundFrame (leAt ((sMapE 0 0).desc 1)
    32 8)) = none ∧ leAt ((sMapE 0 0).desc 1) 32 8 = 0 := by rintro _ _ rfl rfl; decide +kernel
set_option maxRecDepth 8000 in
theorem witness_map_later :
    ∀ (h x : List Byte × AccEnd × State), h = (sMapE 1023 4095).load (Who.unit (srcOther 1)) (leAt ((sMapE 1023 4095).desc 1) 16 8) 64 → x = h.2.2.load
    (Who.unit (srcOther 1)) (leAt ((sMapE 1023 4095).desc 1) 16 8 + 64) (16 * leAt h.1 12 2) → (sMapE 1023 4095).fresh 1 kindOwnerMap = true ∧ bitOf (leAt
    ((sMapE 1023 4095).desc 1) 26 1) 0 = false ∧ dGroup ((sMapE 1023 4095).desc 1) = 0 ∧ h.2.1 = AccEnd.ok ∧ x.2.1 = AccEnd.ok ∧ ownerMapOk ((sMapE 1023
    4095).desc 1) = true ∧ leAt ((sMapE 1023 4095).desc 1) 16 8 % 64 = 0 ∧ leAt ((sMapE 1023 4095).desc 1) 16 8 < hbmTop ∧ tableOk h.1 x.1 (leAt ((sMapE
    1023 4095).desc 1) 24 2) = true ∧ (sMapE 1023 4095).mapFits (leAt ((sMapE 1023 4095).desc 1) 24 2) (mapOf h.1 x.1) = true ∧ (sMapE 1023 4095).mapNow
    (leAt ((sMapE 1023 4095).desc 1) 24 2) (roundFrame (leAt ((sMapE 1023 4095).desc 1) 32 8)) = none ∧ (sMapE 1023 4095).tide.ns + frameNs ≤ roundFrame
    (leAt ((sMapE 1023 4095).desc 1) 32 8) ∧ roundFrame (leAt ((sMapE 1023 4095).desc 1) 32 8) ≠ 0 := by rintro _ _ rfl rfl; decide +kernel
theorem witness_map_remove :
    sMapRem.fresh 1 kindOwnerMap = true ∧ bitOf (leAt (sMapRem.desc 1) 26 1) 0 = true ∧ ownerMapOk (sMapRem.desc 1) = true ∧ dGroup (sMapRem.desc 1) = 0 ∧
    leAt (sMapRem.desc 1) 32 8 = 0 := by decide +kernel
theorem witness_map_activate :
    nextChange (sChg (some 1)).mapPend = some (chg 7 4096 (some 1)) ∧ (chg 7 4096 (some 1)).remove = false ∧ (sChg (some 1)).mapFits (chg 7 4096 (some
    1)).id (chg 7 4096 (some 1)).map = true ∧ (sChg (some 1)).maps.find (chg 7 4096 (some 1)).id = none := by decide +kernel
theorem witness_map_activate_none :
    nextChange (sChg none).mapPend = some (chg 7 4096 none) ∧ (chg 7 4096 none).remove = false ∧ (sChg none).mapFits (chg 7 4096 none).id (chg 7 4096
    none).map = true ∧ (sChg none).maps.find (chg 7 4096 none).id = none := by decide +kernel

/-! ### Witnesses: Counters, watches and saves -/

def sgB (op c n : Nat) : List (Nat × Nat × Nat) := [(16, 1, op), (20, 4, 0xFFFFFFFF), (24, 8, ctrAt c n)]
def sSg (op c n : Nat) : State := withDesc upC 1 kindSignal 0 0 (sgB op c n)
def sSgBad : State := withDesc upC 1 kindSignal 0 0 [(16, 1, 1), (24, 8, 4096)]
def sWt (claim c n : Nat) : State := withDesc upC 1 kindWait 0 0 [(16, 1, 4 * claim), (20, 4, 3), (24, 8, ctrAt c n)]
def sWtBad : State := withDesc upC 1 kindWait 0 0 [(16, 1, 4), (24, 8, ctrAt 5 0)]
def wt1 : Watch := ⟨9, false, 1, 3, .ring 5 44, 0⟩
def sWd : State := { withDesc upC 1 kindWait 16 0 [(20, 4, 3), (24, 8, ctrAt 5 9)] 7000 with waits := [(1, ⟨44, 5, wt1⟩)] }
def jWt : WaitJob := ⟨44, 5, wt1⟩
def opA (n op x : Nat) (e : Option Nat) : SyncOp := ⟨n, op, x, ⟨5, 4⟩, e⟩
def sOp (o : SyncOp) (ws : List Watch) : State := { withDesc upC 1 kindSignal 0 0 (sgB o.op 5 o.counter) with sync := [(homeOf o.counter, { SyncUnit.zero with ops := [o], watches := ws })], counters := [(o.counter, ⟨0xFFFFFFFF#32, ⟨5, 8⟩, 3⟩)] }
def sLd : State := { upC with counters := [(65535, ⟨0x12345678#32, ⟨5, 8⟩, 3⟩)] }
def sReg (c : Nat) (w : Watch) : State := { upC with sync := [(c / 16384, { SyncUnit.zero with regs := [w] })], counters := [(c, ⟨7#32, ⟨5, 8⟩, 3⟩)] }
def wtN (n op : Nat) : Watch := ⟨n, false, 0, op, .block 5 3, 0⟩
def wtC (n x : Nat) : Watch := ⟨n, true, 0, x, .ring 5 3, 0⟩
def sCan : State := { upC with sync := [(3, { SyncUnit.zero with cancels := [wtN 65535 8], watches := [wtN 65535 8, wtN 65534 8] })] }
def sFire : State := { withDesc upC 1 kindWait 0 0 [(24, 8, ctrAt 5 9)] with fires := [⟨.ring 5 44, 9, 0, 5⟩], waits := [(1, ⟨44, 5, wt1⟩)] }
def fOf : Fire := ⟨.ring 5 44, 9, 0, 5⟩
def msg (t dst : Nat) : SyncMsg := ⟨BitVec.ofNat 8 t, 0, 9#16, 77#32, BitVec.ofNat 16 dst, 6#16, 0, 0⟩
def cSync (k : Nat) (ms : List SyncMsg) : Cell := let c := mkCell 4 2 0 (ms.flatMap Machine.msgBytes); { c with hdr := { c.hdr with index := BitVec.ofNat 32 k, length := BitVec.ofNat 16 (16 * ms.length) } }
def sSy : State := (withPort upC 17).setPort 17 { PortUnit.zero with syncMark := 4 }
def sTor : State := withFlds { upC with syncFwd := [msg 1 6], syncRaise := [(msg 1 6, some 1)] } [(SYN_TORUS_dim_x, 8), (PRT_CFG_direction 3, 0), (PRT_STATUS_state 3, 2)]
def sNoRoute : State := { withDesc upC 1 kindSignal 0 0 (sgB 0 6 9) with syncFwd := [msg 1 6], syncRaise := [(msg 1 6, some 1)] }
def svB (op c a : Nat) : List (Nat × Nat × Nat) := [(16, 1, op), (17, 1, 2 * c), (32, 8, a)]
def ctxS (s : State) : State := withFlds { s with counters := [(3, ⟨9#32, ⟨5, 8⟩, 3⟩), (49156, ⟨8#32, ⟨5, 8⟩, 3⟩)] } [(SYN_CTX_RANGE_base 3, 3), (SYN_CTX_RANGE_count 3, 2)]
def sSv (op a : Nat) : State := ctxS (withDesc upC 1 kindSignal 0 0 (svB op (if op = 11 then 0 else 3) a))
def sSvW : State := { sSv 8 0x2000 with sync := [(0, { SyncUnit.zero with watches := [wtN 3 99, wtN 3000 9] })] }
def sThaw : State := { sSv 10 0 with frozen := [⟨3, 3, 2, 0x1000, [0, 1, 2, 3]⟩, ⟨1, 30, 2, 0x1000, [0, 1, 2, 3]⟩], sync := [(0, { SyncUnit.zero with deferred := [opA 3 0 5 none, opA 40 0 5 none] })] }
def area (broken : Nat) : List Byte := mkBytes 64 [(0, 4, 8), (8, 1, 6 + broken), (12, 2, 3), (24, 2, 5)]
def sRst (b : Nat) : State := { withMem (sSv 9 0x1000) 0x1000 (area b) with frozen := [⟨3, 3, 2, 0x1000, [0, 1, 2, 3]⟩] }
theorem witness_add :
    (Instr.signalAdd 1 = Instr.signalAdd 1 ∧ 0 = 0 ∨ Instr.signalAdd 1 = Instr.signalSet 1 ∧ 0 = 1 ∨ Instr.signalAdd 1 = Instr.signalOr 1 ∧ 0 = 2 ∨
    Instr.signalAdd 1 = Instr.signalAndn 1 ∧ 0 = 3) ∧ (sSg 0 5 0).fresh 1 kindSignal = true ∧ leAt ((sSg 0 5 0).desc 1) 16 1 = 0 ∧ signalOk ((sSg 0 5
    0).desc 1) = true ∧ dGroup ((sSg 0 5 0).desc 1) = 0 ∧ bitOf (leAt ((sSg 0 5 0).desc 1) 17 1) 0 = false ∧ counterOf (gLocal (leAt ((sSg 0 5 0).desc 1)
    24 8)) = some 0 ∧ gChip (leAt ((sSg 0 5 0).desc 1) 24 8) = (sSg 0 5 0).chip := by decide +kernel
theorem witness_set :
    (Instr.signalSet 1 = Instr.signalAdd 1 ∧ 1 = 0 ∨ Instr.signalSet 1 = Instr.signalSet 1 ∧ 1 = 1 ∨ Instr.signalSet 1 = Instr.signalOr 1 ∧ 1 = 2 ∨
    Instr.signalSet 1 = Instr.signalAndn 1 ∧ 1 = 3) ∧ (sSg 1 5 65535).fresh 1 kindSignal = true ∧ leAt ((sSg 1 5 65535).desc 1) 16 1 = 1 ∧ signalOk ((sSg
    1 5 65535).desc 1) = true ∧ dGroup ((sSg 1 5 65535).desc 1) = 0 ∧ bitOf (leAt ((sSg 1 5 65535).desc 1) 17 1) 0 = false ∧ counterOf (gLocal (leAt ((sSg
    1 5 65535).desc 1) 24 8)) = some 65535 ∧ gChip (leAt ((sSg 1 5 65535).desc 1) 24 8) = (sSg 1 5 65535).chip := by decide +kernel
theorem witness_or :
    (Instr.signalOr 1 = Instr.signalAdd 1 ∧ 2 = 0 ∨ Instr.signalOr 1 = Instr.signalSet 1 ∧ 2 = 1 ∨ Instr.signalOr 1 = Instr.signalOr 1 ∧ 2 = 2 ∨
    Instr.signalOr 1 = Instr.signalAndn 1 ∧ 2 = 3) ∧ (sSg 2 5 16384).fresh 1 kindSignal = true ∧ leAt ((sSg 2 5 16384).desc 1) 16 1 = 2 ∧ signalOk ((sSg 2
    5 16384).desc 1) = true ∧ dGroup ((sSg 2 5 16384).desc 1) = 0 ∧ bitOf (leAt ((sSg 2 5 16384).desc 1) 17 1) 0 = false ∧ counterOf (gLocal (leAt ((sSg 2
    5 16384).desc 1) 24 8)) = some 16384 ∧ gChip (leAt ((sSg 2 5 16384).desc 1) 24 8) = (sSg 2 5 16384).chip := by decide +kernel
theorem witness_andn :
    (Instr.signalAndn 1 = Instr.signalAdd 1 ∧ 3 = 0 ∨ Instr.signalAndn 1 = Instr.signalSet 1 ∧ 3 = 1 ∨ Instr.signalAndn 1 = Instr.signalOr 1 ∧ 3 = 2 ∨
    Instr.signalAndn 1 = Instr.signalAndn 1 ∧ 3 = 3) ∧ (sSg 3 5 9).fresh 1 kindSignal = true ∧ leAt ((sSg 3 5 9).desc 1) 16 1 = 3 ∧ signalOk ((sSg 3 5
    9).desc 1) = true ∧ dGroup ((sSg 3 5 9).desc 1) = 0 ∧ bitOf (leAt ((sSg 3 5 9).desc 1) 17 1) 0 = false ∧ counterOf (gLocal (leAt ((sSg 3 5 9).desc 1)
    24 8)) = some 9 ∧ gChip (leAt ((sSg 3 5 9).desc 1) 24 8) = (sSg 3 5 9).chip := by decide +kernel
theorem witness_add_far :
    (Instr.signalAdd 1 = Instr.signalAdd 1 ∧ 0 = 0 ∨ Instr.signalAdd 1 = Instr.signalSet 1 ∧ 0 = 1 ∨ Instr.signalAdd 1 = Instr.signalOr 1 ∧ 0 = 2 ∨
    Instr.signalAdd 1 = Instr.signalAndn 1 ∧ 0 = 3) ∧ (sSg 0 6 65535).fresh 1 kindSignal = true ∧ leAt ((sSg 0 6 65535).desc 1) 16 1 = 0 ∧ signalOk ((sSg
    0 6 65535).desc 1) = true ∧ dGroup ((sSg 0 6 65535).desc 1) = 0 ∧ bitOf (leAt ((sSg 0 6 65535).desc 1) 17 1) 0 = false ∧ counterOf (gLocal (leAt ((sSg
    0 6 65535).desc 1) 24 8)) = some 65535 ∧ gChip (leAt ((sSg 0 6 65535).desc 1) 24 8) ≠ (sSg 0 6 65535).chip := by decide +kernel
theorem witness_signal_bad :
    (Instr.signalSet 1 = Instr.signalAdd 1 ∧ 1 = 0 ∨ Instr.signalSet 1 = Instr.signalSet 1 ∧ 1 = 1 ∨ Instr.signalSet 1 = Instr.signalOr 1 ∧ 1 = 2 ∨
    Instr.signalSet 1 = Instr.signalAndn 1 ∧ 1 = 3) ∧ sSgBad.fresh 1 kindSignal = true ∧ leAt (sSgBad.desc 1) 16 1 = 1 ∧ signalOk (sSgBad.desc 1) = false
    ∧ memberOf (sSgBad.desc 1) = 0 := by decide +kernel
theorem witness_wait :
    (Instr.waitObserve 1 = Instr.waitObserve 1 ∧ false = false ∨ Instr.waitObserve 1 = Instr.waitClaim 1 ∧ false = true) ∧ (sWt 0 5 0).fresh 1 kindWait =
    true ∧ bitOf (leAt ((sWt 0 5 0).desc 1) 16 1) 2 = false ∧ waitOk ((sWt 0 5 0).desc 1) = true ∧ counterOf (gLocal (leAt ((sWt 0 5 0).desc 1) 24 8)) =
    some 0 ∧ gChip (leAt ((sWt 0 5 0).desc 1) 24 8) = (sWt 0 5 0).chip := by decide +kernel
theorem witness_claim :
    (Instr.waitClaim 1 = Instr.waitObserve 1 ∧ true = false ∨ Instr.waitClaim 1 = Instr.waitClaim 1 ∧ true = true) ∧ (sWt 1 5 65535).fresh 1 kindWait =
    true ∧ bitOf (leAt ((sWt 1 5 65535).desc 1) 16 1) 2 = true ∧ waitOk ((sWt 1 5 65535).desc 1) = true ∧ counterOf (gLocal (leAt ((sWt 1 5 65535).desc 1)
    24 8)) = some 65535 ∧ gChip (leAt ((sWt 1 5 65535).desc 1) 24 8) = (sWt 1 5 65535).chip := by decide +kernel
theorem witness_wait_bad :
    (Instr.waitClaim 1 = Instr.waitObserve 1 ∧ true = false ∨ Instr.waitClaim 1 = Instr.waitClaim 1 ∧ true = true) ∧ sWtBad.fresh 1 kindWait = true ∧
    bitOf (leAt (sWtBad.desc 1) 16 1) 2 = true ∧ waitOk (sWtBad.desc 1) = false := by decide +kernel
theorem witness_waiterDeadline :
    sWd.waits.find 1 = some jWt ∧ dDeadlineValid (sWd.desc 1) = true ∧ dKind (sWd.desc 1) = kindWait ∧ jWt.chip = sWd.chip ∧ bitOf (leAt (sWd.desc 1) 16
    1) 3 = false := by decide +kernel
theorem witness_op :
    ((sOp (opA 65535 0 1 (some 1)) []).syncUnit 3).ops = [opA 65535 0 1 (some 1)] ∧ (sOp (opA 65535 0 1 (some 1)) []).regionFenced (homeOf (opA 65535 0 1
    (some 1)).counter) = false ∧ (sOp (opA 65535 0 1 (some 1)) []).isFrozen (opA 65535 0 1 (some 1)).counter = false ∧ (∀ w ∈ ((sOp (opA 65535 0 1 (some
    1)) []).syncUnit (homeOf (opA 65535 0 1 (some 1)).counter)).watches, w.counter ≠ (opA 65535 0 1 (some 1)).counter) ∧ ((sOp (opA 65535 0 1 (some 1))
    []).syncUnit (homeOf (opA 65535 0 1 (some 1)).counter)).waiting = [] := by decide +kernel
theorem witness_op_andn :
    ((sOp (opA 0 3 5 none) []).syncUnit 0).ops = [opA 0 3 5 none] ∧ (sOp (opA 0 3 5 none) []).regionFenced (homeOf (opA 0 3 5 none).counter) = false ∧
    (sOp (opA 0 3 5 none) []).isFrozen (opA 0 3 5 none).counter = false ∧ (∀ w ∈ ((sOp (opA 0 3 5 none) []).syncUnit (homeOf (opA 0 3 5
    none).counter)).watches, w.counter ≠ (opA 0 3 5 none).counter) ∧ ((sOp (opA 0 3 5 none) []).syncUnit (homeOf (opA 0 3 5 none).counter)).waiting = [] := by decide +kernel
theorem witness_load :
    524280 % 8 = 0 ∧ sLd.regionFenced (homeOf (524280 / 8)) = false := by decide +kernel
theorem witness_load_len :
    524280 % 8 ≠ 0 ∨ 8 ≠ 4 ∨ sLd.regionFenced (homeOf (524280 / 8)) = true := by decide +kernel
theorem witness_load_off :
    524284 % 8 ≠ 0 ∨ 4 ≠ 4 ∨ sLd.regionFenced (homeOf (524284 / 8)) = true := by decide +kernel
theorem witness_store_set :
    (Instr.counterStoreSet 65535 [1#8, 2#8, 3#8, 4#8] (Source.block 63) = Instr.counterStoreSet 65535 [1#8, 2#8, 3#8, 4#8] (Source.block 63) ∧ 1 = 1 ∨
    Instr.counterStoreSet 65535 [1#8, 2#8, 3#8, 4#8] (Source.block 63) = Instr.counterStoreAdd 65535 [1#8, 2#8, 3#8, 4#8] (Source.block 63) ∧ 1 = 0) ∧
    [1#8, 2#8, 3#8, 4#8].length = 4 := by decide +kernel
theorem witness_store_add :
    (Instr.counterStoreAdd 0 [1#8] (Source.other 2) = Instr.counterStoreSet 0 [1#8] (Source.other 2) ∧ 0 = 1 ∨ Instr.counterStoreAdd 0 [1#8] (Source.other
    2) = Instr.counterStoreAdd 0 [1#8] (Source.other 2) ∧ 0 = 0) ∧ [1#8].length ≠ 4 := by decide +kernel
theorem witness_register :
    ((sReg 65535 (wtN 65535 8)).syncUnit 3).regs = [wtN 65535 8] ∧ homeOf (wtN 65535 8).counter = 3 ∧ (sReg 65535 (wtN 65535 8)).regionFenced 3 = false ∧
    (wtN 65535 8).claim = false ∧ (wtN 65535 8).waiter.parts.2.1 = (sReg 65535 (wtN 65535 8)).chip ∧ ((sReg 65535 (wtN 65535 8)).syncUnit
    3).watches.length < 8192 ∧ (sReg 65535 (wtN 65535 8)).isFrozen (wtN 65535 8).counter = false ∧ condHolds (wtN 65535 8).cond (wtN 65535 8).operand
    ((sReg 65535 (wtN 65535 8)).counter (wtN 65535 8).counter).value = false := by decide +kernel
theorem witness_register_fires :
    ((sReg 65535 (wtN 65535 7)).syncUnit 3).regs = [wtN 65535 7] ∧ homeOf (wtN 65535 7).counter = 3 ∧ (sReg 65535 (wtN 65535 7)).regionFenced 3 = false ∧
    (wtN 65535 7).claim = false ∧ (wtN 65535 7).waiter.parts.2.1 = (sReg 65535 (wtN 65535 7)).chip ∧ ((sReg 65535 (wtN 65535 7)).syncUnit
    3).watches.length < 8192 ∧ (sReg 65535 (wtN 65535 7)).isFrozen (wtN 65535 7).counter = false ∧ condHolds (wtN 65535 7).cond (wtN 65535 7).operand
    ((sReg 65535 (wtN 65535 7)).counter (wtN 65535 7).counter).value = true := by decide +kernel
theorem witness_claims :
    ∀ (v : Word), v = opResult (opA 9 0 4 none).op ((sOp (opA 9 0 4 none) [wtC 9 3]).counter (opA 9 0 4 none).counter).value (BitVec.ofNat 32 (opA 9 0 4
    none).operand) → ((sOp (opA 9 0 4 none) [wtC 9 3]).syncUnit 0).ops = [opA 9 0 4 none] ∧ homeOf (opA 9 0 4 none).counter = 0 ∧ (sOp (opA 9 0 4 none)
    [wtC 9 3]).regionFenced 0 = false ∧ (sOp (opA 9 0 4 none) [wtC 9 3]).isFrozen (opA 9 0 4 none).counter = false ∧ ((sOp (opA 9 0 4 none) [wtC 9
    3]).syncUnit 0).watches = [wtC 9 3] ∧ ((sOp (opA 9 0 4 none) [wtC 9 3]).syncUnit 0).waiting = [] ∧ (wtC 9 3).claim = true ∧ (wtC 9 3).counter = (opA 9
    0 4 none).counter ∧ (wtC 9 3).waiter.parts.2.1 = (sOp (opA 9 0 4 none) [wtC 9 3]).chip ∧ (wtC 9 3).operand ≤ BitVec.toNat v := by rintro _ rfl; decide +kernel
theorem witness_claims_set :
    ∀ (v : Word), v = opResult (opA 9 1 3 none).op ((sOp (opA 9 1 3 none) [wtC 9 3]).counter (opA 9 1 3 none).counter).value (BitVec.ofNat 32 (opA 9 1 3
    none).operand) → ((sOp (opA 9 1 3 none) [wtC 9 3]).syncUnit 0).ops = [opA 9 1 3 none] ∧ homeOf (opA 9 1 3 none).counter = 0 ∧ (sOp (opA 9 1 3 none)
    [wtC 9 3]).regionFenced 0 = false ∧ (sOp (opA 9 1 3 none) [wtC 9 3]).isFrozen (opA 9 1 3 none).counter = false ∧ ((sOp (opA 9 1 3 none) [wtC 9
    3]).syncUnit 0).watches = [wtC 9 3] ∧ ((sOp (opA 9 1 3 none) [wtC 9 3]).syncUnit 0).waiting = [] ∧ (wtC 9 3).claim = true ∧ (wtC 9 3).counter = (opA 9
    1 3 none).counter ∧ (wtC 9 3).waiter.parts.2.1 = (sOp (opA 9 1 3 none) [wtC 9 3]).chip ∧ (wtC 9 3).operand ≤ BitVec.toNat v := by rintro _ rfl; decide +kernel
theorem witness_cancel :
    (sCan.syncUnit 3).cancels = [wtN 65535 8] ∧ (wtN 65535 8).claim = false ∧ (sCan.syncUnit 3).waiting = [] := by decide +kernel
theorem witness_fire :
    sFire.fires = [fOf] ∧ fOf.waiter = Waiter.ring 5 44 ∧ List.find? (fun p => p.2.token == 44) sFire.waits = some (1, jWt) := by decide +kernel
theorem witness_sync_forward :
    sSy.portUp 17 = true ∧ (cSync 4 [msg 1 6, msg 2 7]).hdr.index.toNat = (sSy.port 17).syncMark ∧ (∀ m ∈ cellMsgs (cSync 4 [msg 1 6, msg 2 7]),
    m.dst.toNat ≠ sSy.chip) ∧ sSy.gated.length ≤ 1024 := by decide +kernel
theorem witness_sync_here :
    sSy.portUp 17 = true ∧ (cSync 4 [msg 1 5]).hdr.index.toNat = (sSy.port 17).syncMark ∧ cellMsgs (cSync 4 [msg 1 5]) = [msg 1 5] ∧ (msg 1 5).dst.toNat =
    sSy.chip ∧ (msg 1 5).mtype = 1#8 ∧ bitsOf (BitVec.toNat (msg 1 5).sub) 2 6 = 0 ∧ sSy.gated.length ≤ 1024 := by decide +kernel
theorem witness_sync_old :
    sSy.portUp 17 = true ∧ (cSync 3 [msg 1 5]).hdr.index.toNat < (sSy.port 17).syncMark := by decide +kernel
theorem witness_sync_late :
    sSy.portUp 17 = true ∧ (sSy.port 17).syncMark < (cSync 5 [msg 1 5]).hdr.index.toNat := by decide +kernel
theorem witness_route :
    sTor.syncFwd = [msg 1 6] ∧ sTor.routePort (msg 1 6).dst.toNat (msg 1 6).counter.toNat = some ((sTor.routePort 6 9).getD 99) := by decide +kernel
theorem witness_route_none :
    sNoRoute.syncFwd = [msg 1 6] ∧ sNoRoute.routePort (msg 1 6).dst.toNat (msg 1 6).counter.toNat = none := by decide +kernel
theorem witness_syncSend :
    sTor.syncRaise = [(msg 1 6, some 1)] ∧ sTor.routePort (msg 1 6, some 1).1.dst.toNat (msg 1 6, some 1).1.counter.toNat = some ((sTor.routePort 6
    9).getD 99) := by decide +kernel
theorem witness_send_none :
    sNoRoute.syncRaise = [(msg 1 6, some 1)] ∧ sNoRoute.routePort (msg 1 6, some 1).1.dst.toNat (msg 1 6, some 1).1.counter.toNat = none ∧ (msg 1 6, some
    1).1.mtype = 1#8 ∧ (msg 1 6, some 1).2 = some 1 := by decide +kernel
theorem witness_save :
    ∀ (c a : ℕ) (data : List Byte), c = bitsOf (leAt ((sSv 8 4096).desc 1) 17 1) 1 2 → a = leAt ((sSv 8 4096).desc 1) 32 8 → data = (sSv 8
    4096).saveHeader ((sSv 8 4096).ctxCounters c).length ((sSv 8 4096).ctxWatches c).length c ((sSv 8 4096).fld (SYN_CTX_RANGE_base c)) ++ List.flatMap
    (fun n => counterRec ((sSv 8 4096).counter n)) ((sSv 8 4096).ctxCounters c) ++ (sSv 8 4096).watchRecs ((sSv 8 4096).ctxWatches c) → (sSv 8 4096).fresh
    1 kindSignal = true ∧ leAt ((sSv 8 4096).desc 1) 16 1 = 8 ∧ saveOk 8 ((sSv 8 4096).desc 1) = true ∧ (sSv 8 4096).flag
    HUB_MODULE_STATUS_maintenance_mode = false ∧ dDeadlineValid ((sSv 8 4096).desc 1) = false ∧ a + data.length ≤ hbmTop ∧ hbmRegion (a + data.length - 1)
    = hbmRegion a ∧ (sSv 8 4096).regionFenced (hbmRegion a) = false := by rintro _ _ _ rfl rfl rfl; decide +kernel
theorem witness_save_watch :
    ∀ (c a : ℕ) (data : List Byte), c = bitsOf (leAt (sSvW.desc 1) 17 1) 1 2 → a = leAt (sSvW.desc 1) 32 8 → data = sSvW.saveHeader (sSvW.ctxCounters
    c).length (sSvW.ctxWatches c).length c (sSvW.fld (SYN_CTX_RANGE_base c)) ++ List.flatMap (fun n => counterRec (sSvW.counter n)) (sSvW.ctxCounters c)
    ++ sSvW.watchRecs (sSvW.ctxWatches c) → sSvW.fresh 1 kindSignal = true ∧ leAt (sSvW.desc 1) 16 1 = 8 ∧ saveOk 8 (sSvW.desc 1) = true ∧ sSvW.flag
    HUB_MODULE_STATUS_maintenance_mode = false ∧ dDeadlineValid (sSvW.desc 1) = false ∧ a + data.length ≤ hbmTop ∧ hbmRegion (a + data.length - 1) =
    hbmRegion a ∧ sSvW.regionFenced (hbmRegion a) = false := by rintro _ _ _ rfl rfl rfl; decide +kernel
theorem witness_thaw :
    ∀ (c : ℕ), c = bitsOf (leAt (sThaw.desc 1) 17 1) 1 2 → sThaw.fresh 1 kindSignal = true ∧ leAt (sThaw.desc 1) 16 1 = 10 ∧ saveOk 10 (sThaw.desc 1) =
    true ∧ ∀ r < 4, (sThaw.syncUnit r).watches = [] ∧ (sThaw.syncUnit r).waiting = [] ∧ sThaw.regionFenced r = false ∧ ∀ o ∈ (sThaw.syncUnit r).deferred,
    homeOf o.counter = r := by rintro _ rfl; decide +kernel
theorem witness_restore_broken :
    ∀ (c : ℕ) (ns : List ℕ) (h x : List Byte × AccEnd × State), c = bitsOf (leAt ((sRst 1).desc 1) 17 1) 1 2 → ns = (sRst 1).ctxCounters c → h = (sRst
    1).load (Who.unit (srcRing ((sRst 1).jget 1).ring)) (leAt ((sRst 1).desc 1) 32 8) 64 → x = h.2.2.load (Who.unit (srcRing ((sRst 1).jget 1).ring))
    (leAt ((sRst 1).desc 1) 32 8 + 64) (16 * ns.length + 32 * leAt h.1 4 4) → (sRst 1).fresh 1 kindSignal = true ∧ leAt ((sRst 1).desc 1) 16 1 = 9 ∧
    saveOk 9 ((sRst 1).desc 1) = true ∧ h.2.1 = AccEnd.ok ∧ leAt h.1 24 2 = (sRst 1).chip ∧ bitsOf (leAt h.1 8 1) 1 2 = c ∧ leAt h.1 12 2 = (sRst 1).fld
    (SYN_CTX_RANGE_base c) ∧ leAt h.1 0 4 = ns.length ∧ bitOf (leAt h.1 8 1) 0 = true := by rintro _ _ _ _ rfl rfl rfl rfl; decide +kernel
theorem witness_restore :
    ∀ (c : ℕ) (ns : List ℕ) (h x : List Byte × AccEnd × State), c = bitsOf (leAt ((sRst 0).desc 1) 17 1) 1 2 → ns = (sRst 0).ctxCounters c → h = (sRst
    0).load (Who.unit (srcRing ((sRst 0).jget 1).ring)) (leAt ((sRst 0).desc 1) 32 8) 64 → x = h.2.2.load (Who.unit (srcRing ((sRst 0).jget 1).ring))
    (leAt ((sRst 0).desc 1) 32 8 + 64) (16 * ns.length + 32 * leAt h.1 4 4) → (sRst 0).fresh 1 kindSignal = true ∧ leAt ((sRst 0).desc 1) 16 1 = 9 ∧
    saveOk 9 ((sRst 0).desc 1) = true ∧ h.2.1 = AccEnd.ok ∧ leAt h.1 24 2 = (sRst 0).chip ∧ bitsOf (leAt h.1 8 1) 1 2 = c ∧ leAt h.1 12 2 = (sRst 0).fld
    (SYN_CTX_RANGE_base c) ∧ leAt h.1 0 4 = ns.length ∧ bitOf (leAt h.1 8 1) 0 = false ∧ x.2.1 = AccEnd.ok ∧ leAt h.1 4 4 = 0 ∧ (sRst 0).fld
    (SYN_CTX_RANGE_base c) + (sRst 0).fld (SYN_CTX_RANGE_count c) ≤ 16384 ∧ ∀ r < 4, ((sRst 0).syncUnit r).watches = [] ∧ ((sRst 0).syncUnit r).waiting =
    [] ∧ ((sRst 0).syncUnit r).regs = [] ∧ ((sRst 0).syncUnit r).deferred = [] := by rintro _ _ _ _ rfl rfl rfl rfl; decide +kernel
theorem witness_range :
    5 = bitsOf 1073414149 0 14 ∧ 16379 = bitsOf 1073414149 16 15 ∧ 5 + 16379 ≤ 16384 ∧ ∀ k < 4, k ≠ 0 → rangesMeet 5 16379 ((ctxS upC).fld
    (SYN_CTX_RANGE_base k)) ((ctxS upC).fld (SYN_CTX_RANGE_count k)) = false := by decide +kernel
theorem witness_range_past :
    5 = bitsOf 1073479685 0 14 ∧ 16380 = bitsOf 1073479685 16 15 ∧ (16384 < 5 + 16380 ∨ ∃ k < 4, k ≠ 0 ∧ rangesMeet 5 16380 ((ctxS upC).fld
    (SYN_CTX_RANGE_base k)) ((ctxS upC).fld (SYN_CTX_RANGE_count k)) = true) := by decide +kernel
theorem witness_range_meets :
    4 = bitsOf 65540 0 14 ∧ 1 = bitsOf 65540 16 15 ∧ (16384 < 4 + 1 ∨ ∃ k < 4, k ≠ 1 ∧ rangesMeet 4 1 ((ctxS upC).fld (SYN_CTX_RANGE_base k)) ((ctxS
    upC).fld (SYN_CTX_RANGE_count k)) = true) := by decide +kernel

/-! ### Witnesses: Descriptor rings -/

def ringOn (r lg head tail : Nat) (s : State) : State := withFlds s [(RNG_CFG_log2_size r, lg), (RNG_CFG_enable r, 1), (RNG_HEAD_head r, head), (RNG_TAIL_tail r, tail)]
def sDb : State := ringOn 65535 4 31 3 up
def sDbCq : State := withFlds (ringOn 0 4 7 1 up) [(RNG_CFG_cq 0, 1)]
def sCq6 : State := withFlds up [(RNG_CFG_cq 6, 1), (RNG_CFG_enable 6, 1)]
def sMod : State := withFlds { up with moder := [(6, (3, 500))] } [(RNG_NOTIFY_irq_enable 6, 1), (RNG_NOTIFY_vector 6, 2047), (RNG_MODERATION_time_us 6, 9), (MSIX_CTL_mask 2047, 1)]
def sMod2 : State := withFlds sMod [(MSIX_CTL_mask 2047, 0), (MSIX_ADDR_LO_addr 2047, 64)]
def putHostS (s : State) (a : Nat) (bs : List Byte) : State := s.putHost a bs
def dNop (seq fl : Nat) : List Byte := mkBytes 64 [(0, 1, 0x7F), (1, 1, fl), (4, 4, seq)]
def sAcc (seq : Nat) : State := putHostS (withFlds (ringOn 5 4 31 1 up) [(RNG_BASE_LO_base_lo 5, 0x1000), (RNG_CFG_cq_index 5, 6), (RNG_SEQ_next_seq 5, 0xFFFFFFFF), (RNG_CFG_cq 6, 1), (RNG_CFG_enable 6, 1), (RNG_CFG_log2_size 6, 4)]) (0x1000 + 15 * 64) (dNop seq 0)
def sDisp (k fl gc dl : Nat) : State := { withEntry up 7 k fl gc [(16, 1, 1)] dl with ringQ := [(5, [7])], tide := { TideUnit.zero with ns := 100 } }
def dn (e : Nat) : Done := ⟨e, .ok, .none, 5, 6, 99, false, false⟩
def sDone : State := withFlds { withEntry up 7 kindNop 0 0 [] with doneQ := [dn 7] } [(RNG_CFG_cq_index 5, 6), (RNG_CFG_cq 6, 1), (RNG_CFG_enable 6, 1), (RNG_CFG_log2_size 6, 4), (RNG_BASE_LO_base_lo 6, 0x1000), (RNG_HEAD_head 6, 31)]
def sRet : State := up.jput 7 ⟨dNop 7 0, 5, 3, false, 0, 0, []⟩
def cpB (src dst n : Nat) : List (Nat × Nat × Nat) := [(16, 8, src), (24, 8, dst), (32, 8, n)]
def sCp (src dst n : Nat) : State := withDesc (withMem upC src [1#8, 0#8, 3#8, 4#8]) 1 kindCopy 0 0 (cpB src (5 * 2 ^ 48 + dst) n)
def lnB (b : Nat) : List (Nat × Nat × Nat) := [(16, 8, 0x1000), (24, 4, 3), (28, 4, 9), (32, 1, b)]
theorem witness_db :
    ∀ (m head tail x : ℕ), m = sDb.ringMod ↑65535 → head = sDb.fld (RNG_HEAD_head ↑65535) → tail = sDb.fld (RNG_TAIL_tail ↑65535) → x = leAt (leBytes 4 5)
    0 4 → sDb.inS0 = true ∧ sDb.fld HUB_BOOT_STATUS_phase ≠ 0 ∧ (Instr.descriptorDoorbell 65535 0 (leBytes 4 5) = Instr.descriptorDoorbell 65535 0
    (leBytes 4 5) ∨ Instr.descriptorDoorbell 65535 0 (leBytes 4 5) = Instr.completionDoorbell 65535 0 (leBytes 4 5)) ∧ (true = if sDb.flag (RNG_CFG_cq
    65535) = true then decide (subMod head x m ≤ subMod head tail m) else decide (subMod x head m ≤ sDb.ringSize 65535) && decide (subMod x tail m ≤
    subMod x head m)) ∧ 0 = 0#4 ∧ ((leBytes 4 5).length = 4 ∨ (leBytes 4 5).length = 8 ∨ (leBytes 4 5).length = 16) ∧ true = true := by rintro _ _ _ _ rfl rfl rfl rfl; decide +kernel
theorem witness_db_wrap :
    ∀ (m head tail x : ℕ), m = sDb.ringMod ↑65535 → head = sDb.fld (RNG_HEAD_head ↑65535) → tail = sDb.fld (RNG_TAIL_tail ↑65535) → x = leAt (leBytes 16
    15) 0 4 → sDb.inS0 = true ∧ sDb.fld HUB_BOOT_STATUS_phase ≠ 0 ∧ (Instr.completionDoorbell 65535 0 (leBytes 16 15) = Instr.descriptorDoorbell 65535 0
    (leBytes 16 15) ∨ Instr.completionDoorbell 65535 0 (leBytes 16 15) = Instr.completionDoorbell 65535 0 (leBytes 16 15)) ∧ (true = if sDb.flag
    (RNG_CFG_cq 65535) = true then decide (subMod head x m ≤ subMod head tail m) else decide (subMod x head m ≤ sDb.ringSize 65535) && decide (subMod x
    tail m ≤ subMod x head m)) ∧ 0 = 0#4 ∧ ((leBytes 16 15).length = 4 ∨ (leBytes 16 15).length = 8 ∨ (leBytes 16 15).length = 16) ∧ true = true := by rintro _ _ _ _ rfl rfl rfl rfl; decide +kernel
theorem witness_db_full :
    ∀ (m head tail x : ℕ), m = sDb.ringMod ↑65535 → head = sDb.fld (RNG_HEAD_head ↑65535) → tail = sDb.fld (RNG_TAIL_tail ↑65535) → x = leAt (leBytes 4
    16) 0 4 → sDb.inS0 = true ∧ sDb.fld HUB_BOOT_STATUS_phase ≠ 0 ∧ (Instr.descriptorDoorbell 65535 0 (leBytes 4 16) = Instr.descriptorDoorbell 65535 0
    (leBytes 4 16) ∨ Instr.descriptorDoorbell 65535 0 (leBytes 4 16) = Instr.completionDoorbell 65535 0 (leBytes 4 16)) ∧ (false = if sDb.flag (RNG_CFG_cq
    65535) = true then decide (subMod head x m ≤ subMod head tail m) else decide (subMod x head m ≤ sDb.ringSize 65535) && decide (subMod x tail m ≤
    subMod x head m)) ∧ 0 = 0#4 ∧ ((leBytes 4 16).length = 4 ∨ (leBytes 4 16).length = 8 ∨ (leBytes 4 16).length = 16) ∧ (0 ≠ 0#4 ∨ ¬((leBytes 4
    16).length = 4 ∨ (leBytes 4 16).length = 8 ∨ (leBytes 4 16).length = 16) ∨ false = false) := by rintro _ _ _ _ rfl rfl rfl rfl; decide +kernel
theorem witness_db_back :
    ∀ (m head tail x : ℕ), m = sDb.ringMod ↑65535 → head = sDb.fld (RNG_HEAD_head ↑65535) → tail = sDb.fld (RNG_TAIL_tail ↑65535) → x = leAt (leBytes 4 2)
    0 4 → sDb.inS0 = true ∧ sDb.fld HUB_BOOT_STATUS_phase ≠ 0 ∧ (Instr.descriptorDoorbell 65535 0 (leBytes 4 2) = Instr.descriptorDoorbell 65535 0
    (leBytes 4 2) ∨ Instr.descriptorDoorbell 65535 0 (leBytes 4 2) = Instr.completionDoorbell 65535 0 (leBytes 4 2)) ∧ (false = if sDb.flag (RNG_CFG_cq
    65535) = true then decide (subMod head x m ≤ subMod head tail m) else decide (subMod x head m ≤ sDb.ringSize 65535) && decide (subMod x tail m ≤
    subMod x head m)) ∧ 0 = 0#4 ∧ ((leBytes 4 2).length = 4 ∨ (leBytes 4 2).length = 8 ∨ (leBytes 4 2).length = 16) ∧ (0 ≠ 0#4 ∨ ¬((leBytes 4 2).length =
    4 ∨ (leBytes 4 2).length = 8 ∨ (leBytes 4 2).length = 16) ∨ false = false) := by rintro _ _ _ _ rfl rfl rfl rfl; decide +kernel
theorem witness_db_len :
    ∀ (m head tail x : ℕ), m = sDb.ringMod ↑65535 → head = sDb.fld (RNG_HEAD_head ↑65535) → tail = sDb.fld (RNG_TAIL_tail ↑65535) → x = leAt (leBytes 2 5)
    0 4 → sDb.inS0 = true ∧ sDb.fld HUB_BOOT_STATUS_phase ≠ 0 ∧ (Instr.descriptorDoorbell 65535 0 (leBytes 2 5) = Instr.descriptorDoorbell 65535 0
    (leBytes 2 5) ∨ Instr.descriptorDoorbell 65535 0 (leBytes 2 5) = Instr.completionDoorbell 65535 0 (leBytes 2 5)) ∧ (true = if sDb.flag (RNG_CFG_cq
    65535) = true then decide (subMod head x m ≤ subMod head tail m) else decide (subMod x head m ≤ sDb.ringSize 65535) && decide (subMod x tail m ≤
    subMod x head m)) ∧ 0 = 0#4 ∧ true = true ∧ (0 ≠ 0#4 ∨ ¬((leBytes 2 5).length = 4 ∨ (leBytes 2 5).length = 8 ∨ (leBytes 2 5).length = 16) ∨ true =
    false) := by rintro _ _ _ _ rfl rfl rfl rfl; decide +kernel
theorem witness_db_off :
    ∀ (m head tail x : ℕ), m = sDb.ringMod ↑65535 → head = sDb.fld (RNG_HEAD_head ↑65535) → tail = sDb.fld (RNG_TAIL_tail ↑65535) → x = leAt (leBytes 4 5)
    0 4 → sDb.inS0 = true ∧ sDb.fld HUB_BOOT_STATUS_phase ≠ 0 ∧ (Instr.descriptorDoorbell 65535 4 (leBytes 4 5) = Instr.descriptorDoorbell 65535 4
    (leBytes 4 5) ∨ Instr.descriptorDoorbell 65535 4 (leBytes 4 5) = Instr.completionDoorbell 65535 4 (leBytes 4 5)) ∧ (true = if sDb.flag (RNG_CFG_cq
    65535) = true then decide (subMod head x m ≤ subMod head tail m) else decide (subMod x head m ≤ sDb.ringSize 65535) && decide (subMod x tail m ≤
    subMod x head m)) ∧ ((leBytes 4 5).length = 4 ∨ (leBytes 4 5).length = 8 ∨ (leBytes 4 5).length = 16) ∧ true = true ∧ (4 ≠ 0#4 ∨ ¬((leBytes 4
    5).length = 4 ∨ (leBytes 4 5).length = 8 ∨ (leBytes 4 5).length = 16) ∨ true = false) := by rintro _ _ _ _ rfl rfl rfl rfl; decide +kernel
theorem witness_db_cq :
    ∀ (m head tail x : ℕ), m = sDbCq.ringMod ↑0 → head = sDbCq.fld (RNG_HEAD_head ↑0) → tail = sDbCq.fld (RNG_TAIL_tail ↑0) → x = leAt (leBytes 8 7) 0 4 →
    sDbCq.inS0 = true ∧ sDbCq.fld HUB_BOOT_STATUS_phase ≠ 0 ∧ (Instr.completionDoorbell 0 0 (leBytes 8 7) = Instr.descriptorDoorbell 0 0 (leBytes 8 7) ∨
    Instr.completionDoorbell 0 0 (leBytes 8 7) = Instr.completionDoorbell 0 0 (leBytes 8 7)) ∧ (true = if sDbCq.flag (RNG_CFG_cq 0) = true then decide
    (subMod head x m ≤ subMod head tail m) else decide (subMod x head m ≤ sDbCq.ringSize 0) && decide (subMod x tail m ≤ subMod x head m)) ∧ 0 = 0#4 ∧
    ((leBytes 8 7).length = 4 ∨ (leBytes 8 7).length = 8 ∨ (leBytes 8 7).length = 16) ∧ true = true := by rintro _ _ _ _ rfl rfl rfl rfl; decide +kernel
theorem witness_db_cq_past :
    ∀ (m head tail x : ℕ), m = sDbCq.ringMod ↑0 → head = sDbCq.fld (RNG_HEAD_head ↑0) → tail = sDbCq.fld (RNG_TAIL_tail ↑0) → x = leAt (leBytes 8 8) 0 4 →
    sDbCq.inS0 = true ∧ sDbCq.fld HUB_BOOT_STATUS_phase ≠ 0 ∧ (Instr.completionDoorbell 0 0 (leBytes 8 8) = Instr.descriptorDoorbell 0 0 (leBytes 8 8) ∨
    Instr.completionDoorbell 0 0 (leBytes 8 8) = Instr.completionDoorbell 0 0 (leBytes 8 8)) ∧ (false = if sDbCq.flag (RNG_CFG_cq 0) = true then decide
    (subMod head x m ≤ subMod head tail m) else decide (subMod x head m ≤ sDbCq.ringSize 0) && decide (subMod x tail m ≤ subMod x head m)) ∧ 0 = 0#4 ∧
    ((leBytes 8 8).length = 4 ∨ (leBytes 8 8).length = 8 ∨ (leBytes 8 8).length = 16) ∧ (0 ≠ 0#4 ∨ ¬((leBytes 8 8).length = 4 ∨ (leBytes 8 8).length = 8 ∨
    (leBytes 8 8).length = 16) ∨ false = false) := by rintro _ _ _ _ rfl rfl rfl rfl; decide +kernel
theorem witness_ringCfg :
    up.ringFree 65535 = true := by decide +kernel
theorem witness_ringCfg2 :
    up.ringFree 0 = true := by decide +kernel
theorem witness_ringCfg_busy :
    sDb.ringFree 65535 = false ∧ 4096 / 4096 * 4096 ≠ sDb.fld (RNG_BASE_LO_base_lo 65535) := by decide +kernel
theorem witness_enable_cq :
    up.ringFree 65535 = true ∧ bitsOf 34820 11 1 = 1 := by decide +kernel
theorem witness_enable :
    sCq6.ringFree 5 = true ∧ bitsOf 425988 11 1 = 0 ∧ bitsOf 425988 16 16 ≠ 5 ∧ sCq6.flag (RNG_CFG_cq (bitsOf 425988 16 16)) = true ∧ sCq6.flag
    (RNG_CFG_enable (bitsOf 425988 16 16)) = true := by decide +kernel
theorem witness_enable_unbound :
    up.ringFree 5 = true ∧ bitsOf 425988 11 1 = 0 ∧ bitsOf 425988 16 16 ≠ 5 ∧ ¬(up.flag (RNG_CFG_cq (bitsOf 425988 16 16)) = true ∧ up.flag
    (RNG_CFG_enable (bitsOf 425988 16 16)) = true) := by decide +kernel
theorem witness_disable :
    clampNat 4 20 (bitsOf 4 0 5) = sDb.fld (RNG_CFG_log2_size 65535) ∧ bitsOf 4 10 1 = sDb.fld (RNG_CFG_in_device 65535) ∧ bitsOf 4 11 1 = sDb.fld
    (RNG_CFG_cq 65535) ∧ bitsOf 4 16 16 = sDb.fld (RNG_CFG_cq_index 65535) := by decide +kernel
theorem witness_moderation :
    sMod.moder.find 6 = some (3, 500) ∧ sMod.flag (RNG_NOTIFY_irq_enable 6) = true ∧ sMod.fld (RNG_MODERATION_time_us 6) ≠ 0 ∧ sMod.flag (MSIX_CTL_mask
    (sMod.fld (RNG_NOTIFY_vector 6))) = true := by decide +kernel
theorem witness_moderation_open :
    sMod2.moder.find 6 = some (3, 500) ∧ sMod2.flag (RNG_NOTIFY_irq_enable 6) = true ∧ sMod2.fld (RNG_MODERATION_time_us 6) ≠ 0 := by decide +kernel
set_option maxRecDepth 8000 in
theorem witness_accept :
    ∀ (q : ℕ) (d : List Byte), q = (sAcc 4294967295).fld (RNG_CFG_cq_index ↑5) → d = (sAcc 4294967295).hostBytes ((sAcc 4294967295).ringBase ↑5 + (sAcc
    4294967295).fld (RNG_HEAD_head ↑5) % (sAcc 4294967295).ringSize ↑5 * 64) 64 → (sAcc 4294967295).flag (RNG_CFG_enable 5) = true ∧ (sAcc
    4294967295).flag (RNG_CFG_cq 5) = false ∧ (sAcc 4294967295).flag (RNG_STATUS_refused 5) = false ∧ (sAcc 4294967295).fld (RNG_HEAD_head 5) ≠ (sAcc
    4294967295).fld (RNG_TAIL_tail 5) ∧ (sAcc 4294967295).pauseReason 5 = 0 ∧ (sAcc 4294967295).accepting = true ∧ List.length (sAcc 4294967295).journal <
    journalSize ∧ (sAcc 4294967295).flag (RNG_CFG_in_device 5) = false ∧ (sAcc 4294967295).mirrorAOk = true ∧ dSeq d = (sAcc 4294967295).fld
    (RNG_SEQ_next_seq 5) := by rintro _ _ rfl rfl; decide +kernel
set_option maxRecDepth 8000 in
theorem witness_accept_seq :
    ∀ (q : ℕ) (d : List Byte), q = (sAcc 3).fld (RNG_CFG_cq_index ↑5) → d = (sAcc 3).hostBytes ((sAcc 3).ringBase ↑5 + (sAcc 3).fld (RNG_HEAD_head ↑5) %
    (sAcc 3).ringSize ↑5 * 64) 64 → (sAcc 3).flag (RNG_CFG_enable 5) = true ∧ (sAcc 3).flag (RNG_CFG_cq 5) = false ∧ (sAcc 3).flag (RNG_STATUS_refused 5)
    = false ∧ (sAcc 3).fld (RNG_HEAD_head 5) ≠ (sAcc 3).fld (RNG_TAIL_tail 5) ∧ (sAcc 3).pauseReason 5 = 0 ∧ (sAcc 3).accepting = true ∧ List.length (sAcc
    3).journal < journalSize ∧ (sAcc 3).flag (RNG_CFG_in_device 5) = false ∧ (sAcc 3).mirrorAOk = true ∧ dSeq d ≠ (sAcc 3).fld (RNG_SEQ_next_seq 5) ∧
    (sAcc 3).flag (RNG_CFG_enable q) = true := by rintro _ _ rfl rfl; decide +kernel
theorem witness_dispatch :
    (sDisp kindNop 0 0 0).fld HUB_BOOT_STATUS_phase = 6 ∧ (sDisp kindNop 0 0 0).flag SAF_STATUS_shutdown = false ∧ (sDisp kindNop 0 0 0).inS0 = true ∧
    (sDisp kindNop 0 0 0).nextRing = some 5 ∧ (sDisp kindNop 0 0 0).nextOf 5 = some 7 ∧ (sDisp kindNop 0 0 0).headerOk 5 ((sDisp kindNop 0 0 0).desc 7) =
    true ∧ (sDisp kindNop 0 0 0).lateStart ((sDisp kindNop 0 0 0).desc 7) = false ∧ (sDisp kindNop 0 0 0).mirrorAOk = true ∧ honoured ((sDisp kindNop 0 0
    0).desc 7) = true := by decide +kernel
theorem witness_dispatch_signal :
    (sDisp kindSignal 0 0 0).fld HUB_BOOT_STATUS_phase = 6 ∧ (sDisp kindSignal 0 0 0).flag SAF_STATUS_shutdown = false ∧ (sDisp kindSignal 0 0 0).inS0 =
    true ∧ (sDisp kindSignal 0 0 0).nextRing = some 5 ∧ (sDisp kindSignal 0 0 0).nextOf 5 = some 7 ∧ (sDisp kindSignal 0 0 0).headerOk 5 ((sDisp
    kindSignal 0 0 0).desc 7) = true ∧ (sDisp kindSignal 0 0 0).lateStart ((sDisp kindSignal 0 0 0).desc 7) = false ∧ (sDisp kindSignal 0 0 0).mirrorAOk =
    true ∧ honoured ((sDisp kindSignal 0 0 0).desc 7) = false := by decide +kernel
theorem witness_dispatch_late :
    (sDisp kindSignal 16 0 100).fld HUB_BOOT_STATUS_phase = 6 ∧ (sDisp kindSignal 16 0 100).flag SAF_STATUS_shutdown = false ∧ (sDisp kindSignal 16 0
    100).inS0 = true ∧ (sDisp kindSignal 16 0 100).nextRing = some 5 ∧ (sDisp kindSignal 16 0 100).nextOf 5 = some 7 ∧ (sDisp kindSignal 16 0
    100).headerOk 5 ((sDisp kindSignal 16 0 100).desc 7) = true ∧ (sDisp kindSignal 16 0 100).lateStart ((sDisp kindSignal 16 0 100).desc 7) = true ∧
    dKind ((sDisp kindSignal 16 0 100).desc 7) ≠ kindRingStep ∧ memberOf ((sDisp kindSignal 16 0 100).desc 7) = 0 := by decide +kernel
set_option maxRecDepth 8000 in
theorem witness_complete :
    ∀ (q w : ℕ), q = sDone.fld (RNG_CFG_cq_index (sDone.jget (dn 7).entry).ring) → w = sDone.fld (RNG_HEAD_head q) → sDone.mirrorAOk = true ∧ List.find?
    sDone.doneReady sDone.doneQ = some (dn 7) ∧ (dn 7).journalled = false ∧ sDone.takesRecord q = true ∧ sDone.flag (RNG_CFG_in_device q) = false ∧
    sDone.flag (RNG_NOTIFY_irq_enable q) = false ∧ dSignal (sDone.desc (dn 7).entry) = false := by rintro _ _ rfl rfl; decide +kernel
theorem witness_retire :
    sRet.mirrorAOk = true ∧ (sRet.jget 7).state = 3 ∧ ∀ d ∈ sRet.doneQ, d.entry ≠ 7 := by decide +kernel
theorem witness_copy_bad :
    (withDesc upC 1 kindCopy 0 0 (cpB 0 64 0)).fresh 1 kindCopy = true ∧ (withDesc upC 1 kindCopy 0 0 (cpB 0 64 0)).copyOk ((withDesc upC 1 kindCopy 0 0
    (cpB 0 64 0)).desc 1) = false := by decide +kernel
theorem witness_copy :
    (sCp 4096 8193 4).fresh 1 kindCopy = true ∧ (sCp 4096 8193 4).copyOk ((sCp 4096 8193 4).desc 1) = true ∧ cpSrcHost ((sCp 4096 8193 4).desc 1) = false
    ∧ (sCp 4096 8193 4).cpHere ((sCp 4096 8193 4).desc 1) = true ∧ 4096 = gLocal (cpSrc ((sCp 4096 8193 4).desc 1)) ∧ 8193 = gLocal (cpDst ((sCp 4096 8193
    4).desc 1)) ∧ 4 = cpLen ((sCp 4096 8193 4).desc 1) ∧ 4096 + 4 ≤ hbmTop ∧ 8193 + 4 ≤ hbmTop ∧ hbmRegion (4096 + 4 - 1) = hbmRegion 4096 ∧ hbmRegion
    (8193 + 4 - 1) = hbmRegion 8193 ∧ (sCp 4096 8193 4).regionFenced (hbmRegion 4096) = false ∧ (sCp 4096 8193 4).regionFenced (hbmRegion 8193) = false ∧
    (sCp 4096 8193 4).anyPoison 4096 4 = false := by decide +kernel
theorem witness_copy_adj :
    (sCp 63 67 4).fresh 1 kindCopy = true ∧ (sCp 63 67 4).copyOk ((sCp 63 67 4).desc 1) = true ∧ cpSrcHost ((sCp 63 67 4).desc 1) = false ∧ (sCp 63 67
    4).cpHere ((sCp 63 67 4).desc 1) = true ∧ 63 = gLocal (cpSrc ((sCp 63 67 4).desc 1)) ∧ 67 = gLocal (cpDst ((sCp 63 67 4).desc 1)) ∧ 4 = cpLen ((sCp 63
    67 4).desc 1) ∧ 63 + 4 ≤ hbmTop ∧ 67 + 4 ≤ hbmTop ∧ hbmRegion (63 + 4 - 1) = hbmRegion 63 ∧ hbmRegion (67 + 4 - 1) = hbmRegion 67 ∧ (sCp 63 67
    4).regionFenced (hbmRegion 63) = false ∧ (sCp 63 67 4).regionFenced (hbmRegion 67) = false ∧ (sCp 63 67 4).anyPoison 63 4 = false := by decide +kernel
theorem witness_launch_bad :
    (withDesc upC 1 kindLaunch 0 0 (lnB 64)).fresh 1 kindLaunch = true ∧ launchOk ((withDesc upC 1 kindLaunch 0 0 (lnB 64)).desc 1) = false := by decide +kernel
theorem witness_launch :
    (withDesc upC 1 kindLaunch 0 12288 (lnB 63)).fresh 1 kindLaunch = true ∧ launchOk ((withDesc upC 1 kindLaunch 0 12288 (lnB 63)).desc 1) = true ∧
    (withDesc upC 1 kindLaunch 0 12288 (lnB 63)).placeErr (lnBlock ((withDesc upC 1 kindLaunch 0 12288 (lnB 63)).desc 1)) = ErrCode.none := by decide +kernel
theorem witness_launch_absent :
    (withFlds (withDesc upC 1 kindLaunch 0 0 (lnB 63)) [(mapFld 63, 128)]).fresh 1 kindLaunch = true ∧ launchOk ((withFlds (withDesc upC 1 kindLaunch 0 0
    (lnB 63)) [(mapFld 63, 128)]).desc 1) = true ∧ (withFlds (withDesc upC 1 kindLaunch 0 0 (lnB 63)) [(mapFld 63, 128)]).placeErr (lnBlock ((withFlds
    (withDesc upC 1 kindLaunch 0 0 (lnB 63)) [(mapFld 63, 128)]).desc 1)) ≠ ErrCode.none := by decide +kernel
theorem witness_nop :
    (withDesc upC 1 kindNop 0 0 []).fresh 1 kindNop = true := by decide +kernel
theorem witness_nop_bad :
    (withDesc upC 1 kindNop 0 0 [(63, 1, 1)]).fresh 1 kindNop = true := by decide +kernel

/-! ### Witnesses: Descriptors that move data -/

def txSlot (s : State) (p st : Nat) : State := s.setReg (bankAt p false 0 9) (BitVec.ofNat 32 (1 + 4 * st))
def stB (op st n : Nat) : List (Nat × Nat × Nat) := [(16, 1, op), (18, 2, st), (20, 4, 0xFFFFFFFF), (24, 8, n), (32, 8, 0x1000)]
def sStr (op st n : Nat) : State := withDesc (txSlot (withMem upC 0x1000 [1#8, 2#8]) 17 st) 1 kindStream 0 0 (stB op st n)
def bcB (op st n : Nat) : List (Nat × Nat × Nat) := [(16, 1, op), (18, 2, st), (20, 4, 0x12345), (24, 4, n), (32, 8, 0x1000)]
def sBc (op st n : Nat) : State := withDesc (txSlot (withMem upC 0x1000 [1#8, 2#8]) 17 st) 1 kindBroadcast 0 0 (bcB op st n)
def rdB (m : Nat) : List (Nat × Nat × Nat) := [(16, 1, 4 * m), (20, 4, 7), (28, 2, 3), (30, 2, 0xC001), (32, 4, 5), (40, 8, if m = 4 then 0 else 0x1000), (48, 2, 9), (60, 4, 1)]
def upR : State := { upC with cfg := { upC.cfg with shCount := 4 } }
def gwB (c f : Nat) : List (Nat × Nat × Nat) := [(16, 8, c * 2 ^ 48 + 0x4000), (24, 4, 2), (28, 4, 100), (32, 8, 0x9000), (40, 2, 77), (42, 1, f), (48, 8, 1)]
def sOwn : State := withMem (txSlot upC 3 77) 0x4000 (mkBytes 64 [(0, 8, 3), (12, 4, 200)])
def rsB (snd rcv : Nat) : List (Nat × Nat × Nat) := [(16, 2, snd), (18, 2, rcv), (20, 4, 7), (24, 4, 1000), (28, 1, 4), (29, 1, 1), (30, 1, 2), (32, 8, 0x1000), (48, 8, 3), (56, 8, ctrAt 5 9)]
def sRs (snd rcv : Nat) : State := withDesc (txSlot upC 3 77) 1 kindRingStep 16 0 (rsB snd rcv) 9000
def rj (o d : Bool) : RingJob := ⟨false, d, 0, 0, o⟩
def sRsR : State := { (sRs 77 78).begun 1 with ringJobs := [(1, rj false false)], rx := [(78, { RxStream.zero with bound := some (RxBind.new 1 .ringStep (gTag ((sRs 77 78).desc 1)) 0 1000 0) })] }
def sSd (m : Nat) : State := withDesc (txSlot (withMem upR 0x1000 [1#8, 2#8]) 3 0xC001) 1 kindReduce 0 0 (rdB m)
def sNsU : State := { withDesc (sSd 4) 0 kindReduce 0 0 (rdB 0) with ringQ := [(5, [0, 1])] }
def sNsL : State := (sSd 4).setNorm 7 { NormAcc.zero with step := 7, lost := true }
def xE : TxXfer := TxXfer.new 0xC001 5 0 (.entry 1) [[1#8]] 9 false
def sRd : State := { withDesc upR 1 kindReduce 16 0 (rdB 0) 9000 with tx := [xE] }
def sSdW : State := { sSd 0 with verdicts := [{ Verdict.zero with step := 6, bound := true }] }
theorem witness_streamSend :
    (∀ x ∈ (sStr 0 49151 929).tx, x.loc = false) ∧ (sStr 0 49151 929).fresh 1 kindStream = true ∧ leAt ((sStr 0 49151 929).desc 1) 16 1 = 0 ∧ streamOk
    ((sStr 0 49151 929).desc 1) = true ∧ (sStr 0 49151 929).isLocalStream (leAt ((sStr 0 49151 929).desc 1) 18 2) = false ∧ (sStr 0 49151 929).entryHeld 1
    (leAt ((sStr 0 49151 929).desc 1) 32 8) (leAt ((sStr 0 49151 929).desc 1) 24 8) = none ∧ ((sStr 0 49151 929).load (Who.unit (srcRing ((sStr 0 49151
    929).jget 1).ring)) (leAt ((sStr 0 49151 929).desc 1) 32 8) (leAt ((sStr 0 49151 929).desc 1) 24 8)).2.1 = AccEnd.ok := by decide +kernel
theorem witness_streamSend1 :
    (∀ x ∈ (sStr 0 1 928).tx, x.loc = false) ∧ (sStr 0 1 928).fresh 1 kindStream = true ∧ leAt ((sStr 0 1 928).desc 1) 16 1 = 0 ∧ streamOk ((sStr 0 1
    928).desc 1) = true ∧ (sStr 0 1 928).isLocalStream (leAt ((sStr 0 1 928).desc 1) 18 2) = false ∧ (sStr 0 1 928).entryHeld 1 (leAt ((sStr 0 1 928).desc
    1) 32 8) (leAt ((sStr 0 1 928).desc 1) 24 8) = none ∧ ((sStr 0 1 928).load (Who.unit (srcRing ((sStr 0 1 928).jget 1).ring)) (leAt ((sStr 0 1
    928).desc 1) 32 8) (leAt ((sStr 0 1 928).desc 1) 24 8)).2.1 = AccEnd.ok := by decide +kernel
theorem witness_broadcastSend :
    (∀ x ∈ (sBc 0 49151 5).tx, x.loc = false) ∧ (sBc 0 49151 5).fresh 1 kindBroadcast = true ∧ bitsOf (leAt ((sBc 0 49151 5).desc 1) 16 1) 0 2 = 0 ∧
    broadcastOk ((sBc 0 49151 5).desc 1) = true ∧ (sBc 0 49151 5).isLocalStream (leAt ((sBc 0 49151 5).desc 1) 18 2) = false ∧ (sBc 0 49151 5).entryHeld 1
    (leAt ((sBc 0 49151 5).desc 1) 32 8) (leAt ((sBc 0 49151 5).desc 1) 24 4) = none ∧ ((sBc 0 49151 5).load (Who.unit (srcRing ((sBc 0 49151 5).jget
    1).ring)) (leAt ((sBc 0 49151 5).desc 1) 32 8) (leAt ((sBc 0 49151 5).desc 1) 24 4)).2.1 = AccEnd.ok := by decide +kernel
theorem witness_streamRecv :
    (∀ x ∈ (sStr 1 1 929).tx, x.loc = false) ∧ (sStr 1 1 929).fresh 1 kindStream = true ∧ leAt ((sStr 1 1 929).desc 1) 16 1 = 1 ∧ streamOk ((sStr 1 1
    929).desc 1) = true ∧ ((sStr 1 1 929).rxOf (leAt ((sStr 1 1 929).desc 1) 18 2)).bound = none := by decide +kernel
theorem witness_broadcastRecv :
    (∀ x ∈ (sBc 1 1 929).tx, x.loc = false) ∧ (sBc 1 1 929).fresh 1 kindBroadcast = true ∧ bitsOf (leAt ((sBc 1 1 929).desc 1) 16 1) 0 2 = 1 ∧ broadcastOk
    ((sBc 1 1 929).desc 1) = true ∧ ((sBc 1 1 929).rxOf (leAt ((sBc 1 1 929).desc 1) 18 2)).bound = none ∧ ∀ m ∈ ((sBc 1 1 929).rxOf (leAt ((sBc 1 1
    929).desc 1) 18 2)).marks, m.1 ≠ broadcastTag ((sBc 1 1 929).desc 1) := by decide +kernel
theorem witness_bad_stream :
    (sStr 0 49152 9).fresh 1 kindStream = true ∧ streamOk ((sStr 0 49152 9).desc 1) = false ∧ leAt ((sStr 0 49152 9).desc 1) 16 1 = 0 := by decide +kernel
theorem witness_bad_streamR :
    (sStr 1 0 9).fresh 1 kindStream = true ∧ streamOk ((sStr 1 0 9).desc 1) = false ∧ leAt ((sStr 1 0 9).desc 1) 16 1 = 1 := by decide +kernel
theorem witness_bad_bc :
    (sBc 0 9 0).fresh 1 kindBroadcast = true ∧ broadcastOk ((sBc 0 9 0).desc 1) = false ∧ bitsOf (leAt ((sBc 0 9 0).desc 1) 16 1) 0 2 = 0 := by decide +kernel
theorem witness_bad_bcR :
    (sBc 1 0 9).fresh 1 kindBroadcast = true ∧ broadcastOk ((sBc 1 0 9).desc 1) = false ∧ bitsOf (leAt ((sBc 1 0 9).desc 1) 16 1) 0 2 = 1 := by decide +kernel
theorem witness_bad_gather :
    (withDesc upC 1 kindGather 0 0 []).fresh 1 kindGather = true ∧ gatherOk ((withDesc upC 1 kindGather 0 0 []).desc 1) = false := by decide +kernel
theorem witness_bad_send :
    (withDesc upC 1 kindReduce 0 0 (rdB 0)).fresh 1 kindReduce = true ∧ rRole ((withDesc upC 1 kindReduce 0 0 (rdB 0)).desc 1) = 0 ∧ sendOk (withDesc upC
    1 kindReduce 0 0 (rdB 0)) ((withDesc upC 1 kindReduce 0 0 (rdB 0)).desc 1) = false ∧ rMode ((withDesc upC 1 kindReduce 0 0 (rdB 0)).desc 1) ≠ 4 := by decide +kernel
theorem witness_bad_norm :
    (withDesc upC 1 kindReduce 0 0 (rdB 4)).fresh 1 kindReduce = true ∧ rRole ((withDesc upC 1 kindReduce 0 0 (rdB 4)).desc 1) = 0 ∧ sendOk (withDesc upC
    1 kindReduce 0 0 (rdB 4)) ((withDesc upC 1 kindReduce 0 0 (rdB 4)).desc 1) = false ∧ rMode ((withDesc upC 1 kindReduce 0 0 (rdB 4)).desc 1) = 4 := by decide +kernel
theorem witness_gather :
    (∀ x ∈ (withDesc upC 1 kindGather 0 0 (gwB 6 0)).tx, x.loc = false) ∧ (withDesc upC 1 kindGather 0 0 (gwB 6 0)).fresh 1 kindGather = true ∧ gatherOk
    ((withDesc upC 1 kindGather 0 0 (gwB 6 0)).desc 1) = true ∧ gChip (leAt ((withDesc upC 1 kindGather 0 0 (gwB 6 0)).desc 1) 16 8) ≠ (withDesc upC 1
    kindGather 0 0 (gwB 6 0)).chip ∧ ((withDesc upC 1 kindGather 0 0 (gwB 6 0)).rxOf (leAt ((withDesc upC 1 kindGather 0 0 (gwB 6 0)).desc 1) 40 2)).bound
    = none := by decide +kernel
theorem witness_gather8 :
    (∀ x ∈ (withDesc upC 1 kindGather 0 0 (gwB 6 1)).tx, x.loc = false) ∧ (withDesc upC 1 kindGather 0 0 (gwB 6 1)).fresh 1 kindGather = true ∧ gatherOk
    ((withDesc upC 1 kindGather 0 0 (gwB 6 1)).desc 1) = true ∧ gChip (leAt ((withDesc upC 1 kindGather 0 0 (gwB 6 1)).desc 1) 16 8) ≠ (withDesc upC 1
    kindGather 0 0 (gwB 6 1)).chip ∧ ((withDesc upC 1 kindGather 0 0 (gwB 6 1)).rxOf (leAt ((withDesc upC 1 kindGather 0 0 (gwB 6 1)).desc 1) 40 2)).bound
    = none := by decide +kernel
theorem witness_gatherStart :
    (∀ x ∈ sOwn.tx, x.loc = false) ∧ 3 ≤ sOwn.shardVersion 16384 ∧ 6 ≠ sOwn.chip ∧ (sOwn.load (Who.unit (srcOther 1)) (sheetAt 16384 (sOwn.shardN 16384)
    (sOwn.shardBittern 16384) (sOwn.shardVersion 16384 % 2 == 1) + 4096 + 2 * 2) (2 * 100)).2.1 = AccEnd.ok := by decide +kernel
theorem witness_gatherStart8 :
    (∀ x ∈ sOwn.tx, x.loc = false) ∧ 0 ≤ sOwn.shardVersion 16384 ∧ 6 ≠ sOwn.chip ∧ (sOwn.load (Who.unit (srcOther 1)) (sheetAt 16384 (sOwn.shardN 16384)
    (sOwn.shardBittern 16384) (sOwn.shardVersion 16384 % 2 == 1) + 4096 + 2 * 0) (2 * 200)).2.1 = AccEnd.ok := by decide +kernel
theorem witness_gatherStart_waits :
    (∀ x ∈ sOwn.tx, x.loc = false) ∧ sOwn.shardVersion 16384 < 4 := by decide +kernel
theorem witness_ringStep :
    (sRs 77 0).fresh 1 kindRingStep = true ∧ ringStepOk ((sRs 77 0).desc 1) = true ∧ List.length (sRs 77 0).ringJobs < 511 ∧ gSendStream ((sRs 77 0).desc
    1) ≠ 0 ∧ gRecvStream ((sRs 77 0).desc 1) = 0 ∧ (sRs 77 0).isLocalStream (gSendStream ((sRs 77 0).desc 1)) = false ∧ (∀ x ∈ (sRs 77 0).tx, x.loc =
    false) ∧ ((sRs 77 0).load (Who.unit (srcRing ((sRs 77 0).jget 1).ring)) (leAt ((sRs 77 0).desc 1) 32 8) (gBytes ((sRs 77 0).desc 1))).2.1 = AccEnd.ok := by decide +kernel
theorem witness_ringStep_opens :
    sRsR.ringJobs.find 1 = some (rj false false) ∧ (rj false false).isOpen = false ∧ (rj false false).recvDone = false ∧ sRsR.waits.find 1 = none ∧ ∀ x ∈
    sRsR.tx, x.loc = false := by decide +kernel
theorem witness_ringStep_late :
    sRsR.ringJobs.find 1 ≠ none ∨ sRsR.fresh 1 kindRingStep = true ∧ dDeadlineValid (sRsR.desc 1) = true := by decide +kernel
theorem witness_send :
    (sSd 0).fresh 1 kindReduce = true ∧ rRole ((sSd 0).desc 1) = 0 ∧ rMode ((sSd 0).desc 1) ≠ 4 ∧ sendOk (sSd 0) ((sSd 0).desc 1) = true ∧ leAt ((sSd
    0).desc 1) 48 2 ≠ (sSd 0).chip ∧ (∀ x ∈ (sSd 0).tx, x.loc = false) ∧ (sSd 0).normIndex ≠ some (rRecord ((sSd 0).desc 1)) ∧ (sSd 0).restartDue = false
    ∧ (rMode ((sSd 0).desc 1) < 2 → (sSd 0).unanchored (rRecord ((sSd 0).desc 1)) (rStep ((sSd 0).desc 1)) = false) ∧ (sSd 0).entryHeld 1 (leAt ((sSd
    0).desc 1) 40 8) (rElems ((sSd 0).desc 1) * srcSize (rMode ((sSd 0).desc 1)) (rFormat ((sSd 0).desc 1))) = none ∧ ((sSd 0).load (Who.unit (srcRing
    ((sSd 0).jget 1).ring)) (leAt ((sSd 0).desc 1) 40 8) (rElems ((sSd 0).desc 1) * srcSize (rMode ((sSd 0).desc 1)) (rFormat ((sSd 0).desc 1)))).2.1 =
    AccEnd.ok := by decide +kernel
theorem witness_send32 :
    (sSd 3).fresh 1 kindReduce = true ∧ rRole ((sSd 3).desc 1) = 0 ∧ rMode ((sSd 3).desc 1) ≠ 4 ∧ sendOk (sSd 3) ((sSd 3).desc 1) = true ∧ leAt ((sSd
    3).desc 1) 48 2 ≠ (sSd 3).chip ∧ (∀ x ∈ (sSd 3).tx, x.loc = false) ∧ (sSd 3).normIndex ≠ some (rRecord ((sSd 3).desc 1)) ∧ (sSd 3).restartDue = false
    ∧ (rMode ((sSd 3).desc 1) < 2 → (sSd 3).unanchored (rRecord ((sSd 3).desc 1)) (rStep ((sSd 3).desc 1)) = false) ∧ (sSd 3).entryHeld 1 (leAt ((sSd
    3).desc 1) 40 8) (rElems ((sSd 3).desc 1) * srcSize (rMode ((sSd 3).desc 1)) (rFormat ((sSd 3).desc 1))) = none ∧ ((sSd 3).load (Who.unit (srcRing
    ((sSd 3).jget 1).ring)) (leAt ((sSd 3).desc 1) 40 8) (rElems ((sSd 3).desc 1) * srcSize (rMode ((sSd 3).desc 1)) (rFormat ((sSd 3).desc 1)))).2.1 =
    AccEnd.ok := by decide +kernel
theorem witness_norm_waits :
    sNsU.fresh 1 kindReduce = true ∧ rRole (sNsU.desc 1) = 0 ∧ rMode (sNsU.desc 1) = 4 ∧ sendOk sNsU (sNsU.desc 1) = true ∧ sNsU.unscanned 1 (rStep
    (sNsU.desc 1)) = true := by decide +kernel
theorem witness_norm_lost :
    sNsL.fresh 1 kindReduce = true ∧ rRole (sNsL.desc 1) = 0 ∧ rMode (sNsL.desc 1) = 4 ∧ sendOk sNsL (sNsL.desc 1) = true ∧ sNsL.unscanned 1 (rStep
    (sNsL.desc 1)) = false ∧ (sNsL.normOf (rStep (sNsL.desc 1))).lost = true := by decide +kernel
theorem witness_norm_send :
    (sSd 4).fresh 1 kindReduce = true ∧ rRole ((sSd 4).desc 1) = 0 ∧ rMode ((sSd 4).desc 1) = 4 ∧ sendOk (sSd 4) ((sSd 4).desc 1) = true ∧ (sSd
    4).unscanned 1 (rStep ((sSd 4).desc 1)) = false ∧ ((sSd 4).normOf (rStep ((sSd 4).desc 1))).lost = false ∧ (∀ (i : ℕ), (sSd 4).normIndex = some i →
    (sSd 4).unanchored i (rStep ((sSd 4).desc 1)) = false) ∧ leAt ((sSd 4).desc 1) 48 2 ≠ (sSd 4).chip ∧ ∀ x ∈ (sSd 4).tx, x.loc = false := by decide +kernel
theorem witness_send_late :
    List.find? (fun x => x.owner == TxOwner.entry 1) sRd.tx = some xE ∧ dKind (sRd.desc 1) = kindReduce ∧ dDeadlineValid (sRd.desc 1) = true ∧ xE.sent = 0
    ∧ xE.landed = 0 := by decide +kernel
theorem witness_send_waits :
    sSdW.fresh 1 kindReduce = true ∧ rRole (sSdW.desc 1) = 0 ∧ rMode (sSdW.desc 1) < 2 ∧ sendOk sSdW (sSdW.desc 1) = true ∧ sSdW.restartDue = false ∧
    sSdW.unanchored (rRecord (sSdW.desc 1)) (rStep (sSdW.desc 1)) = true := by decide +kernel

/-! ### Witnesses: Link ports -/

def sPortOf (p : Nat) (f : PortUnit → PortUnit) : State := let s := withPort up p; s.setPort p (f (s.port p))
def sPst (p st cause : Nat) : State := withFlds upC [(PRT_STATUS_state p, st), (PRT_STATUS_fence_cause p, cause)]
def d_fence : State := sPortOf 17 (fun u => { u with fencePend := some (7, 5000) })
def d_fence2 : State := withFlds (sPortOf 0 (fun u => { u with fencePend := some (0, 0) })) [(PRT_EVENT_COUNT_fences 0, 255)]
def tr (ok : Bool) (rx tx : Nat) : TrainResult := ⟨ok, BitVec.ofNat 9 rx, BitVec.ofNat 9 tx, 6#16, 17#5, 3#3, 70000⟩
def d_switch : State := sPortOf 17 (fun u => { u with switchPend := some (15, 4000) })
def d_switch0 : State := sPortOf 0 (fun u => { u with switchPend := some (0, 0) })
def lb (ws : List Codeword) : LineBlock := ⟨(List.range 9).map (fun l => BitVec.ofNat 8 (0xA0 + l)), ws, 0#16, 0#7, 0#4, 0#4, false, mkCell 2 0 0 [1#8], mkCell 3 1 0 [], 0⟩
def cellOk (c : Cell) : Cell := { c with hdr := { c.hdr with crc := cellCrc c } }
def lbOk : LineBlock := { lb [.ok [], .ok [], .ok []] with cell0 := cellOk (mkCell 2 0 0 [1#8]), cell1 := cellOk (mkCell 3 1 0 []) }
def d_block_crc0 : LineBlock := { lbOk with tagPair := 1#7 }
theorem witness_fence3 :
    (sPst 17 3 2).fld (PRT_STATUS_state 17) = 3 := by decide +kernel
theorem witness_fenceReq :
    (withPort up 0).fld (PRT_STATUS_state 0) ≠ 3 := by decide +kernel
theorem witness_fenceReq5 :
    (sPst 17 5 0).fld (PRT_STATUS_state 17) ≠ 3 := by decide +kernel
theorem witness_fence :
    (d_fence.port 17).fencePend = some (7, 5000) ∧ 7 < 8 := by decide +kernel
theorem witness_fence2 :
    (d_fence2.port 0).fencePend = some (0, 0) ∧ 0 < 8 := by decide +kernel
theorem witness_unfence :
    (sPst 17 3 7).fld (PRT_STATUS_state 17) = 3 ∧ (sPst 17 3 7).fld (PRT_STATUS_fence_cause 17) ≠ 2 := by decide +kernel
theorem witness_unfence0 :
    (sPst 0 3 1).fld (PRT_STATUS_state 0) = 3 ∧ (sPst 0 3 1).fld (PRT_STATUS_fence_cause 0) ≠ 2 := by decide +kernel
theorem witness_unfence2 :
    (sPst 0 3 2).fld (PRT_STATUS_state 0) ≠ 3 ∨ (sPst 0 3 2).fld (PRT_STATUS_fence_cause 0) = 2 := by decide +kernel
theorem witness_retrain :
    (withPort up 17).portUp 17 = true := by decide +kernel
theorem witness_retrain_no :
    up.portUp 0 = false := by decide +kernel
theorem witness_wakeSend :
    (sPst 17 5 0).fld (PRT_STATUS_state 17) ≠ 3 := by decide +kernel
theorem witness_wakeSend2 :
    (sPst 0 2 0).fld (PRT_STATUS_state 0) ≠ 3 := by decide +kernel
theorem witness_train :
    (sPst 17 0 0).chip ≠ 65535 ∧ (sPst 17 0 0).fld PWR_STATUS_state < 2 ∧ ((sPst 17 0 0).fld (PRT_STATUS_state 17) = 0 ∨ (sPst 17 0 0).fld
    (PRT_STATUS_state 17) = 1 ∨ (sPst 17 0 0).fld (PRT_STATUS_state 17) = 5 ∨ (sPst 17 0 0).fld (PRT_STATUS_state 17) = 3 ∧ (sPst 17 0 0).fld
    (PRT_STATUS_fence_cause 17) = 7) ∧ (tr true 383 511).ok = true ∧ 8 ≤ lanesIn (tr true 383 511).rxPass ∧ 8 ≤ lanesIn (tr true 383 511).txPass := by decide +kernel
theorem witness_train8 :
    (sPst 0 1 0).chip ≠ 65535 ∧ (sPst 0 1 0).fld PWR_STATUS_state < 2 ∧ ((sPst 0 1 0).fld (PRT_STATUS_state 0) = 0 ∨ (sPst 0 1 0).fld (PRT_STATUS_state 0)
    = 1 ∨ (sPst 0 1 0).fld (PRT_STATUS_state 0) = 5 ∨ (sPst 0 1 0).fld (PRT_STATUS_state 0) = 3 ∧ (sPst 0 1 0).fld (PRT_STATUS_fence_cause 0) = 7) ∧ (tr
    true 255 510).ok = true ∧ 8 ≤ lanesIn (tr true 255 510).rxPass ∧ 8 ≤ lanesIn (tr true 255 510).txPass := by decide +kernel
theorem witness_train_fail :
    (sPst 0 5 0).chip ≠ 65535 ∧ (sPst 0 5 0).fld PWR_STATUS_state < 2 ∧ ((sPst 0 5 0).fld (PRT_STATUS_state 0) = 0 ∨ (sPst 0 5 0).fld (PRT_STATUS_state 0)
    = 1 ∨ (sPst 0 5 0).fld (PRT_STATUS_state 0) = 5 ∨ (sPst 0 5 0).fld (PRT_STATUS_state 0) = 3 ∧ (sPst 0 5 0).fld (PRT_STATUS_fence_cause 0) = 7) ∧ (tr
    true 127 511).ok = true ∧ 8 ≤ lanesIn (tr true 127 511).txPass ∧ ((tr true 127 511).ok = false ∨ lanesIn (tr true 127 511).rxPass < 8 ∨ lanesIn (tr
    true 127 511).txPass < 8) := by decide +kernel
theorem witness_train_bad :
    (sPst 0 3 7).chip ≠ 65535 ∧ (sPst 0 3 7).fld PWR_STATUS_state < 2 ∧ ((sPst 0 3 7).fld (PRT_STATUS_state 0) = 0 ∨ (sPst 0 3 7).fld (PRT_STATUS_state 0)
    = 1 ∨ (sPst 0 3 7).fld (PRT_STATUS_state 0) = 5 ∨ (sPst 0 3 7).fld (PRT_STATUS_state 0) = 3 ∧ (sPst 0 3 7).fld (PRT_STATUS_fence_cause 0) = 7) ∧ 8 ≤
    lanesIn (tr false 511 511).rxPass ∧ 8 ≤ lanesIn (tr false 511 511).txPass ∧ ((tr false 511 511).ok = false ∨ lanesIn (tr false 511 511).rxPass < 8 ∨
    lanesIn (tr false 511 511).txPass < 8) := by decide +kernel
theorem witness_lane8 :
    (withPort up 17).portUp 17 = true := by decide +kernel
theorem witness_lane :
    (withFlds (withPort up 17) [(PRT_LANE_rx_spare 17, 15), (PRT_LANE_rx_ok 17, 511)]).portUp 17 = true ∧ 7 < 8 ∧ 7 ∉ ((withFlds (withPort up 17)
    [(PRT_LANE_rx_spare 17, 15), (PRT_LANE_rx_ok 17, 511)]).port 17).faulty ∧ (withFlds (withPort up 17) [(PRT_LANE_rx_spare 17, 15), (PRT_LANE_rx_ok 17,
    511)]).fld (PRT_LANE_rx_spare 17) = 15 ∧ ((withFlds (withPort up 17) [(PRT_LANE_rx_spare 17, 15), (PRT_LANE_rx_ok 17, 511)]).port 17).faulty = [] := by decide +kernel
theorem witness_lane2 :
    (withFlds (withPort up 17) [(PRT_LANE_rx_spare 17, 3), (PRT_LANE_rx_ok 17, 511)]).portUp 17 = true ∧ 0 < 8 ∧ 0 ∉ ((withFlds (withPort up 17)
    [(PRT_LANE_rx_spare 17, 3), (PRT_LANE_rx_ok 17, 511)]).port 17).faulty ∧ ((withFlds (withPort up 17) [(PRT_LANE_rx_spare 17, 3), (PRT_LANE_rx_ok 17,
    511)]).port 17).faulty = [] ∧ (withFlds (withPort up 17) [(PRT_LANE_rx_spare 17, 3), (PRT_LANE_rx_ok 17, 511)]).fld (PRT_LANE_rx_spare 17) ≠ 15 := by decide +kernel
theorem witness_spareSwitch :
    (d_switch.port 17).switchPend = some (15, 4000) ∧ (d_switch.port 17).fencePend = none ∧ 15 < 16 := by decide +kernel
theorem witness_switch0 :
    (d_switch0.port 0).switchPend = some (0, 0) ∧ (d_switch0.port 0).fencePend = none ∧ 0 < 16 := by decide +kernel
theorem witness_wakeDet :
    (sPst 17 4 0).fld (PRT_STATUS_state 17) = 4 ∨ (sPst 17 4 0).fld (PRT_STATUS_state 17) = 5 := by decide +kernel
theorem witness_wakeDet5 :
    (withFlds (sPst 17 5 0) [(PWR_STATUS_state, 1)]).fld (PRT_STATUS_state 17) = 4 ∨ (withFlds (sPst 17 5 0) [(PWR_STATUS_state, 1)]).fld
    (PRT_STATUS_state 17) = 5 := by decide +kernel
theorem witness_wakeDet_no :
    (sPst 17 3 0).fld (PRT_STATUS_state 17) ≠ 4 ∧ (sPst 17 3 0).fld (PRT_STATUS_state 17) ≠ 5 := by decide +kernel
theorem witness_block_no :
    up.portUp 17 = false := by decide +kernel
theorem witness_block_fec :
    (withPort up 17).portUp 17 = true ∧ (∀ l < 9, (lb [Codeword.ok [0, 3], Codeword.uncorrectable, Codeword.uncorrectable]).markers.getD l 0#8 =
    BitVec.ofNat 8 (160 + l)) ∧ (lb [Codeword.ok [0, 3], Codeword.uncorrectable, Codeword.uncorrectable]).words = [Codeword.ok [0, 3],
    Codeword.uncorrectable, Codeword.uncorrectable] := by decide +kernel
theorem witness_block_sat :
    (withFlds (withPort up 0) [(PRT_FEC_UNCORR_uncorrectable 0, 2 ^ 32 - 2)]).portUp 0 = true ∧ (∀ l < 9, (lb [Codeword.uncorrectable,
    Codeword.uncorrectable, Codeword.uncorrectable]).markers.getD l 0#8 = BitVec.ofNat 8 (160 + l)) ∧ (lb [Codeword.uncorrectable, Codeword.uncorrectable,
    Codeword.uncorrectable]).words = [Codeword.uncorrectable, Codeword.uncorrectable, Codeword.uncorrectable] := by decide +kernel
theorem witness_block_crc :
    (withPort up 17).portUp 17 = true ∧ (∀ l < 9, (lb [Codeword.ok [], Codeword.ok [], Codeword.ok []]).markers.getD l 0#8 = BitVec.ofNat 8 (160 + l)) ∧
    (lb [Codeword.ok [], Codeword.ok [], Codeword.ok []]).words = [Codeword.ok [], Codeword.ok [], Codeword.ok []] := by decide +kernel
theorem witness_block_crc0 :
    (withPort up 0).portUp 0 = true ∧ (∀ l < 9, d_block_crc0.markers.getD l 0#8 = BitVec.ofNat 8 (160 + l)) ∧ d_block_crc0.words = [Codeword.ok [],
    Codeword.ok [], Codeword.ok []] := by decide +kernel
theorem witness_block_crc1 :
    (withPort up 0).portUp 0 = true ∧ (∀ l < 9, lbOk.markers.getD l 0#8 = BitVec.ofNat 8 (160 + l)) ∧ lbOk.words = [Codeword.ok [], Codeword.ok [],
    Codeword.ok []] := by decide +kernel

/-! ### Witnesses: Memory and the host window -/

def sWinHi (hi : Nat) (s : State) : State := withFlds s [(RNG_WINDOW_BASE_HI_base_hi, hi)]
def sMem : State := withMem up 0x1000 ((List.range 40).map (BitVec.ofNat 8))
def sPois : State := { sMem with poison := [(0x1000, 1), (0x1040, 1)] }
def d_scrub : State := { sMem with scrubPos := [(23, linesPerStack - 1)] }
def d_scrub0 : State := { sMem with scrubPos := [(0, 5)] }
def d_scrub1 : State := { sPois with scrubPos := [(0, 65)] }
def d_scrub2 : State := { sMem with scrubPos := [(0, 65)] }
def d_repair : State := { up with repairPend := true }
def eRec : ErrRec := hbmRec 2 3 4 5 6
def d_coal : State := { up with errCoal := [(eRec, 3, 100), (eRec, 1, 50)], errSeq := 0xFFFFFFFF }
def d_coal1 : State := { up with errCoal := [(eRec, 1, 0)], errBuf := [] }
theorem witness_win :
    sMem.fld PWR_STATUS_state = 0 ∧ 0 < 8 ∧ sMem.windowAddr 4100 + 8 ≤ hbmTop ∧ hbmRegion (sMem.windowAddr 4100 + 8 - 1) = hbmRegion (sMem.windowAddr
    4100) ∧ sMem.regionFenced (hbmRegion (sMem.windowAddr 4100)) = false := by decide +kernel
theorem witness_win_cross :
    sMem.fld PWR_STATUS_state = 0 ∧ 0 < 100 ∧ sMem.windowAddr 4158 + 100 ≤ hbmTop ∧ hbmRegion (sMem.windowAddr 4158 + 100 - 1) = hbmRegion
    (sMem.windowAddr 4158) ∧ sMem.regionFenced (hbmRegion (sMem.windowAddr 4158)) = false := by decide +kernel
theorem witness_win_shut :
    (withFlds sMem [(SAF_STATUS_shutdown, 1)]).fld PWR_STATUS_state = 0 ∧ 0 < 64 ∧ (withFlds sMem [(SAF_STATUS_shutdown, 1)]).windowAddr 4096 + 64 ≤
    hbmTop ∧ hbmRegion ((withFlds sMem [(SAF_STATUS_shutdown, 1)]).windowAddr 4096 + 64 - 1) = hbmRegion ((withFlds sMem [(SAF_STATUS_shutdown,
    1)]).windowAddr 4096) ∧ (withFlds sMem [(SAF_STATUS_shutdown, 1)]).regionFenced (hbmRegion ((withFlds sMem [(SAF_STATUS_shutdown, 1)]).windowAddr
    4096)) = false := by decide +kernel
theorem witness_win_top :
    (sWinHi 223 sMem).fld PWR_STATUS_state = 0 ∧ 0 < 4 ∧ (sWinHi 223 sMem).windowAddr 34359738364 + 4 ≤ hbmTop ∧ hbmRegion ((sWinHi 223 sMem).windowAddr
    34359738364 + 4 - 1) = hbmRegion ((sWinHi 223 sMem).windowAddr 34359738364) ∧ (sWinHi 223 sMem).regionFenced (hbmRegion ((sWinHi 223 sMem).windowAddr
    34359738364)) = false := by decide +kernel
theorem witness_winw :
    sMem.fld PWR_STATUS_state = 0 ∧ [7#8, 0#8, 9#8] ≠ [] ∧ sMem.windowAddr 4100 + [7#8, 0#8, 9#8].length ≤ hbmTop ∧ hbmRegion (sMem.windowAddr 4100 +
    [7#8, 0#8, 9#8].length - 1) = hbmRegion (sMem.windowAddr 4100) ∧ sMem.regionFenced (hbmRegion (sMem.windowAddr 4100)) = false := by decide +kernel
theorem witness_winw_line :
    sMem.fld PWR_STATUS_state = 0 ∧ List.replicate 70 3#8 ≠ [] ∧ sMem.windowAddr 65535 + (List.replicate 70 3#8).length ≤ hbmTop ∧ hbmRegion
    (sMem.windowAddr 65535 + (List.replicate 70 3#8).length - 1) = hbmRegion (sMem.windowAddr 65535) ∧ sMem.regionFenced (hbmRegion (sMem.windowAddr
    65535)) = false := by decide +kernel
theorem witness_winw_top :
    (sWinHi 223 sMem).fld PWR_STATUS_state = 0 ∧ [5#8] ≠ [] ∧ (sWinHi 223 sMem).windowAddr 34359738367 + [5#8].length ≤ hbmTop ∧ hbmRegion ((sWinHi 223
    sMem).windowAddr 34359738367 + [5#8].length - 1) = hbmRegion ((sWinHi 223 sMem).windowAddr 34359738367) ∧ (sWinHi 223 sMem).regionFenced (hbmRegion
    ((sWinHi 223 sMem).windowAddr 34359738367)) = false := by decide +kernel
theorem witness_win_un :
    (sWinHi 224 sMem).fld PWR_STATUS_state = 0 ∧ 0 < 4 ∧ (placeOf ((sWinHi 224 sMem).windowAddr 0)).1 = Place.unmapped := by decide +kernel
theorem witness_win_un2 :
    (sWinHi 223 sMem).fld PWR_STATUS_state = 0 ∧ 0 < 1 ∧ (placeOf ((sWinHi 223 sMem).windowAddr 34359738368)).1 = Place.unmapped := by decide +kernel
theorem witness_win_asleep :
    (withFlds sMem [(PWR_STATUS_state, 3)]).fld PWR_STATUS_state ≠ 0 := by decide +kernel
theorem witness_bar0form :
    4 ≠ 0 ∧ ¬(4 = 4 ∧ 4097 % 4 = 0 ∨ 4 = 8 ∧ 4097 % 8 = 0) ∧ (up.inS0 = true ∨ answeredAsleep 4097 = true) := by decide +kernel
theorem witness_bar0form8 :
    8 ≠ 0 ∧ ¬(8 = 4 ∧ 67108863 % 4 = 0 ∨ 8 = 8 ∧ 67108863 % 8 = 0) ∧ (up.inS0 = true ∨ answeredAsleep 67108863 = true) := by decide +kernel
theorem witness_bar0form_s3 :
    4 ≠ 0 ∧ ¬(4 = 4 ∧ 2097150 % 4 = 0 ∨ 4 = 8 ∧ 2097150 % 8 = 0) ∧ ((withFlds up [(PWR_STATUS_state, 3)]).inS0 = true ∨ answeredAsleep 2097150 = true) := by decide +kernel
theorem witness_bar0form_wake :
    4 ≠ 0 ∧ (withFlds up [(PWR_STATUS_state, 3)]).fld PWR_STATUS_state ≠ 0 ∧ answeredAsleep 2097152 = false := by decide +kernel
theorem witness_scrub_idle :
    (withFlds up [(PWR_STATUS_state, 2)]).hbmIdle = true := by decide +kernel
theorem witness_patrolScrub :
    d_scrub.hbmIdle = false ∧ d_scrub.flag HUB_ERR_CFG_in_device = false ∧ d_scrub.poisoned (lineAddr 23 (SMap.get (fun x => 0) d_scrub.scrubPos 23)) =
    false := by decide +kernel
theorem witness_scrub0 :
    d_scrub0.hbmIdle = false ∧ d_scrub0.flag HUB_ERR_CFG_in_device = false ∧ d_scrub0.poisoned (lineAddr 0 (SMap.get (fun x => 0) d_scrub0.scrubPos 0)) =
    false := by decide +kernel
theorem witness_scrub1 :
    d_scrub1.hbmIdle = false ∧ d_scrub1.flag HUB_ERR_CFG_in_device = false ∧ d_scrub1.poisoned (lineAddr 0 (SMap.get (fun x => 0) d_scrub1.scrubPos 0)) =
    false := by decide +kernel
theorem witness_scrub2 :
    d_scrub2.hbmIdle = false ∧ d_scrub2.flag HUB_ERR_CFG_in_device = false ∧ d_scrub2.poisoned (lineAddr 0 (SMap.get (fun x => 0) d_scrub2.scrubPos 0)) =
    false := by decide +kernel
theorem witness_repair :
    d_repair.repairPend = true := by decide +kernel
theorem witness_repair_none :
    up.repairPend = false := by decide +kernel
theorem witness_errHead :
    (withFlds up [(HUB_ERR_CFG_log2_size, 4)]).errBuf = [] := by decide +kernel
theorem witness_coal :
    d_coal.errCoal = [(eRec, 3, 100), (eRec, 1, 50)] := by decide +kernel
theorem witness_coal1 :
    d_coal1.errCoal = [(eRec, 1, 0)] := by decide +kernel

/-! ### Witnesses: Power -/

def sPw (l : List (Fld × Nat)) : State := withFlds { up with tide := { up.tide with ns := 7000 } } l
def sEnt (k : Nat) (l : List (Fld × Nat)) : State := { sPw ((PWR_STATUS_entering, 1) :: l) with entryTo := k }
def d_op2 : State := withFlds { up with governing := true, brakeStop := true } [(PWR_STATUS_brake_active, 1), (SAF_COUNT_vetoes, 65534), (PWR_LIMIT_brake_w, 2047), (PWR_LIMIT_cap_w, 255)]
def d_op3 : State := withFlds { up with brakeLow := true } [(PWR_STATUS_state, 2)]
def d_reqS2 : State := { up with movedLast := false }
def d_reqS3_ref : State := withFlds { up with movedLast := true } [(UPD_GROUP_STATUS_open, 1), (PWR_REFUSE_COUNT0, 0) |> fun x => (⟨PWR_REFUSE_COUNT0, 16, 16, .ro, 0⟩, x.2)]
def d_reqS1_ref : State := withFlds { up with movedLast := true, retrainDue := [3] } [(UPD_GROUP_STATUS_open, 1)]
def d_reqS2_ref5 : State := { up with retrainDue := [23] }
def d_entry1 : State := { sEnt 1 [] with wakePend := some 4 }
def d_entry2 : State := { sEnt 2 [(PRT_STATUS_state 0, 2), (PRT_STATUS_state 17, 3)] with wakePend := some 2 }
def d_entry3 : State := withMem (sEnt 3 [(PRT_STATUS_state 0, 2), (PRT_STATUS_state 1, 1)]) 0x100 [1#8]
def d_abort : State := { sEnt 2 [] with wakePend := some 4 }
def d_abortBrake : State := { sEnt 2 [] with brakeLow := true }
def d_abort5 : State := { sEnt 3 [] with retrainDue := [0] }
def d_exit3 : State := { sPw [(PWR_STATUS_state, 3), (PWR_STATUS_exiting, 1)] with reqPend := 2, brakeLow := true }
theorem witness_opPoint :
    up.inS0 = true ∧ up.brakeLow = false := by decide +kernel
theorem witness_opPoint2 :
    d_op2.inS0 = true ∧ d_op2.brakeLow = false := by decide +kernel
theorem witness_opPoint3 :
    d_op3.inS0 = false ∨ d_op3.brakeLow = true := by decide +kernel
theorem witness_reqAuto :
    (withFlds up [(PWR_CTL_auto_idle, 1)]).flag PWR_CTL_auto_idle = true ∧ (withFlds up [(PWR_CTL_auto_idle, 1)]).inS0 = true ∧ ∀ code ∈ [1, 4, 6],
    (withFlds up [(PWR_CTL_auto_idle, 1)]).refuses code = false := by decide +kernel
theorem witness_reqS1 :
    (Instr.requestS1 = Instr.requestS1 ∧ 1 = 1 ∨ Instr.requestS1 = Instr.requestS2 ∧ 1 = 2 ∨ Instr.requestS1 = Instr.requestS3 ∧ 1 = 3) ∧ up.inS0 = true ∧
    ∀ code ∈ [1, 2, 3, 4, 5, 6], (1 = 1 → code ∈ [1, 4, 6]) → up.refuses code = false := by decide +kernel
theorem witness_reqS2 :
    (Instr.requestS2 = Instr.requestS1 ∧ 2 = 1 ∨ Instr.requestS2 = Instr.requestS2 ∧ 2 = 2 ∨ Instr.requestS2 = Instr.requestS3 ∧ 2 = 3) ∧ d_reqS2.inS0 =
    true ∧ ∀ code ∈ [1, 2, 3, 4, 5, 6], (2 = 1 → code ∈ [1, 4, 6]) → d_reqS2.refuses code = false := by decide +kernel
theorem witness_reqS3 :
    (Instr.requestS3 = Instr.requestS1 ∧ 3 = 1 ∨ Instr.requestS3 = Instr.requestS2 ∧ 3 = 2 ∨ Instr.requestS3 = Instr.requestS3 ∧ 3 = 3) ∧ up.inS0 = true ∧
    ∀ code ∈ [1, 2, 3, 4, 5, 6], (3 = 1 → code ∈ [1, 4, 6]) → up.refuses code = false := by decide +kernel
theorem witness_reqS3_ref :
    (Instr.requestS3 = Instr.requestS1 ∧ 3 = 1 ∨ Instr.requestS3 = Instr.requestS2 ∧ 3 = 2 ∨ Instr.requestS3 = Instr.requestS3 ∧ 3 = 3) ∧ d_reqS3_ref.inS0
    = true ∧ 2 ∈ [1, 2, 3, 4, 5, 6] ∧ (3 = 1 → 2 ∈ [1, 4, 6]) ∧ d_reqS3_ref.refuses 2 = true ∧ ∀ x ∈ [1, 2, 3, 4, 5, 6], (3 = 1 → x ∈ [1, 4, 6]) →
    d_reqS3_ref.refuses x = true → 2 ≤ x := by decide +kernel
theorem witness_reqS1_ref :
    (Instr.requestS1 = Instr.requestS1 ∧ 1 = 1 ∨ Instr.requestS1 = Instr.requestS2 ∧ 1 = 2 ∨ Instr.requestS1 = Instr.requestS3 ∧ 1 = 3) ∧ d_reqS1_ref.inS0
    = true ∧ 4 ∈ [1, 2, 3, 4, 5, 6] ∧ (1 = 1 → 4 ∈ [1, 4, 6]) ∧ d_reqS1_ref.refuses 4 = true ∧ ∀ x ∈ [1, 2, 3, 4, 5, 6], (1 = 1 → x ∈ [1, 4, 6]) →
    d_reqS1_ref.refuses x = true → 4 ≤ x := by decide +kernel
theorem witness_reqS2_ref5 :
    (Instr.requestS2 = Instr.requestS1 ∧ 2 = 1 ∨ Instr.requestS2 = Instr.requestS2 ∧ 2 = 2 ∨ Instr.requestS2 = Instr.requestS3 ∧ 2 = 3) ∧
    d_reqS2_ref5.inS0 = true ∧ 5 ∈ [1, 2, 3, 4, 5, 6] ∧ (2 = 1 → 5 ∈ [1, 4, 6]) ∧ d_reqS2_ref5.refuses 5 = true ∧ ∀ x ∈ [1, 2, 3, 4, 5, 6], (2 = 1 → x ∈
    [1, 4, 6]) → d_reqS2_ref5.refuses x = true → 5 ≤ x := by decide +kernel
theorem witness_reqS1_ign :
    (Instr.requestS1 = Instr.requestS1 ∧ 1 = 1 ∨ Instr.requestS1 = Instr.requestS2 ∧ 1 = 2 ∨ Instr.requestS1 = Instr.requestS3 ∧ 1 = 3) ∧ (withFlds up
    [(PWR_STATUS_state, 1)]).inS0 = false ∧ ¬((withFlds up [(PWR_STATUS_state, 1)]).fld PWR_STATUS_state = 1 ∧ 1 < 1 ∧ (withFlds up [(PWR_STATUS_state,
    1)]).flag PWR_STATUS_exiting = false) := by decide +kernel
theorem witness_reqS2_ign :
    (Instr.requestS2 = Instr.requestS1 ∧ 2 = 1 ∨ Instr.requestS2 = Instr.requestS2 ∧ 2 = 2 ∨ Instr.requestS2 = Instr.requestS3 ∧ 2 = 3) ∧ (withFlds up
    [(PWR_STATUS_state, 1), (PWR_STATUS_exiting, 1)]).inS0 = false ∧ ¬((withFlds up [(PWR_STATUS_state, 1), (PWR_STATUS_exiting, 1)]).fld PWR_STATUS_state
    = 1 ∧ 1 < 2 ∧ (withFlds up [(PWR_STATUS_state, 1), (PWR_STATUS_exiting, 1)]).flag PWR_STATUS_exiting = false) := by decide +kernel
theorem witness_reqS3_ign :
    (Instr.requestS3 = Instr.requestS1 ∧ 3 = 1 ∨ Instr.requestS3 = Instr.requestS2 ∧ 3 = 2 ∨ Instr.requestS3 = Instr.requestS3 ∧ 3 = 3) ∧ (withFlds up
    [(PWR_STATUS_entering, 1)]).inS0 = false ∧ ¬((withFlds up [(PWR_STATUS_entering, 1)]).fld PWR_STATUS_state = 1 ∧ 1 < 3 ∧ (withFlds up
    [(PWR_STATUS_entering, 1)]).flag PWR_STATUS_exiting = false) := by decide +kernel
theorem witness_entry1 :
    d_entry1.flag PWR_STATUS_entering = true ∧ d_entry1.entryRefuser d_entry1.entryTo none = none ∧ d_entry1.entryTo ≤ 3 := by decide +kernel
theorem witness_entry2 :
    d_entry2.flag PWR_STATUS_entering = true ∧ d_entry2.entryRefuser d_entry2.entryTo none = none ∧ d_entry2.entryTo ≤ 3 := by decide +kernel
theorem witness_entry3 :
    d_entry3.flag PWR_STATUS_entering = true ∧ d_entry3.entryRefuser d_entry3.entryTo none = none ∧ d_entry3.entryTo ≤ 3 := by decide +kernel
theorem witness_entry3_empty :
    d_entry3.flag PWR_STATUS_entering = true ∧ d_entry3.entryRefuser d_entry3.entryTo none = none ∧ d_entry3.entryTo = 3 := by decide +kernel
theorem witness_entry0 :
    (sEnt 0 []).flag PWR_STATUS_entering = true ∧ (sEnt 0 []).entryRefuser (sEnt 0 []).entryTo none = none ∧ (sEnt 0 []).entryTo ≤ 3 := by decide +kernel
theorem witness_abort :
    d_abort.flag PWR_STATUS_entering = true ∧ d_abort.entryRefuser d_abort.entryTo (some 0) = some 5 ∧ d_abort.flag PWR_STATUS_brake_active = false ∧
    (d_abort.brakeLow = false ∨ d_abort.flag PWR_STATUS_brake_active = true) := by decide +kernel
theorem witness_abort_brake :
    d_abortBrake.flag PWR_STATUS_entering = true ∧ d_abortBrake.entryRefuser d_abortBrake.entryTo (some 1) = some 6 ∧ d_abortBrake.brakeLow = true ∧
    d_abortBrake.flag PWR_STATUS_brake_active = false := by decide +kernel
theorem witness_abort6 :
    (sEnt 1 []).flag PWR_STATUS_entering = true ∧ (sEnt 1 []).entryRefuser (sEnt 1 []).entryTo (some 1) = some 6 ∧ (sEnt 1 []).flag
    PWR_STATUS_brake_active = false ∧ ((sEnt 1 []).brakeLow = false ∨ (sEnt 1 []).flag PWR_STATUS_brake_active = true) := by decide +kernel
theorem witness_abort5 :
    d_abort5.flag PWR_STATUS_entering = true ∧ d_abort5.entryRefuser d_abort5.entryTo none = some 5 ∧ d_abort5.flag PWR_STATUS_brake_active = false ∧
    (d_abort5.brakeLow = false ∨ d_abort5.flag PWR_STATUS_brake_active = true) := by decide +kernel
theorem witness_wakeIn :
    (sEnt 2 []).flag PWR_STATUS_entering = true ∧ wakeValid (sEnt 2 []).entryTo (4 + 1) = true ∧ (sEnt 2 []).wakePend = none := by decide +kernel
theorem witness_wakeIn0 :
    (sEnt 1 []).flag PWR_STATUS_entering = true ∧ wakeValid (sEnt 1 []).entryTo (0 + 1) = true ∧ (sEnt 1 []).wakePend = none := by decide +kernel
theorem witness_wake :
    (sPw [(PWR_STATUS_state, 3), (PWR_CTL_wake_host, 1)]).flag PWR_STATUS_entering = false ∧ (sPw [(PWR_STATUS_state, 3), (PWR_CTL_wake_host, 1)]).flag
    PWR_STATUS_exiting = false ∧ (sPw [(PWR_STATUS_state, 3), (PWR_CTL_wake_host, 1)]).fld PWR_STATUS_state ≠ 0 ∧ wakeValid ((sPw [(PWR_STATUS_state, 3),
    (PWR_CTL_wake_host, 1)]).fld PWR_STATUS_state) (4 + 1) = true := by decide +kernel
theorem witness_wake1 :
    (sPw [(PWR_STATUS_state, 1), (PWR_CTL_wake_host, 1)]).flag PWR_STATUS_entering = false ∧ (sPw [(PWR_STATUS_state, 1), (PWR_CTL_wake_host, 1)]).flag
    PWR_STATUS_exiting = false ∧ (sPw [(PWR_STATUS_state, 1), (PWR_CTL_wake_host, 1)]).fld PWR_STATUS_state ≠ 0 ∧ wakeValid ((sPw [(PWR_STATUS_state, 1),
    (PWR_CTL_wake_host, 1)]).fld PWR_STATUS_state) (0 + 1) = true := by decide +kernel
theorem witness_wake2 :
    (sPw [(PWR_STATUS_state, 2), (PWR_CTL_wake_host, 1)]).flag PWR_STATUS_entering = false ∧ (sPw [(PWR_STATUS_state, 2), (PWR_CTL_wake_host, 1)]).flag
    PWR_STATUS_exiting = false ∧ (sPw [(PWR_STATUS_state, 2), (PWR_CTL_wake_host, 1)]).fld PWR_STATUS_state ≠ 0 ∧ wakeValid ((sPw [(PWR_STATUS_state, 2),
    (PWR_CTL_wake_host, 1)]).fld PWR_STATUS_state) (2 + 1) = true := by decide +kernel
theorem witness_exit1 :
    (sPw [(PWR_STATUS_state, 1), (PWR_STATUS_exiting, 1)]).flag PWR_STATUS_exiting = true ∧ (sPw [(PWR_STATUS_state, 1), (PWR_STATUS_exiting, 1)]).fld
    PWR_STATUS_state = 1 ∧ (sPw [(PWR_STATUS_state, 1), (PWR_STATUS_exiting, 1)]).heldAlarms = [] ∧ (sPw [(PWR_STATUS_state, 1), (PWR_STATUS_exiting,
    1)]).brakeLow = false ∧ (sPw [(PWR_STATUS_state, 1), (PWR_STATUS_exiting, 1)]).reqPend = 0 := by decide +kernel
theorem witness_exit2 :
    (sPw [(PWR_STATUS_state, 2), (PWR_STATUS_exiting, 1), (PRT_STATUS_state 0, 4)]).flag PWR_STATUS_exiting = true ∧ 2 ≤ (sPw [(PWR_STATUS_state, 2),
    (PWR_STATUS_exiting, 1), (PRT_STATUS_state 0, 4)]).fld PWR_STATUS_state := by decide +kernel
theorem witness_exit3 :
    d_exit3.flag PWR_STATUS_exiting = true ∧ 2 ≤ d_exit3.fld PWR_STATUS_state := by decide +kernel

/-! ### Witnesses: Firmware, configuration and register writes -/

def sUpdSt (st : Nat) : State := up.putUpd ⟨0, st, 1, 2, 3, (List.range 32).map (BitVec.ofNat 8), 5⟩
/-- The SHA3-256 digest of the empty string (FIPS 202). -/
def emptyDigest : List Byte := leBytes 32 0x4a43f8804b0ad882fa493be44dff80f562d661a05647c15166d71ebff8c6ffa7
/-- A complete package at HBM address 0: its manifest names eight parts of no bytes, with their digest. -/
def sPkg : State := withFlds { up with mem := [(0, 1#8), (72, 9#8)] ++ (List.range 8).flatMap (fun k => (List.range 32).map (fun i => (240 + 64 * k + i, emptyDigest.getD i 0#8))) } [(HUB_FW_LEN_length, 1536 * 65536 + 64)]
def sW1c : State := withFlds up [(SYN_STATUS_unroutable, 1), (SYN_STATUS_range_conflict, 1)]
def d_confirm : State := withFlds { sUpdSt 4 with fallDue := some 3 } [(HUB_FW_COUNT_updates, 255)]
def d_expiry : State := withFlds { up with trialAt := 5 } [(HUB_FW_STATUS_state, 4), (HUB_FW_TRIAL_remaining_s, 60)]
def sConfig (cnt rep : Nat) (ent : List Byte) : State := withMem (withDesc upC 1 kindConfig 0 0 [(16, 8, 0x2000), (24, 4, cnt), (32, 8, rep)]) 0x2000 ent
def sAtt (a : Nat) : State := withFlds up [(HUB_ATTEST_NONCE_LO_addr_lo, 64), (HUB_ATTEST_NONCE_HI_addr_hi, a), (HUB_ATTEST_DST_LO_addr_lo, 0x2000)]
theorem witness_stage_busy :
    (sUpdSt 4).upd.state ≠ 0 ∨ (sUpdSt 4).flag HUB_FW_STATUS_busy = true := by decide +kernel
theorem witness_stage_bad :
    up.upd.state = 0 ∧ up.flag HUB_FW_STATUS_busy = false ∧ up.stageError up.package ≠ 0 := by decide +kernel
theorem witness_abort1 :
    (sUpdSt 1).flag HUB_FW_STATUS_busy = false ∧ ((sUpdSt 1).upd.state = 1 ∨ (sUpdSt 1).upd.state = 2 ∨ (sUpdSt 1).upd.state = 3) := by decide +kernel
theorem witness_abort_no :
    up.flag HUB_FW_STATUS_busy = true ∨ up.upd.state = 0 ∨ 4 ≤ up.upd.state := by decide +kernel
theorem witness_abort_no4 :
    (sUpdSt 4).flag HUB_FW_STATUS_busy = true ∨ (sUpdSt 4).upd.state = 0 ∨ 4 ≤ (sUpdSt 4).upd.state := by decide +kernel
theorem witness_confirm :
    d_confirm.upd.state = 4 ∧ 50462976 = leAt d_confirm.upd.digest 0 4 := by decide +kernel
theorem witness_confirm_bad :
    (sUpdSt 4).upd.state ≠ 4 ∨ 50462977 ≠ leAt (sUpdSt 4).upd.digest 0 4 := by decide +kernel
theorem witness_confirm_out :
    (sUpdSt 3).upd.state ≠ 4 ∨ 50462976 ≠ leAt (sUpdSt 3).upd.digest 0 4 := by decide +kernel
theorem witness_expiry :
    d_expiry.fld HUB_FW_STATUS_state = 4 ∧ d_expiry.fallDue = none := by decide +kernel
theorem witness_config_bad :
    (sConfig 0 0 []).fresh 1 kindConfig = true ∧ configOk ((sConfig 0 0 []).desc 1) = false := by decide +kernel
theorem witness_config :
    (sConfig 1 0 (leBytes 4 PWR_LIMIT ++ leBytes 4 4095 ++ leBytes 4 4294967295 ++ leBytes 4 0)).fresh 1 kindConfig = true ∧ configOk ((sConfig 1 0
    (leBytes 4 PWR_LIMIT ++ leBytes 4 4095 ++ leBytes 4 4294967295 ++ leBytes 4 0)).desc 1) = true ∧ cgReport ((sConfig 1 0 (leBytes 4 PWR_LIMIT ++
    leBytes 4 4095 ++ leBytes 4 4294967295 ++ leBytes 4 0)).desc 1) = 0 ∧ ((sConfig 1 0 (leBytes 4 PWR_LIMIT ++ leBytes 4 4095 ++ leBytes 4 4294967295 ++
    leBytes 4 0)).load (Who.unit (srcRing ((sConfig 1 0 (leBytes 4 PWR_LIMIT ++ leBytes 4 4095 ++ leBytes 4 4294967295 ++ leBytes 4 0)).jget 1).ring))
    (cgTable ((sConfig 1 0 (leBytes 4 PWR_LIMIT ++ leBytes 4 4095 ++ leBytes 4 4294967295 ++ leBytes 4 0)).desc 1)) (16 * cgCount ((sConfig 1 0 (leBytes 4
    PWR_LIMIT ++ leBytes 4 4095 ++ leBytes 4 4294967295 ++ leBytes 4 0)).desc 1))).2.1 = AccEnd.ok := by decide +kernel
theorem witness_config2 :
    (sConfig 4 0 (List.replicate 2 (leBytes 4 (PRT_CFG 3) ++ leBytes 4 4095 ++ leBytes 4 4294967295 ++ leBytes 4 0)).flatten).fresh 1 kindConfig = true ∧
    configOk ((sConfig 4 0 (List.replicate 2 (leBytes 4 (PRT_CFG 3) ++ leBytes 4 4095 ++ leBytes 4 4294967295 ++ leBytes 4 0)).flatten).desc 1) = true ∧
    cgReport ((sConfig 4 0 (List.replicate 2 (leBytes 4 (PRT_CFG 3) ++ leBytes 4 4095 ++ leBytes 4 4294967295 ++ leBytes 4 0)).flatten).desc 1) = 0 ∧
    ((sConfig 4 0 (List.replicate 2 (leBytes 4 (PRT_CFG 3) ++ leBytes 4 4095 ++ leBytes 4 4294967295 ++ leBytes 4 0)).flatten).load (Who.unit (srcRing
    ((sConfig 4 0 (List.replicate 2 (leBytes 4 (PRT_CFG 3) ++ leBytes 4 4095 ++ leBytes 4 4294967295 ++ leBytes 4 0)).flatten).jget 1).ring)) (cgTable
    ((sConfig 4 0 (List.replicate 2 (leBytes 4 (PRT_CFG 3) ++ leBytes 4 4095 ++ leBytes 4 4294967295 ++ leBytes 4 0)).flatten).desc 1)) (16 * cgCount
    ((sConfig 4 0 (List.replicate 2 (leBytes 4 (PRT_CFG 3) ++ leBytes 4 4095 ++ leBytes 4 4294967295 ++ leBytes 4 0)).flatten).desc 1))).2.1 = AccEnd.ok := by decide +kernel
theorem witness_asleep :
    (withFlds up [(PWR_STATUS_state, 3)]).fld PWR_STATUS_state ≠ 0 ∧ answeredAsleep 45064 = true ∧ (leBytes 4 4096).length = 4 ∧ 45064 % 4 = 0 := by decide +kernel
theorem witness_asleep_w :
    (withFlds up [(PWR_STATUS_state, 1)]).fld PWR_STATUS_state ≠ 0 ∧ ¬(4 = 0 ∧ answeredAsleep 45064 = true) ∧ ¬(4 = 2 ∧ 45064 < 65536 * 16) := by decide +kernel
theorem witness_asleep_w0 :
    (withFlds up [(PWR_STATUS_state, 1)]).fld PWR_STATUS_state ≠ 0 ∧ ¬(2 = 0 ∧ answeredAsleep 1048576 = true) ∧ ¬(2 = 2 ∧ 1048576 < 65536 * 16) := by decide +kernel
theorem witness_asleep_w1 :
    (withFlds up [(PWR_STATUS_state, 1)]).fld PWR_STATUS_state ≠ 0 ∧ ¬(0 = 0 ∧ answeredAsleep 2097152 = true) ∧ ¬(0 = 2 ∧ 2097152 < 65536 * 16) := by decide +kernel
theorem witness_asleep_r :
    (withFlds up [(PWR_STATUS_state, 2)]).fld PWR_STATUS_state ≠ 0 ∧ ¬(0 = 0 ∧ answeredAsleep 67108860 = true) := by decide +kernel
theorem witness_asleep_r4 :
    (withFlds up [(PWR_STATUS_state, 2)]).fld PWR_STATUS_state ≠ 0 ∧ ¬(4 = 0 ∧ answeredAsleep 45064 = true) := by decide +kernel
theorem witness_asleep_r2 :
    (withFlds up [(PWR_STATUS_state, 2)]).fld PWR_STATUS_state ≠ 0 ∧ ¬(2 = 0 ∧ answeredAsleep 45064 = true) := by decide +kernel
theorem witness_rows :
    up.inS0 = true := by decide +kernel
theorem witness_rows2 :
    up.inS0 = true := by decide +kernel
theorem witness_regWrite :
    (answeredAsleep 49220 = true ∨ up.inS0 = true) ∧ 49220 % 4 = 0 ∧ (49220 < 1048576 ∧ 49220 ∉ [HUB_MAINT_CTL, 28704, 28708, 28712, 28716, HUB_ERR_CFG,
    HUB_ERR_HEAD, HUB_REDUN_CTL, HUB_HEARTBEAT, PWR_CTL, PWR_LIMIT, PWR_THERM, HUB_FW_CMD, HUB_HEALTH_CONFIRM, HUB_ATTEST_CMD, HUB_RESET_CTL] ∨ 8388608 ≤
    49220 ∧ 49220 < 16777216) := by decide +kernel
theorem witness_regWrite_w1c :
    (answeredAsleep 28672 = true ∨ sW1c.inS0 = true) ∧ 28672 % 4 = 0 ∧ (28672 < 1048576 ∧ 28672 ∉ [HUB_MAINT_CTL, 28704, 28708, 28712, 28716, HUB_ERR_CFG,
    HUB_ERR_HEAD, HUB_REDUN_CTL, HUB_HEARTBEAT, PWR_CTL, PWR_LIMIT, PWR_THERM, HUB_FW_CMD, HUB_HEALTH_CONFIRM, HUB_ATTEST_CMD, HUB_RESET_CTL] ∨ 8388608 ≤
    28672 ∧ 28672 < 16777216) := by decide +kernel
theorem witness_regWrite_ring :
    (answeredAsleep 8388608 = true ∨ up.inS0 = true) ∧ 8388608 % 4 = 0 ∧ (8388608 < 1048576 ∧ 8388608 ∉ [HUB_MAINT_CTL, 28704, 28708, 28712, 28716,
    HUB_ERR_CFG, HUB_ERR_HEAD, HUB_REDUN_CTL, HUB_HEARTBEAT, PWR_CTL, PWR_LIMIT, PWR_THERM, HUB_FW_CMD, HUB_HEALTH_CONFIRM, HUB_ATTEST_CMD, HUB_RESET_CTL]
    ∨ 8388608 ≤ 8388608 ∧ 8388608 < 16777216) := by decide +kernel

/-! ### Witnesses: Performance counters -/

def sCnt : State := { upC with cnt := [(4, 2 ^ 48 - 1), (4095, 2 ^ 40 + 7)] }
def snB (t d : Nat) : List (Nat × Nat × Nat) := [(16, 8, t), (24, 2, 4), (26, 2, 4092), (32, 8, d)]
def snC (t d : Nat) : List (Nat × Nat × Nat) := [(16, 8, t), (24, 2, 4), (26, 2, 3), (32, 8, d)]
def sSn (t : Nat) : State := { withDesc upC 1 kindSnapshot 0 0 (snC t 0x3000) with tide := { TideUnit.zero with ns := 5000 } }
def sSnBad : State := withDesc upC 1 kindSnapshot 0 0 (snB 0 0x3020)
def sSnW : State := { sSn 5001 with snaps := [1] }
theorem witness_cntRead :
    Agent.core 3 = Agent.host → sCnt.inS0 = true ∧ sCnt.fld HUB_BOOT_STATUS_phase ≠ 7 := by decide +kernel
theorem witness_cntRead0 :
    Agent.host = Agent.host → sCnt.inS0 = true ∧ sCnt.fld HUB_BOOT_STATUS_phase ≠ 7 := by decide +kernel
theorem witness_cntAsleep :
    (withFlds sCnt [(PWR_STATUS_state, 2)]).fld PWR_STATUS_state ≠ 0 := by decide +kernel
theorem witness_cntHi :
    sCnt.inS0 = true ∧ sCnt.fld HUB_BOOT_STATUS_phase ≠ 7 := by decide +kernel
theorem witness_cntWrap :
    counterDefined 4 = true ∧ 2 ^ 48 ≤ sCnt.cntVal 4 + 1 := by decide +kernel
theorem witness_snap_bad :
    sSnBad.fresh 1 kindSnapshot = true ∧ snapshotOk (sSnBad.desc 1) = false := by decide +kernel
theorem witness_snap_now :
    ∀ (a : ℕ) (data : List Byte), a = snDst ((sSn 0).desc 1) → data = (sSn 0).snapBytes ((sSn 0).desc 1) → (sSn 0).fresh 1 kindSnapshot = true ∧
    snapshotOk ((sSn 0).desc 1) = true ∧ snTide ((sSn 0).desc 1) = 0 ∧ a + data.length ≤ hbmTop ∧ hbmRegion (a + data.length - 1) = hbmRegion a ∧ (sSn
    0).regionFenced (hbmRegion a) = false := by rintro _ _ rfl rfl; decide +kernel
theorem witness_snap_late :
    (sSn 5000).fresh 1 kindSnapshot = true ∧ snapshotOk ((sSn 5000).desc 1) = true ∧ snTide ((sSn 5000).desc 1) ≠ 0 ∧ snTide ((sSn 5000).desc 1) ≤ (sSn
    5000).tide.ns := by decide +kernel
theorem witness_snap_wait :
    (sSn 5001).fresh 1 kindSnapshot = true ∧ snapshotOk ((sSn 5001).desc 1) = true ∧ (sSn 5001).tide.ns < snTide ((sSn 5001).desc 1) ∧ (sSn
    5001).snaps.length < 16 ∧ (List.any (sSn 5001).work fun p => !p.2.done && p.2.kind == kindSnapshot && p.2.phase == 0 && decide (((sSn 5001).jget
    p.1).order < ((sSn 5001).jget 1).order)) = false := by decide +kernel
theorem witness_snap_capture :
    1 ∈ sSnW.snaps := by decide +kernel

/-! ### Witnesses: Resets -/

def sRf : State := { withFlds upC [(RGN_STATUS_fenced 3, 1)] with regionReq := [3] }
def repOk : BootReport := ⟨true, false, true, true, true, true, false, false, 0#256, 0#32, [], []⟩
def repNone : BootReport := ⟨false, false, true, true, true, true, false, false, 0#256, 0#32, [], []⟩
def sCold : State := { upC with coldReq := true }
def sOff : State := { upC with unpowered := true }
def sPerst : State := { upC with perstLow := true }
def sWarmR : State := { upC with warmReq := some 5 }
def sFallR : State := { upC.emptyReverse with fallDue := some 4 }
def jNop (st : Nat) : JEntry := ⟨mkBytes 64 [(0, 1, 0x7F)], 5, st, false, 0, 0, List.replicate 32 0#8⟩
def sJournal (st : Nat) : State := withFlds ((withPort upC 17).jput 4 (jNop st)) [(HUB_BOOT_STATUS_phase, 5), (RNG_JOURNAL_STATUS_replaying, 1), (HUB_MODULE_STATUS_maintenance_mode, 1)]
theorem witness_regionReset :
    3 ∈ sRf.regionReq ∧ sRf.regionFenced 3 = true ∧ sRf.warmReq = none ∧ sRf.canWarm = true := by decide +kernel
theorem witness_coldReset :
    (Instr.coldReset repOk = Instr.coldReset repOk ∧ 2 = 2 ∧ sCold.coldReq = true ∧ sCold.perstLow = false ∧ sCold.unpowered = false ∨ Instr.coldReset
    repOk = Instr.powerOn repOk ∧ 2 = 0 ∧ sCold.perstLow = false ∨ Instr.coldReset repOk = Instr.perstRelease repOk ∧ 2 = sCold.fld
    HUB_RESET_STATUS_last_kind ∧ sCold.perstLow = true ∧ sCold.unpowered = false) ∧ sCold.upd.state = 0 ∧ sCold.setIntact = true ∧ repOk.romPass = true ∧
    repOk.monitorPass = true ∧ (repOk.loader0 = true ∨ repOk.loader1 = true) ∧ repOk.board0 = false ∧ repOk.board1 = false ∧ Instr.coldReset repOk ≠
    Instr.perstRelease repOk := by decide +kernel
theorem witness_powerOn :
    (Instr.powerOn repOk = Instr.coldReset repOk ∧ 0 = 2 ∧ sOff.coldReq = true ∧ sOff.perstLow = false ∧ sOff.unpowered = false ∨ Instr.powerOn repOk =
    Instr.powerOn repOk ∧ 0 = 0 ∧ sOff.perstLow = false ∨ Instr.powerOn repOk = Instr.perstRelease repOk ∧ 0 = sOff.fld HUB_RESET_STATUS_last_kind ∧
    sOff.perstLow = true ∧ sOff.unpowered = false) ∧ sOff.upd.state = 0 ∧ sOff.setIntact = true ∧ repOk.romPass = true ∧ repOk.monitorPass = true ∧
    (repOk.loader0 = true ∨ repOk.loader1 = true) ∧ repOk.board0 = false ∧ repOk.board1 = false ∧ Instr.powerOn repOk ≠ Instr.perstRelease repOk := by decide +kernel
theorem witness_perstRelease :
    (Instr.perstRelease repOk = Instr.coldReset repOk ∧ 0 = 2 ∧ sPerst.coldReq = true ∧ sPerst.perstLow = false ∧ sPerst.unpowered = false ∨
    Instr.perstRelease repOk = Instr.powerOn repOk ∧ 0 = 0 ∧ sPerst.perstLow = false ∨ Instr.perstRelease repOk = Instr.perstRelease repOk ∧ 0 =
    sPerst.fld HUB_RESET_STATUS_last_kind ∧ sPerst.perstLow = true ∧ sPerst.unpowered = false) ∧ sPerst.upd.state = 0 ∧ sPerst.setIntact = true ∧
    repOk.romPass = true ∧ repOk.monitorPass = true ∧ (repOk.loader0 = true ∨ repOk.loader1 = true) ∧ repOk.board0 = false ∧ repOk.board1 = false := by decide +kernel
theorem witness_coldReset_held :
    (Instr.coldReset repNone = Instr.coldReset repNone ∧ 2 = 2 ∧ sCold.coldReq = true ∧ sCold.perstLow = false ∧ sCold.unpowered = false ∨ Instr.coldReset
    repNone = Instr.powerOn repNone ∧ 2 = 0 ∧ sCold.perstLow = false ∨ Instr.coldReset repNone = Instr.perstRelease repNone ∧ 2 = sCold.fld
    HUB_RESET_STATUS_last_kind ∧ sCold.perstLow = true ∧ sCold.unpowered = false) ∧ repNone.loader0 = false ∧ repNone.loader1 = false := by decide +kernel
theorem witness_powerOn_held :
    (Instr.powerOn repNone = Instr.coldReset repNone ∧ 0 = 2 ∧ sOff.coldReq = true ∧ sOff.perstLow = false ∧ sOff.unpowered = false ∨ Instr.powerOn
    repNone = Instr.powerOn repNone ∧ 0 = 0 ∧ sOff.perstLow = false ∨ Instr.powerOn repNone = Instr.perstRelease repNone ∧ 0 = sOff.fld
    HUB_RESET_STATUS_last_kind ∧ sOff.perstLow = true ∧ sOff.unpowered = false) ∧ repNone.loader0 = false ∧ repNone.loader1 = false := by decide +kernel
theorem witness_perstRelease_held :
    (Instr.perstRelease repNone = Instr.coldReset repNone ∧ 0 = 2 ∧ sPerst.coldReq = true ∧ sPerst.perstLow = false ∧ sPerst.unpowered = false ∨
    Instr.perstRelease repNone = Instr.powerOn repNone ∧ 0 = 0 ∧ sPerst.perstLow = false ∨ Instr.perstRelease repNone = Instr.perstRelease repNone ∧ 0 =
    sPerst.fld HUB_RESET_STATUS_last_kind ∧ sPerst.perstLow = true ∧ sPerst.unpowered = false) ∧ repNone.loader0 = false ∧ repNone.loader1 = false := by decide +kernel
theorem witness_warmReset :
    sWarmR.canWarm = true ∧ sWarmR.flag SAF_STATUS_shutdown = false ∧ sWarmR.warmReq = some 5 ∧ 5 < 8 ∧ sWarmR.upd.state = 0 ∧ sWarmR.setIntact = true ∧
    repOk.romPass = true ∧ repOk.monitorPass = true ∧ (repOk.loader0 = true ∨ repOk.loader1 = true) := by decide +kernel
theorem witness_warm_held :
    sWarmR.canWarm = true ∧ sWarmR.flag SAF_STATUS_shutdown = false ∧ (Instr.warmReset repNone = Instr.warmReset repNone ∧ sWarmR.warmReq ≠ none ∨
    Instr.warmReset repNone = Instr.fallback repNone ∧ sWarmR.fallDue ≠ none) ∧ repNone.loader0 = false ∧ repNone.loader1 = false := by decide +kernel
theorem witness_fallback :
    sFallR.canWarm = true ∧ sFallR.flag SAF_STATUS_shutdown = false ∧ sFallR.fallDue = some 4 ∧ sFallR.applyReverse.setIntact = true ∧ repOk.prevRomPass =
    true ∧ repOk.prevMonitorPass = true ∧ (repOk.loader0 = true ∨ repOk.loader1 = true) := by decide +kernel
theorem witness_fallback_held :
    sFallR.canWarm = true ∧ sFallR.flag SAF_STATUS_shutdown = false ∧ (Instr.fallback repNone = Instr.warmReset repNone ∧ sFallR.warmReq ≠ none ∨
    Instr.fallback repNone = Instr.fallback repNone ∧ sFallR.fallDue ≠ none) ∧ repNone.loader0 = false ∧ repNone.loader1 = false := by decide +kernel
theorem witness_journalReplay :
    (sJournal 1).fld HUB_BOOT_STATUS_phase = 5 ∧ (sJournal 1).flag HUB_MAINT_CTL_maint_req = false ∧ (sJournal 1).maintEnd = false := by decide +kernel
theorem witness_replay1 :
    (sJournal 1).fld HUB_BOOT_STATUS_phase = 5 ∧ (sJournal 1).journal = [(4, jNop 1)] ∧ (sJournal 1).commits = [] ∧ (sJournal 1).groups = [] ∧ (sJournal
    1).waits = [] ∧ (sJournal 1).doneQ = [] ∧ (jNop 1).state = 1 := by decide +kernel
theorem witness_replay3 :
    (sJournal 3).fld HUB_BOOT_STATUS_phase = 5 ∧ (sJournal 3).journal = [(4, jNop 3)] ∧ (sJournal 3).commits = [] ∧ (sJournal 3).groups = [] ∧ (sJournal
    3).waits = [] ∧ (sJournal 3).doneQ = [] ∧ (jNop 3).state = 3 := by decide +kernel

/-! ### Witnesses: Side interfaces and maintenance mode -/

def sPerstT : State := { upC with perstLow := true }
def sI3c : State := { upC with i3cOff := 4092 }
def sMReq : State := withFlds upC [(HUB_MAINT_CTL_maint_req, 1), (HUB_MAINT_CTL_maint_pending, 1)]
def sMIn : State := withFlds upC [(HUB_MAINT_CTL_maint_req, 1), (HUB_MODULE_STATUS_maintenance_mode, 1)]
def sMBusy : State := { sMReq with frozen := [⟨3, 3, 2, 0x1000, [0, 1, 2, 3]⟩] }
def sMInBusy : State := sMIn.setBlk 63 { sMIn.blk 63 with rowTest := some ⟨0, 9, 0, 0, 3⟩ }
def sMEnd : State := { upC with maintEnd := true }
theorem witness_extest :
    sPerstT.unpowered = false ∧ sPerstT.fld PWR_STATUS_state ≠ 3 ∧ sPerstT.perstLow = true := by decide +kernel
theorem witness_extest_free :
    upC.unpowered = false ∧ upC.fld PWR_STATUS_state ≠ 3 ∧ upC.perstLow = false := by decide +kernel
theorem witness_sample :
    upC.unpowered = false ∧ upC.fld PWR_STATUS_state ≠ 3 := by decide +kernel
theorem witness_bypass :
    upC.unpowered = false ∧ upC.fld PWR_STATUS_state ≠ 3 := by decide +kernel
theorem witness_i3cRead :
    upC.unpowered = false ∧ ((leBytes 2 4090).length = 2 → leNat (leBytes 2 4090) + 6 ≤ 4096) ∧ ((leBytes 2 4090).length ≠ 2 → upC.i3cOff + 6 ≤ 4096) := by decide +kernel
theorem witness_i3cRead_len :
    sI3c.unpowered = false ∧ ([7#8].length = 2 → leNat [7#8] + 4 ≤ 4096) ∧ ([7#8].length ≠ 2 → sI3c.i3cOff + 4 ≤ 4096) := by decide +kernel
theorem witness_i3cRead_past :
    sI3c.unpowered = false := by decide +kernel
theorem witness_entdaa :
    upC.unpowered = false := by decide +kernel
theorem witness_maintReq :
    upC.flag HUB_MAINT_CTL_maint_req = false := by decide +kernel
theorem witness_maintEnter :
    sMReq.flag HUB_MAINT_CTL_maint_req = true ∧ sMReq.flag HUB_MAINT_CTL_maint_pending = true ∧ sMReq.maintReady = true := by decide +kernel
theorem witness_maintWait :
    sMBusy.flag HUB_MAINT_CTL_maint_pending = true ∧ sMBusy.maintReady = false ∧ sMBusy.maintEnd = false := by decide +kernel
theorem witness_maintRel :
    sMIn.atBoundary = true ∧ sMIn.flag HUB_MAINT_CTL_maint_req = true ∧ sMIn.flag HUB_MAINT_CTL_maint_pending = false := by decide +kernel
theorem witness_maintRel2 :
    sMInBusy.atBoundary = false ∧ sMInBusy.flag HUB_MAINT_CTL_maint_req = true ∧ sMInBusy.flag HUB_MAINT_CTL_maint_pending = false := by decide +kernel
theorem witness_maintEnd :
    sMEnd.maintEnd = true ∧ sMEnd.atBoundary = true ∧ sMEnd.flag HUB_MAINT_CTL_maint_pending = false := by decide +kernel

/-! ### Witnesses whose hypotheses hold large data, free constants, or a premise inside the conclusion -/

theorem witness_ppsEdge_rate : sPpsEdge.flag TID_STATUS_is_root = true ∧ sPpsEdge.flag TID_CTL_epoch_arm = false ∧ sPpsEdge.flag TID_CTL_use_pps = true ∧ (-(500000000 * 65536) : Int) ≤ 10000 * 65536 + 9 ∧ (10000 * 65536 + 9 : Int) < 500000000 * 65536 ∧ ((sPpsEdge.fine : Int) - (10000 * 65536 + 9)) % (1000000000 * 65536) = 0 := by decide +kernel
theorem witness_ill : ∀ x ∈ [(opArrStream, arrLegal), (opArrElem, elemLegal), (opPanDrain, drainLegal), (opPanLoad, copyLegal false), (opPanStore, copyLegal true), (opGrmTap, tapLegal), (opGrmDrain, gdrainLegal), (opSynSignal, synSignalLegal), (opSynWait, synWaitLegal)], (sIll x.1).nextInstr 0 0 = some (lOf 1, ill x.1) ∧ iBits (ill x.1) 0 8 = x.1 ∧ x.2 (sIll x.1) (lOf 1) (ill x.1) = false := by decide +kernel
theorem witness_ill_fabric : ∀ x ∈ [(opFabCfg, cfgLegal), (opFabRun, runLegal), (opFabLane, laneLegal)], (((sIll x.1).fed 0).blk 0).fabQ = [fedJ x.1] ∧ ((sIll x.1).fed 0).blockStopped 0 = false ∧ ((sIll x.1).fed 0).fabWaits 0 (fedJ x.1) = false ∧ (((sIll x.1).fed 0).setBlk 0 { ((sIll x.1).fed 0).blk 0 with fabQ := [] }).launches.find? (fun y => y.entry == (fedJ x.1).entry) = some (fedL x.1) ∧ x.2 (((sIll x.1).fed 0).setBlk 0 { ((sIll x.1).fed 0).blk 0 with fabQ := [] }) (fedL x.1) (ill x.1) = false := by decide +kernel
theorem witness_root_converges : sIterEnd.rootJob 1 = some (jobOf 3) ∧ (jobOf 3).lost = false ∧ (jobOf 3).pub = none ∧ sIterEnd.slotPoisoned (sIterEnd.desc 1) (jobOf 3) = false ∧ (∀ xm r, xm = iterate (jobOf 3).n (rtCode (sIterEnd.desc 1)) (jobOf 3).x (jobOf 3).m → r = residual (jobOf 3).n xm.2 → f32finite r = true ∧ f32lt 0x40000000 r = false ∧ f32le r (rtTol (sIterEnd.desc 1)) = true) ∧ sIterEnd.tide.ns < dDeadline (sIterEnd.desc 1) ∧ (∀ v, sIterEnd.copyRecorded (rtArea (sIterEnd.desc 1)) (rtQ (sIterEnd.desc 1)) v = false) ∧ dGroup (sIterEnd.desc 1) = 0 ∧ (jobOf 3).retried = false := ⟨by decide +kernel, by decide +kernel, by decide +kernel, by decide +kernel, by rintro _ _ rfl rfl; decide +kernel, by decide +kernel, fun _ => rfl, by decide +kernel, by decide +kernel⟩
def xSt (s : State) : List Byte × AccEnd × State := s.load devUnit (stArea (s.desc 1)) 64
def ySt (s : State) : List Byte × AccEnd × State := (xSt s).2.2.load devUnit (factorAt (stArea (s.desc 1)) (faD (xSt s).1) (faB (xSt s).1) (faVersion (xSt s).1) 0) (copySize (faD (xSt s).1) (faB (xSt s).1))
def zSt (s : State) : List Byte × AccEnd × State := (ySt s).2.2.load devUnit (leAt (s.desc 1) 40 8) (sumOff (s.desc 1) (xSt s).1 (stFirst (s.desc 1) + stCount (s.desc 1)))
theorem loads_ok (s : State) (a b : Nat) (m n : Nat) (h : (0 < m ∧ a < hbmTop ∧ m ≤ 0x003600000000 - a % 0x003600000000 ∧ s.regionFenced (hbmRegion a) = false ∧ s.poison = []) ∧
    (0 < n ∧ b < hbmTop ∧ n ≤ 0x003600000000 - b % 0x003600000000 ∧ s.regionFenced (hbmRegion b) = false)) :
    (s.load devUnit a m).2.1 = .ok ∧ ((s.load devUnit a m).2.2.load devUnit b n).2.1 = .ok := by
  obtain ⟨⟨h1, h2, h3, h4, h5⟩, k1, k2, k3, k4⟩ := h
  rw [load_hbm s devUnit a m h1 h2 h3 h4 h5]
  have hk := noteHbmRead_keeps s a m (RGN_STATUS_fenced (hbmRegion b)) h5 (by simp only [RGN_STATUS_fenced, RGN_STATUS, rgnBase]; omega)
  refine ⟨rfl, ?_⟩
  rw [load_hbm _ devUnit b n k1 k2 k3 (by unfold State.regionFenced State.flag; rw [hk.2.1]; exact k4) hk.1]
theorem witness_stats_runs : ∀ s ∈ [sStats [vConf 7 1] 0x40000000, sStats [vConf 7 2] 0x7F800000], s.fresh 1 kindStats = true ∧ dGroup (s.desc 1) = 0 ∧
    statsOk (s.desc 1) = true ∧ s.statsLate (s.desc 1) = false ∧ s.earlier 1 kindStats (fun d => stArea d == stArea (s.desc 1)) = false ∧
    (∀ p ∈ s.work, p.2.done = true ∨ p.2.kind ≠ kindStats ∨ p.1 = 1 ∨ p.2.phase = 0 ∨ stArea (s.desc p.1) ≠ stArea (s.desc 1)) ∧
    (xSt s).2.1 = .ok ∧ statsHeaderOk (s.desc 1) (xSt s).1 = true ∧ s.statsPlace (s.desc 1) (xSt s).1 = .none ∧
    (∃ c, s.confirmedCode (leAt (s.desc 1) 36 4) = some c ∧ c ≠ 3 ∧ c ≠ 4) ∧ (ySt s).2.1 = .ok ∧ (zSt s).2.1 = .ok := by
  intro s hs
  have hk : (ySt s).2.1 = .ok ∧ (zSt s).2.1 = .ok := loads_ok _ _ _ _ _ (by revert s; decide +kernel)
  refine ⟨?_, ?_, ?_, ?_, ?_, ?_, ?_, ?_, ?_, ⟨(s.confirmedCode (leAt (s.desc 1) 36 4)).getD 0, ?_⟩, hk.1, hk.2⟩ <;> (clear hk; revert s; decide +kernel)

def xRoot (s : State) : List Byte × AccEnd × State := if rtRaw (s.desc 1) then ([], .ok, s) else s.load devUnit (rtSource (s.desc 1)) 64
def yRoot (s : State) : List Byte × AccEnd × State := (xRoot s).2.2.load devUnit (rtArea (s.desc 1)) 64
def zRoot (s : State) : List Byte × AccEnd × State := (yRoot s).2.2.load devUnit (rootSpan (s.desc 1) (xRoot s).1).1 (rootSpan (s.desc 1) (xRoot s).1).2
def sRootS : State := sRoot0 100000
/-- Below the first listed address every byte reads 0. -/
theorem le_below (s : State) (lo a : Nat) (hs : SMap.sortedFrom lo s.mem = true) (h : a + 2 ≤ lo) : s.le a 2 = 0 := by
  have hb : ∀ k, k < lo → s.byte k = 0#8 := fun k hk => by
    unfold State.byte; rw [SMap.get_eq_find, SMap.find_none_of_sorted hs hk]; rfl
  simp [State.le, State.bytes, List.range_succ, hb a (by omega), hb (a + 1) (by omega), leNat]
theorem root_ingests : ∀ v ∈ sRootS.ingest (sRootS.desc 1) (xRoot sRootS).1, finBits Fmt.bf16 v = true := by
  intro v hv
  have hr : rtRaw (sRootS.desc 1) = true ∧ rtSource (sRootS.desc 1) = 0x100000 ∧ rtN (sRootS.desc 1) (xRoot sRootS).1 = 128 ∧
    SMap.sortedFrom 0x200000 sRootS.mem = true ∧ finBits Fmt.bf16 0 = true := by decide +kernel
  obtain ⟨h1, h2, h3, h4, h5⟩ := hr
  unfold State.ingest buildMat at hv
  simp only [h1, h2, h3, if_true, List.mem_map, List.mem_range] at hv
  obtain ⟨t, ht, rfl⟩ := hv
  rw [le_below _ _ _ h4 (by omega)]; exact h5
theorem witness_root_start : sRootS.fresh 1 kindRoot = true ∧ rootBodyOk (sRootS.desc 1) = true ∧ sRootS.tide.ns < dDeadline (sRootS.desc 1) ∧
    (xRoot sRootS).2.1 = .ok ∧ (yRoot sRootS).2.1 = .ok ∧ rootHeadOk (sRootS.desc 1) (xRoot sRootS).1 (yRoot sRootS).1 = true ∧
    sRootS.placementErr (sRootS.desc 1) (leAt (sRootS.desc 1) 59 1) = .none ∧ rtFlag (sRootS.desc 1) 6 = false ∧
    sRootS.rootWaits 1 (sRootS.desc 1) = false ∧ sRootS.canResume (sRootS.desc 1) (xRoot sRootS).1 = false ∧ (zRoot sRootS).2.1 = .ok ∧
    (∀ v ∈ sRootS.ingest (sRootS.desc 1) (xRoot sRootS).1, finBits Fmt.bf16 v = true) ∧
    sRootS.anyPoison (sRootS.warmAt (sRootS.desc 1)) (rootSize (rtN (sRootS.desc 1) (xRoot sRootS).1 / 128)) = false :=
  ⟨by decide +kernel, by decide +kernel, by decide +kernel, by decide +kernel, by decide +kernel, by decide +kernel, by decide +kernel, by decide +kernel,
    by decide +kernel, by decide +kernel, (loads_ok _ _ _ _ _ (by decide +kernel)).2, root_ingests, by decide +kernel⟩

theorem leBytes_len (n v : Nat) : (leBytes n v).length = n := by
  induction n generalizing v with
  | zero => rfl
  | succ n ih => simp [leBytes, ih]

theorem witness_attest_unmapped :
    (placeOf ((sAtt 0xFFFF).fld HUB_ATTEST_NONCE_LO_addr_lo / 32 * 32 + (sAtt 0xFFFF).fld HUB_ATTEST_NONCE_HI_addr_hi * 2 ^ 32)).1 = .unmapped := by decide +kernel
theorem padTo_len (n : Nat) (l : List Byte) : (padTo n l).length = n := by
  simp [padTo, bytesAt]
theorem witness_attest : ∃ na da : Nat, na = (sAtt 0).fld HUB_ATTEST_NONCE_LO_addr_lo / 32 * 32 + (sAtt 0).fld HUB_ATTEST_NONCE_HI_addr_hi * 2 ^ 32 ∧
    da = (sAtt 0).fld HUB_ATTEST_DST_LO_addr_lo / 4096 * 4096 + (sAtt 0).fld HUB_ATTEST_DST_HI_addr_hi * 2 ^ 32 ∧
    na + 32 ≤ hbmTop ∧ (sAtt 0).regionFenced (hbmRegion na) = false ∧ (sAtt 0).anyPoison na 32 = false ∧
    ∀ body data, body = (sAtt 0).reportBody ((sAtt 0).bytes na 32) →
      data = body ++ padTo 3309 (Sys2Proof.Config.signature (sha3 body) 3309) ++ padTo 5261 Sys2Proof.Config.certificate →
      da + data.length ≤ hbmTop ∧ hbmRegion (da + data.length - 1) = hbmRegion da ∧ (sAtt 0).regionFenced (hbmRegion da) = false := by
  refine ⟨0x40, 0x2000, by decide +kernel, by decide +kernel, by decide +kernel, by decide +kernel, by decide +kernel, ?_⟩
  rintro body data rfl rfl
  have hl : ∀ x y : List Byte, ((sAtt 0).reportBody ((sAtt 0).bytes 0x40 32) ++ padTo 3309 x ++ padTo 5261 y).length = 9402 := by
    intro x y; simp [State.reportBody, padTo_len, leBytes_len]
  rw [hl]; decide +kernel

/-- SHA3-256 of the empty string is the digest that FIPS 202 publishes. -/
theorem test_sha3_empty : sha3 [] = emptyDigest := by decide +kernel
theorem pkg_read : sPkg.upd.state = 0 ∧ sPkg.flag HUB_FW_STATUS_busy = false ∧ sPkg.package.2 = (none, 0) := by decide +kernel
theorem pkg_parts : (List.range 8).all (fun i => decide (leAt (partEntry sPkg.package.1 i) 4 4 = 0) && decide (leAt (partEntry sPkg.package.1 i) 8 4 = 0) && (bytesAt (partEntry sPkg.package.1 i) 16 32 == emptyDigest)) = true := by decide +kernel
theorem pkg_version : sPkg.upd.floor ≤ manVersion sPkg.package.1 := by decide +kernel
theorem witness_stage : sPkg.upd.state = 0 ∧ sPkg.flag HUB_FW_STATUS_busy = false ∧ sPkg.stageError sPkg.package = 0 := by
  refine ⟨pkg_read.1, pkg_read.2.1, ?_⟩
  have hp : ∀ i ∈ List.range 8, partOk sPkg.package.1 i = true := fun i hi => by
    have h := List.all_eq_true.mp pkg_parts i hi
    simp only [Bool.and_eq_true, decide_eq_true_eq, beq_iff_eq] at h
    unfold partOk; dsimp only
    rw [h.1.1, h.1.2, h.2]
    show (decide (0 + 0 ≤ imageSectors * sectorSize) && sha3 [] == emptyDigest) = true
    rw [test_sha3_empty]; rfl
  have hp' : (List.range 8).all (partOk sPkg.package.1) = true := List.all_eq_true.mpr hp
  unfold State.stageError
  rw [pkg_read.2.2, hp']
  have := pkg_version
  simp [Nat.not_lt.mpr this]

theorem flat_len {α : Type} (n k : Nat) (f : Nat → List α) (h : ∀ i, (f i).length = k) : ((List.range n).flatMap f).length = n * k := by
  induction n with
  | zero => simp
  | succ n ih => rw [List.range_succ, List.flatMap_append, List.length_append, ih]; simp [h, Nat.succ_mul]
/-- What a DUMP writes: the header, every counter, and every place of the four watch tables. -/
def dumpOf (s : State) : List Byte :=
  s.saveHeader 65536 32768 0 0 ++ ((List.range 65536).flatMap (fun n => counterRec (s.counter n)) ++
    ((List.range 4).map (fun r => (s.syncUnit r).watches)).flatMap (fun l => s.watchRecs l ++ List.replicate ((8192 - l.length) * 32) 0#8))
theorem dump_len (s : State) (h : (List.range 4).map (fun r => (s.syncUnit r).watches) = [[], [], [], []]) : (dumpOf s).length = 2097216 := by
  have h1 : ((List.range 65536).flatMap (fun n => counterRec (s.counter n))).length = 65536 * 16 :=
    flat_len 65536 16 _ (fun i => by simp [counterRec, leBytes_len])
  have h0 : (s.watchRecs []).length = 0 := rfl
  have h2 : (s.saveHeader 65536 32768 0 0).length = 64 := by simp [State.saveHeader, leBytes_len]
  unfold dumpOf
  rw [h, List.length_append, List.length_append, h1, h2]
  simp only [List.flatMap_cons, List.flatMap_nil, List.length_append, List.length_replicate, List.length_nil, h0]
def sDump : State := sSv 11 0x4000
theorem witness_dump : sDump.fresh 1 kindSignal = true ∧ leAt (sDump.desc 1) 16 1 = 11 ∧ saveOk 11 (sDump.desc 1) = true ∧
    leAt (sDump.desc 1) 32 8 + (dumpOf sDump).length ≤ hbmTop ∧
    hbmRegion (leAt (sDump.desc 1) 32 8 + (dumpOf sDump).length - 1) = hbmRegion (leAt (sDump.desc 1) 32 8) ∧
    sDump.regionFenced (hbmRegion (leAt (sDump.desc 1) 32 8)) = false := by
  rw [dump_len sDump (by decide +kernel)]
  decide +kernel

/-- An image of weight 1 and of latency 4 for one stream in and one out, with an empty body: a header, the CRC, and the rest. -/
def goodImage : List Byte :=
  [0#8, 0#8, 1#8, 1#8, 1#8, 1#8, 1#8, 4#8, 0#8, 0x60#8, 0#8, 0#8] ++
    leBytes 4 (crc32c ([0#8, 0#8, 1#8, 1#8, 1#8, 1#8, 1#8, 4#8, 0#8, 0x60#8, 0#8, 0#8] ++ [0, 0, 0, 0] ++ List.replicate 24624 0#8)).toNat ++
    List.replicate 24624 0#8
theorem image_parts (h r : List Byte) (c : Word) (hh : h.length = 12) :
    (h ++ leBytes 4 c.toNat ++ r).take 12 = h ∧ (h ++ leBytes 4 c.toNat ++ r).drop 16 = r ∧ leAt (h ++ leBytes 4 c.toNat ++ r) 12 4 = c.toNat := by
  have hl : (leBytes 4 c.toNat).length = 4 := rfl
  have hd : (h ++ leBytes 4 c.toNat ++ r).drop 12 = leBytes 4 c.toNat ++ r := by
    rw [List.append_assoc, ← hh, List.drop_left]
  refine ⟨by rw [List.append_assoc, ← hh, List.take_left], ?_, ?_⟩
  · have : (h ++ leBytes 4 c.toNat).length = 16 := by simp [hh, hl]
    rw [← this, List.drop_left]
  · unfold leAt
    rw [hd]
    rw [List.take_left' hl]
    simp only [leBytes, leNat, BitVec.toNat_ofNat]
    have := c.isLt
    omega
theorem witness_good_image : Config.imageWeightOk (goodImage.drop 64) (imgWeight goodImage) = true → imageOk goodImage = true := by
  intro hw
  obtain ⟨h1, h2, h3⟩ := image_parts [0#8, 0#8, 1#8, 1#8, 1#8, 1#8, 1#8, 4#8, 0#8, 0x60#8, 0#8, 0#8] (List.replicate 24624 0#8)
    (crc32c ([0#8, 0#8, 1#8, 1#8, 1#8, 1#8, 1#8, 4#8, 0#8, 0x60#8, 0#8, 0#8] ++ [0, 0, 0, 0] ++ List.replicate 24624 0#8)) rfl
  have h4 : leAt goodImage 16 48 = 0 := by
    unfold leAt
    show leNat (List.take 48 (List.drop 16 goodImage)) = 0
    rw [show List.drop 16 goodImage = List.replicate 24624 0#8 from h2, List.take_replicate]
    decide
  unfold imageOk
  rw [hw, h4]
  have h5 : goodImage.take 12 ++ [0, 0, 0, 0] ++ goodImage.drop 16 = [0#8, 0#8, 1#8, 1#8, 1#8, 1#8, 1#8, 4#8, 0#8, 0x60#8, 0#8, 0#8] ++ [0, 0, 0, 0] ++ List.replicate 24624 0#8 := by
    rw [show List.take 12 goodImage = _ from h1, show List.drop 16 goodImage = _ from h2]
  rw [h5, show leAt goodImage 12 4 = _ from h3]
  have h6 : leAt goodImage 2 1 = 1 ∧ bitsOf (leAt goodImage 3 1) 3 5 = 0 ∧ imgIns goodImage ≤ 3 ∧ imgOuts goodImage ≤ 2 ∧ 1 ≤ imgWeight goodImage ∧
      imgWeight goodImage ≤ 32 ∧ 4 ≤ leAt goodImage 7 1 ∧ leAt goodImage 7 1 ≤ 64 ∧ leAt goodImage 8 4 = 24576 := by
    refine ⟨rfl, rfl, ?_, ?_, ?_, ?_, ?_, ?_, rfl⟩ <;> first | exact Nat.le_of_ble_eq_true rfl
  generalize crc32c _ = c
  generalize goodImage = g at *
  obtain ⟨a1, a2, a3, a4, a5, a6, a7, a8, a9⟩ := h6
  simp [a1, a2, a3, a4, a5, a6, a7, a8, a9]

/-! ### Ill-formed terms: one for each check of `Instr.wf` -/

def cellShort : Cell := { mkCell 1 0 0 [] with payload := List.replicate 927 0#8 }
def blockOf (m w : Nat) (c0 c1 : Cell) : LineBlock := ⟨List.replicate m 0#8, List.replicate w (.ok []), 0#16, 0#7, 0#4, 0#4, false, c0, c1, 0⟩
def repScrub (line : Nat) (o : LineOutcome) : BootReport := { repNone with scrubFinds := [(0, line, o)] }
theorem test_wf_cells : (mkCell 1 0 0 []).wf = true ∧ ∀ i ∈ [Instr.tideCellReceive 0 cellShort 0 0, .dataCellReceive 0 cellShort 0, .controlCellReceive 0 cellShort,
    .syncCellReceive 0 cellShort, .verdictCellReceive 0 cellShort false, .verdictAnswerReceive 0 cellShort [],
    .verdictAnswerReceive 0 (mkCell 1 0 0 []) (List.replicate 929 0#8)], i.wf = false := by decide +kernel
theorem test_wf_blocks : (Instr.lineBlockReceive 0 (blockOf 9 3 (mkCell 1 0 0 []) (mkCell 1 0 0 []))).wf = true ∧
    ∀ b ∈ [blockOf 8 3 (mkCell 1 0 0 []) (mkCell 1 0 0 []), blockOf 9 2 (mkCell 1 0 0 []) (mkCell 1 0 0 []), blockOf 9 3 cellShort (mkCell 1 0 0 []),
      blockOf 9 3 (mkCell 1 0 0 []) cellShort], (Instr.lineBlockReceive 0 b).wf = false := by decide +kernel
theorem test_wf_boots : (repScrub 603979775 (.corrected 11 255 255 255 0xFFFFFF true)).wf = true ∧ ∀ r ∈ [repScrub 603979776 .clean,
    repScrub 0 (.corrected 12 0 0 0 0 true), repScrub 0 (.corrected 0 256 0 0 0 true), repScrub 0 (.corrected 0 0 256 0 0 true),
    repScrub 0 (.corrected 0 0 0 256 0 true), repScrub 0 (.corrected 0 0 0 0 0x1000000 true)],
    (Instr.coldReset r).wf = false ∧ (Instr.powerOn r).wf = false ∧ (Instr.perstRelease r).wf = false ∧ (Instr.warmReset r).wf = false ∧
      (Instr.fallback r).wf = false := by decide +kernel
theorem test_wf_accesses : ∀ i ∈ [Instr.registerWrite 2 0, .panWindowRead 0 0 0, .panWindowRead 0 0x1FFFFF 2, .panWindowWrite 0 0 [], .panWindowWrite 0 0x1FFFFF [0, 0],
    .counterLoad 0 0 (.other 0), .counterLoad 0x7FFFF 2 (.other 0), .counterStoreSet 0 [] (.other 0), .counterStoreAdd 0 [] (.other 0), .descriptorDoorbell 0 0 [],
    .completionDoorbell 0 0 [], .bar4WindowRead 0 0, .bar4WindowWrite 0 [], .bar0MisalignedAccess 4 4 true, .lowPowerPcieRequest 0 0 (some [])],
    i.wf = false := by decide +kernel

/-! ### Values that the manual works out -/

/-- The worked example of 00_scope.md: tide 1,000,000,005 lies in frame 488,281, and the next frame begins at tide 1,000,001,536. -/
theorem test_frame : ({ up with tide := { up.tide with ns := 1000000005 } } : State).frame = 488281 ∧
    ({ up with tide := { up.tide with ns := 1000000005 } } : State).nextBoundary = 1000001536 := by decide +kernel
/-- The state that a command leaves. -/
def after (c : Instr) (s : State) : State := match exec c s with
  | .next t => t
  | _ => s
def sBlk22 : State := { up with blkErr := [(22, 1)] }
/-- The worked example of 01_architecture.md: the second block error of physical block 22 moves logical block 21 to the spare of region 1. -/
theorem test_spare : up.phys 21 = 22 ∧ (after (.blockError 21 none 0) sBlk22).fld (mapFld 21) = 0x10 ∧ (after (.blockError 21 none 0) sBlk22).phys 21 = 33 ∧
    (after (.blockError 21 none 0) sBlk22).fld (RGN_STATUS_spare_used 1) = 1 := by decide +kernel
/-- The worked example of 16_memory.md: local address 0x006C_0001_7000 is in stack 17, and the next unit in stack 12. -/
theorem test_stack : hbmStack 0x006C00017000 = 17 ∧ hbmOffset 0x006C00017000 = 0x3000 ∧ hbmStack 0x006C00018000 = 12 ∧ hbmOffset 0x006C00018000 = 0x4000 := by decide +kernel
/-- The worked examples of 07_curvature_statistics.md: the instruction of 1,024 issue ac occupies 1,439, with D = 16 none is added, and a factor block of 22
chunks has 253 upper tiles in copies of 15,859,712 bytes. -/
theorem test_withheld : withheldAc 3 ((List.range 512).map (2 * ·)) [] 0 = 415 ∧ withheldAc 3 ((List.range 256).map (4 * ·)) [] 0 = 0 := by decide +kernel
theorem test_tiles : (upperTiles 22).length = 253 ∧ copySize 2816 2816 = 15859712 := by decide +kernel
/-- The worked example of 05_numerics.md: a compensated gain at 1.0 with the increment −5 × 2^−14 in every step, after six, seven and eight steps. -/
theorem test_bittern : [6, 7, 8].map (fun n => (List.range n).foldl (fun (p : Nat × Nat) _ => compensated p.1 p.2 0xB9A00000) (0x3F80, 0)) =
    [(0x3F80, 256 - 60), (0x3F7F, 116), (0x3F7F, 96)] := by decide +kernel
/-- CRC-32C of the nine digits is the check value that RFC 3720's polynomial has. -/
theorem test_crc : crc32c [0x31#8, 0x32#8, 0x33#8, 0x34#8, 0x35#8, 0x36#8, 0x37#8, 0x38#8, 0x39#8] = 0xE3069283#32 := by decide +kernel

end Sys2Proof.Tests
end

section
/-! SUPPORT. Family 00_scope.md: the queue's step, a write of a BAR0 register field by field (R10, R12, R13), the writes that are a row's command, and
PCIe requests in S1 to S3 (R565, R634). -/

namespace Sys2Proof.Machine

/-! ### The queue and the step -/

theorem step_of_pending_nil {s : State} (h : s.pending = []) : step s = .next s := by
  unfold step
  rw [h]

theorem step_of_pending_cons {s : State} {c : Instr} {l : List Instr} (h : s.pending = c :: l) : step s = exec c { s with pending := l } := by
  unfold step
  rw [h]

/-- Settles O1: the two cases of the queue. -/
theorem stepRunsFront : Obligations.StepRunsFront :=
  fun _ _ _ => ⟨step_of_pending_cons rfl, step_of_pending_nil rfl⟩

/-! ### The fields of a register lie apart -/

/-- Two fields have no bit in common. -/
abbrev Fld.apart (f g : Fld) : Prop := f.lo + f.width ≤ g.lo ∨ g.lo + g.width ≤ f.lo

/-- Every field ends within the word, and no two fields have a bit in common. -/
abbrev FieldsApart (l : List Fld) : Prop := (∀ f ∈ l, f.lo + f.width ≤ 32) ∧ l.Pairwise Fld.apart

theorem Fld.apart_symm {f g : Fld} (h : f.apart g) : g.apart f := Or.symm h

theorem regClasses_fieldsApart : ∀ c ∈ regClasses, FieldsApart c.fields := by decide +kernel

theorem addr_of_mem_fieldsAt {a : Nat} {f : Fld} (hf : f ∈ fieldsAt a) : f.addr = a := by
  unfold fieldsAt at hf
  split at hf
  · simp at hf
  · obtain ⟨g, -, rfl⟩ := List.mem_map.mp hf
    rfl

theorem fieldsAt_fieldsApart (a : Nat) : FieldsApart (fieldsAt a) := by
  unfold fieldsAt
  split
  case h_1 => exact ⟨by simp, .nil⟩
  case h_2 c hc =>
    obtain ⟨hfit, hpair⟩ := regClasses_fieldsApart c (List.mem_of_find?_eq_some hc)
    exact ⟨by simpa using hfit, List.pairwise_map.mpr hpair⟩

/-! ### A write by access code (R10, R12) -/

/-- What field `f` of the register at `a` holds after a write of `x` to the register, by its access code. -/
def State.fieldAfter (s : State) (a : Nat) (f : Fld) (x : Nat) : Nat :=
  match f.acc with
  | .ro | .wo => s.fld f
  | .rw | .rws => clampField a f.lo (bitsOf x f.lo f.width) % 2 ^ f.width
  | .lk => if s.cfg.bootLock then s.fld f else clampField a f.lo (bitsOf x f.lo f.width) % 2 ^ f.width
  | .w1c => if bitsOf x f.lo f.width = 1 then 0 else s.fld f
  | .w1s => if bitsOf x f.lo f.width = 1 then 1 else s.fld f

/-- It depends on the field's value and on the boot lock alone. -/
theorem State.fieldAfter_congr {s t : State} {f : Fld} (hcfg : t.cfg = s.cfg) (hf : t.fld f = s.fld f) (a x : Nat) :
    t.fieldAfter a f x = s.fieldAfter a f x := by
  unfold State.fieldAfter
  rw [hcfg, hf]

/-- A write of one field sets that field or does nothing. -/
theorem State.writeField_cases (s : State) (f : Fld) (x : Nat) : s.writeField f x = s ∨ ∃ v, s.writeField f x = s.setFld f v := by
  unfold State.writeField
  cases f.acc with
  | ro | wo => exact .inl rfl
  | rw | rws => exact .inr ⟨_, rfl⟩
  | lk =>
    cases s.cfg.bootLock with
    | true => exact .inl rfl
    | false => exact .inr ⟨_, rfl⟩
  | w1c | w1s =>
    by_cases h : bitsOf x f.lo f.width = 1
    · exact .inr ⟨_, if_pos h⟩
    · exact .inl (if_neg h)

theorem State.writeField_cfg (s : State) (f : Fld) (x : Nat) : (s.writeField f x).cfg = s.cfg := by
  obtain h | ⟨v, h⟩ := s.writeField_cases f x <;> rw [h]
  exact State.setFld_cfg s f v

theorem State.fld_writeField_apart (s : State) {f g : Fld} (x : Nat) (hw : f.lo + f.width ≤ 32) (h : f.apart g) :
    (s.writeField f x).fld g = s.fld g := by
  obtain e | ⟨v, e⟩ := s.writeField_cases f x <;> rw [e]
  exact State.fld_setFld_bits s f g v hw h

theorem State.fld_writeField_same (s : State) {f : Fld} (x : Nat) (hw : f.lo + f.width ≤ 32) :
    (s.writeField f x).fld f = s.fieldAfter f.addr f x := by
  have hset := fun v => State.fld_setFld_same s f v hw
  have hone : bitsOf x f.lo f.width = 1 → 1 % 2 ^ f.width = 1 := fun h =>
    Nat.mod_eq_of_lt (by have := bitsOf_lt x f.lo f.width; omega)
  unfold State.writeField State.fieldAfter
  cases f.acc with
  | ro | wo => rfl
  | rw | rws => exact hset _
  | lk =>
    cases s.cfg.bootLock with
    | true => rfl
    | false => exact hset _
  | w1c | w1s =>
    by_cases h : bitsOf x f.lo f.width = 1
    · simp [h, hset, hone]
    · simp [h]

/-- Fields that lie apart are written one after another, and each ends as if it were written alone. -/
theorem State.fld_foldl_writeField {l : List Fld} (hl : FieldsApart l) {f : Fld} (hf : f ∈ l) (s : State) (x : Nat) :
    (l.foldl (fun t g => t.writeField g x) s).fld f = s.fieldAfter f.addr f x := by
  induction l generalizing s with
  | nil => cases hf
  | cons g l ih =>
    obtain ⟨hfit, hpair⟩ := hl
    obtain ⟨hg, hrest⟩ := List.pairwise_cons.mp hpair
    have hfitl : ∀ k ∈ l, k.lo + k.width ≤ 32 := fun k hk => hfit k (List.mem_cons_of_mem g hk)
    rw [List.foldl_cons]
    obtain rfl | hfl := List.mem_cons.mp hf
    · have hkeep : (l.foldl (fun t k => t.writeField k x) (s.writeField f x)).fld f = (s.writeField f x).fld f :=
        List.foldlRecOn (motive := fun t : State => t.fld f = (s.writeField f x).fld f) l _ rfl fun t ht k hk =>
          (t.fld_writeField_apart x (hfitl k hk) (Fld.apart_symm (hg k hk))).trans ht
      rw [hkeep, State.fld_writeField_same s x (hfit f List.mem_cons_self)]
    · rw [ih ⟨hfitl, hrest⟩ hfl]
      exact State.fieldAfter_congr (s.writeField_cfg g x) (s.fld_writeField_apart x (hfit g List.mem_cons_self) (hg f hfl)) _ _

theorem State.fld_plainWrite (s : State) {a : Nat} (v : Word) {f : Fld} (hf : f ∈ fieldsAt a) :
    (s.plainWrite a v).fld f = s.fieldAfter a f v.toNat := by
  unfold State.plainWrite
  rw [State.fld_foldl_writeField (fieldsAt_fieldsApart a) hf, addr_of_mem_fieldsAt hf]

/-- What a write by access code leaves as it is: every other register, and all of the state but the registers. -/
theorem State.plainWrite_frame (s : State) (a : Nat) (v : Word) :
    RegsBut [a] s (s.plainWrite a v) ∧ s.plainWrite a v = { s with regs := (s.plainWrite a v).regs } := by
  unfold State.plainWrite
  refine List.foldlRecOn (motive := fun t : State => RegsBut [a] s t ∧ t = { s with regs := t.regs }) (fieldsAt a) _ ⟨fun _ _ => rfl, rfl⟩ ?_
  rintro t ⟨hregs, hrest⟩ f hf
  obtain e | ⟨x, e⟩ := t.writeField_cases f v.toNat <;> rw [e]
  · exact ⟨hregs, hrest⟩
  · refine ⟨fun b hb => ?_, ?_⟩
    · have hne : b ≠ f.addr := by rw [addr_of_mem_fieldsAt hf]; simpa using hb
      rw [State.reg_setFld_other t f x hne, hregs b hb]
    · rw [hrest]
      rfl

/-! ### Writes by the host (R565, R634) -/

theorem exec_registerWrite (a : BitVec 26) (v : Word) (s : State) : exec (.registerWrite a v) s = .next (s.hostWriteReg a.toNat v) := rfl

theorem State.wakeBy_of_inS0 {s : State} (h : s.inS0 = true) (src : Nat) : s.wakeBy src = s := by
  simp_all [State.inS0, State.wakeBy]

/-- A write that is answered asleep, or comes in S0, wakes nothing. -/
theorem State.hostTouch_of_answered {s : State} {a : Nat} (h : answeredAsleep a = true ∨ s.inS0 = true) : s.hostTouch a = s := by
  unfold State.hostTouch
  split
  · rfl
  · exact State.wakeBy_of_inS0 (h.resolve_left ‹_›) 4

theorem State.hostWriteReg_of_answered {s : State} {a : Nat} (v : Word) (h : answeredAsleep a = true ∨ s.inS0 = true) :
    s.hostWriteReg a v = if a % 4 = 0 then s.writeReg a v else s.bump HUB_ADDR_COUNT_unmapped_accesses := by
  have hawake : ¬(s.fld PWR_STATUS_state ≠ 0 ∧ answeredAsleep a = false) := by
    rintro ⟨hstate, hasleep⟩
    simp_all [State.inS0]
  unfold State.hostWriteReg
  rw [if_neg hawake, State.hostTouch_of_answered h]

theorem exec_registerWrite_aligned {s : State} {a : BitVec 26} (v : Word) (h : answeredAsleep a.toNat = true ∨ s.inS0 = true)
    (ha : a.toNat % 4 = 0) : exec (.registerWrite a v) s = .next (s.writeReg a.toNat v) := by
  rw [exec_registerWrite, State.hostWriteReg_of_answered v h, if_pos ha]

theorem exec_registerWrite_misaligned {s : State} {a : BitVec 26} (v : Word) (h : answeredAsleep a.toNat = true ∨ s.inS0 = true)
    (ha : a.toNat % 4 ≠ 0) : exec (.registerWrite a v) s = .next (s.bump HUB_ADDR_COUNT_unmapped_accesses) := by
  rw [exec_registerWrite, State.hostWriteReg_of_answered v h, if_neg ha]

/-- The hub registers whose writes do more than their access codes say. -/
abbrev hubRows : List Nat := [HUB_MAINT_CTL, 0x7020, 0x7024, 0x7028, 0x702C, HUB_ERR_CFG, HUB_ERR_HEAD, HUB_REDUN_CTL, HUB_HEARTBEAT, PWR_CTL,
  PWR_LIMIT, PWR_THERM, HUB_FW_CMD, HUB_HEALTH_CONFIRM, HUB_ATTEST_CMD, HUB_RESET_CTL]

theorem State.hubWrite_plain (s : State) {a : Nat} (v : Word) (ha : a % 4 = 0) (h : a ∉ hubRows) : s.hubWrite a v = s.plainWrite a v := by
  have hctx : ¬(0x7020 ≤ a ∧ a < 0x7030) := by
    rintro ⟨hlo, hhi⟩
    have hword : a = 0x7020 ∨ a = 0x7024 ∨ a = 0x7028 ∨ a = 0x702C := by omega
    rcases hword with rfl | rfl | rfl | rfl <;> exact h (by decide)
  simp only [List.mem_cons, List.not_mem_nil, or_false, not_or] at h
  simp [State.hubWrite, hctx, h]

/-- A hub register without a row of its own, and a register from the counters' block to the regions, is written by its access codes. -/
theorem State.writeReg_plain (s : State) {a : Nat} (v : Word) (ha : a % 4 = 0)
    (h : a < 0x100000 ∧ a ∉ hubRows ∨ 0x800000 ≤ a ∧ a < 0x1000000) : s.writeReg a v = s.plainWrite a v := by
  unfold State.writeReg
  obtain ⟨hlt, hrow⟩ | ⟨hlo, hhi⟩ := h
  · rw [if_pos hlt, State.hubWrite_plain s v ha hrow]
  · iterate 6 rw [if_neg (by omega)]

/-- Settles O51: the write is a write by access code, whose fields lie apart. -/
theorem registerWriteByAccessCode : Obligations.RegisterWriteByAccessCode := by
  intro s a v hans halign hplain
  refine ⟨s.plainWrite a.toNat v, ?_, fun f hf => s.fld_plainWrite v hf, s.plainWrite_frame a.toNat v⟩
  rw [exec_registerWrite_aligned v hans halign, State.writeReg_plain s v halign hplain]

/-! ### Writes that are a row's command -/

/-- An aligned write of a hub register is answered in every power state. -/
theorem exec_registerWrite_hub {s t : State} {a : Nat} {v : Word} (ha : a < 0x100000 ∧ a % 4 = 0) (h : s.hubWrite a v = t) :
    exec (.registerWrite (BitVec.ofNat 26 a) v) s = .next t := by
  obtain ⟨hlt, halign⟩ := ha
  have hnat : (BitVec.ofNat 26 a).toNat = a := by rw [BitVec.toNat_ofNat]; omega
  have hans : answeredAsleep a = true := by simp [answeredAsleep]; omega
  rw [exec_registerWrite_aligned v (.inl (by rwa [hnat])) (by rwa [hnat]), hnat, ← h]
  unfold State.writeReg
  rw [if_pos hlt]

theorem State.hubWrite_maintCtl (s : State) (v : Word) : s.hubWrite HUB_MAINT_CTL v = s.maintWrite (bitOf v.toNat 0) := by
  simp +decide only [State.hubWrite, ↓reduceIte]

theorem State.hubWrite_errHead (s : State) (v : Word) : s.hubWrite HUB_ERR_HEAD v = s.errHeadWrite v := by
  simp +decide only [State.hubWrite, ↓reduceIte]

theorem State.hubWrite_redunCtl (s : State) (v : Word) : s.hubWrite HUB_REDUN_CTL v = s.redunWrite v := by
  simp +decide only [State.hubWrite, ↓reduceIte]

theorem State.hubWrite_pwrLimit (s : State) (v : Word) : s.hubWrite PWR_LIMIT v = s.limitsWrite v := by
  simp +decide only [State.hubWrite, ↓reduceIte]

theorem State.hubWrite_fwCmd (s : State) (v : Word) : s.hubWrite HUB_FW_CMD v = s.fwCmdWrite v := by
  simp +decide only [State.hubWrite, ↓reduceIte]

theorem State.hubWrite_healthConfirm (s : State) (v : Word) : s.hubWrite HUB_HEALTH_CONFIRM v = s.healthConfirm v := by
  simp +decide only [State.hubWrite, ↓reduceIte]

theorem State.hubWrite_resetCtl (s : State) (v : Word) : s.hubWrite HUB_RESET_CTL v = s.resetCtlWrite v.toNat := by
  simp +decide only [State.hubWrite, ↓reduceIte]

theorem State.fwCmdWrite_stage (s : State) : s.fwCmdWrite 1#32 = s.stageSet := if_pos (by decide)

theorem State.fwCmdWrite_abort (s : State) : s.fwCmdWrite 2#32 = s.abortUpdate := (if_neg (by decide)).trans (if_pos (by decide))

/-- A write of region_reset with no bit set requests nothing. -/
theorem State.requestRegions_zero (s : State) : s.requestRegions 0 = s := rfl

theorem State.resetCtlWrite_warm (s : State) : s.resetCtlWrite 1 = s.requestWarm 3 := by
  simp [State.resetCtlWrite, bitsOf, bitOf, State.requestRegions_zero]

theorem State.resetCtlWrite_cold (s : State) : s.resetCtlWrite 2 = s.requestCold := by
  simp [State.resetCtlWrite, bitsOf, bitOf, State.requestRegions_zero]

theorem State.writeReg_portCtl (s : State) (p : Fin 18) (v : Word) : s.writeReg (PRT_CTL p.val) v = s.portCtlWrite p.val v := by
  have haddr : PRT_CTL p.val = 0x200000 + p.val * 0x10000 + 4 := rfl
  have hport : (0x200000 + p.val * 0x10000 + 4 - 0x200000) / 0x10000 = p.val := by omega
  unfold State.writeReg
  rw [haddr, if_neg (by omega), if_neg (by omega), if_pos (by omega), hport]

theorem exec_registerWrite_portCtl {s : State} (h : s.inS0 = true) (p : Fin 18) (v : Word) :
    exec (.registerWrite (BitVec.ofNat 26 (PRT_CTL p.val)) v) s = .next (s.portCtlWrite p.val v) := by
  have hnat : (BitVec.ofNat 26 (PRT_CTL p.val)).toNat = PRT_CTL p.val := by
    rw [BitVec.toNat_ofNat]; simp only [PRT_CTL, prtBase]; omega
  have halign : PRT_CTL p.val % 4 = 0 := by simp only [PRT_CTL, prtBase]; omega
  rw [exec_registerWrite_aligned v (.inr h) (by rwa [hnat]), hnat, State.writeReg_portCtl]

/-- A write of PRT_CTL with fence_req alone set (R504). -/
theorem State.portCtlWrite_fenceReq (s : State) (p : Nat) : s.portCtlWrite p 1#32 = s.fenceRequest p := rfl

/-! ### PCIe requests in S1 to S3 (R565) -/

theorem exec_lowPowerPcieRequest (bar : Fin 5) (off : BitVec 40) (data : Option (List Byte)) (s : State) :
    exec (.lowPowerPcieRequest bar off data) s = execLowPowerPcieRequest bar off data s := rfl

section LowPower
variable {s : State} {off : BitVec 40} (hlow : s.fld PWR_STATUS_state ≠ 0)
include hlow

/-- The blocks answered at once take an aligned 4-byte write. -/
theorem exec_lowPowerPcieRequest_answered {d : List Byte} (hans : answeredAsleep off.toNat = true) (hlen : d.length = 4)
    (halign : off.toNat % 4 = 0) :
    exec (.lowPowerPcieRequest 0 off (some d)) s = .next (s.writeReg off.toNat (BitVec.ofNat 32 (leNat d))) := by
  simp [exec_lowPowerPcieRequest, execLowPowerPcieRequest, hlow, hans, State.bar0Write, hlen, halign]

theorem exec_lowPowerPcieRequest_write {bar : Fin 5} {d : List Byte} (hans : ¬(bar = 0 ∧ answeredAsleep off.toNat = true))
    (hbell : ¬(bar = 2 ∧ off.toNat < 65536 * 16)) :
    exec (.lowPowerPcieRequest bar off (some d)) s = .next (s.wakeBy 4).refuseWindow := by
  have hans' : ¬(bar.val = 0 ∧ answeredAsleep off.toNat = true) := fun h => hans ⟨Fin.ext h.1, h.2⟩
  have hbell' : ¬(bar.val = 2 ∧ off.toNat < 65536 * 16) := fun h => hbell ⟨Fin.ext h.1, h.2⟩
  rw [exec_lowPowerPcieRequest]
  unfold execLowPowerPcieRequest
  dsimp only
  rw [if_neg hlow, if_neg hans', if_neg hbell']

theorem exec_lowPowerPcieRequest_read {bar : Fin 5} (hans : ¬(bar = 0 ∧ answeredAsleep off.toNat = true)) :
    exec (.lowPowerPcieRequest bar off none) s = .next { s.wakeBy 4 with out := ⟨List.replicate 4 0xFF#8, false, false⟩ } := by
  have hans' : ¬(bar.val = 0 ∧ answeredAsleep off.toNat = true) := fun h => hans ⟨Fin.ext h.1, h.2⟩
  rw [exec_lowPowerPcieRequest]
  unfold execLowPowerPcieRequest
  dsimp only
  rw [if_neg hlow, if_neg hans']

end LowPower

/-- Settles O52: each address by the lemma of its block, each request by the lemma of its form. -/
theorem registerWritesOfRowsAndLowPower : Obligations.RegisterWritesOfRowsAndLowPower := by
  refine ⟨fun s v => ?_, fun s off hlow => ?_⟩
  · refine ⟨?_, ?_, ?_, ?_, ?_, ?_, ?_, ?_, ?_, fun hS0 p => ?_, fun a ha hans => exec_registerWrite_misaligned v hans.symm ha⟩
    · exact exec_registerWrite_hub (by decide) (s.hubWrite_pwrLimit v)
    · exact exec_registerWrite_hub (by decide) (s.hubWrite_errHead v)
    · exact exec_registerWrite_hub (by decide) (s.hubWrite_redunCtl v)
    · exact exec_registerWrite_hub (by decide) (s.hubWrite_healthConfirm v)
    · exact exec_registerWrite_hub (by decide) ((s.hubWrite_fwCmd 1#32).trans s.fwCmdWrite_stage)
    · exact exec_registerWrite_hub (by decide) ((s.hubWrite_fwCmd 2#32).trans s.fwCmdWrite_abort)
    · exact exec_registerWrite_hub (by decide) ((s.hubWrite_resetCtl 1#32).trans s.resetCtlWrite_warm)
    · exact exec_registerWrite_hub (by decide) ((s.hubWrite_resetCtl 2#32).trans s.resetCtlWrite_cold)
    · exact exec_registerWrite_hub (by decide) (s.hubWrite_maintCtl 1#32)
    · rw [exec_registerWrite_portCtl hS0, State.portCtlWrite_fenceReq]
      rfl
  · exact ⟨fun _ hans hlen halign => exec_lowPowerPcieRequest_answered hlow hans hlen halign,
      fun _ _ hans hbell => exec_lowPowerPcieRequest_write hlow hans hbell, fun _ hans => exec_lowPowerPcieRequest_read hlow hans⟩

end Sys2Proof.Machine
end

section
/-! SUPPORT. Family 01_architecture.md: the state after cold reset (R19), the temperature that the monitor shows for the stacks (R552), and maintenance
mode (R30, R156). -/

namespace Sys2Proof.Machine

/-! ### The state after cold reset (R19) -/

/-- The block map after cold reset names the block's own place in its region. -/
theorem State.phys_reset : ∀ b < 64, State.reset.phys b = 17 * (b / 16) + b % 16 := by decide +kernel

/-- Settles O4: the block map by `State.phys_reset`, the rest by the definition of the reset state. -/
theorem resetState : Obligations.ResetState := by
  refine ⟨fun r hr => ⟨fun i hi => ?_, fun b hb => ?_⟩, rfl, rfl, rfl, rfl, rfl, rfl, fun _ => rfl, fun _ => rfl⟩
  · rw [State.phys_reset _ (by omega)]
    omega
  · rw [State.phys_reset b hb]
    omega

/-! ### The temperature of the hottest stack (R552) -/

/-- A stack temperature that the 8 bits of SAF_TEMP cannot show. -/
def State.stackBeyondByte : State := { State.reset with stackTemp := [(1, 256)] }

/-- Refutes O6: `stackTemp` holds naturals, SAF_TEMP shows their maximum in 8 bits. With 256 held for stack 1, a sample of 1 for stack 0 leaves the
register at 256 mod 256 = 0, below the sample. -/
theorem not_mirrorsAndSafetyMonitor : ¬ Obligations.MirrorsAndSafetyMonitor := by
  rintro ⟨-, -, hmonitor⟩
  obtain ⟨-, htemp, -⟩ := hmonitor State.stackBeyondByte
  obtain ⟨hbelow, -⟩ := htemp (.stack 0) 1#8 5 rfl
  obtain ⟨t, ht, -, hstack, -⟩ := hbelow (by decide +kernel)
  obtain ⟨hshown, -⟩ := hstack 0 rfl
  have hzero : (match exec (.monitorTemperature (.stack 0) 1#8) State.stackBeyondByte with
      | .next u => u.fld (SAF_TEMP_temp 5)
      | _ => 1) = 0 := by decide +kernel
  rw [ht] at hzero
  exact absurd (hshown.trans_eq hzero) (by decide)

/-! ### Maintenance mode (R30, R156) -/

/-- Whether maintenance mode is in effect (R30): start-up, a request that has taken effect, or one whose end waits for the blocks. -/
def State.maintOn (s : State) : Bool :=
  s.startingUp || (s.flag HUB_MAINT_CTL_maint_req && !s.flag HUB_MAINT_CTL_maint_pending) || s.maintEnd

/-- No end of the mode waits any longer. -/
def State.endMaint (s : State) : State := { s with maintEnd := false }

@[simp] theorem State.endMaint_maintEnd (s : State) : s.endMaint.maintEnd = false := rfl
@[simp] theorem State.reg_endMaint (s : State) (a : Nat) : s.endMaint.reg a = s.reg a := rfl
@[simp] theorem State.fld_endMaint (s : State) (f : Fld) : s.endMaint.fld f = s.fld f := rfl
@[simp] theorem State.flag_endMaint (s : State) (f : Fld) : s.endMaint.flag f = s.flag f := rfl
theorem State.endMaint_setFld (s : State) (f : Fld) (v : Nat) : s.endMaint.setFld f v = (s.setFld f v).endMaint := rfl
theorem State.endMaint_setFld_setFld_eq (s : State) (f g : Fld) (v w : Nat) : ((s.setFld f v).setFld g w).endMaint =
    { s with regs := ((s.setFld f v).setFld g w).endMaint.regs, maintEnd := false } := rfl
@[simp] theorem State.startingUp_endMaint (s : State) : s.endMaint.startingUp = s.startingUp := rfl

/-- The mode is shown; with none in effect no block stays in debug mode. -/
theorem State.showMaint_eq (s : State) : s.showMaint =
    if s.maintOn then s.setFld HUB_MODULE_STATUS_maintenance_mode (b2n s.maintOn)
    else forUpTo 64 (fun b t => if t.flag (PAN_DBG_CTL_debug b) then t.debugOff b else t)
      (s.setFld HUB_MODULE_STATUS_maintenance_mode (b2n s.maintOn)) := rfl

@[simp] theorem State.reg_setBlk (s : State) (b : Nat) (u : BlockUnit) (a : Nat) : (s.setBlk b u).reg a = s.reg a := rfl

/-- The end of debug mode in a block changes no register of the hub. -/
theorem State.reg_debugOff (s : State) (b : Nat) {a : Nat} (h : a < 0x1000000) : (s.debugOff b).reg a = s.reg a := by
  have hne : a ≠ PAN_DBG_CTL b := by unfold PAN_DBG_CTL blkBase; omega
  unfold State.debugOff
  rw [State.reg_setBlk, State.reg_setFld_other _ (PAN_DBG_CTL_dbg_active b) _ hne, State.reg_setFld_other _ (PAN_DBG_CTL_debug b) _ hne]

theorem State.maintEnd_debugOff (s : State) (b : Nat) : (s.debugOff b).maintEnd = s.maintEnd := by
  unfold State.debugOff State.setBlk
  rw [State.setFld_maintEnd, State.setFld_maintEnd]

/-- Showing maintenance mode leaves every other register of the hub, and the wait for an end of the mode. -/
theorem State.showMaint_frame (s : State) :
    (∀ a < 0x1000000, s.showMaint.reg a = (s.setFld HUB_MODULE_STATUS_maintenance_mode (b2n s.maintOn)).reg a) ∧
    s.showMaint.maintEnd = s.maintEnd := by
  rw [s.showMaint_eq]
  split
  · exact ⟨fun _ _ => rfl, s.setFld_maintEnd _ _⟩
  · refine forUpTo_keeps (fun t : State => (∀ a < 0x1000000,
      t.reg a = (s.setFld HUB_MODULE_STATUS_maintenance_mode (b2n s.maintOn)).reg a) ∧ t.maintEnd = s.maintEnd) 64 _ _
      ⟨fun _ _ => rfl, s.setFld_maintEnd _ _⟩ ?_
    rintro b t ⟨hreg, hend⟩
    split
    · exact ⟨fun a ha => (t.reg_debugOff b ha).trans (hreg a ha), (t.maintEnd_debugOff b).trans hend⟩
    · exact ⟨hreg, hend⟩

theorem State.reg_showMaint (s : State) {a : Nat} (ha : a < 0x1000000) (hne : a ≠ HUB_MODULE_STATUS) : s.showMaint.reg a = s.reg a :=
  (s.showMaint_frame.1 a ha).trans (State.reg_setFld_other s _ _ hne)

theorem State.fld_showMaint_mode (s : State) : s.showMaint.fld HUB_MODULE_STATUS_maintenance_mode = b2n s.maintOn := by
  have hmode : s.showMaint.fld HUB_MODULE_STATUS_maintenance_mode =
      (s.setFld HUB_MODULE_STATUS_maintenance_mode (b2n s.maintOn)).fld HUB_MODULE_STATUS_maintenance_mode := by
    unfold State.fld
    rw [s.showMaint_frame.1 _ (by decide)]
  rw [hmode, State.fld_setFld_same _ _ _ (by decide)]
  cases s.maintOn <;> rfl

@[simp] theorem State.showMaint_maintEnd (s : State) : s.showMaint.maintEnd = s.maintEnd := s.showMaint_frame.2

/-- A field of one bit that is a set flag reads 1. -/
theorem State.fld_eq_one_of_flag {s : State} {f : Fld} (hw : f.width = 1) (h : s.flag f = true) : s.fld f = 1 := by
  have hlt := s.fld_lt f
  have hne : s.fld f ≠ 0 := by simpa [State.flag] using h
  rw [hw] at hlt
  omega

theorem State.startingUp_congr {s t : State} (h : ∀ a ∈ [HUB_BOOT_STATUS, RNG_JOURNAL_STATUS], t.reg a = s.reg a) :
    t.startingUp = s.startingUp := by
  unfold State.startingUp State.flag State.fld
  rw [h HUB_BOOT_STATUS_phase.addr (by decide), h RNG_JOURNAL_STATUS_replaying.addr (by decide)]

/-! #### What a write of maint_req does -/

/-- A request that is new is pending; one that stands already changes nothing. -/
theorem State.maintWrite_true (s : State) :
    (s.maintWrite true).fld HUB_MAINT_CTL_maint_req = 1 ∧
    (s.flag HUB_MAINT_CTL_maint_req = false → (s.maintWrite true).fld HUB_MAINT_CTL_maint_pending = 1) ∧
    RegsBut [HUB_MAINT_CTL] s (s.maintWrite true) ∧ OnlyRegs s (s.maintWrite true) := by
  by_cases hreq : s.flag HUB_MAINT_CTL_maint_req = true
  · have hsame : s.maintWrite true = s := if_pos hreq
    rw [hsame]
    exact ⟨State.fld_eq_one_of_flag rfl hreq, fun h => absurd hreq (by simp [h]), fun _ _ => rfl, rfl⟩
  · have hnew : s.maintWrite true = (s.setFld HUB_MAINT_CTL_maint_req 1).setFld HUB_MAINT_CTL_maint_pending 1 := if_neg hreq
    rw [hnew]
    refine ⟨?_, fun _ => State.fld_setFld_same _ _ _ (by decide), fun a ha => ?_, rfl⟩
    · rw [State.fld_setFld_other _ _ _ _ (by decide) (by decide)]
      exact State.fld_setFld_same _ _ _ (by decide)
    · have hne : a ≠ HUB_MAINT_CTL := by simpa using ha
      rw [State.reg_setFld_other _ HUB_MAINT_CTL_maint_pending _ hne, State.reg_setFld_other _ HUB_MAINT_CTL_maint_req _ hne]

/-- A release before it is shown: no request is left, and a mode in effect waits for its end (R30). -/
def State.maintReleased (s : State) : State :=
  { (s.setFld HUB_MAINT_CTL_maint_req 0).setFld HUB_MAINT_CTL_maint_pending 0 with
    maintEnd := s.maintEnd || (s.flag HUB_MAINT_CTL_maint_req && !s.flag HUB_MAINT_CTL_maint_pending) }

theorem State.maintWrite_false (s : State) : s.maintWrite false = s.maintReleased.showMaint.settleMaint := rfl

theorem State.fld_maintReleased_req (s : State) : s.maintReleased.fld HUB_MAINT_CTL_maint_req = 0 :=
  (State.fld_setFld_other (s.setFld HUB_MAINT_CTL_maint_req 0) HUB_MAINT_CTL_maint_pending HUB_MAINT_CTL_maint_req 0 (by decide) (by decide)).trans
    (State.fld_setFld_same _ _ _ (by decide))

theorem State.fld_maintReleased_pending (s : State) : s.maintReleased.fld HUB_MAINT_CTL_maint_pending = 0 :=
  State.fld_setFld_same (s.setFld HUB_MAINT_CTL_maint_req 0) HUB_MAINT_CTL_maint_pending 0 (by decide)

theorem State.startingUp_maintReleased (s : State) : s.maintReleased.startingUp = s.startingUp :=
  State.startingUp_congr fun a ha => by
    have hne : a ≠ HUB_MAINT_CTL := by rintro rfl; exact absurd ha (by decide)
    exact (State.reg_setFld_other (s.setFld HUB_MAINT_CTL_maint_req 0) HUB_MAINT_CTL_maint_pending 0 hne).trans
      (State.reg_setFld_other s HUB_MAINT_CTL_maint_req 0 hne)

/-- With no request left, only start-up and a mode that still ends are in effect. -/
theorem State.maintOn_of_no_request {s : State} (h : s.fld HUB_MAINT_CTL_maint_req = 0) : s.maintOn = (s.startingUp || s.maintEnd) := by
  simp [State.maintOn, State.flag, h]

theorem State.reg_settleMaint (s : State) {a : Nat} (ha : a < 0x1000000) (hne : a ≠ HUB_MODULE_STATUS) : s.settleMaint.reg a = s.reg a := by
  unfold State.settleMaint
  split
  · exact State.reg_showMaint _ ha hne
  · rfl

theorem State.settleMaint_of_not_end {s : State} (h : s.maintEnd = false) : s.settleMaint = s := by simp [State.settleMaint, h]

theorem State.settleMaint_of_inside {s : State} (h : s.atBoundary = false) : s.settleMaint = s := by simp [State.settleMaint, h]

theorem State.settleMaint_of_boundary {s : State} (hend : s.maintEnd = true) (hat : s.atBoundary = true) :
    s.settleMaint = s.endMaint.showMaint := by simp [State.settleMaint, State.endMaint, hend, hat]

/-- A mode that is still in effect leaves the blocks as they are. -/
theorem State.atBoundary_showMaint_of_on {s : State} (h : s.maintOn = true) : s.showMaint.atBoundary = s.atBoundary := by
  rw [s.showMaint_eq, if_pos h]
  rfl

/-- What a release leaves of maint_req and maint_pending. -/
theorem State.fld_maintWrite_false (s : State) {f : Fld} (hf : f.addr = HUB_MAINT_CTL) : (s.maintWrite false).fld f = s.maintReleased.fld f := by
  unfold State.fld
  rw [s.maintWrite_false, State.reg_settleMaint _ (by rw [hf]; decide) (by rw [hf]; decide),
    State.reg_showMaint _ (by rw [hf]; decide) (by rw [hf]; decide)]

theorem State.maintOn_maintReleased (s : State) : s.maintReleased.maintOn = (s.startingUp || s.maintReleased.maintEnd) := by
  rw [State.maintOn_of_no_request s.fld_maintReleased_req, s.startingUp_maintReleased]

/-- A mode that has ended without a request left is in effect only in start-up. -/
theorem State.maintOn_of_ended {s : State} (h : s.fld HUB_MAINT_CTL_maint_req = 0) : s.showMaint.endMaint.maintOn = s.startingUp := by
  have hreq : s.showMaint.flag HUB_MAINT_CTL_maint_req = false := by
    unfold State.fld at h
    unfold State.flag State.fld
    rw [s.reg_showMaint (by decide) (by decide), h]
    rfl
  have hstart : s.showMaint.startingUp = s.startingUp :=
    State.startingUp_congr fun a ha => s.reg_showMaint (by revert a; decide) (by revert a; decide)
  simp [State.maintOn, hreq, hstart]

/-- A release at a boundary ends the mode, unless start-up or replay keeps it. -/
theorem State.maintWrite_false_of_boundary {s : State} (hat : s.atBoundary = true) :
    (s.maintWrite false).fld HUB_MODULE_STATUS_maintenance_mode = b2n s.startingUp ∧ (s.maintWrite false).maintEnd = false := by
  rw [s.maintWrite_false]
  by_cases hend : s.maintReleased.maintEnd = true
  · have hon : s.maintReleased.maintOn = true := by rw [s.maintOn_maintReleased, hend, Bool.or_true]
    have hshown : s.maintReleased.showMaint.atBoundary = true := (State.atBoundary_showMaint_of_on hon).trans hat
    rw [State.settleMaint_of_boundary (by rw [State.showMaint_maintEnd, hend]) hshown, State.fld_showMaint_mode, State.showMaint_maintEnd]
    exact ⟨congrArg b2n ((State.maintOn_of_ended s.fld_maintReleased_req).trans s.startingUp_maintReleased), rfl⟩
  · have hoff : s.maintReleased.maintEnd = false := by simpa using hend
    rw [State.settleMaint_of_not_end (by rw [State.showMaint_maintEnd, hoff]), State.fld_showMaint_mode, State.showMaint_maintEnd,
      s.maintOn_maintReleased, hoff, Bool.or_false]
    exact ⟨rfl, rfl⟩

/-- A release within an instruction leaves a mode in effect until the next boundary. -/
theorem State.maintWrite_false_of_inside {s : State} (hat : s.atBoundary = false) (hreq : s.flag HUB_MAINT_CTL_maint_req = true)
    (hpend : s.flag HUB_MAINT_CTL_maint_pending = false) :
    (s.maintWrite false).fld HUB_MODULE_STATUS_maintenance_mode = 1 ∧ (s.maintWrite false).maintEnd = true := by
  have hend : s.maintReleased.maintEnd = true := by simp [State.maintReleased, hreq, hpend]
  have hon : s.maintReleased.maintOn = true := by rw [s.maintOn_maintReleased, hend, Bool.or_true]
  have hshown : s.maintReleased.showMaint.atBoundary = false := (State.atBoundary_showMaint_of_on hon).trans hat
  rw [s.maintWrite_false, State.settleMaint_of_inside hshown, State.fld_showMaint_mode, State.showMaint_maintEnd, hon]
  exact ⟨rfl, hend⟩

/-! #### What MAINT_MODE_ENTER does -/

/-- A pending request whose conditions hold takes effect. -/
theorem execMaintModeEnter_of_ready {s : State} (hpend : s.flag HUB_MAINT_CTL_maint_pending = true) (hready : s.maintReady = true) :
    execMaintModeEnter s = .next (s.setFld HUB_MAINT_CTL_maint_pending 0).endMaint.showMaint := by
  simp [execMaintModeEnter, State.endMaint, hpend, hready]

/-- With no request that can take effect, a mode that has been released ends at a boundary. -/
theorem execMaintModeEnter_of_not_ready {s : State} (h : s.flag HUB_MAINT_CTL_maint_pending = false ∨ s.maintReady = false) :
    execMaintModeEnter s = .next s.settleMaint := by
  rcases h with h | h <;> simp [execMaintModeEnter, h]

/-- A request that takes effect: the mode is shown, and no other register or state changes. -/
theorem State.maintEnter_of_request {s : State} (hreq : s.flag HUB_MAINT_CTL_maint_req = true) :
    (s.setFld HUB_MAINT_CTL_maint_pending 0).endMaint.showMaint =
      ((s.setFld HUB_MAINT_CTL_maint_pending 0).setFld HUB_MODULE_STATUS_maintenance_mode 1).endMaint := by
  have hr : (s.setFld HUB_MAINT_CTL_maint_pending 0).flag HUB_MAINT_CTL_maint_req = true := by
    unfold State.flag at hreq ⊢
    rwa [State.fld_setFld_other _ _ _ _ (by decide) (by decide)]
  have hp : (s.setFld HUB_MAINT_CTL_maint_pending 0).flag HUB_MAINT_CTL_maint_pending = false := by
    unfold State.flag
    rw [State.fld_setFld_same _ _ _ (by decide)]
    rfl
  have hon : (s.setFld HUB_MAINT_CTL_maint_pending 0).endMaint.maintOn = true := by simp [State.maintOn, hr, hp]
  rw [State.showMaint_eq, if_pos hon, hon, b2n_true, State.endMaint_setFld]

/-- Settles O60: a clause for each command and each state of the request. -/
theorem maintenanceMode : Obligations.MaintenanceMode := by
  intro s
  refine ⟨⟨_, rfl, s.maintWrite_true⟩, fun hreq hpend hready => ?_, fun _ hready hend => ?_, ⟨_, rfl, ?_⟩, fun hend hat hpend => ?_⟩
  · refine ⟨_, (execMaintModeEnter_of_ready hpend hready).trans (congrArg _ (State.maintEnter_of_request hreq)), ?_, ?_, fun a ha => ?_,
      State.endMaint_setFld_setFld_eq ..⟩
    · rw [State.fld_endMaint, State.fld_setFld_other _ _ _ _ (by decide) (by decide), State.fld_setFld_same _ _ _ (by decide)]
      rfl
    · rw [State.fld_endMaint, State.fld_setFld_same _ _ _ (by decide)]
      rfl
    · obtain ⟨hctl, hmode⟩ : a ≠ HUB_MAINT_CTL ∧ a ≠ HUB_MODULE_STATUS := by simpa using ha
      rw [State.reg_endMaint, State.reg_setFld_other _ HUB_MODULE_STATUS_maintenance_mode _ hmode,
        State.reg_setFld_other _ HUB_MAINT_CTL_maint_pending _ hctl]
  · exact (execMaintModeEnter_of_not_ready (.inr hready)).trans (congrArg _ (State.settleMaint_of_not_end hend))
  · exact ⟨(s.fld_maintWrite_false rfl).trans s.fld_maintReleased_req, (s.fld_maintWrite_false rfl).trans s.fld_maintReleased_pending,
      State.maintWrite_false_of_boundary, State.maintWrite_false_of_inside⟩
  · refine ⟨_, (execMaintModeEnter_of_not_ready (.inl hpend)).trans (congrArg _ (State.settleMaint_of_boundary hend hat)),
      State.showMaint_maintEnd _, ?_⟩
    rw [State.fld_showMaint_mode]
    simp [State.maintOn, hpend]

end Sys2Proof.Machine
end

section
/-! SUPPORT. Family 01_architecture.md, block errors and region fences (R20 to R25, R34, R36): what the end of a descriptor, an error record and the loss
of a region's work leave as it is. -/

namespace Sys2Proof.Machine

/-! ### What an operation leaves of the error counts and of the fence registers -/

/-- The registers that show fences, the mirrors and the monitor's faults: HUB_MODULE_STATUS, RNG_JOURNAL_STATUS, SAF_STATUS and each region's RGN_STATUS. -/
abbrev FenceReg (a : Nat) : Prop := a = HUB_MODULE_STATUS ∨ a = RNG_JOURNAL_STATUS ∨ a = SAF_STATUS ∨ 0x1000000 ≤ a ∧ a % 0x400000 = 0

theorem fenceReg_rgnStatus (r : Nat) : FenceReg (RGN_STATUS r) := by
  unfold RGN_STATUS rgnBase
  omega

theorem not_fenceReg_rgn (n o : Nat) (h : 0 < o ∧ o < 0x400000 := by decide) : ¬FenceReg (rgnBase n + o) := by
  unfold FenceReg HUB_MODULE_STATUS RNG_JOURNAL_STATUS SAF_STATUS rgnBase
  omega

/-- The registers of a harvest unit or an HBM controller. -/
theorem not_fenceReg_unit (n k c o : Nat) (hc : c < 6) (h : 0 < k ∧ k + o < 0x10000 := by decide) : ¬FenceReg (rgnBase n + k + c * 0x40 + o) := by
  unfold FenceReg HUB_MODULE_STATUS RNG_JOURNAL_STATUS SAF_STATUS rgnBase
  omega

theorem not_fenceReg_harvest (w o : Nat) (ho : o < 0x40 := by decide) : ¬FenceReg (rgnBase (winR w) + 0x3000 + winC w * 0x40 + o) :=
  not_fenceReg_unit _ _ _ _ (Nat.mod_lt _ (by decide)) ⟨by decide, by omega⟩

theorem not_fenceReg_blk (b o : Nat) (h : o < 0x10000 := by decide) : ¬FenceReg (blkBase b + o) := by
  unfold FenceReg HUB_MODULE_STATUS RNG_JOURNAL_STATUS SAF_STATUS blkBase
  omega

theorem not_fenceReg_cntOverflow (k : Nat) : ¬FenceReg (CNT_VALUE_HI_overflow k).addr := by
  show ¬FenceReg (0xC10004 + k * 8)
  unfold FenceReg HUB_MODULE_STATUS RNG_JOURNAL_STATUS SAF_STATUS
  omega

theorem not_fenceReg_webPortStatus (p : Nat) : ¬FenceReg (WEB_PORT_STATUS p) := by
  unfold FenceReg HUB_MODULE_STATUS RNG_JOURNAL_STATUS SAF_STATUS WEB_PORT_STATUS
  omega

theorem not_fenceReg_pba {v : Nat} (h : v < 2 ^ 11) : ¬FenceReg (pbaFld v).addr := by
  show ¬FenceReg (0x3C0000 + v / 32 * 4)
  unfold FenceReg HUB_MODULE_STATUS RNG_JOURNAL_STATUS SAF_STATUS
  omega

theorem FenceReg.ne {a b : Nat} (ha : FenceReg a) (hb : ¬FenceReg b) : a ≠ b := fun e => hb (e ▸ ha)

/-- The counts of block errors and the wait of the repair record are as before. -/
structure SameErrors (s t : State) : Prop where
  blkErr : t.blkErr = s.blkErr
  repairPend : t.repairPend = s.repairPend

/-- Those counts, and every register that shows fences, are as before. -/
structure Untouched (s t : State) : Prop extends SameErrors s t where
  regs : ∀ a, FenceReg a → t.reg a = s.reg a

theorem SameErrors.refl (s : State) : SameErrors s s := ⟨rfl, rfl⟩

theorem SameErrors.trans {s t u : State} (h : SameErrors s t) (k : SameErrors t u) : SameErrors s u :=
  ⟨k.blkErr.trans h.blkErr, k.repairPend.trans h.repairPend⟩

theorem Untouched.refl (s : State) : Untouched s s := ⟨.refl s, fun _ _ => rfl⟩

theorem Untouched.trans {s t u : State} (h : Untouched s t) (k : Untouched t u) : Untouched s u :=
  ⟨h.toSameErrors.trans k.toSameErrors, fun a ha => (k.regs a ha).trans (h.regs a ha)⟩

/-- A field of such a register is as before. -/
theorem Untouched.fld {s t : State} (h : Untouched s t) {f : Fld} (hf : FenceReg f.addr) : t.fld f = s.fld f := by
  unfold State.fld
  rw [h.regs _ hf]

section
variable {s t u : State} (h : Untouched s t)
include h

/-! ### Registers, counters and memory -/

/-- An update of neither the registers nor the error counts. -/
theorem Untouched.congr (hregs : u.regs = t.regs) (hblk : u.blkErr = t.blkErr) (hpend : u.repairPend = t.repairPend) : Untouched s u :=
  h.trans ⟨⟨hblk, hpend⟩, fun a _ => State.reg_congr hregs a⟩

theorem Untouched.foldl {α : Type} (l : List α) (f : State → α → State) (hf : ∀ y b, Untouched s y → Untouched s (f y b)) :
    Untouched s (l.foldl f t) :=
  foldl_keeps (Untouched s) l f t h hf

theorem Untouched.forUpTo (n : Nat) (f : Nat → State → State) (hf : ∀ i y, Untouched s y → Untouched s (f i y)) :
    Untouched s (forUpTo n f t) :=
  forUpTo_keeps (Untouched s) n f t h hf

theorem Untouched.setFld (f : Fld) (v : Nat) (hf : ¬FenceReg f.addr := by decide) : Untouched s (t.setFld f v) :=
  h.trans ⟨⟨t.setFld_blkErr f v, t.setFld_repairPend f v⟩, fun _ ha => t.reg_setFld_other f v (FenceReg.ne ha hf)⟩

theorem Untouched.bump (f : Fld) (n : Nat) (hf : ¬FenceReg f.addr := by decide) : Untouched s (t.bump f n) := h.setFld f _ hf

theorem Untouched.setFlag (f : Fld) (hf : ¬FenceReg f.addr := by decide) : Untouched s (t.setFlag f) := (h.setFld f 1 hf).congr rfl rfl rfl

theorem Untouched.setFlagIf (c : Bool) (f : Fld) (hf : ¬FenceReg f.addr := by decide) : Untouched s (t.setFlagIf c f) := by
  unfold State.setFlagIf
  split
  · exact h.setFlag f hf
  · exact h

theorem Untouched.count (k n : Nat) : Untouched s (t.count k n) :=
  Untouched.setFlagIf (by exact h.congr rfl rfl rfl) _ _ (not_fenceReg_cntOverflow k)

theorem Untouched.countBytes (k n : Nat) : Untouched s (t.countBytes k n) := Untouched.count (by exact h.congr rfl rfl rfl) k _

theorem Untouched.setBytes (a : Nat) (bs : List Byte) : Untouched s (t.setBytes a bs) := by
  induction bs generalizing t a with
  | nil => exact h
  | cons b bs ih => exact ih (by exact h.congr rfl rfl rfl) (a + 1)

theorem Untouched.writeLine (a : Nat) (bs : List Byte) : Untouched s (t.writeLine a bs) := by
  have hbytes := ((h.count (cntCtrl (hbmStack a) 1) 1).countBytes (cntRegion (hbmStack a / 6) 1) bs.length).setBytes a bs
  unfold State.writeLine
  dsimp only
  split
  · exact hbytes
  · split
    · exact hbytes.congr rfl rfl rfl
    · exact hbytes.setFlag _ (not_fenceReg_unit (hbmStack a / 6) 0x5000 (hbmStack a % 6) 0 (Nat.mod_lt _ (by decide)))

theorem Untouched.writeHbm (a : Nat) (bs : List Byte) (fuel : Nat) : Untouched s (t.writeHbm a bs fuel) := by
  induction fuel generalizing t a bs with
  | zero => exact h
  | succ fuel ih =>
    unfold State.writeHbm
    split
    · exact h
    · exact ih (h.writeLine _ _) _ _

theorem Untouched.put (a : Nat) (bs : List Byte) : Untouched s (t.put a bs) := by
  unfold State.put
  split
  · exact h.writeHbm a bs _
  · exact h.setBytes a bs

theorem Untouched.setHost (a : Nat) (bs : List Byte) : Untouched s (t.setHost a bs) := by
  have hput : Untouched s (t.putHost a bs) := by
    induction bs generalizing t a with
    | nil => exact h
    | cons b bs ih => exact ih (by exact h.congr rfl rfl rfl) (a + 1)
  unfold State.setHost
  split
  · exact h
  · exact hput

theorem Untouched.noteHbmRead (a n : Nat) : Untouched s (t.noteHbmRead a n) := by
  unfold State.noteHbmRead
  split
  · exact h
  · refine Untouched.countBytes (h.forUpTo _ _ fun i y hy => ?_) _ _
    have hc : ∀ k : Nat, k % 6 < 6 := fun k => Nat.mod_lt _ (by decide)
    unfold State.noteLineRead
    dsimp only
    split
    · exact ((hy.count _ 1).setFlag _ (not_fenceReg_unit _ 0x5000 _ 0 (hc _))).bump _ 1 (not_fenceReg_unit _ 0x5000 _ 8 (hc _))
    · exact hy.count _ 1

/-! ### Error records (R544 to R547, R550) -/

theorem Untouched.msix {v : Nat} (hv : v < 2 ^ 11) : Untouched s (t.msix v) := by
  unfold State.msix State.msixMessage
  split
  · exact h.setFld _ _ (not_fenceReg_pba hv)
  · exact ((h.setHost _ _).setFld _ _ (not_fenceReg_pba hv)).count _ _

theorem Untouched.errToRing (bs : List Byte) : Untouched s (t.errToRing bs) := by
  unfold State.errToRing
  dsimp only
  have hwritten : ∀ a : Nat, Untouched s (if t.flag HUB_ERR_CFG_in_device then t.put a bs else t.setHost a bs) := by
    intro a
    split
    · exact h.put a bs
    · exact h.setHost a bs
  split
  · exact ((hwritten _).setFld HUB_ERR_TAIL_tail _).msix (t.fld_lt HUB_ERR_CFG_vector)
  · exact (hwritten _).setFld HUB_ERR_TAIL_tail _

theorem Untouched.writeErr (severity : Nat) (bs : List Byte) : Untouched s (t.writeErr severity bs) := by
  have hnew : Untouched s (if 1 ≤ severity then { t with errNew := (t.errNew ++ [bs]).drop (t.errNew.length - 62) } else t) := by
    split
    · exact h.congr rfl rfl rfl
    · exact h
  unfold State.writeErr
  dsimp only
  generalize (if 1 ≤ severity then { t with errNew := (t.errNew ++ [bs]).drop (t.errNew.length - 62) } else t) = t1 at hnew ⊢
  have hhist : Untouched s (if 3 ≤ severity then { t1 with errHist := (t1.errHist ++ [bs]).drop (t1.errHist.length - 63) } else t1) := by
    split
    · exact hnew.congr rfl rfl rfl
    · exact hnew
  generalize (if 3 ≤ severity then { t1 with errHist := (t1.errHist ++ [bs]).drop (t1.errHist.length - 63) } else t1) = t2 at hhist ⊢
  split
  · exact hhist.errToRing bs
  · split
    · exact (hhist.setFlag HUB_ERR_STATUS_dropped).bump HUB_ERR_STATUS_dropped_count 1
    · split
      · exact Untouched.setFld (by exact hhist.congr rfl rfl rfl) HUB_ERR_STATUS_buffered _
      · exact (hhist.setFlag HUB_ERR_STATUS_lost_severe).bump HUB_ERR_STATUS_dropped_count 1

/-- An error record (R544). -/
theorem Untouched.error (r : ErrRec) : Untouched s (t.error r) := by
  unfold State.error
  split
  · exact h.congr rfl rfl rfl
  · exact Untouched.writeErr (by exact h.congr rfl rfl rfl) _ _

/-! ### The end of a descriptor (R470, R477) -/

theorem Untouched.countUpdate (e : Nat) : Untouched s (t.countUpdate e) := by
  refine h.trans ⟨⟨t.countUpdate_blkErr e, t.countUpdate_repairPend e⟩, fun a ha => ?_⟩
  by_cases hk : dKind (t.desc e) = kindUpdate
  · have hregs : (t.countUpdate e).regs = (t.bump (UPD_ENGINE_COUNT_updates (leAt (t.desc e) 37 1 % 64))).regs := by
      simp [State.countUpdate, hk]
    rw [State.reg_congr hregs]
    exact t.reg_bump_other _ 1 (FenceReg.ne ha (not_fenceReg_blk _ 0xF04))
  · exact State.reg_congr (by simp [State.countUpdate, hk]) a

theorem Untouched.complete (e : Nat) (st : List Status) (err : ErrCode) (c1 c2 : Nat) : Untouched s (t.complete e st err c1 c2) :=
  (h.countUpdate e).congr rfl rfl rfl

theorem Untouched.failWith (e : Nat) (err : ErrCode) : Untouched s (t.failWith e err) := h.complete e _ err 0 0

theorem Untouched.begun (e ph : Nat) : Untouched s (t.begun e ph) := by
  unfold State.begun
  split
  · exact h.congr rfl rfl rfl
  · exact h

/-- The end of a block program (R467). -/
theorem Untouched.endLaunch (l : Launch) (st : List Status) (err : ErrCode) : Untouched s (t.endLaunch l st err) := by
  unfold State.endLaunch
  exact Untouched.complete (by exact h.congr rfl rfl rfl) _ _ _ _ _

/-- Accesses that wait for a pan end (R512, R517). -/
theorem Untouched.dropWindow (b : Nat) : Untouched s (t.dropWindow b) := by
  unfold State.dropWindow
  refine foldl_keeps (Untouched s) _ _ _ (h.congr rfl rfl rfl) fun y a hy => ?_
  split
  · exact hy.begun _ 0
  · unfold State.winRefuse
    have hcounted := (hy.bump HUB_ADDR_COUNT_window_refusals 1).setFlagIf (!y.absent b && y.regionFenced (b / 16)) HUB_ADDR_STATUS_window_fenced
    dsimp only
    split
    · exact hcounted.congr rfl rfl rfl
    · exact hcounted

/-! ### RING_STEPs and watches (R401, R403, R424) -/

theorem Untouched.setSync (r : Nat) (u : SyncUnit) : Untouched s (t.setSync r u) :=
  Untouched.setFld (Untouched.setFld (by exact h.congr rfl rfl rfl) _ _ (not_fenceReg_rgn r 0x4000)) _ _ (not_fenceReg_rgn r 0x4000)

theorem Untouched.dropRingJob (e : Nat) : Untouched s (t.dropRingJob e) := by
  unfold State.dropRingJob State.showRingJobs
  refine Untouched.setFld ?_ HUB_RING_STATUS_in_flight _
  repeat' split
  all_goals exact h.congr rfl rfl rfl

theorem Untouched.poisonStep (n : Nat) : Untouched s (t.poisonStep n) :=
  Untouched.congr (Untouched.bump (by exact h.congr rfl rfl rfl) HUB_RING_COUNT_poisoned _) rfl rfl rfl

theorem Untouched.failRing (e : Nat) (st : Status) (err : ErrCode) : Untouched s (t.failRing e st err) := by
  have hflag : ¬FenceReg (if st = .late then HUB_RING_STATUS_late else HUB_RING_STATUS_failed).addr := by split <;> decide
  exact (((h.dropRingJob e).setFlag _ hflag).poisonStep _).complete e _ err 0 0

theorem Untouched.loseWaiter (w : Waiter) : Untouched s (t.loseWaiter w) := by
  unfold State.loseWaiter
  split
  · exact h
  · split
    case h_3 =>
      split
      · exact h.endLaunch _ _ _
      · exact h
    case h_4 => exact h
    all_goals
      split
      · split
        · exact h.failRing _ _ _
        · exact h.failWith _ _
      · exact h

theorem Untouched.freeWatches (r : Nat) (p : Watch → Bool) : Untouched s (t.freeWatches r p) :=
  (h.setSync r _).foldl _ _ fun _ w hy => hy.loseWaiter w.waiter

/-! ### Commit groups (R342, R344) -/

theorem Untouched.showSwap (p : Nat) (u : PortUnit) : Untouched s (t.showSwap p u) :=
  Untouched.setFld (by exact h.congr rfl rfl rfl) (WEB_PORT_STATUS_swap_pending p) _ (not_fenceReg_webPortStatus p)

theorem Untouched.unstage (e : Nat) : Untouched s (t.unstage e) := by
  refine h.forUpTo _ _ fun p y hy => ?_
  dsimp only
  split
  · exact hy.showSwap p _
  · exact hy

theorem Untouched.showGroups : Untouched s t.showGroups := (h.setFld UPD_GROUP_STATUS_open _).setFld UPD_GROUP_STATUS_effects _

theorem Untouched.dropGroup (g : Nat) (st : Status) (late : List Nat) : Untouched s (t.dropGroup g st late) := by
  unfold State.dropGroup
  split
  · exact h
  · have hfree : ∀ u : State, Untouched s u → Untouched s (State.showGroups { u with groups := SMap.erase u.groups g }) := fun u hu =>
      Untouched.showGroups (by exact hu.congr rfl rfl rfl)
    refine hfree _ ?_
    split
    · refine Untouched.complete (Untouched.unstage ?_ _) _ _ _ _ _
      exact h.foldl _ _ fun _ m hy => (hy.unstage m.entry).complete _ _ _ _ _
    · exact h.foldl _ _ fun _ m hy => (hy.unstage m.entry).complete _ _ _ _ _

theorem Untouched.abortGroup (g : Nat) (late : List Nat) : Untouched s (t.abortGroup g late) := by
  unfold State.abortGroup
  split
  · exact h
  · exact ((h.dropGroup g _ late).bump UPD_GROUP_COUNT_aborts 1).count _ _

theorem Untouched.failGroup (g : Nat) : Untouched s (t.failGroup g) := by
  unfold State.failGroup
  split
  · exact h
  · exact h.abortGroup g []

theorem Untouched.failMember (e : Nat) (err : ErrCode) : Untouched s (t.failMember e err) := (h.failWith e err).failGroup _

/-- A staged UPDATE of a shard in a fenced region fails with its group (R349). -/
theorem Untouched.failShards (r : Nat) : Untouched s (t.failShards r) := by
  refine h.foldl _ _ fun y p hy => ?_
  dsimp only
  split
  · exact hy
  · exact Untouched.abortGroup (Untouched.foldl (by exact hy.congr rfl rfl rfl) _ _ fun _ m hz => hz.failWith m.entry _) _ _

/-! ### Root jobs and solvers (R278, R279, R310) -/

theorem Untouched.showRoot (d : List Byte) (j : RootJob) (phase : Nat) : Untouched s (t.showRoot d j phase) := by
  refine h.foldl _ _ fun y b hy => ?_
  have hstatus := not_fenceReg_blk b 0xE00
  have hshown := (((hy.setFld (MFU_STATUS_busy b) (b2n (phase != 0)) hstatus).setFld (MFU_STATUS_phase b) phase hstatus).setFld
    (MFU_STATUS_region_job b) (b2n (rtRegion d && phase != 0)) hstatus).setFld (MFU_STATUS_context b) (dContext d) hstatus
  exact ((hshown.setFld (MFU_STATUS_iteration b) j.k hstatus).setFld (MFU_SIG_LO_sig_lo b) _ (not_fenceReg_blk b 0xE08)).setFld
    (MFU_SIG_HI_sig_hi b) _ (not_fenceReg_blk b 0xE0C)

theorem Untouched.countRoot (j : RootJob) {f : State → Nat → State} (hf : ∀ y b, Untouched s y → Untouched s (f y b)) :
    Untouched s (t.countRoot j f) :=
  h.foldl _ f hf

theorem Untouched.fenceReplay (e : Nat) : Untouched s (t.fenceReplay e) := by
  unfold State.fenceReplay
  split
  · exact h.congr rfl rfl rfl
  · exact h.failMember e _

theorem Untouched.fenceRoots (r : Nat) : Untouched s (t.fenceRoots r) :=
  h.foldl _ _ fun y p hy => Untouched.fenceReplay
    (Untouched.countRoot (Untouched.showRoot (by exact hy.congr rfl rfl rfl) _ _ _) _
      fun _ b hz => hz.bump (MFU_COUNT_jobs b) 1 (not_fenceReg_blk b 0xE10)) _

theorem Untouched.setSolver (r : Nat) (x : Solver) : Untouched s (t.setSolver r x) := by
  have hstatus := not_fenceReg_rgn r 0x2000
  have hrange := not_fenceReg_rgn r 0x2010
  have hsys : Untouched s { t with solvers := SMap.set solverDefault t.solvers r x } := h.congr rfl rfl rfl
  have hrows := (((hsys.setFld (SIS_STATUS_sys_valid r) (b2n x.valid) hstatus).setFld (SIS_SYSTEM_ID_system_id r) x.id
    (not_fenceReg_rgn r 0x2004)).setFld (SIS_ROWS_n r) x.n (not_fenceReg_rgn r 0x2008)).setFld (SIS_NNZ_nnz r) x.entries.length
    (not_fenceReg_rgn r 0x200C)
  exact (((hrows.setFld (SIS_RANGE_f r) _ hrange).setFld (SIS_RANGE_h r) _ hrange).setFld (SIS_RANGE_g_max r) _ hrange).setFld
    (SIS_RANGE_f_bound r) _ hrange

theorem Untouched.fenceSolver (r : Nat) : Untouched s (t.fenceSolver r) := by
  have hstatus := not_fenceReg_rgn r 0x2000
  have hidle := ((h.setSolver r Solver.zero).setFld (SIS_STATUS_busy r) 0 hstatus).setFld (SIS_STATUS_phase r) 0 hstatus
  unfold State.fenceSolver
  dsimp only
  split
  · exact hidle.fenceReplay _
  · exact hidle

/-! ### Transfers, RING_STEPs and harvest windows of a region (R23, R367, R387, R414) -/

theorem Untouched.endSends (r : Nat) : Untouched s (t.endSends r) := by
  refine h.foldl _ _ fun y x hy => ?_
  have hgone : Untouched s { y with tx := y.tx.erase x } := hy.congr rfl rfl rfl
  dsimp only
  split
  · split
    · exact hgone.failRing _ _ _
    · exact hgone.failWith _ _
  · exact hgone

theorem Untouched.failRings (r : Nat) : Untouched s (t.failRings r) :=
  h.foldl _ _ fun _ p hy => hy.failRing p.1 _ _

theorem Untouched.setWin (w : Nat) (x : Window) : Untouched s (t.setWin w x) :=
  Untouched.setFld (by exact h.congr rfl rfl rfl) (HRV_UNIT_STATUS_open (winR w) (winC w)) _ (not_fenceReg_harvest w 0)

theorem Untouched.discardCarry (w : Nat) : Untouched s (t.discardCarry w) := by
  have hclear : Untouched s (t.clearCells w (t.win w) true) := h.congr rfl rfl rfl
  unfold State.discardCarry
  dsimp only
  split
  · exact (((hclear.bump (HRV_LATE_COUNT_dropped (winR w) (winC w)) _ (not_fenceReg_harvest w 8)).setFlag
      (HRV_UNIT_STATUS_carry_discarded (winR w) (winC w)) (not_fenceReg_harvest w 0)).bump
      (HRV_EVENT_COUNT_carry_sets_discarded (winR w) (winC w)) 1 (not_fenceReg_harvest w 0x10)).setWin w _
  · exact h

theorem Untouched.freeWindow (w : Nat) : Untouched s (t.freeWindow w) := (h.discardCarry w).setWin w _

theorem Untouched.loseWindow (w : Nat) (err : ErrCode) : Untouched s (t.loseWindow w err) := by
  have hnorm : Untouched s (t.setNorm (t.win w).step { t.normOf (t.win w).step with lost := true }) := h.congr rfl rfl rfl
  unfold State.loseWindow
  dsimp only
  split
  · refine Untouched.freeWindow ?_ w
    split
    · exact hnorm.failWith _ err
    · exact hnorm
  · exact h

/-- The descriptors that run in a region end (R535). -/
theorem Untouched.failRegion (r : Nat) : Untouched s (t.failRegion r) := by
  have hlaunches := foldl_keeps (Untouched s) (t.launches.filter (fun l => l.block / 16 == r))
    (fun (y : State) (l : Launch) => y.endLaunch l [.faultFailed] .regionFenced) t h fun _ l hy => hy.endLaunch l _ _
  have hjobs := (((hlaunches.fenceRoots r).fenceSolver r).endSends r).failRings r
  exact Untouched.failShards (hjobs.foldl _ _ fun _ p hy => hy.loseWindow p.1 _) r

/-! ### A run that a fence cuts short (R218) -/

theorem Untouched.fabRows (l : Launch) (g : List Byte) (o : FabOp) (n : Nat) : Untouched s (t.fabRows l g o n) :=
  h.forUpTo _ _ fun _ _ hy => hy.forUpTo _ _ fun _ _ hz => (hz.setBytes _ _).count _ _

theorem Untouched.cutRun (b : Nat) : Untouched s (t.cutRun b) := by
  unfold State.cutRun
  split
  · exact h
  · split
    · exact h
    · dsimp only
      split
      · exact Untouched.fabRows (by exact h.congr rfl rfl rfl) _ _ _ _
      · exact h

end

end Sys2Proof.Machine
end

section
/-! SUPPORT. Family 01_architecture.md: a region's fence and a block error (R20 to R25, R34, R36, R276). -/

namespace Sys2Proof.Machine

/-! ### A region's fence (R23, R25) -/

/-- Bit `r` of a word is set by writing it. -/
theorem bitOf_putBits_one (x r : Nat) : bitOf (putBits x r 1 1) r = true := by
  have hfield : putBits x r 1 1 / 2 ^ r % 2 = 1 := bitsOf_putBits_same x r 1 1
  rw [bitOf, hfield]
  rfl

theorem State.fld_showFence_other (s : State) (r : Nat) (on : Bool) {f : Fld} (hr : f.addr ≠ RGN_STATUS r) (hm : f.addr ≠ HUB_MODULE_STATUS) :
    (s.showFence r on).fld f = s.fld f := by
  unfold State.showFence
  rw [State.fld_setFld_addr _ _ _ _ hm, State.fld_setFld_addr _ _ _ _ hr, State.fld_setFld_addr _ _ _ _ hr]

theorem State.fld_showFence_fenced (s : State) (r : Nat) (on : Bool) : (s.showFence r on).fld (RGN_STATUS_fenced r) = b2n on := by
  have hne : RGN_STATUS r ≠ HUB_MODULE_STATUS := by unfold RGN_STATUS rgnBase HUB_MODULE_STATUS; omega
  unfold State.showFence
  rw [State.fld_setFld_addr _ _ _ _ hne, State.fld_setFld_bits _ _ _ _ (by decide : 0 + 1 ≤ 32) (.inl (by decide : 0 + 1 ≤ 1)),
    State.fld_setFld_same _ _ _ (by decide : 1 + 1 ≤ 32)]
  cases on <;> rfl

theorem State.fld_showFence_running (s : State) (r : Nat) (on : Bool) : (s.showFence r on).fld (RGN_STATUS_running r) = b2n (!on) := by
  have hne : RGN_STATUS r ≠ HUB_MODULE_STATUS := by unfold RGN_STATUS rgnBase HUB_MODULE_STATUS; omega
  unfold State.showFence
  rw [State.fld_setFld_addr _ _ _ _ hne, State.fld_setFld_same _ _ _ (by decide : 0 + 1 ≤ 32)]
  cases on <;> rfl

theorem State.bitOf_showFence (s : State) {r : Nat} (hr : r < 4) : bitOf ((s.showFence r true).fld HUB_MODULE_STATUS_region_fenced) r = true := by
  unfold State.showFence
  rw [State.fld_setFld_same _ _ _ (by decide), b2n_true, Nat.mod_eq_of_lt (putBits_lt 1 (State.fld_lt _ _) (by show r + 1 ≤ 4; omega))]
  exact bitOf_putBits_one _ r

/-- The loss of a mirror writes acceptance_paused and single_mirror. -/
theorem State.fld_mirrorLost_other (s : State) (r : Nat) {f : Fld} (hj : f.addr ≠ RNG_JOURNAL_STATUS)
    (hm : f.addr ≠ HUB_MODULE_STATUS ∨ f.lo + f.width ≤ 8) : (s.mirrorLost r).fld f = s.fld f := by
  unfold State.mirrorLost
  split
  · rw [State.fld_setFld_addr _ _ _ _ hj, State.fld_setFld_other _ _ _ _ (by decide) (hm.imp_right .inr)]
  · rfl

theorem State.fld_mirrorLost_paused {s : State} {r : Nat}
    (h : s.fld RNG_JOURNAL_STATUS_mirror_a = r ∨ s.fld RNG_JOURNAL_STATUS_mirror_b = r) :
    (s.mirrorLost r).fld HUB_MODULE_STATUS_acceptance_paused = 1 := by
  unfold State.mirrorLost
  rw [if_pos h, State.fld_setFld_addr _ _ _ _ (by decide), State.fld_setFld_same _ _ _ (by decide)]
  rfl

theorem State.fenceRegion_of_fenced {s : State} {r : Nat} (h : s.regionFenced r = true) (unit : Nat) : s.fenceRegion r unit = s := if_pos h

/-- The work of a region that fences itself is cut short: runs, watches and descriptors (R218, R444, R535). -/
def State.cutRegion (s : State) (r : Nat) : State :=
  ((forUpTo 16 (fun i t => t.cutRun (16 * r + i)) s).freeWatches r (fun _ => true)).failRegion r

theorem Untouched.cutRegion (s : State) (r : Nat) : Untouched s (s.cutRegion r) :=
  (((Untouched.refl s).forUpTo _ _ fun _ _ hy => hy.cutRun _).freeWatches r _).failRegion r

/-- A region that runs is cut, shown as fenced, and a mirror in it is lost; what follows shows in none of the fence registers. -/
theorem State.fenceRegion_of_open {s : State} {r : Nat} (h : s.regionFenced r = false) (unit : Nat) :
    Untouched (((s.cutRegion r).showFence r true).mirrorLost r) (s.fenceRegion r unit) := by
  have hfence : s.fenceRegion r unit = _ := if_neg (by simp [h])
  rw [hfence]
  exact ((Untouched.refl _).forUpTo _ _ fun _ _ hy => hy.dropWindow _).error _

/-- What a fence shows (R23, R25, R34, R36). -/
theorem State.fenceRegion_shows {s : State} {r : Nat} (hr : r < 4) (h : s.regionFenced r = false) (unit : Nat) :
    (s.fenceRegion r unit).regionFenced r = true ∧ (s.fenceRegion r unit).fld (RGN_STATUS_running r) = 0 ∧
    bitOf ((s.fenceRegion r unit).fld HUB_MODULE_STATUS_region_fenced) r = true ∧
    (s.fld RNG_JOURNAL_STATUS_mirror_a = r ∨ s.fld RNG_JOURNAL_STATUS_mirror_b = r →
      (s.fenceRegion r unit).fld HUB_MODULE_STATUS_acceptance_paused = 1) := by
  have hbefore := Untouched.cutRegion s r
  have hafter := State.fenceRegion_of_open h unit
  have hstatus := fenceReg_rgnStatus r
  have hj : RGN_STATUS r ≠ RNG_JOURNAL_STATUS := by unfold RGN_STATUS rgnBase RNG_JOURNAL_STATUS; omega
  have hm : RGN_STATUS r ≠ HUB_MODULE_STATUS := by unfold RGN_STATUS rgnBase HUB_MODULE_STATUS; omega
  refine ⟨?_, ?_, ?_, fun hmirror => ?_⟩
  · unfold State.regionFenced State.flag
    rw [hafter.fld hstatus, State.fld_mirrorLost_other _ _ hj (.inl hm), State.fld_showFence_fenced]
    rfl
  · rw [hafter.fld hstatus, State.fld_mirrorLost_other _ _ hj (.inl hm), State.fld_showFence_running]
    rfl
  · rw [hafter.fld (by decide), State.fld_mirrorLost_other _ _ (by decide) (.inr (by decide))]
    exact State.bitOf_showFence _ hr
  · have hkept : ∀ f : Fld, f.addr = RNG_JOURNAL_STATUS → ((s.cutRegion r).showFence r true).fld f = s.fld f := fun f hf => by
      rw [State.fld_showFence_other _ _ _ (by rw [hf]; exact hj.symm) (by rw [hf]; decide), hbefore.fld (by rw [hf]; decide)]
    rw [hafter.fld (by decide)]
    exact State.fld_mirrorLost_paused (by rwa [hkept _ rfl, hkept _ rfl])

theorem State.fenceRegion_regionFenced (s : State) {r : Nat} (hr : r < 4) (unit : Nat) : (s.fenceRegion r unit).regionFenced r = true := by
  cases h : s.regionFenced r with
  | true => rw [State.fenceRegion_of_fenced h, h]
  | false => exact (State.fenceRegion_shows hr h unit).1

/-- A fence leaves what SAF_STATUS shows. -/
theorem State.fld_fenceRegion_safStatus (s : State) (r unit : Nat) {f : Fld} (hf : f.addr = SAF_STATUS) : (s.fenceRegion r unit).fld f = s.fld f := by
  cases h : s.regionFenced r with
  | true => rw [State.fenceRegion_of_fenced h]
  | false =>
    have hbefore := Untouched.cutRegion s r
    have hafter := State.fenceRegion_of_open h unit
    have hr : SAF_STATUS ≠ RGN_STATUS r := by unfold SAF_STATUS RGN_STATUS rgnBase; omega
    have hsaf : FenceReg f.addr := by rw [hf]; decide
    rw [hafter.fld hsaf, State.fld_mirrorLost_other _ _ (by rw [hf]; decide) (.inl (by rw [hf]; decide)),
      State.fld_showFence_other _ _ _ (by rwa [hf]) (by rw [hf]; decide), hbefore.fld hsaf]

/-- A trip leaves SAF_STATUS (R552). -/
theorem State.fld_trip_safStatus (s : State) (cause index : Nat) {f : Fld} (hf : f.addr = SAF_STATUS) : (s.trip cause index).fld f = s.fld f := by
  have hne : f.addr ≠ SAF_CAUSE := by rw [hf]; decide
  unfold State.trip
  rw [State.bump, State.fld_setFld_addr _ _ _ _ hne, State.fld_setFld_addr _ _ _ _ hne, State.fld_setFld_addr _ _ _ _ hne]

/-- A fault of a region's clock shows, and fences the region (R539, R552). -/
theorem execClockFault_shows (r : Fin 4) (s : State) : ∃ t, execClockFault r s = .next t ∧ t.regionFenced r.val = true ∧
    bitOf (t.fld SAF_STATUS_clock_fault) r.val = true := by
  refine ⟨_, rfl, State.fenceRegion_regionFenced _ r.isLt _, ?_⟩
  rw [State.fld_fenceRegion_safStatus _ _ _ rfl, State.fld_trip_safStatus _ _ _ rfl, State.fld_setFld_same _ _ _ (by decide),
    Nat.mod_eq_of_lt (putBits_lt 1 (State.fld_lt _ _) (by show r.val + 1 ≤ 4; omega))]
  exact bitOf_putBits_one _ r.val

/-! ### The re-run of program steps and the move to the spare (R20 to R22) -/

theorem SameErrors.untouched {s t u : State} (h : SameErrors s t) (k : Untouched t u) : SameErrors s u := h.trans k.toSameErrors

section
variable {s t u : State} (h : SameErrors s t)
include h

theorem SameErrors.congr (hblk : u.blkErr = t.blkErr) (hpend : u.repairPend = t.repairPend) : SameErrors s u := h.trans ⟨hblk, hpend⟩

theorem SameErrors.foldl {α : Type} (l : List α) (f : State → α → State) (hf : ∀ y b, SameErrors s y → SameErrors s (f y b)) :
    SameErrors s (l.foldl f t) :=
  foldl_keeps (SameErrors s) l f t h hf

theorem SameErrors.forUpTo (n : Nat) (f : Nat → State → State) (hf : ∀ i y, SameErrors s y → SameErrors s (f i y)) :
    SameErrors s (forUpTo n f t) :=
  forUpTo_keeps (SameErrors s) n f t h hf

theorem SameErrors.setReg (a : Nat) (v : Word) : SameErrors s (t.setReg a v) := h.congr (t.setReg_blkErr a v) (t.setReg_repairPend a v)

theorem SameErrors.setFld (f : Fld) (v : Nat) : SameErrors s (t.setFld f v) := h.congr (t.setFld_blkErr f v) (t.setFld_repairPend f v)

theorem SameErrors.bump (f : Fld) (n : Nat) : SameErrors s (t.bump f n) := h.setFld f _

theorem SameErrors.setFlag (f : Fld) : SameErrors s (t.setFlag f) := h.congr (t.setFlag_blkErr f) (t.setFlag_repairPend f)

theorem SameErrors.count (k n : Nat) : SameErrors s (t.count k n) := h.untouched ((Untouched.refl t).count k n)

theorem SameErrors.rerunStep (l : Launch) (retried : Bool) : SameErrors s (t.rerunStep l retried) := by
  unfold State.rerunStep
  split
  · exact h
  · refine SameErrors.count (SameErrors.foldl ?_ _ _ fun _ i hy => hy.setFld _ _) _ _
    exact h.congr rfl rfl

theorem SameErrors.rerunBlock (b : Nat) (ctx : Option Nat) : SameErrors s (t.rerunBlock b ctx) := by
  refine h.forUpTo _ _ fun c y hy => ?_
  split
  · exact hy.rerunStep _ _
  · exact hy

theorem SameErrors.rerunFirst (b : Nat) (ctx : Option Nat) : SameErrors s (t.rerunFirst b ctx) := by
  unfold State.rerunFirst
  split
  · split
    · exact h.rerunStep _ _
    · exact h
  · exact h.rerunBlock b none

theorem SameErrors.failBlock (b : Nat) : SameErrors s (t.failBlock b) :=
  h.foldl _ _ fun y l hy => hy.untouched ((Untouched.refl y).endLaunch l _ _)

theorem SameErrors.showRegion (r : Nat) : SameErrors s (t.showRegion r) := (((h.setFld _ _).setFld _ _).setFld _ _).setFld _ _

/-- The stores of blocks hold no error counts. -/
theorem SameErrors.setStores (mem : SMap Byte) (pan : SMap PanWord) (panRows : SMap PanRow) (stat lanes : SMap Nat) (blocks : SMap BlockUnit) :
    SameErrors s { t with mem := mem, pan := pan, panRows := panRows, stat := stat, lanes := lanes, blocks := blocks } := h.congr rfl rfl

theorem SameErrors.setBlk (b : Nat) (u : BlockUnit) : SameErrors s (t.setBlk b u) := h.setStores _ _ _ _ _ _

theorem SameErrors.resetPan (b : Nat) : SameErrors s (t.resetPan b) := h.setStores _ _ _ _ _ _

theorem SameErrors.clearVat (b : Nat) : SameErrors s (t.clearVat b) := h.setStores _ _ _ _ _ _

theorem SameErrors.markRoots (b : Nat) : SameErrors s (t.markRoots b) := h.congr rfl rfl

theorem SameErrors.clearBlock (b : Nat) : SameErrors s (t.clearBlock b) := by
  unfold State.clearBlock
  refine SameErrors.forUpTo (SameErrors.forUpTo ?_ 2 _ fun _ _ hy => (hy.setFld _ 0).setFld _ 0) 16 _ fun _ _ hy => hy.setFld _ 0
  exact SameErrors.setBlk (SameErrors.setStores (h.resetPan b) _ _ _ _ _ _) b _

theorem SameErrors.programRows (b : Nat) : SameErrors s (t.programRows b) := by
  unfold State.programRows
  have hmap := h.forUpTo 32 (fun k y => y.setReg (BLK_ROW_MAP b k) (BitVec.ofNat 32 (leNat ((List.range 4).map (fun i =>
    BitVec.ofNat 8 ((liveRows (t.quarOf (t.phys b))).getD (4 * k + i) 0)))))) fun _ _ hy => hy.setReg _ _
  exact (((((hmap.setFld _ _).setFld _ _).setFld _ _).setFld _ _).setFld _ _).setFld _ _

/-! ### Accesses that waited for the pan (R152, R153) -/

theorem SameErrors.panParity (b row : Nat) : SameErrors s (t.panParity b row) := by
  have hrow : SameErrors s (t.setPanRow b row { t.panRow b row with parityErr := true }) := h.congr rfl rfl
  exact ((hrow.setFlag (PAN_STATUS_parity_error b)).bump (PAN_STATUS_parity_count b) 1).count (cntBlock b 43) 1

theorem SameErrors.winMake (b : Nat) (a : WinAccess) : SameErrors s (t.winMake b a) := by
  unfold State.winMake
  split
  · unfold State.winWrite
    split
    · exact (h.setFlag _).bump _ _
    · refine SameErrors.count (h.forUpTo _ _ fun i y hy => ?_) _ _
      dsimp only
      split
      · exact hy
      · exact hy.congr rfl rfl
  · exact SameErrors.congr (SameErrors.count (h.foldl _ _ fun _ r hy => hy.panParity b r) _ _) rfl rfl

theorem SameErrors.serveWindow (b fuel : Nat) : SameErrors s (t.serveWindow b fuel) := by
  induction fuel generalizing t with
  | zero => exact h
  | succ fuel ih =>
    unfold State.serveWindow
    split
    · exact h
    · refine ih ?_
      unfold State.winGo
      split
      · exact SameErrors.untouched (by exact h.congr rfl rfl) ((Untouched.refl _).begun _ 0)
      · exact SameErrors.winMake (by exact h.congr rfl rfl) b _

end

/-- A quarantine leaves the repair record to be rewritten, and no count of block errors changed (R20, R21). -/
theorem State.quarantine_repairPend (s : State) (b : Nat) (ctx : Option Nat) (unit cause : Nat) (l : Option Launch) :
    (s.quarantine b ctx unit cause l).repairPend = true ∧ (s.quarantine b ctx unit cause l).blkErr = s.blkErr := by
  by_cases hspare : s.flag (RGN_STATUS_spare_used (b / 16)) = true
  · have hquar : s.quarantine b ctx unit cause l = _ := if_pos hspare
    rw [hquar]
    have hmarked : SameErrors s ((s.failBlock b).markRoots b) := ((SameErrors.refl s).failBlock b).markRoots b
    have hmoved : SameErrors s (((s.failBlock b).markRoots b).takeFree 5).2 := hmarked.congr rfl rfl
    have hshown := (((hmoved.setFld (mapFld b) ((((s.failBlock b).markRoots b).takeFree 5).1 + 128)).untouched
      ((Untouched.refl _).dropWindow b)).showRegion (b / 16)).untouched ((Untouched.refl _).error (s.blockRec 2 2 unit b 0xFFFF cause l))
    exact ⟨rfl, hshown.blkErr⟩
  · have hquar : s.quarantine b ctx unit cause l = _ := if_neg hspare
    rw [hquar]
    have hmoved := ((((SameErrors.refl s).clearBlock b).clearVat b).markRoots b).setBlk b
      { BlockUnit.zero with current := (s.blk b).current, lastBg := (s.blk b).lastBg, winWait := (s.blk b).winWait }
    have hserved := ((((hmoved.setFld (mapFld b) 16).showRegion (b / 16)).programRows b).rerunBlock b ctx).serveWindow b (s.blk b).winWait.length
    have hrecorded := hserved.untouched ((Untouched.refl _).error (s.blockRec 1 2 unit b (17 * (b / 16) + 16) cause l))
    exact ⟨rfl, hrecorded.blkErr⟩

/-- The count of an error of block `b`, in its region and for its physical block (R22). -/
def State.countBlockError (s : State) (b : Nat) : State :=
  let s1 := s.bump (RGN_STATUS_block_error_count (b / 16))
  { s1 with blkErr := SMap.set (fun _ => 0) s1.blkErr (s.phys b) (SMap.get (fun _ => 0) s.blkErr (s.phys b) + 1) }

theorem State.blkErr_countBlockError (s : State) (b : Nat) : (s.countBlockError b).blkErr =
    SMap.set (fun _ => 0) s.blkErr (s.phys b) (SMap.get (fun _ => 0) s.blkErr (s.phys b) + 1) :=
  congrArg (fun m => SMap.set (fun _ => 0) m (s.phys b) (SMap.get (fun _ => 0) s.blkErr (s.phys b) + 1))
    (s.bump_blkErr (RGN_STATUS_block_error_count (b / 16)) 1)

/-- In a region that runs, the first error of a physical block re-runs a step, the second quarantines the block. -/
theorem State.blockError_of_open {s : State} {b : Nat} (h : s.regionFenced (b / 16) = false) (ctx : Option Nat) (unit cause : Nat) :
    ∃ l : Option Launch, s.blockError b ctx unit cause =
      if SMap.get (fun _ => 0) s.blkErr (s.phys b) = 0 then ((s.countBlockError b).error (s.blockRec 1 2 unit b 0xFFFF cause l)).rerunFirst b ctx
      else (s.countBlockError b).quarantine b ctx unit cause l := by
  have hopen : ¬s.regionFenced (b / 16) = true := by simp [h]
  exact ⟨_, if_neg hopen⟩

/-- A block error in a region that runs counts for the physical block; the second of a physical block has the repair record rewritten (R20 to R22). -/
theorem State.blockError_counts {s : State} {b : Nat} (h : s.regionFenced (b / 16) = false) (ctx : Option Nat) (unit cause : Nat) :
    (s.blockError b ctx unit cause).blkErr =
      SMap.set (fun _ => 0) s.blkErr (s.phys b) (SMap.get (fun _ => 0) s.blkErr (s.phys b) + 1) ∧
    (SMap.get (fun _ => 0) s.blkErr (s.phys b) ≠ 0 → (s.blockError b ctx unit cause).repairPend = true) := by
  obtain ⟨l, hrun⟩ := State.blockError_of_open h ctx unit cause
  rw [hrun, ← s.blkErr_countBlockError b]
  split
  case isTrue hfirst =>
    exact ⟨(((SameErrors.refl _).untouched ((Untouched.refl _).error _)).rerunFirst b ctx).blkErr, fun hne => absurd hfirst hne⟩
  case isFalse hsecond =>
    obtain ⟨hpend, hblk⟩ := State.quarantine_repairPend (s.countBlockError b) b ctx unit cause l
    exact ⟨hblk, fun _ => hpend⟩

end Sys2Proof.Machine
end

section
/-! SUPPORT. Family 01_architecture.md: what a block error does to root jobs (R276), and the faults of blocks and regions. -/

namespace Sys2Proof.Machine

/-! ### A root job whose block has erred (R276) -/

/-- A cold start of a job, flagged and counted where it was forced (R253, R279). -/
def State.startCold (s : State) (e : Nat) (d : List Byte) (j : RootJob) (forced : Bool) : State :=
  ((((s.coldStart d j).2.countRoot j (fun (t : State) (b : Nat) => (t.setFlagIf forced (MFU_STATUS_cold_start b)).bump
    (MFU_COUNT_cold_starts b) (b2n forced))).setRoot e (s.coldStart d j).1)).showRoot d (s.coldStart d j).1 3

section
variable {s t : State} (h : Untouched s t)
include h

theorem Untouched.takeFree (w : Nat) : Untouched s (t.takeFree w).2 := h.congr rfl rfl rfl

theorem Untouched.setRoot (e : Nat) (j : RootJob) : Untouched s (t.setRoot e j) := h.congr rfl rfl rfl

theorem Untouched.scaleOf (p : Nat) (v : FVal) : Untouched s (t.scaleOf p v).2 := by
  unfold State.scaleOf
  split
  · exact h
  · exact h.takeFree 8

theorem Untouched.scratch (d : List Byte) (j : RootJob) : Untouched s (t.scratch d j) :=
  h.foldl _ _ fun _ _ hy => (hy.takeFree _).put _ _

theorem Untouched.clearSlots (d : List Byte) (j : RootJob) : Untouched s (t.clearSlots d j) := h.foldl _ _ fun _ _ hy => hy.put _ _

theorem Untouched.putStart (d : List Byte) (j : RootJob) : Untouched s (t.putStart d j) := h.foldl _ _ fun _ _ hy => (hy.put _ _).put _ _

theorem Untouched.putJobRecord (d : List Byte) (j : RootJob) (st : Nat) : Untouched s (t.putJobRecord d j st) :=
  h.foldl _ _ fun _ _ hy => hy.put _ _

theorem Untouched.coldStart (d : List Byte) (j : RootJob) : Untouched s (t.coldStart d j).2 := ((h.clearSlots d _).putStart d _).putJobRecord d _ 1

/-- A job that ends as failed. -/
theorem Untouched.endRoot_failed (e : Nat) (j : RootJob) (err : ErrCode) (fx : List Effect) : Untouched s (t.endRoot e j [.faultFailed] err fx) := by
  unfold State.endRoot
  refine Untouched.failGroup (Untouched.complete (Untouched.countRoot ?_ _ fun y b hy => ?_) _ _ _ _ _) _
  · exact Untouched.showRoot (by exact h.congr rfl rfl rfl) _ _ _
  · have hstatus := not_fenceReg_blk b 0xE00
    have hevent := not_fenceReg_blk b 0xE14
    exact ((((hy.bump (MFU_COUNT_jobs b) 1 (not_fenceReg_blk b 0xE10)).setFlagIf _ (MFU_STATUS_range_end b) hstatus).bump (MFU_EVENT_range_ends b) _
      hevent).setFlagIf _ (MFU_STATUS_late b) hstatus).bump (MFU_EVENT_late_ends b) _ hevent

theorem Untouched.startCold (e : Nat) (d : List Byte) (j : RootJob) (forced : Bool) : Untouched s (t.startCold e d j forced) :=
  (((h.coldStart d j).countRoot j fun _ b hy => (hy.setFlagIf forced (MFU_STATUS_cold_start b) (not_fenceReg_blk b 0xE00)).bump
    (MFU_COUNT_cold_starts b) _ (not_fenceReg_blk b 0xE10)).setRoot e _).showRoot d _ 3

/-- The four ways to start cold, a source that cannot be read, and a warm start (R259, R260). -/
theorem Untouched.startRoot (e : Nat) (j : RootJob) : Untouched s (t.startRoot e j) := by
  have hscratch : ∀ (v : FVal) (d : List Byte) (j0 : RootJob), Untouched s ((t.scaleOf (rtP (t.desc e)) v).2.scratch d j0) :=
    fun v d j0 => (h.scaleOf _ v).scratch d j0
  unfold State.startRoot
  dsimp only
  split
  · exact (hscratch _ _ _).startCold e _ _ _
  · split
    · exact (hscratch _ _ _).startCold e _ _ _
    · split
      · exact (hscratch _ _ _).startCold e _ _ _
      · split
        · exact ((hscratch _ _ _).noteHbmRead _ _).endRoot_failed e _ _ _
        · split
          · exact (hscratch _ _ _).startCold e _ _ _
          · exact (((((hscratch _ _ _).clearSlots _ _).putStart _ _).putJobRecord _ _ 1).setRoot e _).showRoot _ _ 3

theorem Untouched.rootGoesOn (e : Nat) (j : RootJob) (moved : Bool) : Untouched s (t.rootGoesOn e j moved).2 := by
  unfold State.rootGoesOn
  dsimp only
  split
  · exact h.endRoot_failed e _ _ []
  · split
    · exact h.startRoot e _
    · exact h.setRoot e _

theorem Untouched.rootBlockError (b : Nat) (moved : Bool) : Untouched s (t.rootBlockError b moved) :=
  h.foldl _ _ fun _ p hy => hy.rootGoesOn p.1 _ moved

end

/-! ### Faults of blocks and regions -/

/-- The flag of an array's block error moves no block and fences no region. -/
theorem State.phys_setFlag_blockError (s : State) (b : Nat) : (s.setFlag (BLK_ABFT_STATUS_block_error b)).phys b = s.phys b := by
  have hne : (mapFld b).addr ≠ BLK_ABFT_STATUS b := by
    show rgnBase (b / 16) + 0x10 + b % 16 / 4 * 4 ≠ blkBase b + 0xC
    unfold rgnBase blkBase
    omega
  unfold State.phys
  rw [State.fld_setFlag, State.fld_setFld_addr _ _ _ _ hne]

theorem Untouched.regionFenced {s t : State} (h : Untouched s t) (r : Nat) : t.regionFenced r = s.regionFenced r := by
  unfold State.regionFenced State.flag
  rw [h.fld (fenceReg_rgnStatus r)]

theorem execBlockError_of_absent {s : State} {b : Fin 64} (h : s.absent b.val = true) (c : Option (Fin 4)) (u : Fin 16) :
    execBlockError b c u s = .next s := by
  unfold execBlockError
  simp [h]

/-- A block error of a present block in a region that runs: it is counted, and root jobs go on. -/
theorem execBlockError_of_open {s : State} {b : Fin 64} (hpresent : s.absent b.val = false) (hopen : s.regionFenced (b.val / 16) = false)
    (c : Option (Fin 4)) (u : Fin 16) : ∃ s1 ctx unit cause moved, SameErrors s s1 ∧ s1.phys b.val = s.phys b.val ∧
      s1.regionFenced (b.val / 16) = false ∧
      execBlockError b c u s = .next ((s1.blockError b.val ctx unit cause).rootBlockError b.val moved) := by
  have hflag := (Untouched.refl s).setFlag (BLK_ABFT_STATUS_block_error b.val) (not_fenceReg_blk b.val 0xC)
  unfold execBlockError
  simp only [hpresent, hopen, Bool.false_eq_true, if_false]
  split
  · exact ⟨_, _, _, _, _, hflag.toSameErrors, s.phys_setFlag_blockError b.val, (hflag.regionFenced _).trans hopen, rfl⟩
  · exact ⟨_, _, _, _, _, .refl s, rfl, hopen, rfl⟩

/-- Settles O5: a block error by its count, a fence by what it shows. -/
theorem blockAndRegionFaults : Obligations.BlockAndRegionFaults := by
  refine ⟨fun s b c u => ⟨fun habsent => execBlockError_of_absent habsent c u, fun hpresent hopen => ?_⟩,
    fun s r u => ⟨fun hfenced => congrArg _ (State.fenceRegion_of_fenced hfenced _), fun hopen => ?_, execClockFault_shows r s⟩⟩
  · obtain ⟨s1, ctx, unit, cause, moved, hsame, hphys, hopen1, hrun⟩ := execBlockError_of_open hpresent hopen c u
    obtain ⟨hcount, hpend⟩ := State.blockError_counts hopen1 ctx unit cause
    have hroots := (Untouched.refl (s1.blockError b.val ctx unit cause)).rootBlockError b.val moved
    rw [hphys, hsame.blkErr] at hcount hpend
    refine ⟨_, hrun, fun p => ?_, fun hsecond => hroots.repairPend.trans (hpend hsecond)⟩
    rw [hroots.blkErr, hcount, SMap.get_set]
    exact ite_congr rfl (fun hp => by rw [hp]) fun _ => rfl
  · exact ⟨_, rfl, State.fenceRegion_shows r.isLt hopen u.val⟩

end Sys2Proof.Machine
end

section

/-! SUPPORT. Family 02_tide_and_web.md: hold and stop requests (O41). -/

namespace Sys2Proof.Machine

/-! ### Hold and stop requests (R82, R87, R93, R94) -/

@[simp] theorem State.reg_setPort (s : State) (p : Nat) (u : PortUnit) (a : Nat) : (s.setPort p u).reg a = s.reg a := rfl
@[simp] theorem State.fld_setPort (s : State) (p : Nat) (u : PortUnit) (f : Fld) : (s.setPort p u).fld f = s.fld f := rfl
@[simp] theorem State.port_setFld (s : State) (f : Fld) (v p : Nat) : (s.setFld f v).port p = s.port p := rfl

theorem State.port_setPort (s : State) (p q : Nat) (u : PortUnit) : (s.setPort p u).port q = if q = p then u else s.port q :=
  SMap.get_set portDefault s.ports p q u

@[simp] theorem State.port_setPort_same (s : State) (p : Nat) (u : PortUnit) : (s.setPort p u).port p = u :=
  SMap.get_set_same portDefault s.ports p u

/-- A write of hold_req and stop_req: both fields, and the request with the tide of its write. -/
theorem State.webCtlWrite_shows (s : State) (p hold stop : Nat) :
    (s.webCtlWrite p hold stop).fld (WEB_PORT_CTL_hold_req p) = hold % 2 ∧ (s.webCtlWrite p hold stop).fld (WEB_PORT_CTL_stop_req p) = stop % 2 ∧
    ((s.webCtlWrite p hold stop).port p).ctlReq = (s.port p).ctlReq ++ [(s.tide.ns, hold % 2 != 0, stop % 2 != 0)] := by
  unfold State.webCtlWrite
  refine ⟨?_, ?_, ?_⟩
  · rw [State.fld_setPort, State.fld_setFld_bits _ _ _ _ (by decide : 1 + 1 ≤ 32) (.inr (by decide : 0 + 1 ≤ 1)),
      State.fld_setFld_same _ _ _ (by decide : 0 + 1 ≤ 32)]
    rfl
  · rw [State.fld_setPort, State.fld_setFld_same _ _ _ (by decide : 1 + 1 ≤ 32)]
    rfl
  · rw [State.port_setPort_same]
    rfl

theorem State.setFld_frame {s t : State} (h : t = { s with regs := t.regs }) (f : Fld) (v : Nat) :
    t.setFld f v = { s with regs := (t.setFld f v).regs } := by
  generalize t.regs = r at h
  subst h
  rfl

theorem State.setPort_frame {s t : State} (h : t = { s with regs := t.regs }) (p : Nat) (u : PortUnit) :
    t.setPort p u = { s with regs := (t.setPort p u).regs, ports := (t.setPort p u).ports } := by
  generalize t.regs = r at h
  subst h
  rfl

/-- It writes no other register, and nothing else but the port's requests. -/
theorem State.webCtlWrite_frame (s : State) (p hold stop : Nat) : RegsBut [WEB_PORT_CTL p] s (s.webCtlWrite p hold stop) ∧
    s.webCtlWrite p hold stop = { s with regs := (s.webCtlWrite p hold stop).regs, ports := (s.webCtlWrite p hold stop).ports } := by
  unfold State.webCtlWrite
  refine ⟨fun a ha => ?_, State.setPort_frame (State.setFld_frame (State.setFld_frame rfl _ _) _ _) p _⟩
  have hne : a ≠ WEB_PORT_CTL p := by simpa using ha
  rw [State.reg_setPort, State.reg_setFld_other _ (WEB_PORT_CTL_stop_req p) _ hne, State.reg_setFld_other _ (WEB_PORT_CTL_hold_req p) _ hne]

/-- A field of one bit is its flag. -/
theorem State.fld_mod_two {s : State} {f : Fld} (hw : f.width = 1) : s.fld f % 2 = s.fld f := by
  have hlt := s.fld_lt f
  rw [hw] at hlt
  omega

theorem b2n_mod_two (b : Bool) : b2n b % 2 = b2n b := by cases b <;> rfl

theorem b2n_ne_zero (b : Bool) : (b2n b != 0) = b := by cases b <;> rfl

/-- Settles O41: either request is a write of both fields, one of them with its old value. -/
theorem holdAndStopRequests : Obligations.HoldAndStopRequests := by
  intro s
  refine ⟨fun p on => ?_, fun p on => ?_, fun _ => rfl, fun _ => rfl⟩
  · obtain ⟨hhold, hstop, hreq⟩ := s.webCtlWrite_shows p.val (b2n on) (s.fld (WEB_PORT_CTL_stop_req p.val))
    rw [b2n_mod_two, b2n_ne_zero, State.fld_mod_two rfl] at *
    exact ⟨_, rfl, hhold, hstop, hreq, s.webCtlWrite_frame _ _ _⟩
  · obtain ⟨hhold, hstop, hreq⟩ := s.webCtlWrite_shows p.val (s.fld (WEB_PORT_CTL_hold_req p.val)) (b2n on)
    rw [b2n_mod_two, b2n_ne_zero, State.fld_mod_two rfl] at *
    exact ⟨_, rfl, hstop, hhold, hreq, s.webCtlWrite_frame _ _ _⟩

end Sys2Proof.Machine
end

section

/-! SUPPORT. Family 02_tide_and_web.md: root election, holdover and the parent's tide (O8). -/

namespace Sys2Proof.Machine

/-! ### Fields, flags and registers -/

theorem State.flag_congr {s t : State} {f : Fld} (h : t.fld f = s.fld f) : t.flag f = s.flag f := by
  unfold State.flag
  rw [h]

theorem RegsBut.refl (l : List Nat) (s : State) : RegsBut l s s := fun _ _ => rfl

theorem RegsBut.setFld {l : List Nat} {s t : State} (h : RegsBut l s t) (f : Fld) (v : Nat) (hf : f.addr ∈ l) : RegsBut l s (t.setFld f v) :=
  fun a ha => (t.reg_setFld_other f v fun e => ha (by rw [e]; exact hf)).trans (h a ha)

theorem RegsBut.congr {l : List Nat} {s t u : State} (h : RegsBut l s t) (hu : u.regs = t.regs) : RegsBut l s u :=
  fun a ha => (State.reg_congr hu a).trans (h a ha)

/-- Nothing but registers differs, and the tide unit is now `u`. -/
def RegsAndTide (s : State) (u : TideUnit) (t : State) : Prop := ∃ r, t = { s with regs := r, tide := u }

theorem RegsAndTide.refl (s : State) : RegsAndTide s s.tide s := ⟨s.regs, rfl⟩

theorem RegsAndTide.eq {s t : State} {u : TideUnit} (h : RegsAndTide s u t) : t = { s with regs := t.regs, tide := u } := by
  obtain ⟨r, rfl⟩ := h
  rfl

theorem RegsAndTide.setFld {s t : State} {u : TideUnit} (h : RegsAndTide s u t) (f : Fld) (v : Nat) : RegsAndTide s u (t.setFld f v) := by
  obtain ⟨r, rfl⟩ := h
  exact ⟨_, rfl⟩

theorem RegsAndTide.setTide {s t : State} {u : TideUnit} (h : RegsAndTide s u t) (u' : TideUnit) : RegsAndTide s u' { t with tide := u' } := by
  obtain ⟨r, rfl⟩ := h
  exact ⟨r, rfl⟩

theorem RegsAndTide.tide {s t : State} {u : TideUnit} (h : RegsAndTide s u t) : t.tide = u := by
  obtain ⟨r, rfl⟩ := h
  rfl

theorem toBits_lt (w : Nat) (i : Int) : toBits w i < 2 ^ w := by
  have hpos : (0 : Int) < (2 ^ w : Nat) := by positivity
  have hlt := Int.emod_lt_of_pos i hpos
  have hnonneg := Int.emod_nonneg i hpos.ne'
  unfold toBits
  omega

/-! ### The choice of root (R47, R51, R52) -/

/-- The rate that a root shows (R49). -/
def State.rootRate (s : State) : Int := (if s.flag TID_CTL_use_ref && s.tide.refSeen then s.tide.refRate else 0) + s.tide.ppsRate

/-- A module that announces itself as root, before it shows its rate. -/
def State.announced (s : State) : State :=
  ((((((s.setFld TID_STATUS_is_root 1).setFld TID_STATUS_parent_port 31).setFld TID_STATUS_root_distance 0).setFld
    TID_ROOT_ID_root_chip s.chip).setFld TID_ROOT_ID_root_prio (s.fld TID_CTL_root_priority)).setFld TID_STATUS_holdover 0).achieveLock

theorem State.regs_achieveLock (s : State) : s.achieveLock.regs = (s.setFld TID_STATUS_locked 1).regs := rfl

theorem State.fld_achieveLock (s : State) (f : Fld) : s.achieveLock.fld f = (s.setFld TID_STATUS_locked 1).fld f :=
  State.fld_congr s.regs_achieveLock f

theorem RegsAndTide.achieveLock {s t : State} {u : TideUnit} (h : RegsAndTide s u t) :
    RegsAndTide s { u with everLocked := true, mayStep := false } t.achieveLock := by
  obtain ⟨r, rfl⟩ := h
  exact ⟨_, rfl⟩

theorem State.announced_rest (s : State) : RegsAndTide s { s.tide with everLocked := true, mayStep := false } s.announced := by
  unfold State.announced
  exact RegsAndTide.achieveLock (RegsAndTide.setFld (RegsAndTide.setFld (RegsAndTide.setFld (RegsAndTide.setFld (RegsAndTide.setFld
    (RegsAndTide.setFld (.refl s) _ _) _ _) _ _) _ _) _ _) _ _)

theorem State.announceRoot_eq (s : State) : s.announceRoot = s.announced.setRate s.announced.rootRate := by
  have hoff : s.announced.flag TID_STATUS_holdover = false := by
    unfold State.announced State.flag
    simp (disch := decide) only [State.fld_achieveLock, State.fld_setFld_same, State.fld_setFld_other]
    rfl
  show s.announced.showRate = _
  unfold State.showRate
  rw [hoff]
  rfl

/-- The rate depends on use_ref and on what the tide unit remembers of its references. -/
theorem State.rootRate_announced (s : State) : s.announced.rootRate = s.rootRate := by
  have href : s.announced.flag TID_CTL_use_ref = s.flag TID_CTL_use_ref := by
    unfold State.announced State.flag
    simp (disch := decide) only [State.fld_achieveLock, State.fld_setFld_other]
  unfold State.rootRate
  rw [href, s.announced_rest.tide]

theorem State.regsBut_announceRoot (s : State) : RegsBut [TID_STATUS, TID_ROOT_ID, TID_RATE_ADJ] s s.announceRoot := by
  rw [s.announceRoot_eq]
  refine RegsBut.setFld (RegsBut.congr ?_ (State.regs_achieveLock _)) _ _ (by decide)
  refine RegsBut.setFld (RegsBut.setFld (RegsBut.setFld (RegsBut.setFld (RegsBut.setFld (RegsBut.setFld (RegsBut.setFld
    (.refl _ s) _ _ ?_) _ _ ?_) _ _ ?_) _ _ ?_) _ _ ?_) _ _ ?_) _ _ ?_ <;> decide

theorem State.announceRoot_shows (s : State) :
    s.announceRoot.fld TID_STATUS_is_root = 1 ∧ s.announceRoot.fld TID_STATUS_locked = 1 ∧ s.announceRoot.fld TID_STATUS_parent_port = 31 ∧
    s.announceRoot.fld TID_STATUS_root_distance = 0 ∧ s.announceRoot.fld TID_ROOT_ID_root_chip = s.chip % 65536 ∧
    s.announceRoot.fld TID_ROOT_ID_root_prio = s.fld TID_CTL_root_priority ∧ s.announceRoot.fld TID_STATUS_holdover = 0 ∧
    s.announceRoot.fld TID_RATE_ADJ_rate = toBits 32 (clampRate s.rootRate) := by
  have hprio : s.fld TID_CTL_root_priority % 2 ^ 8 = s.fld TID_CTL_root_priority := Nat.mod_eq_of_lt (s.fld_lt _)
  have hrate := Nat.mod_eq_of_lt (toBits_lt 32 (clampRate s.rootRate))
  rw [s.announceRoot_eq, s.rootRate_announced]
  unfold State.setRate State.announced
  simp (disch := decide) only [State.fld_achieveLock, State.fld_setFld_same, State.fld_setFld_other]
  exact ⟨rfl, rfl, rfl, rfl, rfl, hprio, rfl, hrate⟩

theorem State.announceRoot_rest (s : State) : s.announceRoot =
    { s with regs := s.announceRoot.regs, tide := { s.tide with everLocked := true, mayStep := false } } := by
  rw [s.announceRoot_eq]
  exact (s.announced_rest.setFld TID_RATE_ADJ_rate _).eq

theorem execRootAnnounceTimeout_of_due {s : State} (henable : s.flag TID_CTL_root_enable = true) (hroot : s.flag TID_STATUS_is_root = false)
    (hquiet : 64 ≤ s.tide.quiet) : execRootAnnounceTimeout s = .next s.announceRoot := by
  simp [execRootAnnounceTimeout, henable, hroot, hquiet]

/-! ### Holdover and the loss of lock (R57) -/

theorem execHoldoverEnter_of_due {s : State}
    (hdue : 64 ≤ s.tide.quiet ∧ s.flag TID_STATUS_is_root = false ∨ 2 ≤ s.fld PWR_STATUS_state) (hoff : s.flag TID_STATUS_holdover = false) :
    execHoldoverEnter s = .next s.enterHoldover := by
  rcases hdue with ⟨hquiet, hroot⟩ | hdeep
  · simp [execHoldoverEnter, hquiet, hroot, hoff]
  · simp [execHoldoverEnter, hdeep, hoff]

/-- An advance of an event counter leaves the registers below the counters' block. -/
theorem State.reg_count (s : State) (k n : Nat) {a : Nat} (ha : a < 0xC10004) : (s.count k n).reg a = s.reg a := by
  have hne : a ≠ CNT_VALUE_HI k := by unfold CNT_VALUE_HI; omega
  unfold State.count State.setFlagIf
  dsimp only
  split
  · rw [State.reg_setFlag, State.reg_setFld_other _ (CNT_VALUE_HI_overflow k) 1 hne]
    exact State.reg_congr rfl a
  · exact State.reg_congr rfl a

theorem State.fld_count (s : State) (k n : Nat) {f : Fld} (hf : f.addr < 0xC10004) : (s.count k n).fld f = s.fld f := by
  unfold State.fld
  rw [s.reg_count k n hf]

@[simp] theorem State.tide_setFlagIf (s : State) (c : Bool) (f : Fld) : (s.setFlagIf c f).tide = s.tide := by
  unfold State.setFlagIf
  split <;> rfl

@[simp] theorem State.tide_count (s : State) (k n : Nat) : (s.count k n).tide = s.tide := by simp [State.count]

theorem State.loseLock_shows (s : State) : s.loseLock.fld TID_STATUS_locked = 0 ∧ s.loseLock.fld TID_STATUS_lock_lost = 1 ∧
    s.loseLock.fld TID_STATUS_holdover = s.fld TID_STATUS_holdover ∧ s.loseLock.tide.ns = s.tide.ns := by
  have hfld : ∀ f : Fld, f.addr = TID_STATUS → s.loseLock.fld f = ((s.setFld TID_STATUS_locked 0).setFld TID_STATUS_lock_lost 1).fld f :=
    fun f hf => State.fld_count _ _ _ (by rw [hf]; decide)
  refine ⟨?_, ?_, ?_, ?_⟩
  · rw [hfld _ rfl]
    simp (disch := decide) only [State.fld_setFld_same, State.fld_setFld_other]
    rfl
  · rw [hfld _ rfl]
    simp (disch := decide) only [State.fld_setFld_same]
    rfl
  · rw [hfld _ rfl]
    simp (disch := decide) only [State.fld_setFld_other]
  · simp [State.loseLock]

theorem execHoldoverExpiry_of_due {s : State} (hhold : s.flag TID_STATUS_holdover = true) (hlock : s.flag TID_STATUS_locked = true)
    (hdue : 2000 ≤ s.tide.holdoverFrames) : execHoldoverExpiry s = .next s.loseLock := by
  simp [execHoldoverExpiry, hhold, hlock, hdue]

/-! ### A coarse step (R50, R54, R55) -/

/-- What a coarse step to `x` makes of the tide unit. -/
def TideUnit.stepped (u : TideUnit) (x : Nat) : TideUnit :=
  let n : Nat := x / 65536 % 2 ^ 64
  let d : Int := (n : Int) - u.ns
  let df : Int := Int.ofNat (n * 65536 + x % 65536) - (u.ns * 65536 + u.frac : Nat)
  { u with
    ns := n, frac := x % 65536, done := n / frameNs, refStart := u.refStart + df, refLast := moveBy df u.refLast
    ppsLast := moveBy df u.ppsLast, outRise := u.outRise.map (moveBy d) }

/-- A coarse step moves the tide and what the state remembers of times; registers and memory stay. -/
theorem State.stepTo_keeps (s : State) (x : Nat) :
    (s.stepTo x).tide = s.tide.stepped x ∧ (s.stepTo x).regs = s.regs ∧ (s.stepTo x).mem = s.mem := by
  unfold State.stepTo
  exact forUpTo_keeps (fun t : State => t.tide = s.tide.stepped x ∧ t.regs = s.regs ∧ t.mem = s.mem) 18 _ _ ⟨rfl, rfl, rfl⟩
    fun _ _ h => h

@[simp] theorem State.tide_stepTo (s : State) (x : Nat) : (s.stepTo x).tide = s.tide.stepped x := (s.stepTo_keeps x).1
@[simp] theorem State.regs_stepTo (s : State) (x : Nat) : (s.stepTo x).regs = s.regs := (s.stepTo_keeps x).2.1

theorem State.fld_stepTo (s : State) (x : Nat) (f : Fld) : (s.stepTo x).fld f = s.fld f := State.fld_congr (s.regs_stepTo x) f

/-- The swaps that a step drops show in WEB_PORT_STATUS only. -/
theorem State.dropPastSwaps_keeps (s : State) :
    s.dropPastSwaps.tide = s.tide ∧ (∀ a < 0x101104, s.dropPastSwaps.reg a = s.reg a) ∧ s.dropPastSwaps.mem = s.mem := by
  unfold State.dropPastSwaps
  refine forUpTo_keeps (fun t : State => t.tide = s.tide ∧ (∀ a < 0x101104, t.reg a = s.reg a) ∧ t.mem = s.mem) 18 _ s
    ⟨rfl, fun _ _ => rfl, rfl⟩ ?_
  rintro p t ⟨htide, hreg, hmem⟩
  refine ⟨htide, fun a ha => ?_, hmem⟩
  have hne : a ≠ WEB_PORT_STATUS p := by unfold WEB_PORT_STATUS; omega
  exact (State.reg_setFld_other _ (WEB_PORT_STATUS_swap_pending p) _ hne).trans (hreg a ha)

@[simp] theorem State.tide_dropPastSwaps (s : State) : s.dropPastSwaps.tide = s.tide := s.dropPastSwaps_keeps.1

theorem State.fld_dropPastSwaps (s : State) {f : Fld} (hf : f.addr < 0x101104) : s.dropPastSwaps.fld f = s.fld f := by
  unfold State.fld
  rw [s.dropPastSwaps_keeps.2.1 _ hf]

/-- The fine value of a tide unit that has been stepped. -/
theorem TideUnit.stepped_fine (u : TideUnit) (x : Nat) : (u.stepped x).ns * 65536 + (u.stepped x).frac = x % 2 ^ 80 := by
  show x / 65536 % 2 ^ 64 * 65536 + x % 65536 = x % 2 ^ 80
  omega

/-- A follower's step at the boundary, before swaps that it passes are dropped (R55). -/
def State.followStep (s : State) (g : Nat) (d : Int) (seen : Nat) : State :=
  ((s.atTide (boundaryAfter seen)).stepTo (((s.atTide (boundaryAfter seen)).fine : Int) + d).toNat).setFld TID_STATUS_epoch_gen g

/-- The step is done. -/
def State.unfollow (s : State) : State := { s with tide := { s.tide with follow := none } }

theorem State.fld_unfollow (s : State) (f : Fld) : s.unfollow.fld f = s.fld f := rfl
theorem State.fine_unfollow (s : State) : s.unfollow.fine = s.fine := rfl
theorem State.follow_unfollow (s : State) : s.unfollow.tide.follow = none := rfl

theorem execEpochFollow_of_none {s : State} (h : s.tide.follow = none) : execEpochFollow s = .next s := by
  unfold execEpochFollow
  rw [h]

theorem execEpochFollow_of_some {s : State} {g seen : Nat} {d : Int} (h : s.tide.follow = some (g, d, seen)) :
    execEpochFollow s = .next (s.followStep g d seen).unfollow.dropPastSwaps := by
  unfold execEpochFollow
  rw [h]
  rfl

theorem State.fine_stepTo (s : State) (x : Nat) : (s.stepTo x).fine = x % 2 ^ 80 := by
  unfold State.fine
  rw [s.tide_stepTo]
  exact TideUnit.stepped_fine _ _

@[simp] theorem State.fine_setFld (s : State) (f : Fld) (v : Nat) : (s.setFld f v).fine = s.fine := rfl

theorem State.fine_followStep (s : State) (g : Nat) (d : Int) (seen : Nat) :
    (s.followStep g d seen).fine = (((s.atTide (boundaryAfter seen)).fine : Int) + d).toNat % 2 ^ 80 := by
  unfold State.followStep
  rw [State.fine_setFld, State.fine_stepTo]

theorem State.fine_dropPastSwaps (s : State) : s.dropPastSwaps.fine = s.fine := by
  unfold State.fine
  rw [s.tide_dropPastSwaps]

/-- Settles O8: a clause for each command and each case of its condition. -/
theorem rootHoldoverEpochFollow : Obligations.RootHoldoverEpochFollow := by
  intro s
  refine ⟨fun henable hroot hquiet => ?_, fun hdue hoff => execHoldoverEnter_of_due hdue hoff, fun hhold hlock hdue => ?_,
    execEpochFollow_of_none, fun g d seen x hfollow hx => ?_⟩
  · obtain ⟨h1, h2, h3, h4, h5, h6, h7, h8⟩ := s.announceRoot_shows
    exact ⟨_, execRootAnnounceTimeout_of_due henable hroot hquiet, h1, h2, h3, h4, h5, h6, h7, h8, s.regsBut_announceRoot, s.announceRoot_rest⟩
  · obtain ⟨hlocked, hlost, hkept, hns⟩ := s.loseLock_shows
    exact ⟨_, execHoldoverExpiry_of_due hhold hlock hdue, hlocked, hlost, hkept.trans (State.fld_eq_one_of_flag rfl hhold), hns⟩
  · refine ⟨_, execEpochFollow_of_some hfollow, ?_, ?_, fun hpos => ?_⟩
    · rw [State.tide_dropPastSwaps, State.follow_unfollow]
    · rw [State.fld_dropPastSwaps _ (by decide), State.fld_unfollow]
      exact State.fld_setFld_same _ _ _ (by decide)
    · have hstart : (s.atTide (boundaryAfter seen)).fine = x := hx.symm
      rw [State.fine_dropPastSwaps, State.fine_unfollow, State.fine_followStep, hstart]
      omega

end Sys2Proof.Machine
end

section

/-! SUPPORT. Family 02_tide_and_web.md: the reference inputs and the tide read (O9). -/

namespace Sys2Proof.Machine

/-! ### What an update leaves of registers and tide unit -/

theorem RegsAndTide.atTide {s t : State} {u : TideUnit} (h : RegsAndTide s u t) (x : Nat) :
    RegsAndTide s { u with ns := max u.ns x % 2 ^ 64 } (t.atTide x) := by
  obtain ⟨r, rfl⟩ := h
  exact ⟨r, rfl⟩

/-! ### TIDE_REF (R49, R51) -/

theorem execTideRefLoss_of_ok {s : State} (h : s.flag TID_STATUS_ref_ok = true) :
    ∃ t, execTideRefLoss s = .next t ∧ t.fld TID_STATUS_ref_ok = 0 ∧ RegsBut [TID_STATUS] s t ∧
      RegsAndTide s { (s.atTide (s.tide.refLast / 65536 + 10000)).tide with refEdges := 0 } t := by
  unfold execTideRefLoss
  rw [if_pos h]
  refine ⟨_, rfl, (State.fld_congr rfl _).trans (State.fld_setFld_same (s.atTide _) _ _ (by decide)), ?_, ?_⟩
  · exact RegsBut.congr (RegsBut.setFld (RegsBut.congr (.refl _ s) (s.atTide_regs _)) TID_STATUS_ref_ok 0 (by decide)) rfl
  · exact RegsAndTide.setTide (((RegsAndTide.refl s).atTide _).setFld TID_STATUS_ref_ok 0) _

/-- TIDE_PPS has been absent for 1.5 s since its last edge (R42). -/
theorem execTidePpsLoss_of_ok {s : State} (h : s.flag TID_STATUS_pps_ok = true) :
    ∃ t, execTidePpsLoss s = .next t ∧ t.fld TID_STATUS_pps_ok = 0 ∧ RegsBut [TID_STATUS] s t ∧
      RegsAndTide s (s.atTide (s.tide.ppsLast / 65536 + 1500000000)).tide t := by
  unfold execTidePpsLoss
  rw [if_pos h]
  refine ⟨_, rfl, State.fld_setFld_same _ _ _ (by decide), ?_, ((RegsAndTide.refl s).atTide _).setFld _ _⟩
  exact RegsBut.setFld (RegsBut.congr (.refl _ s) (s.atTide_regs _)) TID_STATUS_pps_ok 0 (by decide)

/-- The tide unit after an edge of TIDE_REF. -/
def State.refNoted (s : State) : TideUnit :=
  { s.tide with
    refSeen := true, refLast := s.fine
    refStart := if s.flag TID_STATUS_ref_ok then s.tide.refStart else s.fine
    refEdges := if s.flag TID_STATUS_ref_ok then s.tide.refEdges + 1 else 0 }

theorem execTideRefEdge_eq (s : State) : execTideRefEdge s = .next { s.setFld TID_STATUS_ref_ok 1 with tide := s.refNoted } := by
  unfold execTideRefEdge State.refNoted
  cases s.flag TID_STATUS_ref_ok <;> rfl

/-! ### The epoch load (R50) -/

/-- The tide that an epoch load sets. -/
def State.epochSet (s : State) : Nat := s.fld TID_EPOCH_SET_LO_epoch_lo + s.fld TID_EPOCH_SET_HI_epoch_hi * 2 ^ 32

theorem State.epochSet_lt (s : State) : s.epochSet < 2 ^ 64 := by
  have hlo : s.fld TID_EPOCH_SET_LO_epoch_lo < 2 ^ 32 := s.fld_lt _
  have hhi : s.fld TID_EPOCH_SET_HI_epoch_hi < 2 ^ 32 := s.fld_lt _
  unfold State.epochSet
  omega

theorem State.loadEpoch_eq (s : State) : s.loadEpoch = (((s.stepTo (s.epochSet * 65536)).setFld TID_CTL_epoch_arm 0).setFld TID_STATUS_epoch_gen
    (s.fld TID_STATUS_epoch_gen + 1)).dropPastSwaps := rfl

/-- An epoch load sets the tide, disarms and advances the epoch generation. -/
theorem State.loadEpoch_shows (s : State) : s.loadEpoch.tide.ns = s.epochSet ∧ s.loadEpoch.tide.frac = 0 ∧
    s.loadEpoch.fld TID_CTL_epoch_arm = 0 ∧ s.loadEpoch.fld TID_STATUS_epoch_gen = (s.fld TID_STATUS_epoch_gen + 1) % 256 := by
  have hlt := s.epochSet_lt
  rw [s.loadEpoch_eq, State.tide_dropPastSwaps, State.setFld_tide, State.setFld_tide, State.tide_stepTo,
    State.fld_dropPastSwaps _ (by decide), State.fld_dropPastSwaps _ (by decide)]
  simp (disch := decide) only [State.fld_setFld_same, State.fld_setFld_other]
  refine ⟨?_, ?_, rfl, rfl⟩
  · show s.epochSet * 65536 / 65536 % 2 ^ 64 = s.epochSet
    omega
  · show s.epochSet * 65536 % 65536 = 0
    omega

/-- The presence of TIDE_PPS outlives an epoch load. -/
theorem State.ppsOk_loadEpoch (s : State) : s.loadEpoch.fld TID_STATUS_pps_ok = s.fld TID_STATUS_pps_ok := by
  rw [s.loadEpoch_eq, State.fld_dropPastSwaps _ (by decide)]
  simp (disch := decide) only [State.fld_setFld_other]
  exact s.fld_stepTo _ _

theorem execEpochArm_of_pps {s : State} (hroot : s.flag TID_STATUS_is_root = true) (hpps : s.flag TID_CTL_use_pps = true) :
    execEpochArm s = .next (s.setFld TID_CTL_epoch_arm 1) := by
  simp [execEpochArm, State.armEpoch, hroot, hpps]

theorem execEpochArm_of_free {s : State} (hroot : s.flag TID_STATUS_is_root = true) (hpps : s.flag TID_CTL_use_pps = false) :
    execEpochArm s = .next s.loadEpoch := by
  simp [execEpochArm, State.armEpoch, hroot, hpps]

theorem execEpochArm_of_not_root {s : State} (hroot : s.flag TID_STATUS_is_root = false) : execEpochArm s = .next s := by
  simp [execEpochArm, State.armEpoch, hroot]

/-! ### TIDE_PPS (R49 to R51) -/

/-- An edge of TIDE_PPS is noted. -/
def State.ppsSeen (s : State) : State := State.setFld { s with tide := { s.tide with ppsLast := s.fine } } TID_STATUS_pps_ok 1

theorem State.fld_ppsSeen (s : State) (f : Fld) : s.ppsSeen.fld f = (s.setFld TID_STATUS_pps_ok 1).fld f :=
  State.fld_congr rfl f

theorem State.ppsOk_ppsSeen (s : State) : s.ppsSeen.fld TID_STATUS_pps_ok = 1 :=
  (s.fld_ppsSeen _).trans (State.fld_setFld_same s _ _ (by decide))

/-- Every other field reads as before. -/
theorem State.fld_ppsSeen_other (s : State) {f : Fld} (h : f.addr ≠ TID_STATUS ∨ 5 ≤ f.lo ∨ f.lo + f.width ≤ 4) : s.ppsSeen.fld f = s.fld f :=
  (s.fld_ppsSeen f).trans (State.fld_setFld_other s _ _ _ (by decide) h)

theorem State.flag_ppsSeen_other (s : State) {f : Fld} (h : f.addr ≠ TID_STATUS ∨ 5 ≤ f.lo ∨ f.lo + f.width ≤ 4) :
    s.ppsSeen.flag f = s.flag f := State.flag_congr (s.fld_ppsSeen_other h)

theorem State.epochSet_ppsSeen (s : State) : s.ppsSeen.epochSet = s.epochSet := by
  unfold State.epochSet
  rw [s.fld_ppsSeen_other (by decide), s.fld_ppsSeen_other (by decide)]

/-- The error of the tide at an edge of TIDE_PPS (R49): its distance from the nearest whole second, in 1/65,536 ns. -/
def ppsError (fine : Nat) : Int :=
  if 2 * (fine % (1000000000 * 65536)) < 1000000000 * 65536 then (fine % (1000000000 * 65536) : Nat)
  else (fine % (1000000000 * 65536) : Nat) - (1000000000 * 65536 : Nat)

/-- No other value within half a second of 0 differs from the tide by whole seconds. -/
theorem ppsError_eq {fine : Nat} {e : Int} (hlo : -(500000000 * 65536) ≤ e) (hhi : e < 500000000 * 65536)
    (hmod : ((fine : Int) - e) % (1000000000 * 65536) = 0) : ppsError fine = e := by
  unfold ppsError
  split <;> omega

/-- A root takes up the error `e` of TIDE_PPS. -/
def State.ppsTaken (s : State) (e : Int) : State :=
  { s with tide := { s.tide with ppsRate := removeRate e, ppsFrames := removeFrames e (removeRate e) } }

theorem State.fld_ppsTaken (s : State) (e : Int) (f : Fld) : (s.ppsTaken e).fld f = s.fld f := rfl

theorem execTidePpsEdge_of_not_root {s : State} (hroot : s.flag TID_STATUS_is_root = false) : execTidePpsEdge s = .next s.ppsSeen := by
  have hroot' : s.ppsSeen.flag TID_STATUS_is_root = false := (s.flag_ppsSeen_other (by decide)).trans hroot
  simp [State.ppsSeen] at hroot'
  simp [execTidePpsEdge, State.ppsSeen, hroot']

section
variable {s : State} (hroot : s.flag TID_STATUS_is_root = true)
include hroot

theorem execTidePpsEdge_of_armed (harm : s.flag TID_CTL_epoch_arm = true) : execTidePpsEdge s = .next s.ppsSeen.loadEpoch := by
  have hroot' : s.ppsSeen.flag TID_STATUS_is_root = true := (s.flag_ppsSeen_other (by decide)).trans hroot
  have harm' : s.ppsSeen.flag TID_CTL_epoch_arm = true := (s.flag_ppsSeen_other (by decide)).trans harm
  unfold State.ppsSeen at *
  simp [execTidePpsEdge, hroot', harm']

theorem execTidePpsEdge_of_unused (harm : s.flag TID_CTL_epoch_arm = false) (hpps : s.flag TID_CTL_use_pps = false) :
    execTidePpsEdge s = .next s.ppsSeen := by
  have hroot' : s.ppsSeen.flag TID_STATUS_is_root = true := (s.flag_ppsSeen_other (by decide)).trans hroot
  have harm' : s.ppsSeen.flag TID_CTL_epoch_arm = false := (s.flag_ppsSeen_other (by decide)).trans harm
  have hpps' : s.ppsSeen.flag TID_CTL_use_pps = false := (s.flag_ppsSeen_other (by decide)).trans hpps
  unfold State.ppsSeen at *
  simp [execTidePpsEdge, hroot', harm', hpps']

theorem execTidePpsEdge_of_used (harm : s.flag TID_CTL_epoch_arm = false) (hpps : s.flag TID_CTL_use_pps = true) :
    execTidePpsEdge s = .next (s.ppsSeen.ppsTaken (ppsError s.fine)).showRate := by
  have hroot' : s.ppsSeen.flag TID_STATUS_is_root = true := (s.flag_ppsSeen_other (by decide)).trans hroot
  have harm' : s.ppsSeen.flag TID_CTL_epoch_arm = false := (s.flag_ppsSeen_other (by decide)).trans harm
  have hpps' : s.ppsSeen.flag TID_CTL_use_pps = true := (s.flag_ppsSeen_other (by decide)).trans hpps
  unfold State.ppsSeen at *
  simp only [execTidePpsEdge, hroot', harm', hpps']
  rfl

end

/-- A root that shows its rate writes TID_RATE_ADJ and nothing else. -/
theorem State.showRate_keeps (s : State) : RegsBut [TID_RATE_ADJ] s s.showRate ∧ s.showRate.tide = s.tide := by
  unfold State.showRate
  split
  · exact ⟨.refl _ s, rfl⟩
  · exact ⟨RegsBut.setFld (.refl _ s) TID_RATE_ADJ_rate _ (by decide), rfl⟩

theorem State.fld_showRate (s : State) {f : Fld} (hf : f.addr ≠ TID_RATE_ADJ) : s.showRate.fld f = s.fld f := by
  unfold State.fld
  rw [s.showRate_keeps.1 f.addr (by simpa using hf)]

/-- What an edge of TIDE_PPS does: it is noted, an armed epoch is loaded on the root, and a root that uses TIDE_PPS takes up its error. -/
theorem execTidePpsEdge_shows (s : State) : ∃ t, execTidePpsEdge s = .next t ∧ t.fld TID_STATUS_pps_ok = 1 ∧
    (s.flag TID_STATUS_is_root = true → s.flag TID_CTL_epoch_arm = true →
      t.tide.ns = s.epochSet ∧ t.tide.frac = 0 ∧ t.fld TID_CTL_epoch_arm = 0 ∧
      t.fld TID_STATUS_epoch_gen = (s.fld TID_STATUS_epoch_gen + 1) % 256) ∧
    (s.flag TID_STATUS_is_root = false ∨ s.flag TID_CTL_epoch_arm = false → t.tide.ns = s.tide.ns) ∧
    (s.flag TID_STATUS_is_root = true → s.flag TID_CTL_epoch_arm = false → s.flag TID_CTL_use_pps = true →
      t.tide.ppsRate = removeRate (ppsError s.fine) ∧
      t.tide.ppsFrames = removeFrames (ppsError s.fine) (removeRate (ppsError s.fine))) := by
  cases hroot : s.flag TID_STATUS_is_root with
  | false =>
    refine ⟨_, execTidePpsEdge_of_not_root hroot, s.ppsOk_ppsSeen, ?_, fun _ => rfl, ?_⟩
    · exact fun h => Bool.noConfusion h
    · exact fun h => Bool.noConfusion h
  | true =>
    cases harm : s.flag TID_CTL_epoch_arm with
    | true =>
      obtain ⟨hns, hfrac, hoff, hgen⟩ := s.ppsSeen.loadEpoch_shows
      rw [s.epochSet_ppsSeen] at hns
      rw [s.fld_ppsSeen_other (by decide)] at hgen
      refine ⟨_, execTidePpsEdge_of_armed hroot harm, (State.ppsOk_loadEpoch _).trans s.ppsOk_ppsSeen, fun _ _ => ⟨hns, hfrac, hoff, hgen⟩,
        fun h => ?_, fun _ h => Bool.noConfusion h⟩
      exact absurd h (by decide)
    | false =>
      cases hpps : s.flag TID_CTL_use_pps with
      | false =>
        refine ⟨_, execTidePpsEdge_of_unused hroot harm hpps, s.ppsOk_ppsSeen, fun _ h => Bool.noConfusion h, fun _ => rfl,
          fun _ _ h => Bool.noConfusion h⟩
      | true =>
        have htide := (s.ppsSeen.ppsTaken (ppsError s.fine)).showRate_keeps.2
        refine ⟨_, execTidePpsEdge_of_used hroot harm hpps, ?_, fun _ h => Bool.noConfusion h, fun _ => ?_, fun _ _ _ => ?_⟩
        · rw [State.fld_showRate _ (by decide), State.fld_ppsTaken, s.ppsOk_ppsSeen]
        · rw [htide]
          rfl
        · rw [htide]
          exact ⟨rfl, rfl⟩

/-! ### The tide read (R42) -/

theorem State.view_tidNowLo (s : State) : (s.view TID_NOW_LO).toNat = s.tide.ns % 2 ^ 32 := by
  have hshown : s.shown TID_NOW_LO = [(TID_NOW_LO_tide_lo, s.tide.ns % 2 ^ 32)] := if_pos rfl
  unfold State.view
  rw [if_neg (by decide), if_neg (by decide), hshown]
  have hput : putBits (s.reg TID_NOW_LO).toNat 0 32 (s.tide.ns % 2 ^ 32) = s.tide.ns % 2 ^ 32 := by
    have hreg := (s.reg TID_NOW_LO).isLt
    unfold putBits bitsOf
    omega
  show (BitVec.ofNat 32 (putBits (s.reg TID_NOW_LO).toNat 0 32 (s.tide.ns % 2 ^ 32))).toNat = _
  rw [hput, BitVec.toNat_ofNat, Nat.mod_mod]

theorem State.view_tidNowHi (s : State) : (s.view TID_NOW_HI).toNat = s.fld TID_NOW_HI_tide_hi := by
  have hshown : s.shown TID_NOW_HI = [] := by
    simp +decide only [State.shown, ↓reduceIte]
  have hreg := (s.reg TID_NOW_HI).isLt
  have hfld : s.fld TID_NOW_HI_tide_hi = (s.reg TID_NOW_HI).toNat / 2 ^ 0 % 2 ^ 32 := rfl
  unfold State.view
  rw [if_neg (by decide), if_neg (by decide), hshown, hfld]
  show (BitVec.ofNat 32 (s.reg TID_NOW_HI).toNat).toNat = _
  rw [BitVec.toNat_ofNat]
  omega

theorem execTidNowLoRead_of_open {s : State} (h : s.fld HUB_BOOT_STATUS_phase ≠ 7) : execTidNowLoRead s =
    .next { s.setFld TID_NOW_HI_tide_hi (s.tide.ns / 2 ^ 32) with out := ⟨leBytes 4 (s.tide.ns % 2 ^ 32), false, false⟩ } := by
  unfold execTidNowLoRead
  rw [if_neg h]
  show Host.Outcome.next { s.setFld TID_NOW_HI_tide_hi (s.tide.ns / 2 ^ 32) with
    out := ⟨leBytes 4 (s.view TID_NOW_LO).toNat, false, false⟩ } = _
  rw [s.view_tidNowLo]

/-- The host reads the latched half as it stands, in every power state (R42, R635). -/
theorem execBar0MisalignedAccess_tidNowHi {s : State} (h : s.fld HUB_BOOT_STATUS_phase ≠ 7) :
    execBar0MisalignedAccess (BitVec.ofNat 26 TID_NOW_HI) 4 false s =
      .next { s with out := ⟨leBytes 4 (s.fld TID_NOW_HI_tide_hi), false, false⟩ } := by
  have hnat : (BitVec.ofNat 26 TID_NOW_HI).toNat = TID_NOW_HI := rfl
  have hread : s.hostReg TID_NOW_HI = ((s.view TID_NOW_HI).toNat, s) := by
    unfold State.hostReg
    rw [if_neg (fun hc => h hc.1), if_neg (by decide)]
    rfl
  have htouch : s.hostTouch TID_NOW_HI = s := if_pos (by decide)
  unfold execBar0MisalignedAccess
  dsimp only
  rw [hnat, if_neg (by decide), if_neg (fun hc => absurd hc.2 (by decide)), if_pos (by decide), if_neg (by decide), if_pos rfl, htouch, hread,
    s.view_tidNowHi]

end Sys2Proof.Machine
end

section

/-! SUPPORT. Family 02_tide_and_web.md: what leaves the web and the tide unit alone. -/

namespace Sys2Proof.Machine

/-! ### What stays away from the tide and the web -/

/-- The registers of tide and web but for the halves of a tide read: TID_CTL to the banks of the web tables. -/
abbrev WebReg (a : Nat) : Prop := 0x100008 ≤ a ∧ a < 0x200000

theorem not_webReg_rgn (n o : Nat) : ¬WebReg (rgnBase n + o) := by
  unfold WebReg rgnBase
  omega

/-- The registers of a harvest unit or an HBM controller. -/
theorem not_webReg_unit (n k c o : Nat) : ¬WebReg (rgnBase n + k + c * 0x40 + o) := by
  unfold WebReg rgnBase
  omega

theorem not_webReg_blk (b o : Nat) : ¬WebReg (blkBase b + o) := by
  unfold WebReg blkBase
  omega

theorem not_webReg_cntOverflow (k : Nat) : ¬WebReg (CNT_VALUE_HI_overflow k).addr := by
  show ¬WebReg (0xC10004 + k * 8)
  unfold WebReg
  omega

theorem not_webReg_pba (v : Nat) : ¬WebReg (pbaFld v).addr := by
  show ¬WebReg (0x3C0000 + v / 32 * 4)
  unfold WebReg
  omega

theorem webReg_alarmCtl (n : Fin 16) : WebReg (TID_ALARM_CTL n.val) := by
  unfold WebReg TID_ALARM_CTL
  omega

theorem webReg_portStatus (p : Fin 18) : WebReg (WEB_PORT_STATUS p.val) := by
  unfold WebReg WEB_PORT_STATUS
  omega

/-- The parts of a state that the relation below reads. -/
def State.webView (s : State) : SMap Word × TideUnit × SMap PortUnit × Bool × Bool × SMap Nat :=
  (s.regs, s.tide, s.ports, s.movedNow, s.movedLast, s.cnt)

theorem cntPort_ne_zero (p e : Nat) : cntPort p e ≠ 0 := by
  unfold cntPort
  omega

theorem cntRegion_ne_zero (n e : Nat) : cntRegion n e ≠ 0 := by
  unfold cntRegion
  omega

theorem cntCtrl_ne_zero (u e : Nat) : cntCtrl u e ≠ 0 := by
  unfold cntCtrl
  omega

theorem cntBlock_ne_zero (b e : Nat) : cntBlock b e ≠ 0 := by
  unfold cntBlock
  omega

/-- Tide unit, ports, the registers of tide and web, whether cells have moved and the count of frames are as before. -/
structure OffWeb (s t : State) : Prop where
  tide : t.tide = s.tide
  ports : t.ports = s.ports
  movedNow : t.movedNow = s.movedNow
  movedLast : t.movedLast = s.movedLast
  frames : t.cntVal 0 = s.cntVal 0
  regs : ∀ a, WebReg a → t.reg a = s.reg a

theorem OffWeb.refl (s : State) : OffWeb s s := ⟨rfl, rfl, rfl, rfl, rfl, fun _ _ => rfl⟩

theorem OffWeb.trans {s t u : State} (h : OffWeb s t) (k : OffWeb t u) : OffWeb s u :=
  ⟨k.tide.trans h.tide, k.ports.trans h.ports, k.movedNow.trans h.movedNow, k.movedLast.trans h.movedLast, k.frames.trans h.frames,
    fun a ha => (k.regs a ha).trans (h.regs a ha)⟩

theorem OffWeb.fld {s t : State} (h : OffWeb s t) {f : Fld} (hf : WebReg f.addr) : t.fld f = s.fld f := by
  unfold State.fld
  rw [h.regs _ hf]

theorem OffWeb.port {s t : State} (h : OffWeb s t) (p : Nat) : t.port p = s.port p := by
  unfold State.port
  rw [h.ports]

section
variable {s t u : State} (h : OffWeb s t)
include h

/-- An update of nothing that `OffWeb` speaks of. -/
theorem OffWeb.congr (hu : u.webView = t.webView) : OffWeb s u := by
  unfold State.webView at hu
  simp only [Prod.mk.injEq] at hu
  obtain ⟨hregs, htide, hports, hnow, hlast, hcnt⟩ := hu
  exact h.trans ⟨htide, hports, hnow, hlast, congrArg (fun m => SMap.get (fun _ => 0) m 0) hcnt, fun a _ => State.reg_congr hregs a⟩

theorem OffWeb.foldl {α : Type} (l : List α) (f : State → α → State) (hf : ∀ y b, OffWeb s y → OffWeb s (f y b)) :
    OffWeb s (l.foldl f t) :=
  foldl_keeps (OffWeb s) l f t h hf

theorem OffWeb.forUpTo (n : Nat) (f : Nat → State → State) (hf : ∀ i y, OffWeb s y → OffWeb s (f i y)) : OffWeb s (forUpTo n f t) :=
  forUpTo_keeps (OffWeb s) n f t h hf

/-! #### Registers and event counters -/

theorem OffWeb.setFld (f : Fld) (v : Nat) (hf : ¬WebReg f.addr) : OffWeb s (t.setFld f v) :=
  h.trans ⟨rfl, rfl, rfl, rfl, rfl, fun _ ha => t.reg_setFld_other f v fun e => hf (by rwa [← e])⟩

theorem OffWeb.bump (f : Fld) (n : Nat) (hf : ¬WebReg f.addr) : OffWeb s (t.bump f n) := h.setFld f _ hf

theorem OffWeb.setFlag (f : Fld) (hf : ¬WebReg f.addr) : OffWeb s (t.setFlag f) := (h.setFld f 1 hf).congr rfl

theorem OffWeb.setFlagIf (c : Bool) (f : Fld) (hf : ¬WebReg f.addr) : OffWeb s (t.setFlagIf c f) := by
  unfold State.setFlagIf
  split
  · exact h.setFlag f hf
  · exact h

/-- An event counter other than that of frames. -/
theorem OffWeb.count (k n : Nat) (hk : k ≠ 0) : OffWeb s (t.count k n) := by
  have hother : OffWeb s { t with cnt := SMap.set (fun _ => 0) t.cnt k ((SMap.get (fun _ => 0) t.cnt k + n) % 2 ^ 48) } :=
    h.trans ⟨rfl, rfl, rfl, rfl, SMap.get_set_other _ _ hk.symm, fun _ _ => State.reg_congr rfl _⟩
  exact hother.setFlagIf _ _ (not_webReg_cntOverflow k)

theorem OffWeb.countBytes (k n : Nat) (hk : k ≠ 0) : OffWeb s (t.countBytes k n) :=
  OffWeb.count (by exact h.congr rfl) k _ hk

/-! #### Memory and host memory -/

theorem OffWeb.setBytes (a : Nat) (bs : List Byte) : OffWeb s (t.setBytes a bs) := by
  induction bs generalizing t a with
  | nil => exact h
  | cons b bs ih => exact ih (by exact h.congr rfl) (a + 1)

theorem OffWeb.writeLine (a : Nat) (bs : List Byte) : OffWeb s (t.writeLine a bs) := by
  have hbytes := ((h.count _ 1 (cntCtrl_ne_zero (hbmStack a) 1)).countBytes _ bs.length (cntRegion_ne_zero (hbmStack a / 6) 1)).setBytes a bs
  unfold State.writeLine
  dsimp only
  split
  · exact hbytes
  · split
    · exact hbytes.congr rfl
    · exact hbytes.setFlag _ (not_webReg_unit _ 0x5000 _ 0)

theorem OffWeb.writeHbm (a : Nat) (bs : List Byte) (fuel : Nat) : OffWeb s (t.writeHbm a bs fuel) := by
  induction fuel generalizing t a bs with
  | zero => exact h
  | succ fuel ih =>
    unfold State.writeHbm
    split
    · exact h
    · exact ih (h.writeLine _ _) _ _

theorem OffWeb.put (a : Nat) (bs : List Byte) : OffWeb s (t.put a bs) := by
  unfold State.put
  split
  · exact h.writeHbm a bs _
  · exact h.setBytes a bs

theorem OffWeb.setHost (a : Nat) (bs : List Byte) : OffWeb s (t.setHost a bs) := by
  have hput : OffWeb s (t.putHost a bs) := by
    induction bs generalizing t a with
    | nil => exact h
    | cons b bs ih => exact ih (by exact h.congr rfl) (a + 1)
  unfold State.setHost
  split
  · exact h
  · exact hput

theorem OffWeb.noteHbmRead (a n : Nat) : OffWeb s (t.noteHbmRead a n) := by
  unfold State.noteHbmRead
  split
  · exact h
  · refine OffWeb.countBytes (h.forUpTo _ _ fun i y hy => ?_) _ _ (cntRegion_ne_zero _ _)
    unfold State.noteLineRead
    dsimp only
    split
    · exact ((hy.count _ 1 (cntCtrl_ne_zero _ _)).setFlag _ (not_webReg_unit _ 0x5000 _ 0)).bump _ 1 (not_webReg_unit _ 0x5000 _ 8)
    · exact hy.count _ 1 (cntCtrl_ne_zero _ _)

/-! #### Interrupts, wakes and error records -/

theorem OffWeb.msix (v : Nat) : OffWeb s (t.msix v) := by
  unfold State.msix State.msixMessage
  split
  · exact h.setFld _ _ (not_webReg_pba v)
  · exact ((h.setHost _ _).setFld _ _ (not_webReg_pba v)).count _ _ (by decide)

theorem OffWeb.setWakePend (w : Option Nat) : OffWeb s { t with wakePend := w } := h.congr rfl

theorem OffWeb.setWakeLow (low : Bool) : OffWeb s { t with wakeLow := low } := h.congr rfl

theorem OffWeb.startExit (src : Nat) : OffWeb s (t.startExit src) := by
  have hstart := ((h.setFld PWR_STATUS_exiting 1 (by decide)).setFld PWR_STATUS_last_wake src (by decide)).bump PWR_WAKE_COUNT_wakes 1 (by decide)
  unfold State.startExit
  dsimp only
  split
  · exact hstart.setWakeLow true
  · exact hstart

theorem OffWeb.wakeBy (src : Nat) : OffWeb s (t.wakeBy src) := by
  unfold State.wakeBy
  split
  · split
    · exact h
    · exact ((h.setFlag PWR_STATUS_wake_in_entry (by decide)).bump PWR_WAKE_COUNT_wakes_in_entry 1 (by decide)).setWakePend _
  · split
    · exact h
    · exact h.startExit src

theorem OffWeb.errToRing (bs : List Byte) : OffWeb s (t.errToRing bs) := by
  have hwritten : ∀ a : Nat, OffWeb s (if t.flag HUB_ERR_CFG_in_device then t.put a bs else t.setHost a bs) := by
    intro a
    split
    · exact h.put a bs
    · exact h.setHost a bs
  unfold State.errToRing
  dsimp only
  split
  · exact ((hwritten _).setFld HUB_ERR_TAIL_tail _ (by decide)).msix _
  · exact (hwritten _).setFld HUB_ERR_TAIL_tail _ (by decide)

theorem OffWeb.writeErr (severity : Nat) (bs : List Byte) : OffWeb s (t.writeErr severity bs) := by
  have hnew : OffWeb s (if 1 ≤ severity then { t with errNew := (t.errNew ++ [bs]).drop (t.errNew.length - 62) } else t) := by
    split
    · exact h.congr rfl
    · exact h
  unfold State.writeErr
  dsimp only
  generalize (if 1 ≤ severity then { t with errNew := (t.errNew ++ [bs]).drop (t.errNew.length - 62) } else t) = t1 at hnew ⊢
  have hhist : OffWeb s (if 3 ≤ severity then { t1 with errHist := (t1.errHist ++ [bs]).drop (t1.errHist.length - 63) } else t1) := by
    split
    · exact hnew.congr rfl
    · exact hnew
  generalize (if 3 ≤ severity then { t1 with errHist := (t1.errHist ++ [bs]).drop (t1.errHist.length - 63) } else t1) = t2 at hhist ⊢
  split
  · exact hhist.errToRing bs
  · split
    · exact (hhist.setFlag HUB_ERR_STATUS_dropped (by decide)).bump HUB_ERR_STATUS_dropped_count 1 (by decide)
    · split
      · exact OffWeb.setFld (by exact hhist.congr rfl) HUB_ERR_STATUS_buffered _ (by decide)
      · exact (hhist.setFlag HUB_ERR_STATUS_lost_severe (by decide)).bump HUB_ERR_STATUS_dropped_count 1 (by decide)

theorem OffWeb.error (r : ErrRec) : OffWeb s (t.error r) := by
  unfold State.error
  split
  · exact h.congr rfl
  · exact OffWeb.writeErr (by exact h.congr rfl) _ _

/-! #### Counters and their homes (R416, R427) -/

theorem OffWeb.setSync (r : Nat) (x : SyncUnit) : OffWeb s (t.setSync r x) :=
  OffWeb.setFld (OffWeb.setFld (by exact h.congr rfl) _ _ (not_webReg_rgn r 0x4000)) _ _ (not_webReg_rgn r 0x4000)

theorem OffWeb.toHome (o : SyncOp) : OffWeb s (t.toHome o) := (h.setSync _ _).count _ _ (cntRegion_ne_zero _ _)

theorem OffWeb.syncDrop (r : Nat) : OffWeb s (t.syncDrop r) := (h.bump _ 1 (not_webReg_rgn r 0x4008)).setFlag _ (not_webReg_rgn r 0x4000)

theorem OffWeb.releaseGated (stream : Nat) : OffWeb s (t.releaseGated stream) :=
  OffWeb.setFld (OffWeb.foldl (by exact h.congr rfl) _ _ fun _ _ hy => hy.toHome _) SYN_STATUS_gated_held _ (by decide)

/-! #### The end of a descriptor (R470, R477) -/

theorem OffWeb.complete (e : Nat) (st : List Status) (err : ErrCode) (c1 c2 : Nat) : OffWeb s (t.complete e st err c1 c2) := by
  refine OffWeb.congr (t := t.countUpdate e) ?_ rfl
  refine h.trans ⟨rfl, rfl, rfl, rfl, rfl, fun a ha => ?_⟩
  by_cases hk : dKind (t.desc e) = kindUpdate
  · have hregs : (t.countUpdate e).regs = (t.bump (UPD_ENGINE_COUNT_updates (leAt (t.desc e) 37 1 % 64))).regs := by
      simp [State.countUpdate, hk]
    rw [State.reg_congr hregs]
    exact t.reg_bump_other _ 1 fun hae => not_webReg_blk (leAt (t.desc e) 37 1 % 64) 0xF04 (by rwa [hae] at ha)
  · exact State.reg_congr (by simp [State.countUpdate, hk]) a

theorem OffWeb.failWith (e : Nat) (err : ErrCode) : OffWeb s (t.failWith e err) := h.complete e _ err 0 0

theorem OffWeb.okWith (e c1 c2 : Nat) : OffWeb s (t.okWith e c1 c2) := h.complete e _ _ c1 c2

/-! #### Accesses of units and of other modules (R510 to R513) -/

theorem OffWeb.unmapped : OffWeb s t.unmapped := (h.setFlag HUB_ADDR_STATUS_unmapped (by decide)).bump HUB_ADDR_COUNT_unmapped_accesses 1 (by decide)

theorem OffWeb.winRead (b off len : Nat) : OffWeb s (t.winRead b off len).2.2 := by
  refine OffWeb.count (h.foldl _ _ fun y row hy => ?_) _ _ (cntBlock_ne_zero _ _)
  have hrow : OffWeb s (y.setPanRow b row { y.panRow b row with parityErr := true }) := hy.congr rfl
  exact ((hrow.setFlag _ (not_webReg_blk b 0x400)).bump _ 1 (not_webReg_blk b 0x400)).count _ _ (cntBlock_ne_zero _ _)

theorem OffWeb.winWrite (b off : Nat) (data : List Byte) : OffWeb s (t.winWrite b off data) := by
  unfold State.winWrite
  split
  · exact (h.setFlag _ (not_webReg_blk b 0x400)).bump _ 1 (not_webReg_blk b 0x404)
  · refine OffWeb.count (h.forUpTo _ _ fun i y hy => ?_) _ _ (cntBlock_ne_zero _ _)
    dsimp only
    split
    · exact hy
    · exact hy.congr rfl

/-- A read of the register mirror latches at most TID_NOW_HI (R42). -/
theorem OffWeb.readReg (a : Nat) : OffWeb s (t.readReg a).2 := by
  unfold State.readReg
  dsimp only
  split
  · exact h.setFld TID_NOW_HI_tide_hi _ (by decide)
  · exact h

theorem OffWeb.readPiece (who : Who) (a n : Nat) : OffWeb s (t.readPiece who a n).2.2 := by
  unfold State.readPiece
  split
  · split
    · exact h.noteHbmRead a n
    · exact (h.countBytes _ n (cntBlock_ne_zero _ _)).countBytes _ n (cntRegion_ne_zero _ _)
    · exact (h.winRead _ _ n).countBytes _ n (cntRegion_ne_zero _ _)
    · exact h.countBytes _ n (cntRegion_ne_zero _ _)
    · split
      · exact h.unmapped
      · split
        · exact h
        · exact h.syncDrop _
    · split
      · exact h.unmapped.setFlag HUB_ADDR_STATUS_remote_mirror (by decide)
      · split
        · exact h.readReg _
        · exact h.bump HUB_ADDR_COUNT_unmapped_accesses 1 (by decide)
    · exact h.unmapped
  · exact h.unmapped

theorem OffWeb.writePiece (who : Who) (a : Nat) (bs : List Byte) : OffWeb s (t.writePiece noMirror who a bs).2 := by
  unfold State.writePiece
  split
  · split
    · exact h.writeHbm a bs _
    · exact ((h.setBytes a bs).countBytes _ _ (cntBlock_ne_zero _ _)).countBytes _ _ (cntRegion_ne_zero _ _)
    · exact (h.winWrite _ _ bs).countBytes _ _ (cntRegion_ne_zero _ _)
    · exact h
    · dsimp only
      split
      · exact h.toHome _
      · exact h.syncDrop _
    · split
      · exact h.unmapped.setFlag HUB_ADDR_STATUS_remote_mirror (by decide)
      · split
        · exact h
        · exact h.bump HUB_ADDR_COUNT_unmapped_accesses 1 (by decide)
    · exact h.unmapped
  · exact h.unmapped

theorem OffWeb.busRead (who : Who) (a n fuel : Nat) : OffWeb s (t.busRead who a n fuel).2.2 := by
  induction fuel generalizing t a n with
  | zero => exact h
  | succ fuel ih =>
    unfold State.busRead
    split
    · exact h
    · exact ih (h.readPiece who a _) _ _

theorem OffWeb.busWrite (who : Who) (a : Nat) (bs : List Byte) (fuel : Nat) : OffWeb s (t.busWrite noMirror who a bs fuel).2 := by
  induction fuel generalizing t a bs with
  | zero => exact h
  | succ fuel ih =>
    unfold State.busWrite
    split
    · exact h
    · exact ih (h.writePiece who a _) _ _

theorem OffWeb.load (who : Who) (a n : Nat) : OffWeb s (t.load who a n).2.2 := h.busRead who a n _

theorem OffWeb.store (who : Who) (a : Nat) (bs : List Byte) : OffWeb s (t.store who a bs).2 := h.busWrite who a bs _

end

end Sys2Proof.Machine
end

section

/-! SUPPORT. Family 02_tide_and_web.md: alarms and TIDE_OUT (O9). -/

namespace Sys2Proof.Machine

theorem RegsBut.ite {l : List Nat} {s t u : State} {c : Prop} [Decidable c] (ht : RegsBut l s t) (hu : RegsBut l s u) :
    RegsBut l s (if c then t else u) := by
  split
  · exact ht
  · exact hu

theorem RegsAndTide.ite {s t u : State} {x : TideUnit} {c : Prop} [Decidable c] (ht : RegsAndTide s x t) (hu : RegsAndTide s x u) :
    RegsAndTide s x (if c then t else u) := by
  split
  · exact ht
  · exact hu

/-! ### Alarms (R60, R61) -/

/-- An alarm that has fired, before its actions. -/
def State.alarmFired (s : State) (n : Nat) (late : Bool) : State :=
  ((s.setFld (TID_ALARM_CTL_armed n) 0).setFlag (TID_ALARM_CTL_fired n)).setFlagIf late (TID_ALARM_CTL_late n)

/-- The signal of alarm `n`. -/
def State.alarmOp (s : State) (n : Nat) : SyncOp := ⟨s.fld (TID_ALARM_TARGET_counter n), 0, 1, ⟨s.chip, srcAlarm n⟩, none⟩

theorem State.fireAlarm_eq (s : State) (n : Nat) (late : Bool) : s.fireAlarm n late =
    (let s2 := if !s.flag (TID_ALARM_CTL_act_signal n) then s.alarmFired n late
      else if s.fld PWR_STATUS_state < 2 then (s.alarmFired n late).toHome (s.alarmOp n)
      else { s.alarmFired n late with heldAlarms := (s.alarmFired n late).heldAlarms ++ [s.alarmOp n] }
    let s3 := if s.flag (TID_ALARM_CTL_act_wake n) then s2.wakeBy 5 else s2
    if s.flag (TID_ALARM_CTL_act_msix n) then s3.msix (s.fld (TID_ALARM_TARGET_vector n)) else s3) := rfl

/-- The actions of an alarm change nothing of the tide unit and none of its registers. -/
theorem State.offWeb_fireAlarm (s : State) (n : Nat) (late : Bool) : OffWeb (s.alarmFired n late) (s.fireAlarm n late) := by
  have hfired := OffWeb.refl (s.alarmFired n late)
  rw [s.fireAlarm_eq]
  generalize s.alarmFired n late = t at hfired ⊢
  have hsignal : OffWeb t (if !s.flag (TID_ALARM_CTL_act_signal n) then t
      else if s.fld PWR_STATUS_state < 2 then t.toHome (s.alarmOp n) else { t with heldAlarms := t.heldAlarms ++ [s.alarmOp n] }) := by
    split
    · exact hfired
    · split
      · exact hfired.toHome _
      · exact hfired.congr rfl
  dsimp only
  generalize (if !s.flag (TID_ALARM_CTL_act_signal n) then t
      else if s.fld PWR_STATUS_state < 2 then t.toHome (s.alarmOp n) else { t with heldAlarms := t.heldAlarms ++ [s.alarmOp n] }) = t2
    at hsignal ⊢
  have hwake : OffWeb t (if s.flag (TID_ALARM_CTL_act_wake n) then t2.wakeBy 5 else t2) := by
    split
    · exact hsignal.wakeBy 5
    · exact hsignal
  split
  · exact hwake.msix _
  · exact hwake

theorem State.fld_setFlagIf (s : State) (c : Bool) (f g : Fld) : (s.setFlagIf c f).fld g = if c then (s.setFlag f).fld g else s.fld g := by
  cases c <;> rfl

/-- A flag that was set reads 1. -/
theorem State.fld_setFlag_same (s : State) (f : Fld) (hw : f.width = 1) (hlo : f.lo + 1 ≤ 32) : (s.setFlag f).fld f = 1 := by
  rw [State.fld_setFlag, State.fld_setFld_same _ _ _ (by rw [hw]; exact hlo), hw]
  rfl

/-- Setting a flag keeps the fields beside it. -/
theorem State.fld_setFlag_bits (s : State) (f g : Fld) (hw : f.lo + f.width ≤ 32) (h : f.lo + f.width ≤ g.lo ∨ g.lo + g.width ≤ f.lo) :
    (s.setFlag f).fld g = s.fld g := State.fld_setFld_bits s f g 1 hw h

@[simp] theorem State.tide_alarmFired (s : State) (n : Nat) (late : Bool) : (s.alarmFired n late).tide = s.tide := by
  rw [State.alarmFired, State.tide_setFlagIf, State.setFlag_tide, State.setFld_tide]

/-- An alarm that has fired is disarmed and flagged, and flagged as late where it is. -/
theorem State.alarmFired_shows (s : State) (n : Nat) (late : Bool) :
    (s.alarmFired n late).fld (TID_ALARM_CTL_armed n) = 0 ∧ (s.alarmFired n late).fld (TID_ALARM_CTL_fired n) = 1 ∧
    (s.alarmFired n late).fld (TID_ALARM_CTL_late n) = if late then 1 else s.fld (TID_ALARM_CTL_late n) := by
  have hfired (t : State) : (t.setFlag (TID_ALARM_CTL_fired n)).fld (TID_ALARM_CTL_fired n) = 1 :=
    t.fld_setFlag_same _ rfl (by decide : 1 + 1 ≤ 32)
  have hlate (t : State) : (t.setFlag (TID_ALARM_CTL_late n)).fld (TID_ALARM_CTL_late n) = 1 :=
    t.fld_setFlag_same _ rfl (by decide : 2 + 1 ≤ 32)
  have hdisarmed : (s.setFld (TID_ALARM_CTL_armed n) 0).fld (TID_ALARM_CTL_armed n) = 0 :=
    State.fld_setFld_same _ _ _ (by decide : 0 + 1 ≤ 32)
  have hkeepFired (t : State) (g : Fld) (hg : g = TID_ALARM_CTL_armed n ∨ g = TID_ALARM_CTL_late n) :
      (t.setFlag (TID_ALARM_CTL_fired n)).fld g = t.fld g := by
    refine t.fld_setFlag_bits _ g (by decide : 1 + 1 ≤ 32) ?_
    rcases hg with rfl | rfl
    · exact .inr (by decide : 0 + 1 ≤ 1)
    · exact .inl (by decide : 1 + 1 ≤ 2)
  have hkeepLate (t : State) (g : Fld) (hg : g = TID_ALARM_CTL_armed n ∨ g = TID_ALARM_CTL_fired n) :
      (t.setFlag (TID_ALARM_CTL_late n)).fld g = t.fld g := by
    refine t.fld_setFlag_bits _ g (by decide : 2 + 1 ≤ 32) ?_
    rcases hg with rfl | rfl
    · exact .inr (by decide : 0 + 1 ≤ 2)
    · exact .inr (by decide : 1 + 1 ≤ 2)
  have hother : (s.setFld (TID_ALARM_CTL_armed n) 0).fld (TID_ALARM_CTL_late n) = s.fld (TID_ALARM_CTL_late n) :=
    State.fld_setFld_bits _ _ _ _ (by decide : 0 + 1 ≤ 32) (.inl (by decide : 0 + 1 ≤ 2))
  unfold State.alarmFired
  rw [State.fld_setFlagIf, State.fld_setFlagIf, State.fld_setFlagIf, hkeepLate _ _ (.inl rfl), hkeepLate _ _ (.inr rfl), hlate,
    hkeepFired _ _ (.inl rfl), hkeepFired _ _ (.inr rfl), hfired, hdisarmed, hother]
  exact ⟨ite_self _, ite_self _, rfl⟩

/-- A fired alarm with its actions: its flags, and the tide unit as before. -/
theorem State.fireAlarm_shows (s : State) (n : Fin 16) (late : Bool) :
    (s.fireAlarm n.val late).fld (TID_ALARM_CTL_armed n.val) = 0 ∧ (s.fireAlarm n.val late).fld (TID_ALARM_CTL_fired n.val) = 1 ∧
    (s.fireAlarm n.val late).fld (TID_ALARM_CTL_late n.val) = (if late then 1 else s.fld (TID_ALARM_CTL_late n.val)) ∧
    (s.fireAlarm n.val late).tide = s.tide := by
  have hoff := s.offWeb_fireAlarm n.val late
  obtain ⟨harmed, hfired, hlate⟩ := s.alarmFired_shows n.val late
  have hweb := webReg_alarmCtl n
  exact ⟨(hoff.fld hweb).trans harmed, (hoff.fld hweb).trans hfired, (hoff.fld hweb).trans hlate, hoff.tide.trans (s.tide_alarmFired _ _)⟩

/-- The tide for which alarm `n` is set. -/
def State.alarmValue (s : State) (n : Nat) : Nat := s.fld (TID_ALARM_LO_value_lo n) + s.fld (TID_ALARM_HI_value_hi n) * 2 ^ 32

/-- The flags that a write of TID_ALARMn_CTL clears, and the enables that it sets. -/
def State.alarmCtl (s : State) (n : Nat) (v : Word) : State :=
  let clr := fun (t : State) (f : Fld) => if bitOf v.toNat f.lo then t.setFld f 0 else t
  (((clr (clr s (TID_ALARM_CTL_fired n)) (TID_ALARM_CTL_late n)).setFld (TID_ALARM_CTL_act_signal n) (bitsOf v.toNat 3 1)).setFld
    (TID_ALARM_CTL_act_msix n) (bitsOf v.toNat 4 1)).setFld (TID_ALARM_CTL_act_wake n) (bitsOf v.toNat 5 1)

/-- The copied value of an alarm. -/
def State.copyAlarm (s : State) (n value : Nat) : State :=
  { s with tide := { s.tide with alarms := SMap.set (fun _ => 0) s.tide.alarms n value } }

theorem State.fld_copyAlarm (s : State) (n value : Nat) (f : Fld) : (s.copyAlarm n value).fld f = s.fld f := State.fld_congr rfl f

/-- The alarm is armed and its value copied. -/
def State.alarmSet (s : State) (n : Nat) (v : Word) : State :=
  ((s.alarmCtl n v).setFld (TID_ALARM_CTL_armed n) 1).copyAlarm n (s.alarmValue n)

theorem State.alarmWrite_of_arm {s : State} {n : Nat} {v : Word} (hbit : bitOf v.toNat 0 = true)
    (hoff : s.flag (TID_ALARM_CTL_armed n) = false) : s.alarmWrite n v =
      if s.alarmValue n ≤ s.tide.ns then (s.alarmSet n v).fireAlarm n true else s.alarmSet n v := by
  unfold State.alarmWrite State.alarmSet State.copyAlarm State.alarmCtl State.alarmValue
  simp only [hbit, hoff, Bool.not_true, Bool.false_eq_true, if_false]

theorem State.alarmCtl_frame (s : State) (n : Nat) (v : Word) :
    RegsBut [TID_ALARM_CTL n] s (s.alarmCtl n v) ∧ RegsAndTide s s.tide (s.alarmCtl n v) := by
  have hmem : TID_ALARM_CTL n ∈ [TID_ALARM_CTL n] := List.mem_singleton_self _
  have hclear : ∀ (t : State) (f : Fld), f.addr = TID_ALARM_CTL n → RegsBut [TID_ALARM_CTL n] s t ∧ RegsAndTide s s.tide t →
      RegsBut [TID_ALARM_CTL n] s (if bitOf v.toNat f.lo then t.setFld f 0 else t) ∧
      RegsAndTide s s.tide (if bitOf v.toNat f.lo then t.setFld f 0 else t) := fun t f hf ⟨hregs, hrest⟩ =>
    ⟨RegsBut.ite (hregs.setFld f 0 (hf ▸ hmem)) hregs, RegsAndTide.ite (hrest.setFld f 0) hrest⟩
  obtain ⟨hregs, hrest⟩ := hclear _ (TID_ALARM_CTL_late n) rfl (hclear s (TID_ALARM_CTL_fired n) rfl ⟨.refl _ s, .refl s⟩)
  unfold State.alarmCtl
  exact ⟨((hregs.setFld (TID_ALARM_CTL_act_signal n) _ hmem).setFld (TID_ALARM_CTL_act_msix n) _ hmem).setFld (TID_ALARM_CTL_act_wake n) _ hmem,
    ((hrest.setFld _ _).setFld _ _).setFld _ _⟩

theorem State.alarmSet_frame (s : State) (n : Nat) (v : Word) : RegsBut [TID_ALARM_CTL n] s (s.alarmSet n v) ∧
    RegsAndTide s { s.tide with alarms := SMap.set (fun _ => 0) s.tide.alarms n (s.alarmValue n) } (s.alarmSet n v) := by
  obtain ⟨hregs, hrest⟩ := s.alarmCtl_frame n v
  have hregs' := hregs.setFld (TID_ALARM_CTL_armed n) 1 (List.mem_singleton_self _)
  have hrest' := hrest.setFld (TID_ALARM_CTL_armed n) 1
  unfold State.alarmSet
  generalize (s.alarmCtl n v).setFld (TID_ALARM_CTL_armed n) 1 = t at hregs' hrest'
  refine ⟨hregs'.congr rfl, ?_⟩
  rw [State.copyAlarm, hrest'.tide]
  exact hrest'.setTide _

theorem State.armed_alarmSet (s : State) (n : Nat) (v : Word) : (s.alarmSet n v).fld (TID_ALARM_CTL_armed n) = 1 := by
  rw [State.alarmSet, State.fld_copyAlarm, State.fld_setFld_same _ _ _ (by decide : 0 + 1 ≤ 32)]
  rfl

theorem bitOf_or_one (v : Word) : bitOf (v ||| 1#32).toNat 0 = true := by
  have hodd : (v.toNat ||| 1) % 2 = 1 := Nat.or_mod_two_eq_one.mpr (.inr rfl)
  rw [BitVec.toNat_or, bitOf, pow_zero, Nat.div_one]
  exact beq_iff_eq.mpr hodd

/-- An alarm that is armed for a tide to come waits. -/
theorem execAlarmArm_of_ahead {s : State} {n : Fin 16} (v : Word) (hoff : s.flag (TID_ALARM_CTL_armed n.val) = false)
    (h : s.tide.ns < s.alarmValue n.val) : execAlarmArm n v s = .next (s.alarmSet n.val (v ||| 1#32)) := by
  unfold execAlarmArm
  rw [State.alarmWrite_of_arm (bitOf_or_one v) hoff, if_neg (by omega)]

/-- One that is armed for a tide that has passed fires at once, late. -/
theorem execAlarmArm_of_passed {s : State} {n : Fin 16} (v : Word) (hoff : s.flag (TID_ALARM_CTL_armed n.val) = false)
    (h : s.alarmValue n.val ≤ s.tide.ns) :
    execAlarmArm n v s = .next ((s.alarmSet n.val (v ||| 1#32)).fireAlarm n.val true) := by
  unfold execAlarmArm
  rw [State.alarmWrite_of_arm (bitOf_or_one v) hoff, if_pos h]

theorem execAlarmArm_shows {s : State} {n : Fin 16} (v : Word) (hoff : s.flag (TID_ALARM_CTL_armed n.val) = false) :
    ∃ t, execAlarmArm n v s = .next t ∧ SMap.get (fun _ => 0) t.tide.alarms n.val = s.alarmValue n.val ∧
      (s.tide.ns < s.alarmValue n.val → t.fld (TID_ALARM_CTL_armed n.val) = 1 ∧ RegsBut [TID_ALARM_CTL n.val] s t ∧
        t = { s with regs := t.regs, tide := t.tide }) ∧
      (s.alarmValue n.val ≤ s.tide.ns → t.fld (TID_ALARM_CTL_armed n.val) = 0 ∧ t.fld (TID_ALARM_CTL_fired n.val) = 1 ∧
        t.fld (TID_ALARM_CTL_late n.val) = 1) := by
  obtain ⟨hregs, hrest⟩ := s.alarmSet_frame n.val (v ||| 1#32)
  have hcopy : SMap.get (fun _ => 0) (s.alarmSet n.val (v ||| 1#32)).tide.alarms n.val = s.alarmValue n.val := by
    rw [hrest.tide]
    exact SMap.get_set_same _ _ _ _
  by_cases hpassed : s.alarmValue n.val ≤ s.tide.ns
  · obtain ⟨harmed, hfired, hlate, htide⟩ := (s.alarmSet n.val (v ||| 1#32)).fireAlarm_shows n true
    exact ⟨_, execAlarmArm_of_passed v hoff hpassed, by rw [htide, hcopy], fun h => absurd hpassed (by omega), fun _ => ⟨harmed, hfired, hlate⟩⟩
  · have heq := hrest.eq
    rw [← hrest.tide] at heq
    exact ⟨_, execAlarmArm_of_ahead v hoff (by omega), hcopy, fun _ => ⟨s.armed_alarmSet _ _, hregs, heq⟩, fun h => absurd h hpassed⟩

theorem execAlarmFire_of_armed {s : State} {n : Fin 16} (h : s.flag (TID_ALARM_CTL_armed n.val) = true) :
    execAlarmFire n s = .next ((s.atTide (SMap.get (fun _ => 0) s.tide.alarms n.val)).fireAlarm n.val false) := by
  unfold execAlarmFire
  rw [if_pos h]

/-! ### TIDE_OUT (R62) -/

/-- The next whole multiple at or after a value. -/
theorem ceilDiv_mul_spec (a : Nat) {b : Nat} (hb : b ≠ 0) : a ≤ ceilDiv a b * b ∧ ceilDiv a b * b < a + b := by
  have hdiv := Nat.div_add_mod (a + b - 1) b
  have hmod := Nat.mod_lt (a + b - 1) (Nat.pos_of_ne_zero hb)
  unfold ceilDiv
  rw [Nat.mul_comm]
  omega

/-- TIDE_OUT rises at tide `x`. -/
def State.outRisen (s : State) (x : Nat) : State :=
  { s.atTide x with tide := { (s.atTide x).tide with outHigh := true, outRise := some x } }

theorem execTideOutRise_of_due {s : State} (hon : s.flag TID_OUT_CTL_enable = true) (hlow : s.tide.outHigh = false) (hperiod : s.outPeriod ≠ 0) :
    execTideOutRise s = .next (s.outRisen (ceilDiv s.tide.ns s.outPeriod * s.outPeriod)) := by
  unfold execTideOutRise State.outRisen
  simp [hon, hlow, hperiod]

theorem execTideOutFall_of_risen {s : State} {x : Nat} (h : s.tide.outRise = some x) : execTideOutFall s =
    .next { s with tide := { s.tide with
      ns := max s.tide.ns (x + 1000 * s.fld TID_OUT_CTL_width_us) % 2 ^ 64, outHigh := false, outRise := none } } := by
  unfold execTideOutFall
  rw [h]
  rfl

/-- Settles O9: a clause for each command, by what it shows in each of its cases. -/
theorem referencesAlarmsAndTideOut : Obligations.ReferencesAlarmsAndTideOut := by
  refine ⟨fun s => ⟨?_, fun href => ?_, fun hpps => ?_, ?_, execEpochArm_of_pps, fun hroot hpps => ?_, execEpochArm_of_not_root⟩,
    fun s => ⟨fun hphase => ?_, execBar0MisalignedAccess_tidNowHi, fun n v x hx hoff => ?_, fun n harmed => ?_, fun hon hlow hperiod => ?_,
      fun x => execTideOutFall_of_risen⟩⟩
  · refine ⟨_, execTideRefEdge_eq s, ?_, ?_, (((RegsAndTide.refl s).setFld TID_STATUS_ref_ok 1).setTide s.refNoted).eq⟩
    · exact (State.fld_congr rfl _).trans (State.fld_setFld_same s TID_STATUS_ref_ok 1 (by decide))
    · exact RegsBut.congr (RegsBut.setFld (.refl _ s) TID_STATUS_ref_ok 1 (by decide)) rfl
  · obtain ⟨t, hrun, hok, hregs, hrest⟩ := execTideRefLoss_of_ok href
    exact ⟨t, hrun, hok, hregs, hrest.eq⟩
  · obtain ⟨t, hrun, hok, hregs, hrest⟩ := execTidePpsLoss_of_ok hpps
    exact ⟨t, hrun, hok, hregs, hrest.eq⟩
  · obtain ⟨t, hrun, hok, hload, hkept, hused⟩ := execTidePpsEdge_shows s
    refine ⟨t, hrun, hok, hload, hkept, fun e hroot harm hpps hlo hhi hmod => ?_⟩
    rw [← ppsError_eq hlo hhi hmod]
    exact hused hroot harm hpps
  · obtain ⟨hns, -, -, hgen⟩ := s.loadEpoch_shows
    exact ⟨_, execEpochArm_of_free hroot hpps, hns, hgen⟩
  · refine ⟨_, execTidNowLoRead_of_open hphase, rfl, ?_, ?_, rfl⟩
    · exact (State.fld_congr rfl _).trans (State.fld_setFld_same s TID_NOW_HI_tide_hi _ (by decide))
    · exact RegsBut.congr (RegsBut.setFld (.refl _ s) TID_NOW_HI_tide_hi _ (by decide)) rfl
  · subst hx
    exact execAlarmArm_shows v hoff
  · obtain ⟨hdisarmed, hfired, hlate, htide⟩ :=
      (s.atTide (SMap.get (fun _ => 0) s.tide.alarms n.val)).fireAlarm_shows n false
    exact ⟨_, execAlarmFire_of_armed harmed, hdisarmed, hfired, hlate, by rw [htide]; rfl⟩
  · obtain ⟨hge, hlt⟩ := ceilDiv_mul_spec s.tide.ns hperiod
    refine ⟨_, _, execTideOutRise_of_due hon hlow hperiod, rfl, rfl, Nat.mul_mod_left _ _, hge, hlt, ?_, rfl⟩
    show max s.tide.ns _ % 2 ^ 64 = _
    rw [Nat.max_eq_right hge]

end Sys2Proof.Machine
end

section

/-! SUPPORT. Family 02_tide_and_web.md: tide cells (O7). -/

namespace Sys2Proof.Machine

/-! ### The tide cell of a port (R43, R44) -/

/-- A port's tide record but for the times of its own cells, which a coarse step forgets. -/
def TidePort.lessOwnTimes (tp : TidePort) : TidePort := { tp with t1 := 0, t1Min := 0 }

/-- Memory, and what the ports know of their peers, are as before. -/
structure KeepsMeasures (s t : State) : Prop where
  mem : t.mem = s.mem
  tport : ∀ p, (t.tport p).lessOwnTimes = (s.tport p).lessOwnTimes

theorem State.tport_setTport (s : State) (p q : Nat) (tp : TidePort) : (s.setTport p tp).tport q = if q = p then tp else s.tport q :=
  SMap.get_set tportDefault s.tports p q tp

theorem State.tport_congr {s t : State} (h : t.tports = s.tports) (p : Nat) : t.tport p = s.tport p := by
  unfold State.tport
  rw [h]

theorem KeepsMeasures.refl (s : State) : KeepsMeasures s s := ⟨rfl, fun _ => rfl⟩

section
variable {s t u : State} (h : KeepsMeasures s t)
include h

theorem KeepsMeasures.congr (hmem : u.mem = t.mem) (htports : u.tports = t.tports) : KeepsMeasures s u :=
  ⟨hmem.trans h.mem, fun p => (congrArg TidePort.lessOwnTimes (State.tport_congr htports p)).trans (h.tport p)⟩

theorem KeepsMeasures.ite {c : Prop} [Decidable c] (hu : KeepsMeasures s u) : KeepsMeasures s (if c then t else u) := by
  split
  · exact h
  · exact hu

theorem KeepsMeasures.setFld (f : Fld) (v : Nat) : KeepsMeasures s (t.setFld f v) := h.congr rfl rfl

theorem KeepsMeasures.setFlag (f : Fld) : KeepsMeasures s (t.setFlag f) := h.congr rfl rfl

theorem KeepsMeasures.setTide (x : TideUnit) : KeepsMeasures s { t with tide := x } := h.congr rfl rfl

theorem KeepsMeasures.count (k n : Nat) : KeepsMeasures s (t.count k n) := by
  have hcnt (l : SMap Nat) : KeepsMeasures s { t with cnt := l } := h.congr rfl rfl
  unfold State.count State.setFlagIf
  dsimp only
  split
  · exact (hcnt _).setFlag _
  · exact hcnt _

/-! #### Root and parent -/

theorem KeepsMeasures.achieveLock : KeepsMeasures s t.achieveLock := h.congr rfl rfl

theorem KeepsMeasures.loseLock : KeepsMeasures s t.loseLock :=
  (((h.setFld TID_STATUS_locked 0).setFlag TID_STATUS_lock_lost).count (cntHub 20) 1).setTide _

theorem KeepsMeasures.setRate (r : Int) : KeepsMeasures s (t.setRate r) := h.setFld _ _

theorem KeepsMeasures.showRate : KeepsMeasures s t.showRate := by
  unfold State.showRate
  split
  · exact h
  · exact h.setRate _

theorem KeepsMeasures.announceRoot : KeepsMeasures s t.announceRoot :=
  ((((((h.setFld TID_STATUS_is_root 1).setFld TID_STATUS_parent_port 31).setFld TID_STATUS_root_distance 0).setFld _ _).setFld _ _).setFld
    _ _).achieveLock.showRate

theorem KeepsMeasures.setParent (p d : Nat) : KeepsMeasures s (t.setParent p d) := by
  have hshown := (h.setFld TID_STATUS_parent_port p).setFld TID_STATUS_root_distance d
  unfold State.setParent
  dsimp only
  split
  · exact hshown
  · exact hshown.setTide _

theorem KeepsMeasures.showParent : KeepsMeasures s t.showParent := by
  unfold State.showParent
  split
  · exact h
  · dsimp only
    split <;> split <;> exact ((h.setFld _ _).setFld _ _).setParent _ _

theorem KeepsMeasures.enterHoldover : KeepsMeasures s t.enterHoldover := (h.setFld TID_STATUS_holdover 1).setTide _

theorem KeepsMeasures.resignRoot : KeepsMeasures s t.resignRoot := by
  have hresigned := (h.setTide { t.tide with ppsRate := 0, ppsFrames := 0 }).setFld TID_STATUS_is_root 0
  unfold State.resignRoot
  dsimp only
  split
  · exact hresigned.showParent
  · exact hresigned.enterHoldover.showParent

theorem KeepsMeasures.settleRoot : KeepsMeasures s t.settleRoot := by
  have hconflict := h.setFlag TID_STATUS_root_conflict
  unfold State.settleRoot
  dsimp only
  split
  · split
    · exact hconflict.resignRoot
    · split
      · exact h.resignRoot
      · exact h
  · split
    · split
      · exact h.showParent
      · split
        · exact h.announceRoot
        · split
          · exact hconflict.showParent
          · exact h.showParent
    · exact h.showParent

/-! #### Taking the parent's tide -/

/-- A coarse step forgets the times of this module's own cells and nothing else of a port. -/
theorem KeepsMeasures.stepTo (x : Nat) : KeepsMeasures s (t.stepTo x) := by
  unfold State.stepTo
  refine forUpTo_keeps (KeepsMeasures s) 18 _ _ (by exact h.congr rfl rfl) fun p y hy => ⟨hy.mem, fun q => ?_⟩
  rw [State.tport_setTport]
  split
  next hq => exact hq ▸ hy.tport p
  next => exact hy.tport q

theorem KeepsMeasures.dropPastSwaps : KeepsMeasures s t.dropPastSwaps := by
  unfold State.dropPastSwaps
  exact forUpTo_keeps (KeepsMeasures s) 18 _ _ h fun p y hy => by exact hy.congr rfl rfl

theorem KeepsMeasures.fromParent (p tx t4 : Nat) (theta : Option Int) (gen : Nat) : KeepsMeasures s (t.fromParent p tx t4 theta gen) := by
  unfold State.fromParent
  dsimp only
  split
  · exact ((h.stepTo _).setFld _ _).dropPastSwaps.setTide _
  · split
    · exact h.setTide _
    · split
      · exact h
      · next th =>
        have hoffset := h.setFld TID_OFFSET_theta (toBits 32 (th / 4096))
        have hsteered : KeepsMeasures s (if t.flag TID_STATUS_holdover then t.setFld TID_OFFSET_theta (toBits 32 (th / 4096))
            else (t.setFld TID_OFFSET_theta (toBits 32 (th / 4096))).setRate (removeRate th)) := by
          split
          · exact hoffset
          · exact hoffset.setRate _
        split
        · split
          · exact hsteered.loseLock
          · exact hsteered
        · exact hsteered.setTide _

end

/-! ### The four times of a tide cell (R43, R44) -/

/-- The time t1 of a tide cell: when the cell of ours that it echoes left. -/
def echoedTx (c : Cell) : Nat := leAt c.payload 12 8 * 65536 + leAt c.payload 30 2

/-- The time t2: when that cell came to the peer. -/
def echoedRx (c : Cell) : Nat := leAt c.payload 20 8 * 65536 + leAt c.payload 28 2

/-- The time t3: when the peer sent the cell. -/
def sentAt (c : Cell) : Nat := leAt c.payload 0 8 * 65536 + leAt c.payload 8 2

/-- Whether the announce sequence of a tide cell advances that of its port. -/
def TidePort.advancedBy (tp : TidePort) (c : Cell) : Bool :=
  !tp.seen || (leAt c.payload 36 4 != tp.seq && decide (subMod (leAt c.payload 36 4) tp.seq (2 ^ 32) < 2 ^ 31))

/-- What a tide cell that came at `rx` makes of its port. -/
def State.measured (s : State) (p : Nat) (c : Cell) (rx : Nat) : TidePort :=
  let old := s.tport p
  let known := old.heardAt (echoedTx c)
  { old with
    echoTx := (sentAt c), echoRx := rx
    delay := if known && leAt c.payload 41 1 == s.fld TID_STATUS_epoch_gen then
        (((echoedRx c : Int) - (echoedTx c)) + ((rx : Int) - (sentAt c))) / 2 else old.delay
    theta := if known then (((echoedTx c : Int) - (echoedRx c)) + ((rx : Int) - (sentAt c))) / 2 +
        sext 16 (s.fld (TID_PORT_ASYM_asym p)) * 8192 else old.theta
    rootId := leAt c.payload 32 2, rootPrio := leAt c.payload 34 1, dist := leAt c.payload 35 1, seq := leAt c.payload 36 4
    seqAge := if old.advancedBy c then 0 else old.seqAge
    locked := bitOf (leAt c.payload 40 1) 0, epochGen := leAt c.payload 41 1, seen := true }

theorem execTideCellReceive_of_ignored {s : State} {p : Fin 18} {c : Cell} {t4 : BitVec 64} {t4frac : BitVec 16}
    (h : s.portUp p.val = false ∨ c.hdr.ctype ≠ 2#8) : execTideCellReceive p c t4 t4frac s = .next s := by
  unfold execTideCellReceive
  rcases h with h | h <;> simp [h]

/-- A tide cell shows whether its peer is locked; one that advances the announce sequence ends the quiet, and above S2 holdover. -/
def State.noteHeard (s : State) (p fl : Nat) (adv : Bool) : State :=
  let s1 := s.setFld (WEB_PORT_STATUS_peer_locked p) (b2n (bitOf fl 0))
  if adv then
    State.setFld { s1 with tide := { s1.tide with quiet := 0 } } TID_STATUS_holdover
      (if s1.fld PWR_STATUS_state < 2 then 0 else s1.fld TID_STATUS_holdover)
  else s1

theorem KeepsMeasures.noteHeard {s t : State} (h : KeepsMeasures s t) (p fl : Nat) (adv : Bool) : KeepsMeasures s (t.noteHeard p fl adv) := by
  have hshown := h.setFld (WEB_PORT_STATUS_peer_locked p) (b2n (bitOf fl 0))
  unfold State.noteHeard
  dsimp only
  split
  · exact (hshown.setTide _).setFld _ _
  · exact hshown

/-- A tide cell sets its port's record; root, parent, steering and lock follow from it and keep the record. -/
theorem execTideCellReceive_keeps {s : State} {p : Fin 18} {c : Cell} {t4 : BitVec 64} {t4frac : BitVec 16}
    (hup : s.portUp p.val = true) (hc : c.hdr.ctype = 2#8) : ∃ t, execTideCellReceive p c t4 t4frac s = .next t ∧
      KeepsMeasures (s.setTport p.val (s.measured p.val c (t4.toNat * 65536 + t4frac.toNat))) t := by
  have hset : KeepsMeasures (s.setTport p.val (s.measured p.val c (t4.toNat * 65536 + t4frac.toNat)))
      ((s.atTide t4.toNat).setTport p.val (s.measured p.val c (t4.toNat * 65536 + t4frac.toNat))) := ⟨rfl, fun _ => rfl⟩
  have hsettled := (hset.noteHeard p.val (leAt c.payload 40 1) ((s.tport p.val).advancedBy c)).settleRoot
  unfold execTideCellReceive
  rw [if_neg (by simp [hup, hc])]
  exact ⟨_, rfl, (hsettled.fromParent _ _ _ _ _).ite hsettled⟩

/-- The fields that `KeepsMeasures` keeps, after a port's record was set. -/
theorem KeepsMeasures.shows {s t : State} {p : Nat} {tp : TidePort} (h : KeepsMeasures (s.setTport p tp) t) :
    (t.tport p).lessOwnTimes = tp.lessOwnTimes ∧ MemSame s t := by
  refine ⟨?_, fun a => State.byte_congr h.mem a⟩
  rw [h.tport p, State.tport_setTport, if_pos rfl]

/-- Settles O7: the port's record is what the cell measures, and the rest of the receive keeps it. -/
theorem tideCellMeasures : Obligations.TideCellMeasures := by
  intro s p c t4 t4frac
  refine ⟨execTideCellReceive_of_ignored, fun hup hc => ?_⟩
  obtain ⟨t, hrun, hkeeps⟩ := execTideCellReceive_keeps (t4 := t4) (t4frac := t4frac) hup hc
  obtain ⟨hrec, hmem⟩ := hkeeps.shows
  have hfield {α : Type} (f : TidePort → α) (hf : ∀ tp, f tp.lessOwnTimes = f tp) : f (t.tport p.val) =
      f (s.measured p.val c (t4.toNat * 65536 + t4frac.toNat)) := by
    rw [← hf, hrec, hf]
  refine ⟨t, hrun, ?_, hfield TidePort.rootId fun _ => rfl, hfield TidePort.rootPrio fun _ => rfl, hfield TidePort.dist fun _ => rfl,
    hfield TidePort.seen fun _ => rfl, hmem⟩
  rintro t1 t2 t3 rfl rfl rfl
  have hdelay := hfield TidePort.delay fun _ => rfl
  have htheta := hfield TidePort.theta fun _ => rfl
  refine ⟨hfield TidePort.echoTx fun _ => rfl, hfield TidePort.echoRx fun _ => rfl, fun hunknown => ?_, fun hknown => ⟨?_, fun hgen => ?_, fun hgen => ?_⟩⟩
  · rw [hdelay, htheta]
    simp [State.measured, echoedTx, hunknown]
  · rw [htheta]
    simp [State.measured, echoedTx, echoedRx, sentAt, hknown]
  · rw [hdelay]
    simp [State.measured, echoedTx, echoedRx, sentAt, hknown, hgen]
  · rw [hdelay]
    simp [State.measured, echoedTx, hknown, hgen]

end Sys2Proof.Machine
end

section

/-! SUPPORT. Family 02_tide_and_web.md: data cells and marks (O12). -/

namespace Sys2Proof.Machine

/-! ### What a count leaves as it is -/

/-- An advance of an event counter changes registers, their events and counters only. -/
theorem State.count_eq (s : State) (k n : Nat) : ∃ r e c, s.count k n = { s with regs := r, evt := e, cnt := c } := by
  have hflag (t : State) (f : Fld) : t.setFlag f = { t with regs := (t.setFlag f).regs, evt := (t.setFlag f).evt } := rfl
  unfold State.count State.setFlagIf
  dsimp only
  split
  · exact ⟨_, _, _, hflag _ _⟩
  · exact ⟨s.regs, s.evt, _, rfl⟩

@[simp] theorem State.count_tx (s : State) (k n : Nat) : (s.count k n).tx = s.tx := by
  obtain ⟨r, e, c, h⟩ := s.count_eq k n
  rw [h]

@[simp] theorem State.count_rx (s : State) (k n : Nat) : (s.count k n).rx = s.rx := by
  obtain ⟨r, e, c, h⟩ := s.count_eq k n
  rw [h]

@[simp] theorem State.countBytes_rx (s : State) (k n : Nat) : (s.countBytes k n).rx = s.rx := State.count_rx _ _ _

theorem State.rxOf_congr {s t : State} (h : t.rx = s.rx) (stream : Nat) : t.rxOf stream = s.rxOf stream := by
  unfold State.rxOf
  rw [h]

@[simp] theorem State.rxOf_setRx_same (s : State) (stream : Nat) (r : RxStream) : (s.setRx stream r).rxOf stream = r :=
  SMap.get_set_same rxDefault s.rx stream r

/-! ### A cell that does not belong, and one that is forwarded (R72, R73) -/

theorem State.webMismatch_shows (s : State) {p : Nat} (hp : p < 18) :
    (s.webMismatch p).fld (WEB_PORT_STATUS_stream_mismatch p) = 1 ∧ MemSame s (s.webMismatch p) := by
  have haddr : (WEB_PORT_STATUS_stream_mismatch p).addr < 0xC10004 := by
    show 0x101104 + p * 0x10 < 0xC10004
    omega
  refine ⟨?_, fun a => State.byte_congr (by simp [State.webMismatch]) a⟩
  rw [State.webMismatch, State.fld_count _ _ _ haddr]
  exact State.fld_setFlag_same _ _ rfl (by decide : 6 + 1 ≤ 32)

theorem execDataCellReceive_of_wrong_stream {s : State} {p : Fin 18} {c : Cell} {first : BitVec 32} (hup : s.portUp p.val = true)
    (hslot : 4 ≤ c.hdr.slot.toNat) (hc : c.hdr.ctype = 0#8) (huse : entryUse (s.entry p.val true c.hdr.slot.toNat) = 1)
    (hstream : c.hdr.stream.toNat ≠ entryStream (s.entry p.val true c.hdr.slot.toNat)) :
    execDataCellReceive p c first s = .next (s.webMismatch p.val) := by
  unfold execDataCellReceive
  simp [hup, hslot, hc, huse, hstream]

theorem execDataCellReceive_of_forwarding {s : State} {p : Fin 18} {c : Cell} {first : BitVec 32} {q : Nat} (hup : s.portUp p.val = true)
    (hslot : 4 ≤ c.hdr.slot.toNat) (hc : c.hdr.ctype = 0#8) (huse : entryUse (s.entry p.val true c.hdr.slot.toNat) = 2)
    (hstream : c.hdr.stream.toNat = entryStream (s.entry p.val true c.hdr.slot.toNat))
    (hfwd : entryFwd (s.entry p.val true c.hdr.slot.toNat) = q) (hq : q < 18) (hhas : s.portHas q false c.hdr.stream.toNat = true) :
    execDataCellReceive p c first s = .next (s.setPort q { s.port q with fwd := (s.port q).fwd ++ [(c, s.tide.ns)] }) := by
  subst hfwd
  unfold execDataCellReceive
  simp [hup, hslot, hc, huse, ← hstream, hq, hhas]

/-! ### A cell that lands (R66, R67) -/

/-- A write of open HBM within one region is one piece and succeeds (R510, R512). -/
theorem store_hbm (s : State) (who : Who) (a : Nat) (bs : List Byte) (hn : bs ≠ []) (ha : a < hbmTop)
    (hl : bs.length ≤ 0x003600000000 - a % 0x003600000000) (hf : s.regionFenced (hbmRegion a) = false) :
    s.store who a bs = (.ok, s.writeHbm a bs (bs.length + 1)) := by
  have hplace : placeOf a = (.hbm, 0x003600000000 - a % 0x003600000000) := by unfold placeOf; simp [ha]
  have hlen : 0 < bs.length := List.length_pos_iff.mpr hn
  have hpiece : max 1 (pieceLen a bs.length) = bs.length := by
    unfold pieceLen
    rw [hplace]
    show max 1 (min bs.length _) = bs.length
    omega
  have hopen : s.openAt a = .ok := by
    unfold State.openAt
    rw [hplace]
    simp [hf]
  have hwrite : s.writePiece noMirror who a bs = (.ok, s.writeHbm a bs (bs.length + 1)) := by
    unfold State.writePiece
    rw [hopen, hplace]
  unfold State.store
  rw [State.busWrite.eq_def]
  simp only [List.isEmpty_iff, hn, if_false, hpiece, List.take_length, List.drop_length, hwrite]
  cases bs with
  | nil => exact absurd rfl hn
  | cons b l => rfl

/-- HBM holds no pan row. -/
theorem State.panHeld_hbm (s : State) {a n : Nat} (h : a + n ≤ hbmTop) : s.panHeld a n = none := by
  unfold State.panHeld
  rw [List.find?_eq_none]
  intro x hx
  obtain ⟨b, -, rfl⟩ := List.mem_map.mp hx
  have hbelow : hbmTop ≤ vatAt b + vatSize := by unfold hbmTop vatAt vatBase; omega
  have hnone : min (a + n) (vatAt b + vatSize + panSize) - max a (vatAt b + vatSize) = 0 := by omega
  simp [hnone]

/-- The receive after a cell of 928 bytes has landed. -/
def RxBind.landed (b : RxBind) : RxBind := { b with mark := b.mark + 1, written := b.written + 928, moved := true }

section
variable {s : State} {stream : Nat} {b : RxBind} {data : List Byte}

/-- A cell that a plain receive waits for, whole, not the last and in open HBM, is written at its place, and the landed mark moves. -/
theorem State.landOnStream_of_plain (hbound : (s.rxOf stream).bound = some b) (hkind : b.kind = .plain) (hend : 928 * b.mark + 928 < b.len)
    (hlen : data.length = 928) (htop : b.base + b.len ≤ hbmTop) (hregion : hbmRegion (b.base + b.len - 1) = hbmRegion b.base)
    (hopen : s.regionFenced (hbmRegion b.base) = false) :
    s.landOnStream stream b.tag b.mark false data = (.landed, b.mark + 1,
      (s.writeHbm (b.base + 928 * b.mark) data (data.length + 1)).setRx stream { s.rxOf stream with bound := some b.landed }) := by
  have hbytes : rxBytes b b.mark data = (928 * b.mark, data) := by
    simp [rxBytes, hkind, Nat.mul_comm]
  have hplace : hbmRegion (b.base + 928 * b.mark) = hbmRegion b.base ∧
      data.length ≤ 0x003600000000 - (b.base + 928 * b.mark) % 0x003600000000 := by
    unfold hbmRegion at hregion ⊢
    omega
  have hstore : s.store .remote (b.base + 928 * b.mark) data =
      (.ok, s.writeHbm (b.base + 928 * b.mark) data (data.length + 1)) :=
    store_hbm s _ _ data (by rintro rfl; simp at hlen) (by omega) hplace.2 (by rw [hplace.1, hopen])
  have hwrite : s.rxWrite b (928 * b.mark) data = (.ok, s.writeHbm (b.base + 928 * b.mark) data (data.length + 1)) := by
    unfold State.rxWrite
    rw [hkind]
    exact hstore
  have htake : data.take (b.len - 928 * b.mark) = data := List.take_of_length_le (by omega)
  have hfree : s.panHeld (b.base + 928 * b.mark) data.length = none := s.panHeld_hbm (by omega)
  have hshort : ¬ b.len ≤ 928 * b.mark + data.length := by omega
  unfold State.landOnStream State.landBound
  simp only [hbound, hbytes, hkind, hwrite, htake, hfree, hshort]
  simp [RxBind.landed, hlen, hkind]

theorem State.bound_noteArrival (hbound : (s.rxOf stream).bound = some b) (p : Nat) :
    ((s.noteArrival p stream b.tag .landed).rxOf stream).bound = some { b with moved := true, port := p, queued := false } := by
  unfold State.noteArrival
  simp [hbound]

theorem State.mem_noteArrival (s : State) (p stream tag : Nat) (l : Landing) : (s.noteArrival p stream tag l).mem = s.mem := by
  unfold State.noteArrival
  dsimp only
  split
  · split <;> rfl
  · rfl

end

theorem State.noteLanding_landed (s : State) (p : Nat) (st tag : BitVec 32) (mark n : Nat) :
    (s.noteLanding p .landed st tag mark n).rx = s.rx ∧ (s.noteLanding p .landed st tag mark n).mem = s.mem := by
  have hmoved (t : State) (u : PortUnit) : { t.setPort p u with movedNow := true }.rx = t.rx ∧
      { t.setPort p u with movedNow := true }.mem = t.mem := ⟨rfl, rfl⟩
  have hrx : ((s.count (cntPort p 1)).countBytes (cntPort p 8) n).rx = s.rx := by simp
  have hmem : ((s.count (cntPort p 1)).countBytes (cntPort p 8) n).mem = s.mem := by simp
  rw [← hrx, ← hmem]
  exact hmoved _ _

section
variable {s : State} {p : Fin 18} {c : Cell} {first : BitVec 32} {b : RxBind}

/-- What a data cell whose stream a plain receive is bound to does, by what its landing does. -/
theorem execDataCellReceive_of_bound (hup : s.portUp p.val = true) (hslot : 4 ≤ c.hdr.slot.toNat) (hc : c.hdr.ctype = 0#8)
    (huse : entryUse (s.entry p.val true c.hdr.slot.toNat) = 1) (hstream : c.hdr.stream.toNat = entryStream (s.entry p.val true c.hdr.slot.toNat))
    (hS0 : s.inS0 = true) (hlow : c.hdr.stream.toNat < 0xC000) (hbound : (s.rxOf c.hdr.stream.toNat).bound = some b) (hkind : b.kind = .plain)
    (hnotLast : bitOf c.hdr.flags.toNat 1 = false) (hlen : c.payload.length = 928) (hhdr : c.hdr.length = 928#16) {l : Landing} {mark : Nat} {t : State}
    (hland : s.landOnStream c.hdr.stream.toNat c.hdr.tag.toNat c.hdr.index.toNat false c.payload = (l, mark, t)) :
    execDataCellReceive p c first s = .next ((t.noteArrival p.val c.hdr.stream.toNat c.hdr.tag.toNat l).noteLanding p.val l
      (c.hdr.stream.setWidth 32) c.hdr.tag mark 928) := by
  have hwiden : ∀ d, s.countWiden p.val c.hdr.stream.toNat d = s := by
    intro d
    unfold State.countWiden
    rw [hbound]
    simp [hkind]
  have htake : c.payload.take 928 = c.payload := List.take_of_length_le (by omega)
  unfold execDataCellReceive
  simp [hup, Nat.not_lt.mpr hslot, hc, huse, ← hstream, hS0, Nat.not_le.mpr hlow, hhdr, hnotLast, htake, hwiden, hland]

end

/-! ### Landed marks and go-back requests (R67, R68) -/

theorem State.markTx_of_open {s : State} {x : TxXfer} (htx : s.tx = [x]) {mark : Nat} (hmark : mark < x.cells.length)
    (hlanded : x.landed < x.cells.length) : ∃ y, s.markTx x mark false false false = { s with tx := [y] } ∧ y.landed = max x.landed mark ∧
      y.next = max x.next mark ∧ y.cells = x.cells := by
  have hkept : min x.cells.length (max x.landed mark) = max x.landed mark := by omega
  have hnext : min x.cells.length mark = mark := by omega
  have hopen : max x.landed mark ≠ x.cells.length := by omega
  unfold State.markTx
  simp only [htx, List.map_cons, List.map_nil, if_true, hkept, hnext, hopen, false_and, if_false]
  exact ⟨_, rfl, rfl, rfl, rfl⟩

section
variable {s : State} {p : Nat} {x : TxXfer} {st : BitVec 16} {tag : BitVec 32} {mark : Nat}

theorem State.takeNotice_landed (htx : s.tx = [x]) (hloc : x.loc = false) (hst : x.stream = st.toNat) (htag : x.tag = tag.toNat)
    (hdata : st ≠ 0#16 ∨ tag ≠ 0#32) : State.takeNotice p s (.landed st tag mark false false false) = s.markTx x mark false false false := by
  have hne : ¬(st = 0#16 ∧ tag = 0#32) := fun ⟨h1, h2⟩ => hdata.elim (· h1) (· h2)
  simp only [State.takeNotice, hne, if_false, htx]
  simp [hloc, hst, htag]

theorem State.takeNotice_goBack (htx : s.tx = [x]) (hloc : x.loc = false) (hst : x.stream = st.toNat) (htag : x.tag = tag.toNat)
    (hdata : st ≠ 0#16 ∨ tag ≠ 0#32) (hmark : mark ≤ x.cells.length) :
    State.takeNotice p s (.goBack st tag mark) = { s.count (cntPort p 10) with tx := [{ x with next := mark }] } := by
  have hne : ¬(st = 0#16 ∧ tag = 0#32) := fun ⟨h1, h2⟩ => hdata.elim (· h1) (· h2)
  have htx' : (s.count (cntPort p 10)).tx = [x] := by rw [State.count_tx, htx]
  simp only [State.takeNotice, hne, if_false]
  generalize s.count (cntPort p 10) = t at htx'
  simp [htx', hloc, hst, htag, hmark]

end

theorem execControlCellReceive_of_one {s : State} {p : Fin 18} {c : Cell} {n : Notice} (hup : s.portUp p.val = true) (hc : c.hdr.ctype = 3#8)
    (hn : c.notices = [n]) : execControlCellReceive p c s = .next (State.takeNotice p.val s n) := by
  unfold execControlCellReceive
  rw [if_pos ⟨hup, hc⟩, hn]
  rfl

/-! ### Transfers that start again (R85, R86) -/

theorem State.bump_count_eq (s : State) (f : Fld) (k : Nat) : ∃ r e c, (s.bump f 1).count k = { s with regs := r, evt := e, cnt := c } := by
  have hbump : s.bump f 1 = { s with regs := (s.bump f 1).regs } := rfl
  obtain ⟨r, e, c, hcount⟩ := (s.bump f 1).count_eq k 1
  exact ⟨r, e, c, by rw [hcount, hbump]⟩

theorem State.countRequeue_eq (s : State) (p : Option Nat) : ∃ r e c, s.countRequeue p = { s with regs := r, evt := e, cnt := c } := by
  cases p with
  | none => exact ⟨s.regs, s.evt, s.cnt, rfl⟩
  | some q => exact s.bump_count_eq (WEB_PORT_STATUS_requeue_count q) (cntPort q 17)

theorem State.requeue_count_countRequeue (s : State) {q : Nat} (hq : q < 18) (h : s.fld (WEB_PORT_STATUS_requeue_count q) < 2 ^ 16 - 1) :
    (s.countRequeue (some q)).fld (WEB_PORT_STATUS_requeue_count q) = s.fld (WEB_PORT_STATUS_requeue_count q) + 1 := by
  have haddr : (WEB_PORT_STATUS_requeue_count q).addr < 0xC10004 := by
    show 0x101104 + q * 0x10 < 0xC10004
    omega
  rw [State.countRequeue, State.fld_count _ _ _ haddr, State.fld_bump_same _ _ _ (by decide : 16 + 16 ≤ 32)]
  exact Nat.min_eq_left (by show _ ≤ 2 ^ 16 - 1; omega)

/-- The transfers of a stream and a tag, from their start. -/
def restarted (l : List TxXfer) (stream tag : Nat) : List TxXfer := l.map (fun y => if y.stream = stream ∧ y.tag = tag then
  { y with next := 0, gap := 0, moved := false, retry := true, queued := true } else y)

theorem State.requeueTx_of_find {s : State} {stream tag : Nat} {z : TxXfer}
    (h : s.tx.find? (fun y => y.stream == stream && y.tag == tag) = some z) :
    s.requeueTx stream tag none = State.countRequeue { s with tx := restarted s.tx stream tag } (s.txPort z) := by
  unfold State.requeueTx
  rw [h]
  rfl

theorem execTransferRequeue_tx {s : State} {x : TxXfer} {st : BitVec 16} {tag : BitVec 32} (hx : x ∈ s.tx) (hst : x.stream = st.toNat)
    (htag : x.tag = tag.toNat) (hgap : ∀ y ∈ s.tx, y.stream = st.toNat → y.tag = tag.toNat → s.holdLimit y.hold < y.gap) :
    ∃ q, execTransferRequeue .tx st tag s = .next (State.countRequeue { s with tx := restarted s.tx st.toNat tag.toNat } q) := by
  obtain ⟨z, hz⟩ := Option.isSome_iff_exists.mp (List.find?_isSome.mpr ⟨x, hx, by simp [hst, htag]⟩ :
    (s.tx.find? (fun y => y.stream == st.toNat && y.tag == tag.toNat)).isSome = true)
  have hzkey := List.find?_some hz
  rw [Bool.and_eq_true, beq_iff_eq, beq_iff_eq] at hzkey
  unfold execTransferRequeue
  simp only [hz]
  rw [if_pos (hgap z (List.mem_of_find?_eq_some hz) hzkey.1 hzkey.2), State.requeueTx_of_find hz]
  exact ⟨_, rfl⟩

/-- The receive that is bound again. -/
def State.rebound (s : State) (stream : Nat) (b : RxBind) : State :=
  s.setRx stream { s.rxOf stream with bound := some { b with gap := 0, moved := false, queued := true } }

theorem execTransferRequeue_rx {s : State} {b : RxBind} {st : BitVec 16} {tag : BitVec 32} (hst : st.toNat < 0xC000)
    (hbound : (s.rxOf st.toNat).bound = some b) (htag : b.tag = tag.toNat) (hgap : s.holdLimit b.hold < b.gap) :
    execTransferRequeue .rx st tag s = .next ((s.rebound st.toNat b).countRequeue (s.rxPort st.toNat b.port)) := by
  unfold execTransferRequeue State.requeueRx State.rebound
  simp [hst, hbound, htag, hgap]

theorem State.countRequeue_keeps (s : State) (p : Option Nat) :
    (s.countRequeue p).tx = s.tx ∧ (s.countRequeue p).rx = s.rx ∧ (s.countRequeue p).mem = s.mem := by
  obtain ⟨r, e, c, h⟩ := s.countRequeue_eq p
  rw [h]
  exact ⟨rfl, rfl, rfl⟩

section
variable {s : State} {p : Fin 18} {c : Cell} {first : BitVec 32} {b : RxBind}

/-- A data cell that a plain receive waits for: its bytes are in memory and the mark has moved. -/
theorem execDataCellReceive_lands (hup : s.portUp p.val = true) (hslot : 4 ≤ c.hdr.slot.toNat) (hc : c.hdr.ctype = 0#8)
    (huse : entryUse (s.entry p.val true c.hdr.slot.toNat) = 1) (hstream : c.hdr.stream.toNat = entryStream (s.entry p.val true c.hdr.slot.toNat))
    (hS0 : s.inS0 = true) (hlow : c.hdr.stream.toNat < 0xC000) (hbound : (s.rxOf c.hdr.stream.toNat).bound = some b) (hkind : b.kind = .plain)
    (htag : b.tag = c.hdr.tag.toNat) (hindex : c.hdr.index.toNat = b.mark)
    (hnotLast : bitOf c.hdr.flags.toNat 1 = false) (hend : 928 * b.mark + 928 < b.len) (hlen : c.payload.length = 928) (hhdr : c.hdr.length = 928#16)
    (htop : b.base + b.len ≤ hbmTop) (hregion : hbmRegion (b.base + b.len - 1) = hbmRegion b.base)
    (hopen : s.regionFenced (hbmRegion b.base) = false) : ∃ t, execDataCellReceive p c first s = .next t ∧
      (t.rxOf c.hdr.stream.toNat).bound = some { b.landed with moved := true, port := p.val, queued := false } ∧
      ∀ a, t.byte a = if b.base + 928 * b.mark ≤ a ∧ a < b.base + 928 * b.mark + 928
        then c.payload.getD (a - (b.base + 928 * b.mark)) 0#8 else s.byte a := by
  have hland := State.landOnStream_of_plain hbound hkind hend hlen htop hregion hopen
  rw [htag, ← hindex] at hland
  refine ⟨_, execDataCellReceive_of_bound hup hslot hc huse hstream hS0 hlow hbound hkind hnotLast hlen hhdr hland, ?_, fun a => ?_⟩
  · rw [State.rxOf_congr (State.noteLanding_landed ..).1, ← htag]
    exact State.bound_noteArrival (b := b.landed) (congrArg RxStream.bound (State.rxOf_setRx_same ..)) _
  · rw [State.byte_congr (State.noteLanding_landed ..).2, State.byte_congr (State.mem_noteArrival ..), hindex]
    have hwritten := State.byte_writeHbm (c.payload.length + 1) s (b.base + 928 * b.mark) c.payload (by omega) a
    rw [hlen] at hwritten ⊢
    exact hwritten

end

/-- Settles O12: a clause for each command, by its equation in each case. -/
theorem dataCellsAndMarks : Obligations.DataCellsAndMarks := by
  refine ⟨fun s p c first hup hslot hc => ⟨fun huse hstream => ?_, fun q huse hstream hfwd hq hhas => ?_, ?_⟩,
    fun s => ⟨fun p c x st tag mark hup hc htx hloc hst htag hdata => ⟨fun hn hmark hlanded => ?_, fun hn hmark => ?_⟩,
      fun x st tag hx hst htag hgap => ?_, fun b st tag hst hbound htag hgap => ?_⟩⟩
  · obtain ⟨hflag, hmem⟩ := s.webMismatch_shows p.isLt
    exact ⟨_, execDataCellReceive_of_wrong_stream hup hslot hc huse hstream, hflag, hmem⟩
  · refine ⟨_, execDataCellReceive_of_forwarding hup hslot hc huse hstream hfwd hq hhas, ?_, rfl⟩
    rw [State.port_setPort_same]
  · intro b huse hstream hS0 hlow hbound hkind htag hindex hnotLast hend hlen hhdr htop hregion hopen
    exact execDataCellReceive_lands hup hslot hc huse hstream hS0 hlow hbound hkind htag hindex hnotLast hend hlen hhdr htop hregion hopen
  · obtain ⟨y, hrun, hmarked, hnext, hcells⟩ := State.markTx_of_open htx hmark hlanded
    refine ⟨_, y, execControlCellReceive_of_one hup hc hn, ?_, hmarked, hnext, hcells, ?_⟩ <;>
      rw [State.takeNotice_landed htx hloc hst htag hdata, hrun]
  · refine ⟨_, execControlCellReceive_of_one hup hc hn, ?_, fun a => ?_⟩ <;> rw [State.takeNotice_goBack htx hloc hst htag hdata hmark]
    exact State.byte_congr (s.count_mem (cntPort p.val 10) 1) a
  · obtain ⟨q, hrun⟩ := execTransferRequeue_tx hx hst htag hgap
    obtain ⟨htx, -, hmem⟩ := State.countRequeue_keeps { s with tx := restarted s.tx st.toNat tag.toNat } q
    exact ⟨_, hrun, htx, fun a => State.byte_congr hmem a⟩
  · obtain ⟨-, hrx, hmem⟩ := (s.rebound st.toNat b).countRequeue_keeps (s.rxPort st.toNat b.port)
    refine ⟨_, execTransferRequeue_rx hst hbound htag hgap, ?_, fun q hport hq hcount => ?_, fun a => State.byte_congr hmem a⟩
    · rw [State.rxOf_congr hrx, State.rebound, State.rxOf_setRx_same]
    · have hshown : s.rxPort st.toNat b.port = some q := by
        unfold State.rxPort
        rw [hport, if_pos hq]
      rw [hshown]
      exact State.requeue_count_countRequeue _ hq hcount

end Sys2Proof.Machine
end

section

/-! SUPPORT. Family 02_tide_and_web.md: WEB_TABLE and swaps (O10). -/

namespace Sys2Proof.Machine

/-! ### The entries of a table (R69 to R71, R75) -/

theorem leNat_append_zeros (l : List Byte) (n : Nat) : leNat (l ++ List.replicate n 0#8) = leNat l := by
  induction l with
  | nil =>
    induction n with
    | zero => rfl
    | succ n ih =>
      rw [List.nil_append] at ih
      simp [List.replicate_succ, leNat, ih]
  | cons b l ih => rw [List.cons_append, leNat, ih, leNat]

/-- A value within a part of a byte string is that of the string. -/
theorem leAt_bytesAt (bs : List Byte) (off : Nat) {len m n : Nat} (h : m + n ≤ len) : leAt (bytesAt bs off len) m n = leAt bs (off + m) n := by
  have hfit : min n (len - m) = n := by omega
  unfold leAt bytesAt
  simp only [List.drop_append, List.take_append, List.drop_replicate, List.take_replicate, leNat_append_zeros]
  rw [List.drop_take, List.take_take, hfit, List.drop_drop]

theorem stagedEntry_lt (rx : Bool) (slot v : Nat) : (stagedEntry rx slot v).1 < 2 ^ 32 := by
  unfold stagedEntry
  split
  · decide
  · split
    · decide
    · cases rx
      · exact (Nat.mod_lt v (by decide : 0 < 2 ^ 18)).trans (by decide)
      · exact (Nat.mod_lt v (by decide : 0 < 2 ^ 23)).trans (by decide)

theorem stagedTable_getD (rx : Bool) (bs : List Byte) (off : Nat) {slot : Nat} (h : slot < 256) :
    ((stagedTable rx (bytesAt bs off 1024)).map (fun v => v.1)).getD slot 0 = (stagedEntry rx slot (leAt bs (off + 4 * slot) 4)).1 := by
  rw [← leAt_bytesAt bs off (by omega : 4 * slot + 4 ≤ 1024)]
  simp [stagedTable, h]

/-! ### The banks of a port -/

theorem State.bank_lt (s : State) (p : Nat) (rx : Bool) : s.bank p rx < 2 := by
  unfold State.bank
  cases rx
  · exact s.fld_lt (WEB_PORT_STATUS_bank_tx p)
  · exact s.fld_lt (WEB_PORT_STATUS_bank_rx p)

theorem b2n_le_one (b : Bool) : b2n b ≤ 1 := by cases b <;> decide

theorem b2n_inj {a b : Bool} (h : b2n a = b2n b) : a = b := by rw [← b2n_ne_zero a, h, b2n_ne_zero]

/-- Entries of different banks, or of different slots, lie at different addresses. -/
theorem bankAt_inj {p q b c k j : Nat} {rx ry : Bool} (hb : b < 2) (hc : c < 2) (hk : k < 256) (hj : j < 256)
    (h : bankAt p rx b k = bankAt q ry c j) : p = q ∧ rx = ry ∧ b = c ∧ k = j := by
  have hrx := b2n_le_one rx
  have hry := b2n_le_one ry
  unfold bankAt at h
  exact ⟨by omega, b2n_inj (by omega), by omega, by omega⟩

theorem bankAt_ne_portStatus {p q b k : Nat} {rx : Bool} (hq : q < 18) : WEB_PORT_STATUS q ≠ bankAt p rx b k := by
  unfold WEB_PORT_STATUS bankAt
  omega

theorem webReg_bankAt {p b k : Nat} {rx : Bool} (hp : p < 18) (hb : b < 2) (hk : k < 256) : WebReg (bankAt p rx b k) := by
  have hrx := b2n_le_one rx
  unfold WebReg bankAt
  omega

theorem State.bank_congr {s t : State} {p : Nat} (h : t.reg (WEB_PORT_STATUS p) = s.reg (WEB_PORT_STATUS p)) (rx : Bool) : t.bank p rx = s.bank p rx := by
  unfold State.bank State.fld
  cases rx <;> exact congrArg (fun w : Word => bitsOf w.toNat _ _) h

/-! ### Writing a table into a bank -/

theorem State.reg_writeEntries (s : State) (p : Nat) (rx : Bool) (b : Nat) (t : List Nat) (n : Nat) :
    (∀ k < n, (forUpTo n (fun k x => State.setReg x (bankAt p rx b k) (BitVec.ofNat 32 (t.getD k 0))) s).reg (bankAt p rx b k) =
      BitVec.ofNat 32 (t.getD k 0)) ∧
    (∀ a, (∀ k < n, a ≠ bankAt p rx b k) →
      (forUpTo n (fun k x => State.setReg x (bankAt p rx b k) (BitVec.ofNat 32 (t.getD k 0))) s).reg a = s.reg a) := by
  induction n with
  | zero => exact ⟨fun k hk => absurd hk (Nat.not_lt_zero k), fun _ _ => rfl⟩
  | succ n ih =>
    obtain ⟨hsame, hother⟩ := ih
    unfold forUpTo at hsame hother ⊢
    rw [List.range_succ, List.foldl_append, List.foldl_cons, List.foldl_nil]
    refine ⟨fun k hk => ?_, fun a ha => ?_⟩
    · by_cases hkn : k = n
      · rw [hkn, State.reg_setReg_same]
      · rw [State.reg_setReg_other _ _ (by unfold bankAt; omega), hsame k (by omega)]
    · rw [State.reg_setReg_other _ _ (ha n (by omega)), hother a fun k hk => ha k (by omega)]

theorem State.reg_writeBank_same (s : State) (p : Nat) (rx : Bool) (b : Nat) (t : List Nat) {k : Nat} (hk : k < 256) :
    (s.writeBank p rx b t).reg (bankAt p rx b k) = BitVec.ofNat 32 (t.getD k 0) := (s.reg_writeEntries p rx b t 256).1 k hk

theorem State.reg_writeBank_other (s : State) {p : Nat} {rx : Bool} {b : Nat} (t : List Nat) {a : Nat} (ha : ∀ k < 256, a ≠ bankAt p rx b k) :
    (s.writeBank p rx b t).reg a = s.reg a := (s.reg_writeEntries p rx b t 256).2 a ha

theorem State.ports_writeBank (s : State) (p : Nat) (rx : Bool) (b : Nat) (t : List Nat) : (s.writeBank p rx b t).ports = s.ports :=
  forUpTo_keeps (fun y : State => y.ports = s.ports) 256 _ s rfl fun _ _ h => h

/-! ### Staging the tables of a WEB_TABLE (R76) -/

/-- Each table is written into the bank of its direction that is not current. -/
def State.stageTables (s : State) (tabs : List ((Nat × Bool) × List (Nat × Bool))) : State :=
  tabs.foldl (fun (t : State) z => t.writeBank z.1.1 z.1.2 (1 - t.bank z.1.1 z.1.2) (z.2.map (fun v => v.1))) s

theorem State.stageTables_cons (s : State) (z : (Nat × Bool) × List (Nat × Bool)) (tabs : List ((Nat × Bool) × List (Nat × Bool))) :
    s.stageTables (z :: tabs) = (s.writeBank z.1.1 z.1.2 (1 - s.bank z.1.1 z.1.2) (z.2.map (fun v => v.1))).stageTables tabs := List.foldl_cons ..

theorem State.ports_stageTables (s : State) (tabs : List ((Nat × Bool) × List (Nat × Bool))) : (s.stageTables tabs).ports = s.ports :=
  foldl_keeps (fun y : State => y.ports = s.ports) tabs _ s rfl fun _ _ h => (State.ports_writeBank ..).trans h

theorem State.bank_writeBank (s : State) (p : Nat) (rx : Bool) (b : Nat) (t : List Nat) {q : Nat} (hq : q < 18) (ry : Bool) :
    (s.writeBank p rx b t).bank q ry = s.bank q ry :=
  State.bank_congr (s.reg_writeBank_other t fun _ _ => bankAt_ne_portStatus hq) ry

/-- Registers outside the banks that are staged keep their values. -/
theorem State.reg_stageTables_other (s : State) (tabs : List ((Nat × Bool) × List (Nat × Bool))) (hp : ∀ z ∈ tabs, z.1.1 < 18) (a : Nat)
    (ha : ∀ z ∈ tabs, ∀ k < 256, a ≠ bankAt z.1.1 z.1.2 (1 - s.bank z.1.1 z.1.2) k) : (s.stageTables tabs).reg a = s.reg a := by
  induction tabs generalizing s with
  | nil => rfl
  | cons z tabs ih =>
    obtain ⟨ha1, ha2⟩ := List.forall_mem_cons.mp ha
    obtain ⟨-, hp2⟩ := List.forall_mem_cons.mp hp
    rw [State.stageTables_cons, ih _ hp2, s.reg_writeBank_other _ ha1]
    intro y hy k hk
    rw [s.bank_writeBank _ _ _ _ (hp2 y hy)]
    exact ha2 y hy k hk

/-- Each staged entry stands in its bank. -/
theorem State.reg_stageTables (s : State) (tabs : List ((Nat × Bool) × List (Nat × Bool))) (hp : ∀ z ∈ tabs, z.1.1 < 18)
    (hnodup : (tabs.map (fun z => z.1)).Nodup) {z : (Nat × Bool) × List (Nat × Bool)} (hz : z ∈ tabs) {slot : Nat} (hslot : slot < 256) :
    (s.stageTables tabs).reg (bankAt z.1.1 z.1.2 (1 - s.bank z.1.1 z.1.2) slot) = BitVec.ofNat 32 ((z.2.map (fun v => v.1)).getD slot 0) := by
  induction tabs generalizing s with
  | nil => exact absurd hz List.not_mem_nil
  | cons y tabs ih =>
    obtain ⟨-, hp2⟩ := List.forall_mem_cons.mp hp
    obtain ⟨hy, hnodup2⟩ := List.nodup_cons.mp hnodup
    rw [State.stageTables_cons]
    rcases List.mem_cons.mp hz with rfl | hz2
    · rw [State.reg_stageTables_other _ tabs hp2, s.reg_writeBank_same _ _ _ _ hslot]
      intro y hy2 k hk hsame
      obtain ⟨hport, hdir, -, -⟩ := bankAt_inj (by omega) (by omega) hslot hk hsame
      exact hy (List.mem_map.mpr ⟨y, hy2, Prod.ext hport.symm hdir.symm⟩)
    · have hrest := ih (s.writeBank y.1.1 y.1.2 (1 - s.bank y.1.1 y.1.2) (y.2.map (fun v => v.1))) hp2 hnodup2 hz2
      rwa [s.bank_writeBank _ _ _ _ (hp2 z hz2)] at hrest

/-! ### Arming swaps (R77, R78) -/

theorem State.swapOf_congr {s t : State} {p : Nat} (h : t.port p = s.port p) (rx : Bool) : t.swapOf p rx = s.swapOf p rx := by
  unfold State.swapOf
  rw [h]

theorem State.swapOf_setSwap (s : State) (p q : Nat) (rx ry : Bool) (x : Option Nat) :
    (s.setSwap p rx x).swapOf q ry = if (q, ry) = (p, rx) then x else s.swapOf q ry := by
  have hport : (s.setSwap p rx x).port q = if q = p then (if rx then { s.port p with rxSwap := x } else { s.port p with txSwap := x }) else s.port q := by
    unfold State.setSwap State.showSwap
    rw [State.port_setFld, State.port_setPort]
  unfold State.swapOf
  rw [hport]
  by_cases hq : q = p
  · subst hq
    cases rx <;> cases ry <;> simp
  · simp [hq]

theorem State.reg_setSwap (s : State) (p : Nat) (rx : Bool) (x : Option Nat) {a : Nat} (ha : a ≠ WEB_PORT_STATUS p) :
    (s.setSwap p rx x).reg a = s.reg a := by
  unfold State.setSwap State.showSwap
  rw [State.reg_setFld_other _ (WEB_PORT_STATUS_swap_pending p) _ ha, State.reg_setPort]

theorem State.fld_setSwap (s : State) (p : Nat) (rx : Bool) (x : Option Nat) {f : Fld} (hf : f.lo + f.width ≤ 5) :
    (s.setSwap p rx x).fld f = s.fld f := by
  unfold State.setSwap State.showSwap
  rw [State.fld_setFld_bits _ (WEB_PORT_STATUS_swap_pending p) f _ (by decide : 5 + 1 ≤ 32) (.inr hf), State.fld_setPort]

theorem State.bank_setSwap (s : State) (p q : Nat) (rx ry : Bool) (x : Option Nat) : (s.setSwap p rx x).bank q ry = s.bank q ry := by
  unfold State.bank
  cases ry
  · exact s.fld_setSwap p rx x (f := WEB_PORT_STATUS_bank_tx q) (by decide : 3 + 1 ≤ 5)
  · exact s.fld_setSwap p rx x (f := WEB_PORT_STATUS_bank_rx q) (by decide : 4 + 1 ≤ 5)

/-- The directions of a list take the same pending swap, or none. -/
def State.setSwaps (s : State) (l : List (Nat × Bool)) (x : Option Nat) : State := l.foldl (fun (t : State) z => t.setSwap z.1 z.2 x) s

theorem State.swapOf_setSwaps (s : State) (l : List (Nat × Bool)) (x : Option Nat) (q : Nat) (ry : Bool) :
    (s.setSwaps l x).swapOf q ry = if (q, ry) ∈ l then x else s.swapOf q ry := by
  induction l generalizing s with
  | nil => rfl
  | cons z l ih =>
    rw [State.setSwaps, List.foldl_cons]
    refine (ih _).trans ?_
    rw [State.swapOf_setSwap]
    by_cases hl : (q, ry) ∈ l
    · simp [hl]
    · by_cases hz : (q, ry) = z
      · simp [hz]
      · simp [hl, hz]

theorem State.bank_setSwaps (s : State) (l : List (Nat × Bool)) (x : Option Nat) (q : Nat) (ry : Bool) : (s.setSwaps l x).bank q ry = s.bank q ry :=
  foldl_keeps (fun y : State => y.bank q ry = s.bank q ry) l _ s rfl fun _ _ h => (State.bank_setSwap ..).trans h

theorem State.reg_setSwaps (s : State) (l : List (Nat × Bool)) (x : Option Nat) (a : Nat) (ha : ∀ z ∈ l, a ≠ WEB_PORT_STATUS z.1) :
    (s.setSwaps l x).reg a = s.reg a := by
  induction l generalizing s with
  | nil => rfl
  | cons z l ih =>
    obtain ⟨ha1, ha2⟩ := List.forall_mem_cons.mp ha
    exact (ih _ ha2).trans (s.reg_setSwap _ _ _ ha1)

theorem State.swapOf_congr_ports {s t : State} (h : t.ports = s.ports) (p : Nat) (rx : Bool) : t.swapOf p rx = s.swapOf p rx :=
  State.swapOf_congr (by unfold State.port; rw [h]) rx

/-! ### The ports and directions of a WEB_TABLE (R75) -/

/-- The directions that a WEB_TABLE names of port `p`. -/
theorem fst_of_mem_directions {tx rx : Bool} {p : Nat} {z : Nat × Bool}
    (h : z ∈ (if tx then [(p, false)] else []) ++ (if rx then [(p, true)] else [])) : z.1 = p := by
  rcases List.mem_append.mp h with h | h
  · rw [List.mem_singleton.mp (List.mem_ite_nil_right.mp h).2]
  · rw [List.mem_singleton.mp (List.mem_ite_nil_right.mp h).2]

theorem webNamed_port_lt {d : List Byte} {z : Nat × Bool} (h : z ∈ webNamed d) : z.1 < 18 := by
  obtain ⟨p, hp, hz⟩ := List.mem_flatMap.mp h
  rw [fst_of_mem_directions hz]
  exact List.mem_range.mp (List.mem_filter.mp hp).1

theorem webNamed_nodup (d : List Byte) : (webNamed d).Nodup := by
  unfold webNamed
  refine List.nodup_flatMap.mpr ⟨fun p _ => ?_, (List.nodup_range.filter _).imp fun hne z hp hq => ?_⟩
  · split <;> split <;> simp
  · exact hne ((fst_of_mem_directions hp).symm.trans (fst_of_mem_directions hq))

/-! ### WEB_TABLE outside a group (R75 to R78) -/

/-- The tables of a WEB_TABLE as staged: `bs` is what it has read, one table or one for each direction. -/
def webTabs (d bs : List Byte) : List ((Nat × Bool) × List (Nat × Bool)) :=
  (List.range (webNamed d).length).map (fun i =>
    let n := (webNamed d).getD i (0, false)
    (n, stagedTable n.2 (bytesAt bs (if bitOf (leAt d 20 1) 2 then 0 else 1024 * i) 1024)))

theorem map_fst_webTabs (d bs : List Byte) : (webTabs d bs).map (fun z => z.1) = webNamed d := by
  unfold webTabs
  rw [List.map_map]
  refine List.ext_getElem (by simp) fun i h1 h2 => ?_
  simp [h2]

theorem mem_webTabs {d : List Byte} {i : Nat} {x : Nat × Bool} (bs : List Byte) (h : (webNamed d)[i]? = some x) :
    (x, stagedTable x.2 (bytesAt bs (if bitOf (leAt d 20 1) 2 then 0 else 1024 * i) 1024)) ∈ webTabs d bs := by
  obtain ⟨hi, hx⟩ := List.getElem?_eq_some_iff.mp h
  refine List.mem_map.mpr ⟨i, List.mem_range.mpr hi, ?_⟩
  simp [hi, hx]

/-- What a WEB_TABLE outside a group reads: one table, or one for each direction. -/
def State.webLoad (s : State) (e : Nat) : List Byte × AccEnd × State :=
  s.load (.unit (srcRing (s.jget e).ring)) (leAt (s.desc e) 32 8)
    (1024 * (if bitOf (leAt (s.desc e) 20 1) 2 then 1 else (webNamed (s.desc e)).length))

/-- The state in which its tables are staged and armed. -/
def State.webArmed (s : State) (e : Nat) : State :=
  ((s.webLoad e).2.2.stageTables (webTabs (s.desc e) (s.webLoad e).1)).setSwaps (webNamed (s.desc e)) (some (roundFrame (leAt (s.desc e) 24 8)))

theorem execWebTable_of_free {s : State} {e : Nat} (hfresh : s.fresh e kindWebTable = true) (hcancel : bitOf (leAt (s.desc e) 20 1) 3 = false)
    (hok : webTableOk (s.desc e) = true) (hgroup : dGroup (s.desc e) = 0) (hfree : ∀ x ∈ webNamed (s.desc e), s.swapBusy x.1 x.2 = false)
    (hbehind : s.webBehind e = false) (hlate : s.tide.ns + 2 * 2048 ≤ roundFrame (leAt (s.desc e) 24 8)) (hload : (s.webLoad e).2.1 = .ok) :
    ∃ st n, execWebTable e s = .next ((s.webArmed e).complete e [st] .none n) ∧ (st = .ok ∨ st = .clamped) := by
  suffices hst : ∃ l n, execWebTable e s = .next ((s.webArmed e).complete e l .none n) ∧ (l = [.clamped] ∨ l = [.ok]) by
    obtain ⟨l, n, hrun, rfl | rfl⟩ := hst
    · exact ⟨.clamped, n, hrun, .inr rfl⟩
    · exact ⟨.ok, n, hrun, .inl rfl⟩
  have hnone : (webNamed (s.desc e)).any (fun x => s.swapBusy x.1 x.2) = false := List.any_eq_false.mpr fun x hx => by simp [hfree x hx]
  have hlate' : ¬ roundFrame (leAt (s.desc e) 24 8) < s.tide.ns + 2 * frameNs := by
    unfold frameNs
    omega
  unfold State.webLoad at hload
  unfold execWebTable
  dsimp only
  rw [if_pos ⟨hfresh, by simp [hcancel]⟩, if_neg (by simp [hok]), if_neg (by simp [hnone, hbehind]), if_neg hlate', if_neg (by simp [hgroup]),
    if_neg (fun hfail => hfail hload), if_pos hgroup]
  exact ⟨_, _, rfl, ite_eq_or_eq ..⟩

section
variable {s : State} {e : Nat}

/-- A command that completes a descriptor with one status ends it so. -/
theorem State.endsAs_complete (s : State) (e : Nat) {st : Status} (hst : st = .ok ∨ st = .clamped) (n : Nat) :
    EndsAs (s.complete e [st] .none n) e st .none := by
  refine ⟨_, List.getLast?_concat .., rfl, ?_, ite_self _⟩
  rcases hst with rfl | rfl <;> rfl

theorem State.offWeb_webLoad (s : State) (e : Nat) : OffWeb s (s.webLoad e).2.2 := (OffWeb.refl s).load _ _ _

theorem State.bank_webLoad (s : State) (e : Nat) {p : Nat} (hp : p < 18) (rx : Bool) : (s.webLoad e).2.2.bank p rx = s.bank p rx :=
  State.bank_congr ((s.offWeb_webLoad e).regs _ (webReg_portStatus ⟨p, hp⟩)) rx

theorem webTabs_port_lt {d bs : List Byte} {z : (Nat × Bool) × List (Nat × Bool)} (h : z ∈ webTabs d bs) : z.1.1 < 18 :=
  webNamed_port_lt (by rw [← map_fst_webTabs d bs]; exact List.mem_map_of_mem h : z.1 ∈ webNamed d)

theorem State.swapOf_webArmed (s : State) (e p : Nat) (rx : Bool) : (s.webArmed e).swapOf p rx =
    if (p, rx) ∈ webNamed (s.desc e) then some (roundFrame (leAt (s.desc e) 24 8)) else s.swapOf p rx := by
  unfold State.webArmed
  rw [State.swapOf_setSwaps, State.swapOf_congr_ports ((State.ports_stageTables ..).trans (s.offWeb_webLoad e).ports)]

/-- Registers of the banks are written as tables, and not by the arming of swaps. -/
theorem State.reg_webArmed_bank (s : State) (e p b k : Nat) (rx : Bool) : (s.webArmed e).reg (bankAt p rx b k) =
    ((s.webLoad e).2.2.stageTables (webTabs (s.desc e) (s.webLoad e).1)).reg (bankAt p rx b k) :=
  State.reg_setSwaps _ _ _ _ fun _ hz => (bankAt_ne_portStatus (webNamed_port_lt hz)).symm

theorem State.bank_webArmed (s : State) (e : Nat) {p : Nat} (hp : p < 18) (rx : Bool) : (s.webArmed e).bank p rx = s.bank p rx := by
  unfold State.webArmed
  rw [State.bank_setSwaps, ← s.bank_webLoad e hp]
  exact State.bank_congr (State.reg_stageTables_other _ _ (fun z hz => webTabs_port_lt hz) _ fun _ _ _ _ => bankAt_ne_portStatus hp) rx

/-- The staged bank of a direction holds its table. -/
theorem State.reg_webArmed_staged (s : State) (e : Nat) {i : Nat} {x : Nat × Bool} (hx : (webNamed (s.desc e))[i]? = some x) {slot : Nat}
    (hslot : slot < 256) : ((s.webArmed e).reg (bankAt x.1 x.2 (1 - s.bank x.1 x.2) slot)).toNat =
      (stagedEntry x.2 slot (leAt (s.webLoad e).1 (1024 * (if bitOf (leAt (s.desc e) 20 1) 2 then 0 else i) + 4 * slot) 4)).1 := by
  have hport : x.1 < 18 := webNamed_port_lt (List.mem_of_getElem? hx)
  have hoff : (if bitOf (leAt (s.desc e) 20 1) 2 then 0 else 1024 * i) = 1024 * (if bitOf (leAt (s.desc e) 20 1) 2 then 0 else i) := by
    split <;> rfl
  have hstaged := State.reg_stageTables (s.webLoad e).2.2 _ (fun z hz => webTabs_port_lt hz) (by rw [map_fst_webTabs]; exact webNamed_nodup _)
    (mem_webTabs (s.webLoad e).1 hx) hslot
  rw [s.bank_webLoad e hport] at hstaged
  rw [s.reg_webArmed_bank, hstaged, stagedTable_getD _ _ _ hslot, hoff, BitVec.toNat_ofNat, Nat.mod_eq_of_lt (stagedEntry_lt ..)]

/-- Current tables are as they were. -/
theorem State.reg_webArmed_current (s : State) (e : Nat) {p slot : Nat} (hp : p < 18) (rx : Bool) (hslot : slot < 256) :
    (s.webArmed e).reg (bankAt p rx (s.bank p rx) slot) = s.reg (bankAt p rx (s.bank p rx) slot) := by
  rw [s.reg_webArmed_bank, State.reg_stageTables_other _ _ (fun z hz => webTabs_port_lt hz), (s.offWeb_webLoad e).regs _
    (webReg_bankAt hp (s.bank_lt p rx) hslot)]
  intro z hz k hk hsame
  have hport := webTabs_port_lt hz
  rw [s.bank_webLoad e hport] at hsame
  obtain ⟨rfl, rfl, hbank, -⟩ := bankAt_inj (s.bank_lt p rx) (by omega) hslot hk hsame
  have hlt := s.bank_lt z.1.1 z.1.2
  omega

end

/-! ### Cancels and swaps (R79, R80) -/

/-- The pending swaps of a cancel whose frames have not begun. -/
def State.cancelled (s : State) (e : Nat) : List (Nat × Bool) :=
  (webNamed (s.desc e)).filter (fun x => match s.swapOf x.1 x.2 with
    | some t => decide (s.tide.ns < t)
    | none => false)

theorem State.mem_cancelled {s : State} {e : Nat} {x : Nat × Bool} {y : Nat} (hx : x ∈ webNamed (s.desc e)) (hy : s.swapOf x.1 x.2 = some y)
    (hlate : s.tide.ns < y) : x ∈ s.cancelled e := by
  refine List.mem_filter.mpr ⟨hx, ?_⟩
  simp [hy, hlate]

theorem execWebTableCancel_of_pending {s : State} {e : Nat} (hfresh : s.fresh e kindWebTable = true) (hcancel : bitOf (leAt (s.desc e) 20 1) 3 = true)
    (hok : webTableOk (s.desc e) = true) (hgroup : dGroup (s.desc e) = 0) (hsome : s.cancelled e ≠ []) :
    execWebTableCancel e s = .next ((s.setSwaps (s.cancelled e) none).okWith e) := by
  unfold State.cancelled at hsome
  unfold execWebTableCancel
  dsimp only
  rw [if_pos ⟨hfresh, hcancel⟩, if_neg (by simp [hok]), if_neg (by rwa [List.isEmpty_iff]), if_pos hgroup]
  rfl

/-- A direction whose pending swap has taken place at tide `x`. -/
def State.swapped (s : State) (p : Nat) (rx : Bool) (x : Nat) : State :=
  ((s.atTide x).setSwap p rx none).setFld (if rx then WEB_PORT_STATUS_bank_rx p else WEB_PORT_STATUS_bank_tx p) (1 - s.bank p rx)

theorem execBankSwap_of_pending {s : State} {p : Fin 18} {d : Dir} {x : Nat} (h : s.swapOf p.val (d == .rx) = some x) :
    execBankSwap p d s = .next (s.swapped p.val (d == .rx) x) := by
  unfold execBankSwap
  dsimp only
  rw [h]
  show Host.Outcome.next (State.setFld _ _ (1 - ((s.atTide x).setSwap p.val (d == .rx) none).bank p.val (d == .rx))) = _
  rw [State.bank_setSwap]
  rfl

theorem State.swapped_shows (s : State) (p : Nat) (rx : Bool) (x : Nat) : (s.swapped p rx x).swapOf p rx = none ∧
    (s.swapped p rx x).bank p rx = 1 - s.bank p rx ∧ (s.swapped p rx x).bank p (!rx) = s.bank p (!rx) ∧
    (s.swapped p rx x).tide.ns = max s.tide.ns x % 2 ^ 64 ∧ RegsBut [WEB_PORT_STATUS p] s (s.swapped p rx x) ∧ MemSame s (s.swapped p rx x) := by
  have hswap := (s.atTide x).swapOf_setSwap p p rx rx none
  have hbank (ry : Bool) : ((s.atTide x).setSwap p rx none).bank p ry = s.bank p ry := State.bank_setSwap ..
  have hregs : RegsBut [WEB_PORT_STATUS p] s ((s.atTide x).setSwap p rx none) := fun a ha =>
    State.reg_setSwap _ _ _ _ (by simpa using ha)
  have htide : ((s.atTide x).setSwap p rx none).tide.ns = max s.tide.ns x % 2 ^ 64 := rfl
  have hmem : ((s.atTide x).setSwap p rx none).mem = s.mem := rfl
  have hnew : (1 - s.bank p rx) % 2 = 1 - s.bank p rx := by omega
  unfold State.swapped
  generalize (s.atTide x).setSwap p rx none = t at hswap hbank hregs htide hmem
  rw [if_pos rfl] at hswap
  refine ⟨hswap, ?_, ?_, htide, hregs.setFld _ _ ?_, fun a => State.byte_congr hmem a⟩
  · cases rx
    · exact (t.fld_setFld_same (WEB_PORT_STATUS_bank_tx p) _ (by decide : 3 + 1 ≤ 32)).trans hnew
    · exact (t.fld_setFld_same (WEB_PORT_STATUS_bank_rx p) _ (by decide : 4 + 1 ≤ 32)).trans hnew
  · refine Eq.trans ?_ (hbank (!rx))
    cases rx
    · exact t.fld_setFld_bits (WEB_PORT_STATUS_bank_tx p) (WEB_PORT_STATUS_bank_rx p) _ (by decide : 3 + 1 ≤ 32) (.inl (by decide : 3 + 1 ≤ 4))
    · exact t.fld_setFld_bits (WEB_PORT_STATUS_bank_rx p) (WEB_PORT_STATUS_bank_tx p) _ (by decide : 4 + 1 ≤ 32) (.inr (by decide : 3 + 1 ≤ 4))
  · cases rx <;> exact List.mem_singleton_self _

/-- Settles O10: staging and arming, the cancel, and the swap, by what each leaves of the banks and the pending swaps. -/
theorem webTablesAndSwaps : Obligations.WebTablesAndSwaps := by
  intro s
  refine ⟨fun e hfresh hcancel hok hgroup hfree hbehind hlate hload => ?_, fun e hfresh hcancel hok hgroup hpending => ?_,
    fun p d x hswap => ⟨_, execBankSwap_of_pending hswap, s.swapped_shows p.val (d == .rx) x⟩⟩
  · obtain ⟨st, n, hrun, hst⟩ := execWebTable_of_free hfresh hcancel hok hgroup hfree hbehind hlate hload
    have hoff : OffWeb (s.webArmed e) ((s.webArmed e).complete e [st] .none n) := (OffWeb.refl _).complete ..
    have hswaps (p : Nat) (rx : Bool) : ((s.webArmed e).complete e [st] .none n).swapOf p rx = (s.webArmed e).swapOf p rx :=
      State.swapOf_congr_ports hoff.ports p rx
    refine ⟨_, hrun, ?_, fun x hx => ?_, fun i x hx slot hslot => ?_, fun p hp rx hother => ?_, fun p hp rx slot hslot => ?_⟩
    · have hends := (s.webArmed e).endsAs_complete e hst n
      rcases hst with rfl | rfl
      · exact .inl hends
      · exact .inr hends
    · rw [hswaps, s.swapOf_webArmed, if_pos hx]
    · have hport : x.1 < 18 := webNamed_port_lt (List.mem_of_getElem? hx)
      rw [hoff.regs _ (webReg_bankAt hport (by omega) hslot)]
      exact s.reg_webArmed_staged e hx hslot
    · rw [hswaps, s.swapOf_webArmed, if_neg hother]
    · have hbank : ((s.webArmed e).complete e [st] .none n).bank p rx = s.bank p rx :=
        (State.bank_congr (hoff.regs _ (webReg_portStatus ⟨p, hp⟩)) rx).trans (s.bank_webArmed e hp rx)
      unfold State.entry
      rw [hbank, hoff.regs _ (webReg_bankAt hp (s.bank_lt p rx) hslot), s.reg_webArmed_current e hp rx hslot]
  · obtain ⟨x, hx, y, hy, hlate⟩ := hpending
    have hsome : s.cancelled e ≠ [] := List.ne_nil_of_mem (State.mem_cancelled hx hy hlate)
    have hoff : OffWeb (s.setSwaps (s.cancelled e) none) ((s.setSwaps (s.cancelled e) none).okWith e) := (OffWeb.refl _).okWith ..
    refine ⟨_, execWebTableCancel_of_pending hfresh hcancel hok hgroup hsome, State.endsAs_complete _ e (.inl rfl) 0, fun z hz v hv hbefore => ?_⟩
    rw [State.swapOf_congr_ports hoff.ports, State.swapOf_setSwaps, if_pos (State.mem_cancelled hz hv hbefore)]

end Sys2Proof.Machine
end

section

/-! SUPPORT. Family 02_tide_and_web.md: local transfers leave the web alone. -/

namespace Sys2Proof.Machine

/-! ### What the landing of local transfers leaves alone

A transfer over the region crossbar (R360, R466) reaches its endpoint without a port: the tide unit, the ports and the registers of the web are as before. -/

theorem OffWeb.ite {s t u : State} {c : Prop} [Decidable c] (h : OffWeb s t) (hu : OffWeb s u) : OffWeb s (if c then t else u) := by
  split
  · exact h
  · exact hu

theorem OffWeb.iteLanding {α : Type} {s : State} {c : Prop} [Decidable c] {x y : Landing × α × State} (hx : OffWeb s x.2.2)
    (hy : OffWeb s y.2.2) : OffWeb s (if c then x else y).2.2 := by
  split
  · exact hx
  · exact hy

section
variable {s t : State} (h : OffWeb s t)
include h

/-! #### Records and sums of a step -/

theorem OffWeb.setTx (l : List TxXfer) : OffWeb s { t with tx := l } := h.congr rfl

theorem OffWeb.setRx (stream : Nat) (r : RxStream) : OffWeb s (t.setRx stream r) := h.congr rfl

theorem OffWeb.setNorm (n : Nat) (a : NormAcc) : OffWeb s (t.setNorm n a) := h.congr rfl

theorem OffWeb.markOverflow (n : Nat) : OffWeb s (t.markOverflow n) := h.setNorm n _

theorem OffWeb.markNonfinite (n : Nat) : OffWeb s (t.markNonfinite n) := h.setNorm n _

theorem OffWeb.mergeAmax (n i v : Nat) : OffWeb s (t.mergeAmax n i v) := h.setNorm n _

theorem OffWeb.setHist (i : Nat) (b : List Byte) : OffWeb s (t.setHist i b) := h.put _ b

theorem OffWeb.applyProbe (i n w : Nat) : OffWeb s (t.applyProbe i n w) := by
  unfold State.applyProbe
  dsimp only
  split
  · exact h
  · exact h.setHist i _

theorem OffWeb.refreshAnchors (n : Nat) : OffWeb s (t.refreshAnchors n) := h.congr rfl

theorem OffWeb.probeSkip (n : Nat) : OffWeb s (t.probeSkip n) := by
  have hskipped : OffWeb s (State.setNorm { t with verdicts := t.verdicts.map (fun v => v.probed n) } n { t.normOf n with probe := true }) := h.congr rfl
  unfold State.probeSkip
  dsimp only
  split
  · exact ((hskipped.setFld UPD_VERDICT_STATUS_code 3 (by decide)).setFld UPD_VERDICT_STATUS_reason 4 (by decide)).setFld UPD_CLIP_FACTOR_c f32one (by decide)
  · exact hskipped

theorem OffWeb.broadcastDone (e : Nat) : OffWeb s (t.broadcastDone e) := by
  have hnorm : OffWeb s (if bitOf (leAt (t.desc e) 16 1) 2 then
      { t with normIn := t.normIn ++ [t.bytes (leAt (t.desc e) 32 8) (leAt (t.desc e) 24 4)] } else t) := OffWeb.ite (by exact h.congr rfl) h
  unfold State.broadcastDone
  dsimp only
  split
  · refine OffWeb.refreshAnchors (hnorm.forUpTo _ _ fun i y hy => ?_) _
    split
    · exact hy
    · split
      · exact hy.probeSkip _
      · exact hy.applyProbe i _ _
  · exact hnorm

/-! #### RING_STEP (R404 to R406) -/

theorem OffWeb.showRingJobs : OffWeb s t.showRingJobs := h.setFld _ _ (by decide)

theorem OffWeb.setRingJob (e : Nat) (j : RingJob) : OffWeb s (t.setRingJob e j) := OffWeb.showRingJobs (by exact h.congr rfl)

theorem OffWeb.dropRingJob (e : Nat) : OffWeb s (t.dropRingJob e) := by
  have hgone : OffWeb s { t with
      ringJobs := SMap.erase t.ringJobs e
      tx := t.tx.filter (fun x => x.owner != TxOwner.entry e) } := h.congr rfl
  unfold State.dropRingJob
  refine OffWeb.showRingJobs (OffWeb.ite ?_ (hgone.setRx _ _))
  split <;> exact hgone.setRx _ _

theorem OffWeb.poisonStep (n : Nat) : OffWeb s (t.poisonStep n) := ((h.markNonfinite n).bump HUB_RING_COUNT_poisoned _ (by decide)).setNorm n _

theorem OffWeb.failRing (e : Nat) (st : Status) (err : ErrCode) : OffWeb s (t.failRing e st err) := by
  unfold State.failRing
  refine OffWeb.complete (OffWeb.poisonStep ((h.dropRingJob e).setFlag _ ?_) _) e _ err 0 0
  split <;> decide

theorem OffWeb.tryRingDone (e : Nat) : OffWeb s (t.tryRingDone e) := by
  unfold State.tryRingDone
  dsimp only
  split
  · exact (((h.dropRingJob e).bump HUB_RING_COUNT_completed 1 (by decide)).count (cntHub 19) 1 (by decide)).okWith e _ _
  · exact h

/-! #### The ends of a transfer (R67, R385, R466) -/

theorem OffWeb.txDone (x : TxXfer) : OffWeb s (t.txDone x) := by
  have hgone := h.setTx (t.tx.erase x)
  unfold State.txDone
  dsimp only
  split
  · exact hgone
  · exact hgone
  · split
    · split
      · exact hgone.complete _ _ _ _ _
      · split
        · exact hgone.complete _ _ _ _ _
        · exact hgone.okWith _ _ _
    · split
      · exact (hgone.setRingJob _ _).tryRingDone _
      · split
        · exact hgone.okWith _ _ _
        · exact hgone.okWith _ _ _

theorem OffWeb.markTx (x : TxXfer) (mark : Nat) (reject late carried : Bool) : OffWeb s (t.markTx x mark reject late carried) := by
  unfold State.markTx
  dsimp only
  split
  · exact (h.setTx _).txDone _
  · exact h.setTx _

theorem OffWeb.startTx (x : TxXfer) : OffWeb s (t.startTx x) := h.congr rfl

theorem OffWeb.bindNext (stream : Nat) : OffWeb s (t.bindNext stream) := by
  unfold State.bindNext
  dsimp only
  split <;> exact h.setRx _ _

theorem OffWeb.closeRx (stream : Nat) (b : RxBind) (done clamped : Bool) (err : AccEnd) : OffWeb s (t.closeRx stream b done clamped err) := by
  have hnext := (h.setRx stream { t.rxOf stream with bound := none, marks := putMark (t.rxOf stream).marks b.tag b.mark done }).bindNext stream
  unfold State.closeRx
  dsimp only
  split
  · split
    · exact hnext.failRing _ _ _
    · exact hnext.failWith _ _
  · split
    · exact ((hnext.toHome _).setRingJob _ _).tryRingDone _
    · exact (hnext.broadcastDone _).okWith _ _ _
    · exact hnext.okWith _ _ _
    · split
      · exact hnext.complete _ _ _ _ _
      · exact hnext.okWith _ _ _

theorem OffWeb.countLanded (stream : Nat) : OffWeb s (t.countLanded stream) := (h.setRx stream _).releaseGated stream

/-! #### Landing (R84, R386, R404, R405) -/

theorem OffWeb.relay (b : RxBind) (isLast : Bool) (data : List Byte) : OffWeb s (t.relay b isLast data) := by
  unfold State.relay
  refine h.foldl _ _ fun y st hy => ?_
  dsimp only
  split
  · exact hy.setTx _
  · exact hy.startTx _

theorem OffWeb.rxWrite (b : RxBind) (off : Nat) (bs : List Byte) : OffWeb s (t.rxWrite b off bs).2 := by
  unfold State.rxWrite
  split
  · exact foldl_keeps (fun x : AccEnd × State => OffWeb s x.2) _ _ _ h fun y blk hy => hy.store _ _ _
  · exact h.store _ _ _

theorem OffWeb.landClosed (stream tag index : Nat) (isLast : Bool) : OffWeb s (t.landClosed stream tag index isLast).2.2 := by
  unfold State.landClosed
  dsimp only
  split
  · exact h
  · split
    · exact h
    · split
      · exact h
      · exact OffWeb.ite ((h.setRx _ _).countLanded _) (h.setRx _ _)

theorem OffWeb.landBound (stream : Nat) (b : RxBind) (w : Nat × List Byte) (isLast : Bool) (data : List Byte) :
    OffWeb s (t.landBound stream b w isLast data).2.2 := by
  have hwritten := (h.rxWrite b w.1 (w.2.take (b.len - w.1))).setRx stream
  have hrelayed (r : RxStream) := OffWeb.ite (c := b.kind = .broadcast) ((hwritten r).relay b isLast data) (hwritten r)
  unfold State.landBound
  exact OffWeb.ite (OffWeb.countLanded (OffWeb.ite ((hrelayed _).closeRx _ _ _ _ _) (hrelayed _)) _)
    (OffWeb.ite ((hrelayed _).closeRx _ _ _ _ _) (hrelayed _))

theorem OffWeb.landOnStream (stream tag index : Nat) (isLast : Bool) (data : List Byte) :
    OffWeb s (t.landOnStream stream tag index isLast data).2.2 := by
  unfold State.landOnStream
  dsimp only
  split
  · exact h.landClosed _ _ _ _
  · split
    · split
      · split
        · exact h
        · exact h.bump HUB_RING_STALE_stale_cells 1 (by decide)
      · exact h.landClosed _ _ _ _
    · split
      · exact h
      · split
        · exact h.setFlag HUB_RING_STATUS_held (by decide)
        · split
          · exact h
          · split
            · exact h
            · exact h.landBound _ _ _ _ _

/-! #### Landing in a window (R360, R362) -/

theorem OffWeb.setWin (w : Nat) (x : Window) : OffWeb s (t.setWin w x) :=
  OffWeb.setFld (by exact h.congr rfl) _ _ (not_webReg_unit _ _ _ _)

theorem OffWeb.setStepSum (n : Nat) (x : StepSum) : OffWeb s (t.setStepSum n x) := h.congr rfl

theorem OffWeb.takeFree (w : Nat) : OffWeb s (t.takeFree w).2 := h.congr rfl

theorem OffWeb.setCell (k mode : Nat) (c : HCell) : OffWeb s (t.setCell k mode c) := by
  have hcell : OffWeb s { t with hcells := SMap.set cellDefault t.hcells k c } := h.congr rfl
  unfold State.setCell
  exact OffWeb.ite (hcell.setBytes _ _) (OffWeb.ite (hcell.setBytes _ _) (OffWeb.ite (hcell.setBytes _ _) ((hcell.takeFree _).setBytes _ _)))

theorem OffWeb.addPayload (w : Nat) (x : Window) (carry : Bool) (a : Nat) (bs : List Byte) : OffWeb s (t.addPayload w x carry a bs) := by
  unfold State.addPayload
  split
  · refine h.forUpTo _ _ fun i y hy => ?_
    dsimp only
    split
    · exact hy.setCell _ _ _
    · split
      · exact hy
      · exact OffWeb.setBytes (by exact hy.congr rfl) _ _
  · exact h.forUpTo _ _ fun i y hy => hy.setCell _ _ _

theorem OffWeb.closeWindow (w : Nat) (early torn : Bool) : OffWeb s (t.closeWindow w early torn) := h.setWin w _

theorem OffWeb.tryClose (w : Nat) : OffWeb s (t.tryClose w) := by
  unfold State.tryClose
  split
  · exact h.closeWindow w _ _
  · exact h

theorem OffWeb.noteLate (w : Nat) (x : Window) (y : WinXfer) : OffWeb s (t.noteLate w x y) := by
  have hflag : OffWeb s (t.setFlag (HRV_UNIT_STATUS_late (winR w) (winC w))) := h.setFlag _ (not_webReg_unit _ _ _ _)
  unfold State.noteLate
  dsimp only
  split
  · exact h
  · split
    · exact hflag.bump _ 1 (not_webReg_unit _ _ _ _)
    · exact hflag.bump _ 1 (not_webReg_unit _ _ _ _)

theorem OffWeb.countBrine (w : Nat) (x : Window) (n : Nat) : OffWeb s (t.countBrine w x n) := by
  unfold State.countBrine
  split
  · exact h.count _ _ (cntCtrl_ne_zero _ _)
  · exact h

theorem OffWeb.landInWindow (stream tag chip epoch first index : Nat) (isLast : Bool) (data : List Byte) :
    OffWeb s (t.landInWindow stream tag chip epoch first index isLast data).2.2 := by
  have hstored (z : Window) := h.setWin (bitsOf tag 0 13) z
  have hrefused (z : Window) := (hstored z).bump (HRV_REJECT_COUNT_rejected_cells (winR (bitsOf tag 0 13)) (winC (bitsOf tag 0 13))) 1
    (not_webReg_unit _ _ _ _)
  have hlate (y : WinXfer) (z : Window) := (h.noteLate (bitsOf tag 0 13) (t.win (bitsOf tag 0 13)) y).setWin (bitsOf tag 0 13) z
  unfold State.landInWindow
  exact OffWeb.iteLanding h (OffWeb.iteLanding h (OffWeb.iteLanding h (OffWeb.iteLanding h
    (OffWeb.iteLanding (((hrefused _).setFlag _ (not_webReg_unit _ _ _ _)).setStepSum _ _)
    (OffWeb.iteLanding h
    (OffWeb.iteLanding ((hstored _).bump _ 1 (not_webReg_unit _ _ _ _))
    (OffWeb.iteLanding (((hrefused _).setStepSum _ _).tryClose _)
    (OffWeb.iteLanding ((((h.countBrine _ _ _).setWin _ _).addPayload _ _ _ _ _).tryClose _)
    (OffWeb.ite (((hlate _ _).countBrine _ _ _).addPayload _ _ _ _ _) (hlate _ _))))))))))

/-! #### The scan of a SEND, and a local transfer (R355, R360) -/

theorem OffWeb.scan (n i mode f : Nat) (anchor : Int) (xs : List Nat) : OffWeb s (t.scan n i mode f anchor xs) := by
  have hmerged (v : Nat) (c : Prop) [Decidable c] : OffWeb s (if c then (t.mergeAmax n i v).markOverflow n else t.mergeAmax n i v) :=
    OffWeb.ite ((h.mergeAmax n i v).markOverflow n) (h.mergeAmax n i v)
  unfold State.scan
  exact OffWeb.ite h (OffWeb.ite ((hmerged _ _).markNonfinite n) (hmerged _ _))

theorem OffWeb.rescan (x : TxXfer) : OffWeb s (t.rescan x).2 := by
  unfold State.rescan
  dsimp only
  split
  · split
    · exact h
    · split
      · exact ((h.load _ _ _).setTx _).failWith _ _
      · exact ((h.load _ _ _).scan _ _ _ _ _ _).setTx _
  · exact h

theorem OffWeb.drainOne (x : TxXfer) (fuel : Nat) : OffWeb s (t.drainOne x fuel) := by
  induction fuel generalizing t x with
  | zero => exact h
  | succ fuel ih =>
    have hgo {y : State} (hy : OffWeb s y) (mark : Nat) (rj lt cr : Bool) : OffWeb s
        (if mark = x.cells.length ∧ (!x.more) = true then
          ({ y with tx := y.tx.map (fun z => if z = x then x else z) } : State).markTx x mark rj lt cr
        else
          State.drainOne { y with tx := y.tx.map (fun z => if z = x then
            { x with landed := mark, next := mark, moved := true, reject := x.reject || rj, late := x.late || lt, carried := x.carried || cr } else z) }
            { x with landed := mark, next := mark, moved := true, reject := x.reject || rj, late := x.late || lt, carried := x.carried || cr } fuel) :=
      OffWeb.ite ((hy.setTx _).markTx _ _ _ _ _) (ih (hy.setTx _) _)
    unfold State.drainOne
    dsimp only
    split
    · exact h
    · split
      · have hlanded := h.landInWindow 0 x.tag t.chip x.epoch x.first x.next
        split
        · exact hgo (hlanded _ _) _ _ _ _
        · exact hgo (hlanded _ _) _ _ _ _
        · exact hlanded _ _
      · have hlanded := h.landOnStream x.stream x.tag x.next
        split
        · exact hgo (hlanded _ _) _ _ _ _
        · exact hgo (hlanded _ _) _ _ _ _
        · exact hlanded _ _

theorem OffWeb.drainLocal : OffWeb s t.drainLocal := by
  unfold State.drainLocal
  refine h.foldl _ _ fun y x hy => ?_
  dsimp only
  split
  · exact hy.drainOne _ _
  · split
    · exact hy.rescan x
    · exact ((hy.rescan x).setTx _).drainOne _ _

end
end Sys2Proof.Machine
end

section

/-! SUPPORT. Family 02_tide_and_web.md: frame boundaries (O11). -/

namespace Sys2Proof.Machine

/-! ### What keeps the clock of a frame boundary (R41) -/

/-- The tide, the frame acted on last, the quiet of the announce sequence, whether cells have moved, and the count of frames. -/
def State.clock (s : State) : Nat × Nat × Nat × Bool × Bool × Nat :=
  (s.tide.ns, s.tide.done, s.tide.quiet, s.movedNow, s.movedLast, s.cntVal 0)

/-- The parts of a state that its clock reads. -/
def State.clockView (s : State) : TideUnit × Bool × Bool × SMap Nat := (s.tide, s.movedNow, s.movedLast, s.cnt)

/-- Both states have the same clock. -/
def SameClock (s t : State) : Prop := t.clock = s.clock

theorem SameClock.refl (s : State) : SameClock s s := rfl

theorem OffWeb.sameClock {s t : State} (h : OffWeb s t) : SameClock s t := by
  unfold SameClock State.clock
  rw [h.tide, h.movedNow, h.movedLast, h.frames]

section
variable {s t u : State} (h : SameClock s t)
include h

theorem SameClock.trans (k : SameClock t u) : SameClock s u := Eq.trans k h

theorem SameClock.ite {c : Prop} [Decidable c] (hu : SameClock s u) : SameClock s (if c then t else u) := by
  split
  · exact h
  · exact hu

/-- An update of nothing that the clock reads. -/
theorem SameClock.congr (hu : u.clockView = t.clockView) : SameClock s u := by
  unfold State.clockView at hu
  simp only [Prod.mk.injEq] at hu
  obtain ⟨htide, hnow, hlast, hcnt⟩ := hu
  refine h.trans ?_
  unfold SameClock State.clock State.cntVal
  rw [htide, hnow, hlast, hcnt]

theorem SameClock.foldl {α : Type} (l : List α) (f : State → α → State) (hf : ∀ y b, SameClock s y → SameClock s (f y b)) :
    SameClock s (l.foldl f t) := foldl_keeps (SameClock s) l f t h hf

theorem SameClock.setFld (f : Fld) (v : Nat) : SameClock s (t.setFld f v) := h.congr rfl

theorem SameClock.setFlag (f : Fld) : SameClock s (t.setFlag f) := h.congr rfl

theorem SameClock.bump (f : Fld) (n : Nat) : SameClock s (t.bump f n) := h.congr rfl

theorem SameClock.setPort (p : Nat) (x : PortUnit) : SameClock s (t.setPort p x) := h.congr rfl

theorem SameClock.setTport (p : Nat) (x : TidePort) : SameClock s (t.setTport p x) := h.congr rfl

theorem SameClock.setTx (l : List TxXfer) : SameClock s { t with tx := l } := h.congr rfl

theorem SameClock.setRx (stream : Nat) (r : RxStream) : SameClock s (t.setRx stream r) := h.congr rfl

theorem SameClock.count (k n : Nat) (hk : k ≠ 0) : SameClock s (t.count k n) :=
  h.trans ((OffWeb.refl t).count k n hk).sameClock

/-! #### Transfers that end (R86, R87) -/

theorem SameClock.countRequeue (p : Option Nat) : SameClock s (t.countRequeue p) := by
  cases p with
  | none => exact h
  | some q => exact (h.bump _ 1).count _ 1 (cntPort_ne_zero _ _)

theorem SameClock.requeueTx (stream tag : Nat) (p : Option Nat) : SameClock s (t.requeueTx stream tag p) := by
  unfold State.requeueTx
  split
  · exact h
  · exact (h.setTx _).countRequeue _

theorem SameClock.requeueRx (stream tag : Nat) (p : Option Nat) : SameClock s (t.requeueRx stream tag p) := by
  unfold State.requeueRx
  dsimp only
  split
  · exact SameClock.ite ((h.setRx _ _).countRequeue _) h
  · exact h

theorem SameClock.requeueWin (stream tag : Nat) (p : Option Nat) : SameClock s (t.requeueWin stream tag p) := by
  have hwins (l : SMap Window) : SameClock s { t with wins := l } := h.congr rfl
  unfold State.requeueWin
  dsimp only
  split
  · exact h
  · split
    · exact h
    · exact (hwins _).countRequeue _

theorem SameClock.endTransfers (p : Nat) : SameClock s (t.endTransfers p) :=
  SameClock.foldl (SameClock.foldl (SameClock.foldl h _ _ fun _ _ hy => hy.requeueTx _ _ _) _ _ fun _ _ hy => hy.requeueRx _ _ _) _ _
    fun _ _ hy => hy.requeueWin _ _ _

/-! #### A port at a frame boundary (R82, R87, R499, R503) -/

theorem SameClock.portRec (severity p detail cause : Nat) : SameClock s (t.portRec severity p detail cause) :=
  h.trans ((OffWeb.refl t).error _).sameClock

theorem SameClock.fenceCause (p cause : Nat) : SameClock s (t.fenceCause p cause) := h.setPort _ _

theorem SameClock.showPorts : SameClock s t.showPorts := h.setFld _ _

theorem SameClock.laneFaulty (p l : Nat) : SameClock s (t.laneFaulty p l) := by
  have hfault := fun v x => (((h.setFlag (PRT_STATUS_lane_fault p)).setFld (PRT_LANE_rx_ok p) v).setPort p x)
  unfold State.laneFaulty
  exact SameClock.ite (h.setFlag _) (SameClock.ite h (SameClock.ite ((hfault _ _).fenceCause _ _) ((hfault _ _).portRec _ _ _ _)))

theorem SameClock.laneBoundary (p : Nat) : SameClock s (t.laneBoundary p) := by
  have hrun := fun x => h.setPort p x
  unfold State.laneBoundary
  exact SameClock.ite ((hrun _).foldl _ _ fun _ _ hy => hy.laneFaulty _ _) (hrun _)

theorem SameClock.portDownIf (c : Prop) [Decidable c] (p v : Nat) :
    SameClock s (if c then ((t.endTransfers p).setFld (PRT_STATUS_state p) v).showPorts else t) :=
  SameClock.ite ((h.endTransfers p).setFld _ v).showPorts h

theorem SameClock.countIf (c : Prop) [Decidable c] (p k : Nat) : SameClock s (if c then t.count (cntPort p k) else t) :=
  SameClock.ite (h.count _ 1 (cntPort_ne_zero _ _)) h

theorem SameClock.holdStop (p : Nat) (l : List (Nat × Bool × Bool)) (on : Bool) : SameClock s (match l.getLast? with
    | some (_, hold, stop) =>
      let y := (t.setFld (WEB_PORT_STATUS_held p) (b2n hold)).setFld (WEB_PORT_STATUS_stopped p) (b2n stop)
      if stop && !on then y.endTransfers p else y
    | none => t) := by
  split
  · have hshown := fun a b => (h.setFld (WEB_PORT_STATUS_held p) a).setFld (WEB_PORT_STATUS_stopped p) b
    exact SameClock.ite ((hshown _ _).endTransfers p) (hshown _ _)
  · exact h

theorem SameClock.portBoundary (p : Nat) : SameClock s (t.portBoundary p) := by
  have hreqs := fun x l on => ((h.laneBoundary p).setPort p x).holdStop p l on
  unfold State.portBoundary
  exact ((((((hreqs _ _ _).portDownIf _ p _).portDownIf _ p _).setFld _ _).countIf _ p _).countIf _ p _)

/-! #### The rest of a boundary but for the tide unit (R82, R85, R334) -/

theorem SameClock.streamBoundary : SameClock s t.streamBoundary := by
  unfold State.streamBoundary
  exact SameClock.foldl (by exact h.congr rfl) _ _ fun _ _ hy => by exact hy.congr rfl

theorem SameClock.gapBoundary : SameClock s t.gapBoundary := h.congr rfl

theorem SameClock.latchVerdicts (b : Nat) : SameClock s (t.latchVerdicts b) := h.congr rfl

theorem SameClock.setTide (x : TideUnit) (hns : x.ns = t.tide.ns) (hdone : x.done = t.tide.done)
    (hquiet : x.quiet = t.tide.quiet) : SameClock s { t with tide := x } := by
  refine h.trans ?_
  unfold SameClock State.clock
  rw [hns, hdone, hquiet]
  rfl

theorem SameClock.achieveLock : SameClock s t.achieveLock := (h.setFld TID_STATUS_locked 1).setTide _ rfl rfl rfl

theorem SameClock.showRate : SameClock s t.showRate := by
  unfold State.showRate
  exact SameClock.ite h (h.setFld _ _)

theorem SameClock.setParent (p d : Nat) : SameClock s (t.setParent p d) := by
  have hshown := (h.setFld TID_STATUS_parent_port p).setFld TID_STATUS_root_distance d
  unfold State.setParent
  exact SameClock.ite hshown (hshown.setTide _ rfl rfl rfl)

theorem SameClock.showParent : SameClock s t.showParent := by
  unfold State.showParent
  split
  · exact h
  · dsimp only
    split <;> split <;> exact ((h.setFld _ _).setFld _ _).setParent _ _

end

/-! ### The tide unit at a frame boundary (R47, R52, R57) -/

/-- The ages of the announce sequences. -/
def State.agePorts (s : State) : State :=
  forUpTo 18 (fun p t => if (t.tport p).seen then t.setTport p { t.tport p with seqAge := min 255 ((t.tport p).seqAge + 1) } else t) s

theorem State.sameClock_agePorts (s : State) : SameClock s s.agePorts :=
  forUpTo_keeps (SameClock s) 18 _ s (.refl s) fun _ _ hy => SameClock.ite (hy.setTport _ _) hy

/-- A clock with one more frame of quiet. -/
def quieter (c : Nat × Nat × Nat × Bool × Bool × Nat) : Nat × Nat × Nat × Bool × Bool × Nat := (c.1, c.2.1, c.2.2.1 + 1, c.2.2.2)

theorem State.clock_setTide_quieter (s : State) (u : TideUnit) (hns : u.ns = s.tide.ns) (hdone : u.done = s.tide.done)
    (hquiet : u.quiet = s.tide.quiet + 1) : ({ s with tide := u } : State).clock = quieter s.clock := by
  unfold State.clock quieter
  rw [hns, hdone, hquiet]
  rfl

/-- What the tide unit does at a boundary once the announce sequences have aged: `root` and `locked` are as the boundary found them. -/
def State.steerFrame (s : State) (root locked : Bool) : State :=
  let hold := s.flag TID_STATUS_holdover
  let e : Int := ((s.fine : Int) - s.tide.refStart) - 100 * 65536 * s.tide.refEdges
  let disc := root && !hold && s.flag TID_CTL_use_ref && s.flag TID_STATUS_ref_ok
  let run := if s.tide.lockFrame = 1 then s.tide.lockRun + 1 else 0
  let s2 := { s with tide := { s.tide with
    quiet := s.tide.quiet + 1, announce := if root then (s.tide.announce + 1) % 2 ^ 32 else s.tide.announce
    holdoverFrames := if hold then s.tide.holdoverFrames + 1 else s.tide.holdoverFrames
    lockRun := run, lockFrame := 0
    refRate := if disc then removeRate e else s.tide.refRate
    ppsRate := if hold then s.tide.ppsRate else if s.tide.ppsFrames ≤ 1 then 0 else s.tide.ppsRate
    ppsFrames := if hold then s.tide.ppsFrames else s.tide.ppsFrames - 1 } }
  let s3 := if hold then s2.count (cntHub 21) else s2
  let s4 := if !root && !locked && decide (8 ≤ run) then s3.achieveLock else s3
  (if root && (disc || s.tide.ppsFrames != 0) then s4.showRate else s4).showParent

theorem State.tideBoundary_eq (s : State) : s.tideBoundary = s.agePorts.steerFrame (s.flag TID_STATUS_is_root) (s.flag TID_STATUS_locked) := by
  simp only [State.tideBoundary, State.steerFrame, State.agePorts]

theorem State.clock_steerFrame (s : State) (root locked : Bool) : (s.steerFrame root locked).clock = quieter s.clock := by
  have hcount (y : State) (c : Prop) [Decidable c] : SameClock y (if c then y.count (cntHub 21) else y) :=
    SameClock.ite ((SameClock.refl y).count _ 1 (by decide)) (.refl y)
  have hlock (y : State) (c d : Prop) [Decidable c] [Decidable d] := SameClock.ite (c := d) (hcount y c).achieveLock (hcount y c)
  have hrate (y : State) (c d e : Prop) [Decidable c] [Decidable d] [Decidable e] := SameClock.ite (c := e) (hlock y c d).showRate (hlock y c d)
  unfold State.steerFrame
  refine Eq.trans (hrate _ _ _ _).showParent ?_
  exact s.clock_setTide_quieter _ rfl rfl rfl

theorem State.clock_tideBoundary (s : State) : s.tideBoundary.clock = quieter s.clock := by
  rw [s.tideBoundary_eq, State.clock_steerFrame, s.sameClock_agePorts]

/-! ### FRAME_BOUNDARY (R41, R601) -/

/-- The tide has reached a boundary, which is acted on. -/
def State.atBoundaryTide (s : State) (b : Nat) : State := { s.atTide b with tide := { (s.atTide b).tide with done := b / frameNs % 2 ^ 53 } }

/-- The boundary is counted. -/
def State.boundaryCounted (s : State) (b : Nat) : State := (s.atBoundaryTide b).count (cntHub 0)

theorem State.clock_count_frames (s : State) : (s.count (cntHub 0)).clock =
    (s.tide.ns, s.tide.done, s.tide.quiet, s.movedNow, s.movedLast, (s.cntVal 0 + 1) % 2 ^ 48) := by
  have hcount : (s.count (cntHub 0)).cntVal 0 = (s.cntVal 0 + 1) % 2 ^ 48 := (s.cnt_count (cntHub 0) 1 0).trans (if_pos rfl)
  obtain ⟨r, e, c, h⟩ := s.count_eq (cntHub 0) 1
  unfold State.clock
  rw [hcount, h]

theorem State.clock_boundaryCounted (s : State) (b : Nat) : (s.boundaryCounted b).clock =
    (max s.tide.ns b % 2 ^ 64, b / frameNs % 2 ^ 53, s.tide.quiet, s.movedNow, s.movedLast, (s.cntVal 0 + 1) % 2 ^ 48) :=
  (s.atBoundaryTide b).clock_count_frames

/-- What the streams, the ports, the transfers and the tide unit do at a boundary. -/
def State.boundaryWork (s : State) : State := ((forUpTo 18 (fun p t => t.portBoundary p) s.streamBoundary).gapBoundary).tideBoundary

theorem State.clock_boundaryWork (s : State) : s.boundaryWork.clock = quieter s.clock := by
  have hports : SameClock s (forUpTo 18 (fun p t => State.portBoundary t p) s.streamBoundary) :=
    forUpTo_keeps (SameClock s) 18 _ _ (SameClock.refl s).streamBoundary fun _ _ hy => hy.portBoundary _
  rw [State.boundaryWork, State.clock_tideBoundary, hports.gapBoundary]

/-- What moved in the frame that begins is nothing yet. -/
def State.frameMoved (s : State) (moved : Bool) : State := { s with movedLast := moved, movedNow := false }

theorem State.clock_frameMoved (s : State) (moved : Bool) : (s.frameMoved moved).clock =
    (s.clock.1, s.clock.2.1, s.clock.2.2.1, false, moved, s.clock.2.2.2.2.2) := rfl

theorem execFrameBoundary_eq (s : State) : execFrameBoundary s = .next (((s.boundaryCounted s.dueBoundary).boundaryWork.latchVerdicts
    s.dueBoundary).frameMoved (s.boundaryCounted s.dueBoundary).boundaryWork.movedNow).drainLocal := rfl

theorem execFrameBoundary_clock (s : State) : ∃ t, execFrameBoundary s = .next t ∧ t.clock =
    (max s.tide.ns s.dueBoundary % 2 ^ 64, s.dueBoundary / frameNs % 2 ^ 53, s.tide.quiet + 1, false, s.movedNow, (s.cntVal 0 + 1) % 2 ^ 48) := by
  have hwork := (s.boundaryCounted s.dueBoundary).clock_boundaryWork
  rw [s.clock_boundaryCounted] at hwork
  have hmoved : (s.boundaryCounted s.dueBoundary).boundaryWork.movedNow = s.movedNow := congrArg (fun c => c.2.2.2.1) hwork
  have hlatch := (SameClock.refl (s.boundaryCounted s.dueBoundary).boundaryWork).latchVerdicts s.dueBoundary
  refine ⟨_, execFrameBoundary_eq s, ?_⟩
  rw [((OffWeb.refl _).drainLocal).sameClock, State.clock_frameMoved, hlatch, hwork, hmoved]
  rfl

theorem State.dueBoundary_of_acted {s : State} (h : s.frame ≤ s.tide.done) : max s.tide.ns s.dueBoundary = (s.frame + 1) * 2048 ∧
    s.dueBoundary / frameNs = s.frame + 1 := by
  have hnot : ¬ s.tide.done < s.frame := by omega
  have hframe : s.frame = s.tide.ns / 2048 := rfl
  unfold State.dueBoundary State.nextBoundary frameNs
  rw [if_neg hnot]
  omega

theorem State.dueBoundary_of_open {s : State} (h : s.tide.done < s.frame) : max s.tide.ns s.dueBoundary = s.tide.ns ∧
    s.dueBoundary / frameNs = s.frame := by
  have hframe : s.frame = s.tide.ns / 2048 := rfl
  unfold State.dueBoundary frameNs
  rw [if_pos h]
  omega

/-- A frame boundary: the tide, the frame that is acted on, what moved and the count of frames. -/
theorem execFrameBoundary_shows (s : State) : ∃ t, execFrameBoundary s = .next t ∧
    (s.frame ≤ s.tide.done → t.tide.ns = (s.frame + 1) * 2048 % 2 ^ 64 ∧ t.tide.done = (s.frame + 1) % 2 ^ 53) ∧
    (s.tide.done < s.frame → t.tide.ns = s.tide.ns % 2 ^ 64 ∧ t.tide.done = s.frame % 2 ^ 53) ∧
    t.movedLast = s.movedNow ∧ t.cntVal 0 = (s.cntVal 0 + 1) % 2 ^ 48 ∧ t.tide.quiet = s.tide.quiet + 1 := by
  obtain ⟨t, hrun, hclock⟩ := execFrameBoundary_clock s
  unfold State.clock at hclock
  simp only [Prod.mk.injEq] at hclock
  obtain ⟨hns, hdone, hquiet, -, hlast, hcount⟩ := hclock
  refine ⟨t, hrun, fun hacted => ?_, fun hopen => ?_, hlast, hcount, hquiet⟩
  · obtain ⟨hmax, hframe⟩ := State.dueBoundary_of_acted hacted
    rw [hns, hdone, hmax, hframe]
    exact ⟨rfl, rfl⟩
  · obtain ⟨hmax, hframe⟩ := State.dueBoundary_of_open hopen
    rw [hns, hdone, hmax, hframe]
    exact ⟨rfl, rfl⟩

end Sys2Proof.Machine
end

section

/-! SUPPORT. Family 02_tide_and_web.md: slots, forwarded and relayed cells (O11). -/

namespace Sys2Proof.Machine

/-! ### A port sends a cell (R65) -/

/-- Port `p` has sent cell `c`, and no cell more than in `s` has failed its check. -/
structure Emits (s t : State) (p : Nat) (c : Cell) : Prop where
  emitted : (t.port p).emitted = some c
  fails : (t.port p).txFails = (s.port p).txFails

theorem State.port_congr {s t : State} (h : t.ports = s.ports) (p : Nat) : t.port p = s.port p := by
  unfold State.port
  rw [h]

theorem State.port_emit (s : State) (p : Nat) (c : Cell) : (s.emit p c).port p = { s.port p with emitted := some c } :=
  (State.port_congr rfl p).trans (s.port_setPort_same p _)

theorem State.emit_emits {s t : State} {p : Nat} (h : (t.port p).txFails = (s.port p).txFails) (c : Cell) : Emits s (t.emit p c) p c :=
  ⟨by rw [t.port_emit], by rw [t.port_emit]; exact h⟩

@[simp] theorem State.port_count (s : State) (k n p : Nat) : (s.count k n).port p = s.port p := by
  obtain ⟨r, e, c, h⟩ := s.count_eq k n
  rw [h]
  rfl

@[simp] theorem State.port_countBytes (s : State) (k n p : Nat) : (s.countBytes k n).port p = s.port p := State.port_count _ _ _ _

@[simp] theorem State.port_setFlag (s : State) (f : Fld) (p : Nat) : (s.setFlag f).port p = s.port p := rfl
@[simp] theorem State.port_bump (s : State) (f : Fld) (n p : Nat) : (s.bump f n).port p = s.port p := rfl
@[simp] theorem State.port_setTport (s : State) (q : Nat) (tp : TidePort) (p : Nat) : (s.setTport q tp).port p = s.port p := rfl

/-- A sealed cell carries the CRC of its other fields. -/
theorem sealCell_crc {h : CellHdr} (payload : List Byte) (ns : List Notice) (hcrc : h.crc = 0) : (sealCell h payload ns).hdr.crc =
    cellCrc { sealCell h payload ns with hdr := { (sealCell h payload ns).hdr with crc := 0 } } := by
  have hsame : ({ h with crc := 0 } : CellHdr) = h := by rw [← hcrc]
  unfold sealCell
  dsimp only
  rw [hsame]

theorem ofNat_toNat_self {w : Nat} (x : BitVec w) : BitVec.ofNat w x.toNat = x := (BitVec.ofNat_toNat w x).trans (BitVec.setWidth_eq x)

/-! ### Slots 0 to 3 (R63) -/

/-- The cell that port `p` sends in one of the slots 0 to 3. -/
def State.slotCell (s : State) (p slot : Nat) : State :=
  match slot with
  | 0 => s.tideCell p
  | 1 => s.controlCell p
  | 2 => s.syncCell p
  | 3 => s.verdictCell p
  | k => s.dataSlot p k

theorem State.tideCell_emits (s : State) (p : Nat) : ∃ payload, Emits s (s.tideCell p) p (sealCell (s.header 2 0 0 0 0 0 0 42) payload []) :=
  ⟨_, State.emit_emits (by rw [State.port_setTport]) _⟩

theorem State.controlCell_emits (s : State) (p : Nat) :
    ∃ payload ns, Emits s (s.controlCell p) p (sealCell (s.header 3 0 1 0 0 0 0 928) payload ns) :=
  ⟨_, _, State.emit_emits (by rw [State.port_setPort_same]) _⟩

theorem State.syncCell_emits (s : State) (p : Nat) :
    ∃ index len payload, Emits s (s.syncCell p) p (sealCell (s.header 4 0 2 0 0 0 index len) payload []) := by
  refine ⟨_, _, _, State.emit_emits ?_ _⟩
  rw [State.port_setPort_same]
  split <;> rfl

theorem State.verdictCell_emits (s : State) (p : Nat) :
    ∃ len payload, Emits s (s.verdictCell p) p (sealCell (s.header 5 0 3 0 0 0 0 len) payload []) :=
  ⟨_, _, State.emit_emits (by rw [State.port_setPort_same]) _⟩

/-- In slots 0 to 3 a port sends a sealed cell of the slot's type. -/
theorem State.slotCell_typed (s : State) (p : Nat) {slot : Nat} (h : slot < 4) : ∃ index len payload ns,
    Emits s (s.slotCell p slot) p (sealCell (s.header (slotType slot) 0 slot 0 0 0 index len) payload ns) := by
  match slot, h with
  | 0, _ =>
    obtain ⟨payload, hemits⟩ := s.tideCell_emits p
    exact ⟨0, 42, payload, [], hemits⟩
  | 1, _ =>
    obtain ⟨payload, ns, hemits⟩ := s.controlCell_emits p
    exact ⟨0, 928, payload, ns, hemits⟩
  | 2, _ =>
    obtain ⟨index, len, payload, hemits⟩ := s.syncCell_emits p
    exact ⟨index, len, payload, [], hemits⟩
  | 3, _ =>
    obtain ⟨len, payload, hemits⟩ := s.verdictCell_emits p
    exact ⟨0, len, payload, [], hemits⟩

/-! ### Slots from 4 on (R73, R74, R83) -/

/-- Port `p` has sent a cell of slot `slot`. -/
def SendsIn (s t : State) (p slot : Nat) : Prop := ∃ c, Emits s t p c ∧ c.hdr.slot = BitVec.ofNat 8 slot

theorem SendsIn.of_ports {s t u : State} {p slot : Nat} (h : SendsIn t u p slot) (hports : t.ports = s.ports) : SendsIn s u p slot := by
  obtain ⟨c, hc, hslot⟩ := h
  exact ⟨c, ⟨hc.emitted, by rw [hc.fails, State.port_congr hports]⟩, hslot⟩

theorem State.sendsIn_emptyMark (s : State) (p slot st : Nat) : SendsIn s (s.emptyMark p slot st) p slot :=
  ⟨_, State.emit_emits (by rw [State.port_count]) _, rfl⟩

/-- The header of a transfer's next cell. -/
def State.txHeader (s : State) (slot st : Nat) (x : TxXfer) (lent : Bool) : CellHdr :=
  s.header (if x.be then 6 else 0) (b2n (x.next == 0) + 2 * b2n (decide (x.next + 1 = x.cells.length) && !x.more) + 4 * b2n lent + 8 * b2n x.retry)
    slot st x.epoch x.tag x.next (if x.be then (x.cells.getD x.next []).length - 8 else (x.cells.getD x.next []).length)

theorem State.port_countIf (s : State) (c : Bool) (k p : Nat) : (if c then s.count k else s).port p = s.port p := by
  cases c
  · rfl
  · exact s.port_count k 1 p

theorem State.sendTx_emits (s : State) (p slot st : Nat) (x : TxXfer) (lent : Bool) :
    Emits s (s.sendTx p slot st x lent) p (sealCell (s.txHeader slot st x lent) (x.cells.getD x.next []) []) := by
  unfold State.sendTx
  refine State.emit_emits ?_ _
  rw [State.port_count, State.port_countIf, State.port_countBytes, State.port_setPort_same]
  rfl

theorem State.sendsIn_sendTx (s : State) (p slot st : Nat) (x : TxXfer) (lent : Bool) : SendsIn s (s.sendTx p slot st x lent) p slot :=
  ⟨_, s.sendTx_emits p slot st x lent, rfl⟩

theorem State.sendsIn_sendAgain (s : State) (p slot st : Nat) (x : TxXfer) (lent : Bool) : SendsIn s (s.sendAgain p slot st x lent) p slot := by
  have hports : (s.rescan x).2.ports = s.ports := ((OffWeb.refl s).rescan x).ports
  unfold State.sendAgain
  dsimp only
  split
  · exact (State.sendsIn_sendTx _ _ _ _ _ _).of_ports hports
  · exact (State.sendsIn_emptyMark _ _ _ _).of_ports hports

/-- A forwarded cell as it leaves. -/
def State.forwarded (s : State) (slot st : Nat) (lent : Bool) (f : Cell × Nat) : Cell :=
  sealCell { f.1.hdr with
    flags := BitVec.ofNat 8 (putBits f.1.hdr.flags.toNat 2 1 (b2n lent)), stream := BitVec.ofNat 16 st, frame := BitVec.ofNat 32 s.frame
    slot := BitVec.ofNat 8 slot } f.1.payload f.1.notices

theorem State.port_sendForward (s : State) (p slot st : Nat) (lent : Bool) (f : Cell × Nat) : (s.sendForward p slot st lent f).port p =
    { s.port p with fwd := (s.port p).fwd.erase f, emitted := some (s.forwarded slot st lent f) } := by
  have hcount := ((s.setPort p { s.port p with fwd := (s.port p).fwd.erase f }).port_count (cntPort p 14) 1 p).trans (State.port_setPort_same ..)
  refine (State.port_congr rfl p).trans ((State.port_emit _ p (s.forwarded slot st lent f)).trans ?_)
  rw [hcount]

theorem State.sendsIn_sendForward (s : State) (p slot st : Nat) (lent : Bool) (f : Cell × Nat) :
    SendsIn s (s.sendForward p slot st lent f) p slot :=
  ⟨s.forwarded slot st lent f, ⟨by rw [s.port_sendForward], by rw [s.port_sendForward]⟩, rfl⟩

theorem State.sendsIn_dataSlot (s : State) (p slot : Nat) : SendsIn s (s.dataSlot p slot) p slot := by
  unfold State.dataSlot
  dsimp only
  generalize (if entryUse (s.entry p false slot) = 1 ∨ entryUse (s.entry p false slot) = 2 then entryStream (s.entry p false slot) else 0) = st
  split
  · exact s.sendsIn_emptyMark ..
  · split
    · split
      · exact s.sendsIn_sendForward ..
      · exact s.sendsIn_sendAgain ..
      · exact s.sendsIn_emptyMark ..
    · split
      · exact s.sendsIn_sendForward ..
      · exact s.sendsIn_sendAgain ..
      · split
        · exact s.sendsIn_emptyMark ..
        · split
          · exact s.sendsIn_sendForward ..
          · exact s.sendsIn_sendAgain ..
          · exact s.sendsIn_emptyMark ..

theorem State.sendsIn_slotCell (s : State) (p slot : Nat) : SendsIn s (s.slotCell p slot) p slot := by
  by_cases h : slot < 4
  · obtain ⟨index, len, payload, ns, hemits⟩ := s.slotCell_typed p h
    exact ⟨_, hemits, rfl⟩
  · obtain ⟨k, rfl⟩ : ∃ k, slot = k + 4 := ⟨slot - 4, by omega⟩
    exact s.sendsIn_dataSlot p (k + 4)

/-! ### SLOT_TRANSMIT (R63, R495) -/

/-- The port's cell of a slot, at the slot's place in the frame. -/
def State.slotSent (s : State) (p slot : Nat) : State := (s.atTide (s.frame * frameNs + 8 * slot)).slotCell p slot

theorem execSlotTransmit_none {s : State} {p : Fin 18} {slot : Fin 256} (hup : s.portUp p.val = true) :
    execSlotTransmit p slot none s = .next (s.slotSent p.val slot.val) := by
  unfold execSlotTransmit State.slotSent
  rw [if_neg (by simp [hup])]
  generalize s.atTide (s.frame * frameNs + 8 * slot.val) = t
  generalize slot.val = k
  rfl

theorem execSlotTransmit_of_wrong {s : State} {p : Fin 18} {slot : Fin 256} (hup : s.portUp p.val = true) {w : Cell}
    (hw : (s.slotSent p.val slot.val).txCheck p.val slot.val w = false) :
    execSlotTransmit p slot (some w) s = .next ((s.slotSent p.val slot.val).replaceCell p.val slot.val) := by
  unfold State.slotSent at hw ⊢
  unfold execSlotTransmit
  rw [if_neg (by simp [hup])]
  generalize s.atTide (s.frame * frameNs + 8 * slot.val) = t at hw ⊢
  generalize slot.val = k at hw ⊢
  exact congrArg Host.Outcome.next (if_neg (Bool.eq_false_iff.mp hw))

/-- The cell that stands for one that was wrongly formed, and the port's failures: one more. -/
theorem State.replaceCell_shows (s : State) (p slot : Nat) : ∃ c, ((s.replaceCell p slot).port p).emitted = some c ∧ c.hdr.ctype = 1#8 ∧
    c.hdr.stream = 0#16 ∧ ((s.replaceCell p slot).port p).txFails = (s.port p).txFails + 1 := by
  have hfence (t : State) (c : Prop) [Decidable c] (k : Nat) : ((if c then t.fenceCause p k else t).port p).emitted = (t.port p).emitted ∧
      ((if c then t.fenceCause p k else t).port p).txFails = (t.port p).txFails := by
    split
    · rw [State.fenceCause, State.port_setPort_same]
      exact ⟨rfl, rfl⟩
    · exact ⟨rfl, rfl⟩
  unfold State.replaceCell
  dsimp only
  rw [(hfence _ _ _).1, (hfence _ _ _).2, State.port_emit, State.port_count, State.port_bump, State.port_setPort_same]
  exact ⟨_, rfl, rfl, rfl, rfl⟩

theorem State.txCheck_of_wrong (s : State) (p slot : Nat) {c : Cell} (h : c.hdr.crc ≠ cellCrc c ∨ malformedCell c slot = true) :
    s.txCheck p slot c = false := by
  unfold State.txCheck
  rcases h with h | h <;> simp [h]

theorem slotType_lt (slot : Nat) : slotType slot < 2 ^ 8 := by
  unfold slotType
  split
  · decide
  · split
    · decide
    · split <;> decide

section
variable {s : State} {p : Fin 18} {slot : Fin 256} (hup : s.portUp p.val = true)
include hup

/-- Slots 0 to 3 carry a sealed cell of their type. -/
theorem execSlotTransmit_typed (hslot : slot.val < 4) : ∃ t c, execSlotTransmit p slot none s = .next t ∧ (t.port p.val).emitted = some c ∧
    c.hdr.ctype.toNat = slotType slot.val ∧ c.hdr.slot.toNat = slot.val ∧ c.hdr.crc = cellCrc { c with hdr := { c.hdr with crc := 0 } } := by
  obtain ⟨index, len, payload, ns, hemits⟩ := (s.atTide (s.frame * frameNs + 8 * slot.val)).slotCell_typed p.val hslot
  refine ⟨_, _, execSlotTransmit_none hup, hemits.emitted, ?_, ?_, sealCell_crc payload ns rfl⟩
  · exact Nat.mod_eq_of_lt (slotType_lt slot.val)
  · exact Nat.mod_eq_of_lt slot.isLt

/-- In every slot an up port sends a cell that bears the slot's number. -/
theorem execSlotTransmit_sends : ∃ t c, execSlotTransmit p slot none s = .next t ∧ (t.port p.val).emitted = some c ∧ c.hdr.slot.toNat = slot.val := by
  obtain ⟨c, hemits, hslot⟩ := (s.atTide (s.frame * frameNs + 8 * slot.val)).sendsIn_slotCell p.val slot.val
  refine ⟨_, c, execSlotTransmit_none hup, hemits.emitted, ?_⟩
  rw [hslot]
  exact Nat.mod_eq_of_lt slot.isLt

/-- A cell that was wrongly formed is replaced by an empty-slot mark. -/
theorem execSlotTransmit_replaces {w : Cell} (hw : w.hdr.crc ≠ cellCrc w ∨ malformedCell w slot.val = true) :
    ∃ t c, execSlotTransmit p slot (some w) s = .next t ∧ (t.port p.val).emitted = some c ∧ c.hdr.ctype = 1#8 ∧ c.hdr.stream = 0#16 ∧
      (t.port p.val).txFails = (s.port p.val).txFails + 1 := by
  obtain ⟨c', hemits, -⟩ := (s.atTide (s.frame * frameNs + 8 * slot.val)).sendsIn_slotCell p.val slot.val
  have hfails : ((s.slotSent p.val slot.val).port p.val).txFails = (s.port p.val).txFails := hemits.fails
  obtain ⟨c, hemitted, htype, hstream, hmore⟩ := (s.slotSent p.val slot.val).replaceCell_shows p.val slot.val
  exact ⟨_, c, execSlotTransmit_of_wrong hup (State.txCheck_of_wrong _ _ _ hw), hemitted, htype, hstream, by rw [hmore, hfails]⟩

end

/-! ### CELL_FORWARD and BROADCAST_RELAY (R73, R386) -/

/-- A slot that a cell may take: one from 4 on that begins at `t` or later. -/
theorem State.slotFrom_spec {s : State} {p t k : Nat} {ok : Nat → Bool} (h : s.slotFrom p t ok = some k) :
    4 ≤ k ∧ t ≤ s.frame * 2048 + 8 * k := by
  have hk := List.find?_some h
  simp only [Bool.and_eq_true, decide_eq_true_eq] at hk
  exact ⟨hk.1.1, hk.1.2⟩

section
variable {s : State} {p : Fin 18} {f : Cell × Nat} {rest : List (Cell × Nat)} (hfwd : (s.port p.val).fwd = f :: rest)
  (hdata : f.1.hdr.ctype = 0#8)
include hfwd hdata

theorem execCellForward_of_no_slot (hhas : s.portHas p.val false f.1.hdr.stream.toNat = false) :
    execCellForward p s = .next ((s.setPort p.val { s.port p.val with fwd := rest }).webMismatch p.val) := by
  unfold execCellForward
  rw [hfwd]
  simp [hdata, hhas]

theorem execCellForward_of_held (hhas : s.portHas p.val false f.1.hdr.stream.toNat = true)
    (hheld : s.carries p.val = false ∨ s.held.contains f.1.hdr.stream.toNat = true) : execCellForward p s = .next s := by
  unfold execCellForward
  rw [hfwd]
  dsimp only
  rw [if_pos hdata, if_neg (by simp [hhas]), if_pos (by simpa using hheld)]

theorem execCellForward_of_slot (hhas : s.portHas p.val false f.1.hdr.stream.toNat = true) (hcarries : s.carries p.val = true)
    (hfree : s.held.contains f.1.hdr.stream.toNat = false) {k : Nat}
    (hk : s.slotFrom p.val (max s.tide.ns (f.2 + 16)) (entryHas false f.1.hdr.stream.toNat) = some k) :
    execCellForward p s = .next ((s.atTide (s.frame * frameNs + 8 * k)).sendForward p.val k f.1.hdr.stream.toNat false f) := by
  unfold execCellForward
  rw [hfwd]
  dsimp only
  rw [if_pos hdata, if_neg (by simp [hhas]), if_neg (by rw [hcarries, hfree]; decide), hk]

end

theorem State.emit_keeps (s : State) (p : Nat) (c : Cell) : ({ s.emit p c with movedNow := true } : State).mem = s.mem ∧
    ({ s.emit p c with movedNow := true } : State).tide = s.tide := ⟨rfl, rfl⟩

theorem State.sendForward_keeps (s : State) (p slot st : Nat) (lent : Bool) (f : Cell × Nat) :
    (s.sendForward p slot st lent f).mem = s.mem ∧ (s.sendForward p slot st lent f).tide = s.tide := by
  have hset (u : PortUnit) : (s.setPort p u).mem = s.mem ∧ (s.setPort p u).tide = s.tide := ⟨rfl, rfl⟩
  unfold State.sendForward
  dsimp only
  obtain ⟨hmem, htide⟩ := State.emit_keeps ((s.setPort p { s.port p with fwd := (s.port p).fwd.erase f }).count (cntPort p 14)) p
    (s.forwarded slot st lent f)
  refine ⟨hmem.trans ?_, htide.trans ?_⟩
  · rw [State.count_mem, (hset _).1]
  · rw [State.tide_count, (hset _).2]

/-- A cell that leaves in a slot carries frame, slot and stream; tag, index and payload are as it came. -/
theorem State.forwarded_shows (s : State) (slot : Nat) (f : Cell × Nat) : (s.forwarded slot f.1.hdr.stream.toNat false f).hdr.slot = BitVec.ofNat 8 slot ∧
    (s.forwarded slot f.1.hdr.stream.toNat false f).hdr.frame = BitVec.ofNat 32 s.frame ∧
    (s.forwarded slot f.1.hdr.stream.toNat false f).hdr.stream = f.1.hdr.stream ∧
    (s.forwarded slot f.1.hdr.stream.toNat false f).hdr.tag = f.1.hdr.tag ∧ (s.forwarded slot f.1.hdr.stream.toNat false f).hdr.index = f.1.hdr.index ∧
    (s.forwarded slot f.1.hdr.stream.toNat false f).payload = padTo 928 f.1.payload :=
  ⟨rfl, rfl, ofNat_toNat_self _, rfl, rfl, rfl⟩

theorem execBroadcastRelay_of_slot {s : State} {stream : BitVec 16} {x : TxXfer} {p k : Nat}
    (hx : s.nextTx (fun x => x.owner == TxOwner.relay && x.stream == stream.toNat) = some x) (hfree : s.held.contains stream.toNat = false)
    (hp : (s.streamPorts false stream.toNat).find? (fun p => s.carries p) = some p)
    (hk : s.slotFrom p (s.tide.ns + 16) (entryHas false stream.toNat) = some k) :
    execBroadcastRelay stream s = .next ((s.atTide (s.frame * frameNs + 8 * k)).sendTx p k stream.toNat x false) := by
  unfold execBroadcastRelay
  rw [hx]
  dsimp only
  rw [if_neg (by rw [hfree]; exact Bool.false_ne_true), hp]
  dsimp only
  rw [hk]

/-- Settles O11: the clock of a frame boundary, the cell of each slot, and the forwarded and relayed cells. -/
theorem framesAndSlots : Obligations.FramesAndSlots := by
  refine ⟨execFrameBoundary_shows, fun s => ⟨fun p slot hup => ⟨execSlotTransmit_typed hup, fun _ => execSlotTransmit_sends hup,
    fun w hw => execSlotTransmit_replaces hup hw⟩, fun p f rest hfwd hdata => ⟨fun hhas => ?_, fun hhas =>
      ⟨execCellForward_of_held hfwd hdata hhas, fun k hcarries hfree hk => ?_⟩⟩, fun stream x p k hx hfree hp hk hbe => ?_⟩⟩
  · obtain ⟨hflag, hmem⟩ := (s.setPort p.val { s.port p.val with fwd := rest }).webMismatch_shows p.isLt
    refine ⟨_, execCellForward_of_no_slot hfwd hdata hhas, ?_, hflag, hmem⟩
    rw [State.webMismatch, State.port_count, State.port_setFlag, State.port_setPort_same]
  · obtain ⟨hfour, hlate⟩ := State.slotFrom_spec hk
    obtain ⟨hslot, hframe, hstream, htag, hindex, hpayload⟩ := (s.atTide (s.frame * frameNs + 8 * k)).forwarded_shows k f
    refine ⟨_, _, execCellForward_of_slot hfwd hdata hhas hcarries hfree hk, ?_, ?_, hfour, by omega, ?_, hslot, ?_, hstream, htag, hindex, hpayload,
      fun a => State.byte_congr (State.sendForward_keeps ..).1 a⟩
    · rw [State.port_sendForward]
    · rw [State.port_sendForward]
      show (s.port p.val).fwd.erase f = rest
      rw [hfwd, List.erase_cons_head]
    · rw [(State.sendForward_keeps ..).2]
      rfl
    · rw [hframe]
      unfold State.frame
      rw [(State.sendForward_keeps ..).2]
  · have hemits := (s.atTide (s.frame * frameNs + 8 * k)).sendTx_emits p k stream.toNat x false
    refine ⟨_, _, execBroadcastRelay_of_slot hx hfree hp hk, hemits.emitted, ?_, ofNat_toNat_self _, rfl, rfl⟩
    show BitVec.ofNat 8 (if x.be then 6 else 0) = 0#8
    rw [hbe]
    rfl

end Sys2Proof.Machine
end

section
/-! SUPPORT. Family 03_tensor_array.md: the issue of the instructions of a block program, and what the end of a LAUNCH leaves (O15). -/

namespace Sys2Proof.Machine

/-! ### Bytes and pan words -/

/-- The bytes of HBM and vats, and the pan words. -/
def State.stores (s : State) : SMap Byte × SMap PanWord := (s.mem, s.pan)

theorem State.memSame_of_stores {s t : State} (h : t.stores = s.stores) : MemSame s t := State.byte_congr (Prod.mk.inj h).1

@[simp] theorem State.stores_setBlk (s : State) (b : Nat) (u : BlockUnit) : (s.setBlk b u).stores = s.stores := rfl

/-! ### The end of a LAUNCH (R102, R467) -/

@[simp] theorem State.stores_endLaunch (s : State) (l : Launch) (st : List Status) (err : ErrCode) : (s.endLaunch l st err).stores = s.stores := by
  unfold State.endLaunch State.stores
  rw [State.complete_mem, State.complete_pan]
  rfl

theorem State.launches_endLaunch (s : State) (l : Launch) (st : List Status) (err : ErrCode) :
    (s.endLaunch l st err).launches = s.launches.filter (fun x => x.entry != l.entry) := by
  unfold State.endLaunch
  rw [State.complete_launches]
  rfl

/-- FAULT_FAILED comes before every other status (R477). -/
theorem Status.pick_faultFailed (l : List Status) : Status.pick (.faultFailed :: l) = .faultFailed :=
  foldl_keeps (fun a => a = Status.faultFailed) l (fun a b => if b.rank < a.rank then b else a) _ (by decide) fun y b hy => by
    rw [hy]
    exact if_neg (Nat.not_lt_zero _)

/-- The completion of a LAUNCH waits last, with the count of its instructions. -/
theorem State.lastDone_endLaunch (s : State) (l : Launch) (st : List Status) (err : ErrCode) :
    ∃ d, (s.endLaunch l st err).doneQ.getLast? = some d ∧ d.entry = l.entry ∧ d.c1 = l.issued % 2 ^ 32 :=
  ⟨_, List.getLast?_concat .., rfl, rfl⟩

theorem State.endsAs_endLaunch_failed (s : State) (l : Launch) (err : ErrCode) :
    EndsAs (s.endLaunch l [.faultFailed] err) l.entry .faultFailed err :=
  ⟨_, List.getLast?_concat .., rfl, Status.pick_faultFailed _, rfl⟩

/-- `l` has ended with ILLEGAL_INSTRUCTION: its program is gone, and no byte and no pan word differs from those of `s`. -/
def EndsIllegal (s : State) (l : Launch) (t : State) : Prop :=
  EndsAs t l.entry .faultFailed .illegalInstruction ∧ (∀ x ∈ t.launches, x.entry ≠ l.entry) ∧ t.pan = s.pan ∧ MemSame s t

theorem State.endsIllegal_endLaunch {s t : State} (h : t.stores = s.stores) (l : Launch) :
    EndsIllegal s l (t.endLaunch l [.faultFailed] .illegalInstruction) := by
  have hstores := (t.stores_endLaunch l [.faultFailed] .illegalInstruction).trans h
  refine ⟨t.endsAs_endLaunch_failed l _, fun x hx => ?_, (Prod.mk.inj hstores).2, State.memSame_of_stores hstores⟩
  rw [State.launches_endLaunch] at hx
  simpa using (List.mem_filter.mp hx).2

/-! ### A program goes on -/

@[simp] theorem State.stores_finishLaunch (s : State) (e : Nat) : (s.finishLaunch e).stores = s.stores := by
  unfold State.finishLaunch
  split
  · rfl
  · split
    · exact State.stores_endLaunch ..
    · rfl

@[simp] theorem State.stores_advance (s : State) (l : Launch) : (s.advance l).stores = s.stores := by
  unfold State.advance
  split
  · rfl
  · exact State.stores_finishLaunch ..

@[simp] theorem State.stores_stepStart (s : State) (l : Launch) : (s.stepStart l).stores = s.stores := by
  unfold State.stepStart
  split <;> rfl

@[simp] theorem State.stores_feed (s : State) (b fuel : Nat) : (s.feed b fuel).stores = s.stores := by
  induction fuel generalizing s with
  | zero => rfl
  | succ fuel ih =>
    unfold State.feed
    split
    · rfl
    · split
      · simp [ih]
      · rfl

@[simp] theorem State.stores_fed (s : State) (b : Nat) : (s.fed b).stores = s.stores := s.stores_feed b 6

/-! ### Issue (R17, R102, R215) -/

/-- The instruction that issues next is of the current context and of a program there. -/
theorem State.nextInstr_spec {s : State} {b c : Nat} {l : Launch} {w : Nat} (h : s.nextInstr b c = some (l, w)) :
    (s.blk b).current = c ∧ l.block = b ∧ l.ctx = c := by
  unfold State.nextInstr at h
  split at h
  · cases h
  · next hheld =>
    split at h
    · next x hx =>
      split at h
      · cases h
        simp only [Bool.or_eq_true, bne_iff_ne, ne_eq, not_or, not_not] at hheld
        simpa [hheld] using List.find?_some hx
      · cases h
    · cases h

/-- The sequencer feeds the fabric queue nothing while another unit's instruction is next. -/
theorem State.fed_of_not_fab {s : State} {b c : Nat} {l : Launch} {w : Nat} (h : s.nextInstr b c = some (l, w)) (hfab : isFab w = false) :
    s.fed b = s := by
  obtain ⟨hcur, -, -⟩ := State.nextInstr_spec h
  unfold State.fed State.feed
  rw [hcur, h]
  simp [hfab]

section
variable {s : State} {b c op w : Nat} {l : Launch} (legal : State → Launch → Nat → Bool) (act : State → Launch → Nat → State)

theorem State.issue_legal (h : s.nextInstr b c = some (l, w)) (hfab : isFab w = false) (hop : iBits w 0 8 = op) (hlegal : legal s l w = true) :
    s.issue b c op legal act = act (s.stepStart l) l w := by
  unfold State.issue
  dsimp only
  rw [State.fed_of_not_fab h hfab, h]
  dsimp only
  rw [if_pos hop, if_pos hlegal]

theorem State.issue_illegal (h : s.nextInstr b c = some (l, w)) (hfab : isFab w = false) (hop : iBits w 0 8 = op) (hlegal : legal s l w = false) :
    s.issue b c op legal act = s.endLaunch l [.faultFailed] .illegalInstruction := by
  unfold State.issue
  dsimp only
  rw [State.fed_of_not_fab h hfab, h]
  dsimp only
  rw [if_pos hop, hlegal]
  rfl

theorem State.fabIssue_illegal {j : FabJob} {q : List FabJob} {s1 : State} (hq : ((s.fed b).blk b).fabQ = j :: q) (hctx : j.ctx = c)
    (hstop : (s.fed b).blockStopped b = false) (hwaits : (s.fed b).fabWaits b j = false)
    (hs1 : s1 = (s.fed b).setBlk b { (s.fed b).blk b with fabQ := q }) (hl : s1.launches.find? (fun x => x.entry == j.entry) = some l)
    (hop : iBits j.word 0 8 = op) (hlegal : legal s1 l j.word = false) :
    s.fabIssue b c op legal act = s1.endLaunch l [.faultFailed] .illegalInstruction := by
  unfold State.fabIssue
  dsimp only
  rw [hq]
  dsimp only
  rw [if_pos ⟨hctx, hop, by rw [hstop]; rfl, by rw [hwaits]; rfl⟩, ← hs1, hl]
  dsimp only
  rw [hlegal]
  rfl

end

/-- An opcode that does not go to the fabric queue (R215). -/
theorem isFab_of_opcode {w op : Nat} (hop : iBits w 0 8 = op) (hfab : op ∉ [opFabCfg, opFabRun, opFabLane]) : isFab w = false := by
  unfold isFab
  rw [hop]
  simpa [and_assoc] using hfab

/-! ### Illegal instructions (R102) -/

section
variable {s : State} {b c op : Nat} {l : Launch} {legal : State → Launch → Nat → Bool} (act : State → Launch → Nat → State)

theorem State.issue_illegal_shows {w : Nat} (h : s.nextInstr b c = some (l, w)) (hop : iBits w 0 8 = op)
    (hfab : op ∉ [opFabCfg, opFabRun, opFabLane]) (hlegal : legal s l w = false) :
    ∃ t, .next (s.issue b c op legal act) = (.next t : Host.Outcome State Fault Refusal) ∧ EndsIllegal s l t :=
  ⟨_, congrArg _ (State.issue_illegal legal act h (isFab_of_opcode hop hfab) hop hlegal), State.endsIllegal_endLaunch rfl l⟩

theorem State.fabIssue_illegal_shows {j : FabJob} {q : List FabJob} {s1 : State} (hq : ((s.fed b).blk b).fabQ = j :: q) (hctx : j.ctx = c)
    (hstop : (s.fed b).blockStopped b = false) (hwaits : (s.fed b).fabWaits b j = false)
    (hs1 : s1 = (s.fed b).setBlk b { (s.fed b).blk b with fabQ := q }) (hl : s1.launches.find? (fun x => x.entry == j.entry) = some l)
    (hop : iBits j.word 0 8 = op) (hlegal : legal s1 l j.word = false) :
    ∃ t, .next (s.fabIssue b c op legal act) = (.next t : Host.Outcome State Fault Refusal) ∧ EndsIllegal s l t :=
  ⟨_, congrArg _ (State.fabIssue_illegal legal act hq hctx hstop hwaits hs1 hl hop hlegal),
    State.endsIllegal_endLaunch (by rw [hs1, State.stores_setBlk, State.stores_fed]) l⟩

end

/-- Settles O15: an illegal instruction ends its LAUNCH as it issues, one of the fabric as it leaves the queue. -/
theorem illegalInstructions : Obligations.IllegalInstructions := by
  refine fun s b c l i op => ⟨fun w legal hnext hi hop hlegal => ?_, fun j q s1 legal hq hctx hstop hwaits hs1 hl hi hop hlegal => ?_⟩
  · rcases hi with ⟨rfl, rfl, rfl⟩ | ⟨rfl, rfl, rfl⟩ | ⟨rfl, rfl, rfl⟩ | ⟨rfl, rfl, rfl⟩ | ⟨rfl, rfl, rfl⟩ | ⟨rfl, rfl, rfl⟩ | ⟨rfl, rfl, rfl⟩ |
      ⟨rfl, rfl, rfl⟩ | ⟨rfl, rfl, rfl⟩ <;>
    exact State.issue_illegal_shows _ hnext hop (by decide) hlegal
  · rcases hi with ⟨rfl, rfl, rfl⟩ | ⟨rfl, rfl, rfl⟩ | ⟨rfl, rfl, rfl⟩ <;>
    exact State.fabIssue_illegal_shows _ hq hctx hstop hwaits hs1 hl hop hlegal

end Sys2Proof.Machine
end

section
/-! SUPPORT. Family 03_tensor_array.md: the count of a program, and what an ARR_STREAM does before its first streamed row (O13). -/

namespace Sys2Proof.Machine

/-! ### The count of a program (R467) -/

/-- Program `l` stands where it stood, with the count that it had. -/
def Counting (l : Launch) (t : State) : Prop :=
  ∃ x, t.launches.find? (fun x => x.entry == l.entry) = some x ∧ x.pc = l.pc ∧ x.issued = l.issued

theorem find_map_setLaunch {ls : List Launch} {x y : Launch} {e : Nat} (h : ls.find? (fun z => z.entry == e) = some x) (hy : y.entry = e) :
    (ls.map (fun z => if z.entry = y.entry then y else z)).find? (fun z => z.entry == e) = some y := by
  have hsame : (fun z : Launch => z.entry == e) ∘ (fun z => if z.entry = y.entry then y else z) = fun z => z.entry == e := by
    funext z
    dsimp only [Function.comp]
    split
    · next hz => rw [hz]
    · rfl
  rw [List.find?_map, hsame, h]
  have hx : x.entry = e := by simpa using List.find?_some h
  simp [hx, hy]

theorem Counting.setLaunch {l : Launch} {t : State} (h : Counting l t) {y : Launch} (hy : y.entry = l.entry) (hpc : y.pc = l.pc)
    (hissued : y.issued = l.issued) : Counting l (t.setLaunch y) := by
  obtain ⟨x, hx, -, -⟩ := h
  exact ⟨y, find_map_setLaunch hx hy, hpc, hissued⟩

theorem Counting.congr {l : Launch} {t u : State} (h : Counting l t) (hu : u.launches = t.launches) : Counting l u := by
  unfold Counting
  rw [hu]
  exact h

theorem Counting.stepStart {l : Launch} {s : State} (h : Counting l s) : Counting l (s.stepStart l) := by
  unfold State.stepStart
  split
  · exact h.setLaunch rfl rfl rfl
  · exact h

theorem Counting.noteTied {l : Launch} {s : State} (h : Counting l s) (tie : Nat) : Counting l (s.noteTied l.entry tie) := by
  obtain ⟨x, hx, hpc, hissued⟩ := h
  unfold State.noteTied
  rw [hx]
  dsimp only
  split
  · exact ⟨x, hx, hpc, hissued⟩
  · exact Counting.setLaunch ⟨x, hx, hpc, hissued⟩ (by simpa using List.find?_some hx) hpc hissued

theorem issuedOne_finishLaunch {l x : Launch} {s : State} (hx : s.launches.find? (fun x => x.entry == l.entry) = some x) (hpc : x.pc = l.pc + 1)
    (hissued : x.issued = l.issued + 1) : IssuedOne l (s.finishLaunch l.entry) := by
  have hentry : x.entry = l.entry := by simpa using List.find?_some hx
  unfold State.finishLaunch
  rw [hx]
  dsimp only
  split
  · obtain ⟨d, hd, hde, hdc⟩ := s.lastDone_endLaunch x [] .none
    exact .inr ⟨d, hd, hde.trans hentry, by rw [hdc, hissued]⟩
  · exact .inl ⟨x, List.mem_of_find?_eq_some hx, hentry, hpc, hissued⟩

/-- An instruction that has issued is counted once. -/
theorem Counting.issuedOne_advance {l : Launch} {s : State} (h : Counting l s) : IssuedOne l (s.advance l) := by
  obtain ⟨x, hx, hpc, hissued⟩ := h
  have hentry : x.entry = l.entry := by simpa using List.find?_some hx
  unfold State.advance
  rw [hx]
  exact issuedOne_finishLaunch (find_map_setLaunch hx hentry) (congrArg (· + 1) hpc) (congrArg (· + 1) hissued)

/-! ### What the steps before the first streamed row leave -/

/-- Memory, pan, programs, and the drains that wait in block `b`. -/
def State.arrView (s : State) (b : Nat) : SMap Byte × SMap PanWord × List Launch × List DrainWait := (s.mem, s.pan, s.launches, (s.blk b).drains)

@[simp] theorem State.blk_setBlk_same (s : State) (b : Nat) (u : BlockUnit) : (s.setBlk b u).blk b = u := SMap.get_set_same blockDefault s.blocks b u

@[simp] theorem State.arrView_setBlk (s : State) (b : Nat) (u : BlockUnit) : (s.setBlk b u).arrView b = (s.mem, s.pan, s.launches, u.drains) := by
  unfold State.arrView
  rw [State.blk_setBlk_same]
  rfl

@[simp] theorem State.arrView_setFld (s : State) (f : Fld) (v b : Nat) : (s.setFld f v).arrView b = s.arrView b := (rfl)
@[simp] theorem State.arrView_setFlag (s : State) (f : Fld) (b : Nat) : (s.setFlag f).arrView b = s.arrView b := (rfl)
@[simp] theorem State.arrView_bump (s : State) (f : Fld) (n b : Nat) : (s.bump f n).arrView b = s.arrView b := (rfl)
@[simp] theorem State.arrView_setStat (s : State) (b' slot i j v b : Nat) : (s.setStat b' slot i j v).arrView b = s.arrView b := (rfl)
@[simp] theorem State.arrView_clearSlot (s : State) (b' slot b : Nat) : (s.clearSlot b' slot).arrView b = s.arrView b := by
  unfold State.clearSlot
  rw [State.arrView_setFld]
  rfl

@[simp] theorem State.arrView_count (s : State) (k n b : Nat) : (s.count k n).arrView b = s.arrView b := by
  obtain ⟨r, e, c, h⟩ := s.count_eq k n
  rw [h]
  rfl

@[simp] theorem State.arrView_setFlagIf (s : State) (c : Bool) (f : Fld) (b : Nat) : (s.setFlagIf c f).arrView b = s.arrView b := by
  unfold State.setFlagIf
  split <;> rfl

@[simp] theorem State.arrView_retire (s : State) (b' c ac b : Nat) : (s.retire b' c ac).arrView b = s.arrView b := by
  simp [State.retire]

@[simp] theorem State.arrView_addSample (s : State) (b : Nat) (x : Sample) : (s.addSample b x).arrView b = s.arrView b := by
  unfold State.addSample
  rw [State.arrView_count, State.arrView_bump]
  refine forUpTo_keeps (fun y : State => y.arrView b = s.arrView b) _ _ _ ?_ fun i y hy => ?_
  · split
    · exact s.arrView_clearSlot b x.slot b
    · rfl
  · exact forUpTo_keeps (fun z : State => z.arrView b = s.arrView b) _ _ _ hy fun d z hz => (z.arrView_setStat ..).trans hz

@[simp] theorem State.arrView_takeSample (s : State) (b : Nat) : (s.takeSample b).arrView b = s.arrView b := by
  unfold State.takeSample
  split
  · rfl
  · rw [State.arrView_addSample, State.arrView_setBlk]
    rfl

@[simp] theorem State.arrView_queueSample (s : State) (b : Nat) (x : Sample) : (s.queueSample b x).arrView b = s.arrView b := by
  unfold State.queueSample
  rw [State.arrView_setBlk]
  split
  · exact s.arrView_takeSample b
  · rfl

/-- The panel of sampled rows that the armed tap of context `c` keeps in the vat (R223), and the tap is armed no more. -/
def State.tapPanel (s : State) (b c : Nat) (i : ArrOp) : State :=
  match SMap.find (s.blk b).taps c with
  | none => s
  | some t =>
    let s1 := s.setBlk b { s.blk b with taps := SMap.erase (s.blk b).taps c }
    if t.keep then s1.setBytes (vatAt b + t.keepAddr) (((tapRows t i.m).map (s.sampleRow b i)).flatMap (fun r => r.flatMap (leBytes 2))) else s1

theorem State.arrView_queueSamples (s : State) (b n : Nat) (x : Nat → Sample) :
    (forUpTo n (fun j (y : State) => y.queueSample b (x j)) s).arrView b = s.arrView b :=
  forUpTo_keeps (fun y : State => y.arrView b = s.arrView b) n _ s rfl fun j y hy => (y.arrView_queueSample b (x j)).trans hy

theorem State.arrView_takeSamples (s : State) (b n : Nat) : (forUpTo n (fun _ (y : State) => y.takeSample b) s).arrView b = s.arrView b :=
  forUpTo_keeps (fun y : State => y.arrView b = s.arrView b) n _ s rfl fun _ y hy => (y.arrView_takeSample b).trans hy

theorem State.arrView_runTap (s : State) (b c : Nat) (i : ArrOp) : (s.runTap b c i).arrView b = (s.tapPanel b c i).arrView b := by
  unfold State.runTap State.tapPanel
  cases SMap.find (s.blk b).taps c with
  | none => rfl
  | some t =>
    simp only [State.arrView_count, State.arrView_bump, State.arrView_setFlagIf]
    split
    · rw [State.arrView_clearSlot, State.arrView_takeSamples, State.arrView_queueSamples]
    · rw [State.arrView_queueSamples]

/-! ### The tap's panel -/

theorem State.tapPanel_of_none {s : State} {b c : Nat} (h : SMap.find (s.blk b).taps c = none) (i : ArrOp) : s.tapPanel b c i = s := by
  unfold State.tapPanel
  rw [h]

theorem State.arrView_setBytes_rest (s : State) (a : Nat) (bs : List Byte) (b : Nat) : ((s.setBytes a bs).arrView b).2 = (s.arrView b).2 := by
  induction bs generalizing s a with
  | nil => rfl
  | cons x bs ih => exact ih (s.setByte a x) (a + 1)

/-- A panel is written to the vat only. -/
theorem State.arrView_tapPanel (s : State) (b c : Nat) (i : ArrOp) : ((s.tapPanel b c i).arrView b).2 = (s.arrView b).2 := by
  unfold State.tapPanel
  cases SMap.find (s.blk b).taps c with
  | none => rfl
  | some t =>
    have hdisarmed : ((s.setBlk b { s.blk b with taps := SMap.erase (s.blk b).taps c }).arrView b).2 = (s.arrView b).2 := by
      rw [State.arrView_setBlk]
      rfl
    dsimp only
    split
    · exact (State.arrView_setBytes_rest ..).trans hdisarmed
    · exact hdisarmed

/-! ### What the operands and the checks depend on -/

section
variable {s t : State} (h : MemSame s t)
include h

theorem State.vatLe_congr (b off n : Nat) : t.vatLe b off n = s.vatLe b off n := by
  unfold State.vatLe State.le State.bytes
  simp only [h _]

theorem State.strElem_congr (b : Nat) (i : ArrOp) : t.strElem b i = s.strElem b i := by
  funext m k
  unfold State.strElem
  simp only [State.vatLe_congr h]

theorem State.sampleRow_congr (b : Nat) (i : ArrOp) : t.sampleRow b i = s.sampleRow b i := by
  funext m
  unfold State.sampleRow
  rw [State.strElem_congr h]

theorem State.strRow_congr (b : Nat) (i : ArrOp) : t.strRow b i = s.strRow b i := by
  funext m
  unfold State.strRow
  rw [State.strElem_congr h]

theorem State.sumsOf_congr (b : Nat) (i : ArrOp) (tile : KeptTile) : t.sumsOf b i tile = s.sumsOf b i tile := by
  funext m
  unfold State.sumsOf
  rw [State.strRow_congr h]

theorem State.groupEnd_congr (b : Nat) (i : ArrOp) (tile : KeptTile) : t.groupEnd b i tile = s.groupEnd b i tile := by
  funext upset lo hi
  unfold State.groupEnd State.groupFails
  rw [State.sumsOf_congr h, State.strElem_congr h]

/-- The checks read the operands only. -/
theorem State.checksFail_congr (b : Nat) (i : ArrOp) (tile : KeptTile) : t.checksFail b i tile = s.checksFail b i tile := by
  funext upset lo
  unfold State.checksFail
  rw [State.groupEnd_congr h]

/-- Two states with the same bytes and the same armed taps keep the same panel. -/
theorem State.tapPanel_congr {b c : Nat} (htaps : (t.blk b).taps = (s.blk b).taps) (i : ArrOp) : MemSame (s.tapPanel b c i) (t.tapPanel b c i) := by
  unfold State.tapPanel
  rw [htaps, State.sampleRow_congr h]
  cases SMap.find (s.blk b).taps c with
  | none => exact h
  | some x =>
    intro a
    dsimp only
    split
    · rw [State.byte_setBytes, State.byte_setBytes]
      split
      · rfl
      · exact h a
    · exact h a

end

theorem State.panWord_congr {s t : State} (h : t.pan = s.pan) : t.panWord = s.panWord := by
  unfold State.panWord
  rw [h]

/-- Which rows are bad shows in the pan words only. -/
theorem State.firstBad_congr {s t : State} (h : t.pan = s.pan) (b : Nat) (i : ArrOp) (lo hi : Nat) : t.firstBad b i lo hi = s.firstBad b i lo hi := by
  unfold State.firstBad State.rowBad
  rw [State.panWord_congr h]

/-! ### The steps before the first streamed row (R98, R114, R123) -/

@[simp] theorem State.blk_count (s : State) (k n b : Nat) : (s.count k n).blk b = s.blk b := by
  obtain ⟨r, e, c, h⟩ := s.count_eq k n
  rw [h]
  rfl

theorem State.launches_setBlk (s : State) (b : Nat) (u : BlockUnit) : (s.setBlk b u).launches = s.launches := (rfl)

theorem State.wrapBump_keeps (s : State) (f : Fld) (n b : Nat) : (s.wrapBump f n).stores = s.stores ∧ (s.wrapBump f n).blk b = s.blk b := ⟨rfl, rfl⟩

/-- With no drain waiting, none runs. -/
theorem State.runDrains_of_nil {s : State} {b : Nat} (h : (s.blk b).drains = []) : s.runDrains b = s := by
  unfold State.runDrains
  rw [h]
  rfl

theorem State.noteTied_keeps (s : State) (e tie b : Nat) : (s.noteTied e tie).stores = s.stores ∧ (s.noteTied e tie).blk b = s.blk b := by
  unfold State.noteTied
  split
  · split <;> exact ⟨rfl, rfl⟩
  · exact ⟨rfl, rfl⟩

theorem State.runDrains_setTieRows {s : State} {b : Nat} (h : (s.blk b).drains = []) (rows : SMap (Nat × Nat)) :
    (s.setBlk b { s.blk b with tieRows := rows }).runDrains b = s.setBlk b { s.blk b with tieRows := rows } :=
  State.runDrains_of_nil (by rw [State.blk_setBlk_same]; exact h)

theorem Counting.tieMember {l : Launch} {s : State} (h : Counting l s) (i : ArrOp) (hdrains : (s.blk l.block).drains = []) :
    Counting l (s.tieMember l i) ∧ (s.tieMember l i).stores = s.stores := by
  by_cases htie : i.tie = 0
  · have hsame : s.tieMember l i = s := if_pos htie
    rw [hsame]
    exact ⟨h, rfl⟩
  · have hbumped : Counting l (s.wrapBump (BLK_TIE_CFG_issued l.block i.tie)) := h.congr (State.wrapBump_launches ..)
    have hnoted := hbumped.noteTied i.tie
    obtain ⟨hstores, hblk⟩ := (s.wrapBump (BLK_TIE_CFG_issued l.block i.tie)).noteTied_keeps l.entry i.tie l.block
    obtain ⟨hbumpStores, hbumpBlk⟩ := s.wrapBump_keeps (BLK_TIE_CFG_issued l.block i.tie) 1 l.block
    have hmember : s.tieMember l i = _ := if_neg htie
    generalize (s.wrapBump (BLK_TIE_CFG_issued l.block i.tie)).noteTied l.entry i.tie = t at hnoted hstores hblk hmember
    rw [hmember, State.runDrains_setTieRows (by rw [hblk, hbumpBlk]; exact hdrains)]
    exact ⟨hnoted.congr (State.launches_setBlk ..), ((State.stores_setBlk ..).trans hstores).trans hbumpStores⟩

/-- The stationary tile is loaded, or kept (R98). -/
def State.loadTile (s : State) (l : Launch) (i : ArrOp) : State :=
  if i.keep then s
  else (s.setBlk l.block { s.blk l.block with
    tiles := SMap.insert (s.blk l.block).tiles l.ctx ⟨i.fmtS, i.statT, s.vatSlice l.block i.stat (16384 * (arrFmt i.fmtS).bytes)⟩ }).count
      (cntBlock l.block 16)

/-- The tile that context `c` of block `b` holds. -/
def State.tileAt (s : State) (b c : Nat) : KeptTile := (SMap.find (s.blk b).tiles c).getD KeptTile.none

/-- The instruction is counted toward the verified ones, the tap samples, and the tie group counts its member. -/
def State.armed (s : State) (l : Launch) (i : ArrOp) : State :=
  ((((((s.setBlk l.block { s.blk l.block with verifyCount := (s.blk l.block).verifyCount + 1 }).runTap l.block l.ctx i).tieMember l i).count
    (cntBlock l.block 45)).count (cntBlock l.block 15) i.m).retire l.block l.ctx (ceilDiv i.m i.rate))

theorem State.arrAct_eq (upset : ArrUpset) (s : State) (l : Launch) (w : Nat) : State.arrAct upset s l w =
    ((s.loadTile l (arrOp w)).armed l (arrOp w)).stream l (arrOp w) ((s.loadTile l (arrOp w)).tileAt l.block l.ctx)
      ((s.loadTile l (arrOp w)).verifies l.block) 0 upset
      (fun st g => st.setBlk l.block { st.blk l.block with replay := some ⟨l.ctx, l.entry, w, g, (arrOp w).m⟩ }) (fun st => st.advance l) := rfl

theorem State.loadTile_keeps (s : State) (l : Launch) (i : ArrOp) : (s.loadTile l i).arrView l.block = s.arrView l.block ∧
    ((s.loadTile l i).blk l.block).taps = (s.blk l.block).taps ∧ (s.loadTile l i).verifies l.block = s.verifies l.block := by
  unfold State.loadTile
  split
  · exact ⟨rfl, rfl, rfl⟩
  · refine ⟨by rw [State.arrView_count, State.arrView_setBlk]; rfl, by rw [State.blk_count, State.blk_setBlk_same], ?_⟩
    unfold State.verifies State.flag
    rw [fld_count_even _ _ _ _ (by show (blkBase l.block + 8) % 8 = 0; unfold blkBase; omega), State.blk_count, State.blk_setBlk_same]
    rfl

theorem State.tileAt_loadTile (s : State) (l : Launch) (i : ArrOp) : (s.loadTile l i).tileAt l.block l.ctx = if i.keep then s.tileAt l.block l.ctx
    else ⟨i.fmtS, i.statT, s.vatSlice l.block i.stat (16384 * (arrFmt i.fmtS).bytes)⟩ := by
  unfold State.loadTile State.tileAt
  split
  · rfl
  · rw [State.blk_count, State.blk_setBlk_same, SMap.find_insert_same]
    rfl

/-- What the tap leaves: programs, pan and drains, and, but for its panel, memory. -/
theorem State.runTap_keeps (s : State) (b c : Nat) (i : ArrOp) :
    ((s.runTap b c i).arrView b).2 = (s.arrView b).2 ∧ MemSame (s.tapPanel b c i) (s.runTap b c i) :=
  ⟨(congrArg Prod.snd (s.arrView_runTap b c i)).trans (s.arrView_tapPanel b c i), State.byte_congr (congrArg Prod.fst (s.arrView_runTap b c i))⟩

/-- What the tap and the tie group leave: the program's count, the pan, and, but for the tap's panel, memory. -/
theorem State.armed_keeps {s : State} {l : Launch} (h : Counting l s) (i : ArrOp) (hdrains : (s.blk l.block).drains = []) :
    Counting l (s.armed l i) ∧ (s.armed l i).pan = s.pan ∧ MemSame (s.tapPanel l.block l.ctx i) (s.armed l i) := by
  generalize hu : s.setBlk l.block { s.blk l.block with verifyCount := (s.blk l.block).verifyCount + 1 } = u
  have hview : u.arrView l.block = s.arrView l.block := by
    rw [← hu, State.arrView_setBlk]
    rfl
  have htaps : (u.blk l.block).taps = (s.blk l.block).taps := by rw [← hu, State.blk_setBlk_same]
  obtain ⟨hrest, hpanel⟩ := u.runTap_keeps l.block l.ctx i
  rw [hview] at hrest
  unfold State.arrView at hrest
  simp only [Prod.mk.injEq] at hrest
  obtain ⟨hpan, hlaunches, hwaiting⟩ := hrest
  have hmem : MemSame s u := State.byte_congr (congrArg Prod.fst hview)
  obtain ⟨hcount, hstores⟩ := (h.congr hlaunches).tieMember i (hwaiting.trans hdrains)
  obtain ⟨htied, htiedPan⟩ := Prod.mk.inj hstores
  have hend : (s.armed l i).arrView l.block = ((u.runTap l.block l.ctx i).tieMember l i).arrView l.block := by
    unfold State.armed
    rw [hu, State.arrView_retire, State.arrView_count, State.arrView_count]
  unfold State.arrView at hend
  simp only [Prod.mk.injEq] at hend
  obtain ⟨hendMem, hendPan, hendLaunches, -⟩ := hend
  refine ⟨hcount.congr hendLaunches, hendPan.trans (htiedPan.trans hpan), fun a => ?_⟩
  rw [State.byte_congr (hendMem.trans htied), hpanel, State.tapPanel_congr hmem htaps]

end Sys2Proof.Machine
end

section
/-! SUPPORT. Family 03_tensor_array.md: the streamed rows of an ARR_STREAM, and what they leave in the pan (O13). -/

namespace Sys2Proof.Machine

/-! ### Loops -/

/-- A fact about the first `k` turns of a loop, carried from turn to turn. -/
theorem forUpTo_induct {α : Type} (P : Nat → α → Prop) (n : Nat) (f : Nat → α → α) (x : α) (h0 : P 0 x)
    (hstep : ∀ i < n, ∀ y, P i y → P (i + 1) (f i y)) : P n (forUpTo n f x) := by
  induction n with
  | zero => exact h0
  | succ n ih =>
    unfold forUpTo at ih ⊢
    rw [List.range_succ, List.foldl_append]
    exact hstep n (Nat.lt_succ_self n) _ (ih fun i hi => hstep i (Nat.lt_succ_of_lt hi))

/-! ### One output in the pan (R100, R131) -/

/-- The pan row of streamed row `m`. -/
def ArrOp.row (i : ArrOp) (m : Nat) : Nat := i.panRow + (if i.acc then m / 2 else m)

/-- What the pan holds for column `n` of streamed row `m`: a word, or the row's half of one. -/
def State.outBits (s : State) (b : Nat) (i : ArrOp) (m n : Nat) : Nat :=
  if i.acc then halfOf (s.panWord b (i.row m) n).bits (m % 2) else (s.panWord b (i.row m) n).bits

/-- What a word or half that held `old` holds once `o` is written or added. -/
def ArrOp.summed (i : ArrOp) (old : Nat) (o : Acc) : Nat :=
  if i.acc then accumBits (accFmt i.acc) i.clear old o % 2 ^ 16 else accumBits (accFmt i.acc) i.clear old o

theorem State.outBits_congr {s t : State} (h : t.pan = s.pan) : t.outBits = s.outBits := by
  unfold State.outBits
  rw [State.panWord_congr h]

theorem State.panWord_setPanWord (s : State) (b row : Nat) {col col' : Nat} (hcol : col < 128) (hcol' : col' < 128) (w : PanWord) (row' : Nat) :
    (s.setPanWord b row col w).panWord b row' col' = if row' = row ∧ col' = col then w else s.panWord b row' col' := by
  have hkey : panKey b row' col' = panKey b row col ↔ row' = row ∧ col' = col := by
    unfold panKey
    omega
  unfold State.panWord State.setPanWord
  rw [SMap.get_set]
  exact if_congr hkey rfl rfl

@[simp] theorem State.panWord_setPanRow (s : State) (b row : Nat) (r : PanRow) : (s.setPanRow b row r).panWord = s.panWord := (rfl)

/-- The word that `panAccum` leaves. -/
theorem State.panWord_panAccum (s : State) (b row : Nat) {col col' : Nat} (hcol : col < 128) (hcol' : col' < 128) (acc clear : Bool) (h : Nat)
    (o : Acc) (row' : Nat) : ((s.panAccum b row col acc clear h o).panWord b row' col').bits = if row' = row ∧ col' = col then
      (if acc then putHalf (s.panWord b row col).bits h (accumBits (accFmt acc) clear (halfOf (s.panWord b row col).bits h) o)
        else accumBits (accFmt acc) clear (s.panWord b row col).bits o) else (s.panWord b row' col').bits := by
  unfold State.panAccum
  dsimp only
  rw [State.panWord_setPanRow, State.panWord_setPanWord s b row hcol hcol']
  split
  · cases acc <;> rfl
  · rfl

theorem halfOf_putHalf_same (bits h v : Nat) : halfOf (putHalf bits h v) h = v % 2 ^ 16 := bitsOf_putBits_same bits (16 * h) 16 v

theorem halfOf_putHalf_other (bits v : Nat) {h h' : Nat} (hne : h' ≠ h) : halfOf (putHalf bits h v) h' = halfOf bits h' :=
  bitsOf_putBits_other _ _ _ _ _ _ (by omega)

/-- An output is written in its own place. -/
theorem State.outBits_panAccum (s : State) (b : Nat) (i : ArrOp) (m : Nat) {n n' : Nat} (hn : n < 128) (hn' : n' < 128) (o : Acc) (m' : Nat) :
    (s.panAccum b (i.row m) n i.acc i.clear (if i.acc then m % 2 else 0) o).outBits b i m' n' =
      if m' = m ∧ n' = n then i.summed (s.outBits b i m n) o else s.outBits b i m' n' := by
  unfold State.outBits ArrOp.summed
  rw [State.panWord_panAccum s b (i.row m) hn hn']
  cases hacc : i.acc with
  | false =>
    have hrow : i.row m' = i.row m ↔ m' = m := by simp [ArrOp.row, hacc]
    simp [hrow]
  | true =>
    have hrow : i.row m' = i.row m ↔ m' / 2 = m / 2 := by simp [ArrOp.row, hacc]
    simp only [hrow, if_true]
    by_cases hcol : n' = n
    · subst hcol
      by_cases hpair : m' / 2 = m / 2
      · by_cases hhalf : m' % 2 = m % 2
        · have hm : m' = m := by omega
          simp [hm, halfOf_putHalf_same]
        · have hm : m' ≠ m := fun e => hhalf (by rw [e])
          have hsame : i.row m' = i.row m := hrow.mpr hpair
          simp [hpair, hm, hsame, halfOf_putHalf_other _ _ hhalf]
      · have hm : m' ≠ m := fun e => hpair (by rw [e])
        simp [hpair, hm]
    · simp [hcol]

/-! ### The streamed rows (R100, R184) -/

/-- Memory and programs. -/
def State.progView (s : State) : SMap Byte × List Launch := (s.mem, s.launches)

theorem State.progView_of_arrView {s t : State} {b : Nat} (h : t.arrView b = s.arrView b) : t.progView = s.progView := by
  unfold State.arrView at h
  simp only [Prod.mk.injEq] at h
  obtain ⟨hmem, -, hlaunches, -⟩ := h
  exact Prod.ext hmem hlaunches

theorem State.pan_of_arrView {s t : State} {b : Nat} (h : t.arrView b = s.arrView b) : t.pan = s.pan := congrArg (·.2.1) h

theorem State.progView_panAccum (s : State) (b row col : Nat) (acc clear : Bool) (h : Nat) (o : Acc) :
    (s.panAccum b row col acc clear h o).progView = s.progView := (rfl)

theorem State.arrView_countSkips (s : State) (b : Nat) (i : ArrOp) (t : KeptTile) (lo hi : Nat) : (s.countSkips b i t lo hi).arrView b = s.arrView b := by
  unfold State.countSkips
  dsimp only
  split
  · rfl
  · simp only [State.arrView_count, State.arrView_setFlag, State.arrView_bump]

/-- The output of streamed row `m` in column `n` (R184). -/
def State.rowOut (s : State) (b : Nat) (i : ArrOp) (t : KeptTile) (m n : Nat) : Acc :=
  arrOut (accFmt i.acc) (prods (s.strRow b i m) t n) i.outExp

theorem State.rowOut_congr {s t : State} (h : MemSame s t) (b : Nat) (i : ArrOp) (tile : KeptTile) : t.rowOut b i tile = s.rowOut b i tile := by
  funext m n
  unfold State.rowOut
  rw [State.strRow_congr h]

/-- The columns below `k` of streamed row `m` have been written, from `s` to `t`. -/
structure RowWritten (s t : State) (b : Nat) (i : ArrOp) (out : Nat → Acc) (m k : Nat) : Prop where
  prog : t.progView = s.progView
  pan : ∀ m' n', n' < 128 → t.outBits b i m' n' = if m' = m ∧ n' < k then i.summed (s.outBits b i m n') (out n') else s.outBits b i m' n'

/-- Column by column, a row's outputs go to their places. -/
theorem RowWritten.columns (s : State) (b : Nat) (i : ArrOp) (hn : i.n ≤ 128) (m : Nat) (out : Nat → Acc) :
    RowWritten s (forUpTo i.n (fun n y => y.panAccum b (i.row m) n i.acc i.clear (if i.acc then m % 2 else 0) (out n)) s) b i out m i.n := by
  refine forUpTo_induct (fun k y => RowWritten s y b i out m k) i.n _ s ⟨rfl, fun m' n' _ => by simp⟩ fun n hlt y hy => ⟨?_, fun m' n' hn' => ?_⟩
  · exact (y.progView_panAccum ..).trans hy.prog
  · rw [State.outBits_panAccum y b i m (by omega) hn', hy.pan m' n' hn', hy.pan m n (by omega)]
    by_cases hm : m' = m
    · subst hm
      rcases Nat.lt_trichotomy n' n with hlt | heq | hgt
      · simp [hlt, Nat.lt_succ_of_lt hlt, hlt.ne]
      · subst heq
        simp
      · simp [Nat.not_lt_of_gt hgt, hgt.ne', show ¬n' < n + 1 by omega]
    · simp [hm]

/-- One streamed row. -/
theorem RowWritten.arrRow (s : State) (b : Nat) (i : ArrOp) (hn : i.n ≤ 128) (t : KeptTile) (verified : Bool) (m : Nat) :
    RowWritten s (s.arrRow b i t verified m) b i (s.rowOut b i t m) m i.n := by
  have hrow (r : PanRow) := RowWritten.columns (s.setPanRow b (i.row m) r) b i hn m (s.rowOut b i t m)
  have hset (r : PanRow) : (s.setPanRow b (i.row m) r).outBits = s.outBits := State.outBits_congr rfl
  unfold State.arrRow
  dsimp only
  split
  · refine ⟨?_, fun m' n' hn' => ?_⟩
    · rw [State.progView_of_arrView (State.arrView_countSkips ..)]
      exact (hrow _).prog
    · rw [State.outBits_congr (State.pan_of_arrView (State.arrView_countSkips ..))]
      exact ((hrow _).pan m' n' hn').trans (by rw [hset])
  · exact ⟨(hrow _).prog, fun m' n' hn' => ((hrow _).pan m' n' hn').trans (by rw [hset])⟩

/-- The streamed rows below `k` have been written, from `s` to `t`. -/
structure RowsWritten (s t : State) (b : Nat) (i : ArrOp) (tile : KeptTile) (k : Nat) : Prop where
  prog : t.progView = s.progView
  pan : ∀ m n, n < 128 → t.outBits b i m n = if m < k ∧ n < i.n then i.summed (s.outBits b i m n) (s.rowOut b i tile m n) else s.outBits b i m n

/-- Row by row, the outputs go to their places. -/
theorem RowsWritten.arrRows (s : State) (b : Nat) (i : ArrOp) (hn : i.n ≤ 128) (t : KeptTile) (verified : Bool) :
    RowsWritten s (s.arrRows b i t verified 0 i.m) b i t i.m := by
  refine forUpTo_induct (fun k y => RowsWritten s y b i t k) i.m _ s ⟨rfl, fun m n _ => by simp⟩ fun m hlt y hy => ?_
  have hrow : RowWritten y (y.arrRow b i t verified (0 + m)) b i (y.rowOut b i t (0 + m)) (0 + m) i.n := RowWritten.arrRow y b i hn t verified (0 + m)
  have hmem : MemSame s y := State.byte_congr (Prod.mk.inj hy.prog).1
  rw [Nat.zero_add, State.rowOut_congr hmem] at hrow
  rw [Nat.zero_add]
  refine ⟨hrow.prog.trans hy.prog, fun m' n' hn' => ?_⟩
  rw [hrow.pan m' n' hn', hy.pan m' n' hn', hy.pan m n' hn']
  rcases Nat.lt_trichotomy m' m with hlt | heq | hgt
  · simp [hlt, Nat.lt_succ_of_lt hlt, hlt.ne]
  · subst heq
    simp
  · simp [Nat.not_lt_of_gt hgt, hgt.ne', show ¬m' < m + 1 by omega]

end Sys2Proof.Machine
end

section
/-! SUPPORT. Family 03_tensor_array.md: ARR_STREAM (O13). -/

namespace Sys2Proof.Machine

/-! ### A stream whose checks pass -/

/-- No parity error and no failed check: every row is written, and the instruction is done. -/
theorem State.stream_done {s : State} {l : Launch} {i : ArrOp} {t : KeptTile} {verified : Bool} {lo : Nat} {upset : ArrUpset}
    (hpass : verified = true → s.checksFail l.block i t upset lo = none) (hgood : s.firstBad l.block i lo i.m = none)
    (fail : State → Nat → State) (done : State → State) :
    s.stream l i t verified lo upset fail done = done (s.arrRows l.block i t verified lo i.m) := by
  have hstop : (if verified then s.checksFail l.block i t upset lo else none) = none := by
    split
    · next hv => exact hpass hv
    · rfl
  unfold State.stream
  dsimp only
  rw [hstop]
  dsimp only
  rw [hgood]

/-! ### ARR_STREAM (R97 to R101, R184) -/

/-- The first step of an instruction leaves memory, pan and blocks, and whether an ARR_STREAM is verified, as they are. -/
theorem State.stepStart_keeps (s : State) (l : Launch) (b : Nat) :
    (s.stepStart l).mem = s.mem ∧ (s.stepStart l).pan = s.pan ∧ (s.stepStart l).blk b = s.blk b ∧ (s.stepStart l).verifies b = s.verifies b := by
  unfold State.stepStart
  split <;> exact ⟨rfl, rfl, rfl, rfl⟩

theorem State.vatSlice_congr {s t : State} (h : t.mem = s.mem) : t.vatSlice = s.vatSlice := by
  unfold State.vatSlice
  rw [h]

/-- The products of a streamed row with a column of the tile, by element. -/
theorem prods_strRow (s : State) (b : Nat) (i : ArrOp) (t : KeptTile) (m n : Nat) :
    prods (s.strRow b i m) t n = (List.range i.k).map (fun k => (s.strElem b i m k).mul (t.elem k n)) := by
  unfold prods State.strRow
  rw [List.length_map, List.length_range]
  refine List.map_congr_left fun k hk => ?_
  rw [List.getD_eq_getElem?_getD, List.getElem?_map, List.getElem?_range (List.mem_range.mp hk)]
  rfl

theorem arrOp_n_le (w : Nat) : (arrOp w).n ≤ 128 := bitsOf_lt w 32 7

/-- The tile that an ARR_STREAM of context `c` streams against: the one kept there, or the one that it loads (R98). -/
def State.streamTile (s : State) (b c : Nat) (i : ArrOp) : KeptTile :=
  if i.keep then s.tileAt b c else ⟨i.fmtS, i.statT, s.vatSlice b i.stat (16384 * (arrFmt i.fmtS).bytes)⟩

theorem State.streamTile_congr {s t : State} {b : Nat} (hmem : t.mem = s.mem) (hblk : t.blk b = s.blk b) (c : Nat) (i : ArrOp) :
    t.streamTile b c i = s.streamTile b c i := by
  unfold State.streamTile State.tileAt
  rw [hblk, State.vatSlice_congr hmem]

/-- `v` is ready to write the streamed rows of an ARR_STREAM of `l`: the program's count and the pan are those of `s`, and memory is but for the
tap's panel. -/
structure ReadyToWrite (s v : State) (l : Launch) (i : ArrOp) : Prop where
  counting : Counting l v
  pan : v.pan = s.pan
  mem : MemSame (s.tapPanel l.block l.ctx i) v

/-- An ARR_STREAM that meets no fault writes all its rows. -/
theorem State.arrAct_writes {s : State} {l : Launch} {w : Nat} (h : Counting l s) (hdrains : (s.blk l.block).drains = [])
    (hgood : s.firstBad l.block (arrOp w) 0 (arrOp w).m = none)
    (hpass : s.verifies l.block = true →
      (s.tapPanel l.block l.ctx (arrOp w)).checksFail l.block (arrOp w) (s.streamTile l.block l.ctx (arrOp w)) .none 0 = none) :
    ∃ v, State.arrAct .none s l w =
      (v.arrRows l.block (arrOp w) (s.streamTile l.block l.ctx (arrOp w)) (s.verifies l.block) 0 (arrOp w).m).advance l ∧
      ReadyToWrite s v l (arrOp w) := by
  obtain ⟨hview, htaps, hverifies⟩ := s.loadTile_keeps l (arrOp w)
  have htile : (s.loadTile l (arrOp w)).tileAt l.block l.ctx = s.streamTile l.block l.ctx (arrOp w) := s.tileAt_loadTile l (arrOp w)
  unfold State.arrView at hview
  simp only [Prod.mk.injEq] at hview
  obtain ⟨hmem, hpan, hlaunches, hwaiting⟩ := hview
  obtain ⟨hcount, harmed, hpanel⟩ := State.armed_keeps (h.congr hlaunches) (arrOp w) (hwaiting.trans hdrains)
  have hready : ((s.loadTile l (arrOp w)).armed l (arrOp w)).pan = s.pan := harmed.trans hpan
  have hbytes : MemSame (s.tapPanel l.block l.ctx (arrOp w)) ((s.loadTile l (arrOp w)).armed l (arrOp w)) :=
    fun a => (hpanel a).trans (State.tapPanel_congr (State.byte_congr hmem) htaps (arrOp w) a)
  refine ⟨_, ?_, hcount, hready, hbytes⟩
  rw [State.arrAct_eq, htile, hverifies]
  exact State.stream_done (fun hv => by rw [State.checksFail_congr hbytes]; exact hpass hv) (by rw [State.firstBad_congr hready]; exact hgood) _ _

section
variable {s : State} {b : Fin 64} {c : Fin 4} {l : Launch} {w : Nat}

/-- The command, from the state before it. -/
theorem exec_arrStream (hnext : s.nextInstr b.val c.val = some (l, w)) (hop : iBits w 0 8 = opArrStream) (hlegal : arrLegal s l w = true)
    (hfind : s.launches.find? (fun x => x.entry == l.entry) = some l) (hdrains : (s.blk b.val).drains = [])
    (hgood : s.firstBad b.val (arrOp w) 0 (arrOp w).m = none)
    (hpass : s.verifies b.val = true →
      (s.runTap b.val c.val (arrOp w)).checksFail b.val (arrOp w) (s.streamTile b.val c.val (arrOp w)) .none 0 = none) :
    ∃ v, exec (.arrStream b c .none) s =
      .next ((v.arrRows b.val (arrOp w) (s.streamTile b.val c.val (arrOp w)) (s.verifies b.val) 0 (arrOp w).m).advance l) ∧
      ReadyToWrite s v l (arrOp w) := by
  have hrun : exec (.arrStream b c .none) s = .next (State.arrAct .none (s.stepStart l) l w) :=
    congrArg Host.Outcome.next (State.issue_legal arrLegal _ hnext (isFab_of_opcode hop (by decide)) hop hlegal)
  obtain ⟨-, hb, hc⟩ := State.nextInstr_spec hnext
  rw [← hb] at hdrains hgood hpass ⊢
  rw [← hc] at hpass ⊢
  obtain ⟨hmem, hpan, hblk, hverifies⟩ := s.stepStart_keeps l l.block
  have hpanel : MemSame (s.tapPanel l.block l.ctx (arrOp w)) ((s.stepStart l).tapPanel l.block l.ctx (arrOp w)) :=
    State.tapPanel_congr (State.byte_congr hmem) (by rw [hblk]) (arrOp w)
  have htile := State.streamTile_congr hmem hblk l.ctx (arrOp w)
  obtain ⟨v, hv, hready⟩ := State.arrAct_writes (s := s.stepStart l) (w := w) (Counting.stepStart ⟨l, hfind, rfl, rfl⟩) (by rw [hblk]; exact hdrains)
    (by rw [State.firstBad_congr hpan]; exact hgood) (fun h => by
      rw [htile, State.checksFail_congr hpanel, ← State.checksFail_congr (s.runTap_keeps l.block l.ctx (arrOp w)).2]
      exact hpass (hverifies.symm.trans h))
  rw [htile, hverifies] at hv
  exact ⟨v, hrun.trans (congrArg _ hv), hready.counting, hready.pan.trans hpan, fun a => (hready.mem a).trans (hpanel a)⟩

end

section
variable {s v : State} {l : Launch} {i : ArrOp} (h : ReadyToWrite s v l i) (hn : i.n ≤ 128) (tile : KeptTile) (verified : Bool)
include h hn

theorem ReadyToWrite.issuedOne : IssuedOne l ((v.arrRows l.block i tile verified 0 i.m).advance l) :=
  (h.counting.congr (Prod.mk.inj (RowsWritten.arrRows v l.block i hn tile verified).prog).2).issuedOne_advance

/-- With no tap armed, an ARR_STREAM leaves memory as it is, and each output stands in its place in the pan. -/
theorem ReadyToWrite.writes (htap : SMap.find (s.blk l.block).taps l.ctx = none) :
    MemSame s ((v.arrRows l.block i tile verified 0 i.m).advance l) ∧ ∀ m < i.m, ∀ n < i.n,
      ((v.arrRows l.block i tile verified 0 i.m).advance l).outBits l.block i m n =
        i.summed (s.outBits l.block i m n) (s.rowOut l.block i tile m n) := by
  have hrows := RowsWritten.arrRows v l.block i hn tile verified
  have hmem : MemSame s v := by
    have hpanel := h.mem
    rwa [State.tapPanel_of_none htap] at hpanel
  obtain ⟨hrowsMem, hadvancedPan⟩ := Prod.mk.inj ((v.arrRows l.block i tile verified 0 i.m).stores_advance l)
  refine ⟨fun a => ?_, fun m hm n hlt => ?_⟩
  · rw [State.byte_congr (hrowsMem.trans (Prod.mk.inj hrows.prog).1), hmem]
  · rw [State.outBits_congr hadvancedPan, hrows.pan m n (by omega), if_pos ⟨hm, hlt⟩, State.rowOut_congr hmem, State.outBits_congr h.pan]

end

/-- Settles O13: the rows are written one by one, each output in a place of its own. -/
theorem arrayStreams : Obligations.ArrayStreams := by
  intro s b c l w tile hnext hop hlegal hfind hdrains hgood hkept hloaded hpass
  have htile : tile = s.streamTile b.val c.val (arrOp w) := by
    unfold State.streamTile
    split
    · next hkeep => exact hkept hkeep
    · next hkeep => exact hloaded (Bool.eq_false_of_not_eq_true hkeep)
  obtain ⟨v, hrun, hready⟩ := exec_arrStream hnext hop hlegal hfind hdrains hgood (by rwa [← htile])
  obtain ⟨-, hb, hc⟩ := State.nextInstr_spec hnext
  rw [← htile] at hrun
  rw [← hb] at hrun ⊢
  refine ⟨_, hrun, hready.issuedOne (arrOp_n_le w) tile _, fun htap => ?_⟩
  obtain ⟨hmem, hout⟩ := hready.writes (arrOp_n_le w) tile (s.verifies l.block) (by rwa [hc])
  refine ⟨hmem, fun f hf m hm n hn row h o hrow hh ho => ?_⟩
  have hplace := hout m hm n hn
  have hsum : s.rowOut l.block (arrOp w) tile m n = o := by
    rw [ho, hf, ← prods_strRow]
    rfl
  rw [hsum] at hplace
  unfold State.outBits ArrOp.summed ArrOp.row at hplace
  rw [hrow, hh, hf]
  cases hacc : (arrOp w).acc <;> simpa [hacc] using hplace

end Sys2Proof.Machine
end

section
/-! SUPPORT. Family 03_tensor_array.md: a row test whose program step counted in a tie group that does not exist (O14). -/

namespace Sys2Proof.Machine

/-! ### The row test (R120, R121) -/

/-- Block 1 has a row test due. The program that it belongs to stands in the list for block 0, and its step is said to have counted in tie group
16,195, beyond the 15 there are. -/
def State.tiedBeyond : State := { State.reset with
  blocks := [(1, { BlockUnit.zero with rowTest := some ⟨0, 0, 0, 0, 0⟩ })]
  launches := [⟨0, 0, 0, 0, 1, 0, 0, 0, 0, 0, [], [16195], false, false, none⟩] }

/-- Refutes O14: `tied` holds naturals, and the re-run of a step writes the count of each group that it lists at BLK_TIE_CFG + 4 × group. For group
16,195 of block 0 that is BLK_ABFT_STATUS of block 1, so a row test of block 1 that names row 5 leaves last_row at 0. -/
theorem not_arrayChecksAndSteps : ¬ Obligations.ArrayChecksAndSteps := by
  rintro ⟨hblock, -⟩
  obtain ⟨-, -, -, hrowTest, -, -⟩ := hblock State.tiedBeyond 1
  obtain ⟨t, ht, -, -, -, hrow⟩ := hrowTest ⟨0, 0, 0, 0, 0⟩ 5 (by decide +kernel) (by decide +kernel) (by decide +kernel) (by decide +kernel)
  have hzero : (match exec (.rowTest 1 (some 5)) State.tiedBeyond with
      | .next u => u.fld (BLK_ABFT_STATUS_last_row 1)
      | _ => 1) = 0 := by decide +kernel
  rw [ht] at hzero
  exact absurd (hrow.symm.trans hzero) (by decide)

end Sys2Proof.Machine
end

section
/-! SUPPORT. Family 06_element_fabric.md: loops whose turns write places of their own, and what the progress of block programs leaves (O18, O19). -/

namespace Sys2Proof.Machine

/-! ### Loops whose turns write places of their own -/

/-- A loop over a state of which `get` reads places: turn `i` writes the places of `dom i`, which no other turn has, and leaves the rest. Each of them
ends with the value that its turn writes, where that turn may count on the loop's invariant and on the places that no earlier turn has. -/
theorem forUpTo_places {σ κ β : Type} (get : σ → κ → β) (dom : Nat → κ → Prop) (val : Nat → κ → β) (inv : σ → Prop) (n : Nat)
    (f : Nat → σ → σ) (x : σ) (hdisj : ∀ i j k, dom i k → dom j k → i = j) (hx : inv x) (hinv : ∀ i y, inv y → inv (f i y))
    (hin : ∀ i < n, ∀ y, inv y → (∀ k, (∀ j < i, ¬dom j k) → get y k = get x k) → ∀ k, dom i k → get (f i y) k = val i k)
    (hout : ∀ i < n, ∀ y k, ¬dom i k → get (f i y) k = get y k) :
    inv (forUpTo n f x) ∧ (∀ i < n, ∀ k, dom i k → get (forUpTo n f x) k = val i k) ∧
      ∀ k, (∀ i < n, ¬dom i k) → get (forUpTo n f x) k = get x k := by
  refine forUpTo_induct (fun m y => inv y ∧ (∀ i < m, ∀ k, dom i k → get y k = val i k) ∧ ∀ k, (∀ i < m, ¬dom i k) → get y k = get x k)
    n f x ⟨hx, fun i hi => absurd hi (Nat.not_lt_zero i), fun _ _ => rfl⟩ ?_
  rintro m hm y ⟨hy, hdone, hrest⟩
  refine ⟨hinv m y hy, fun i hi k hk => ?_, fun k hk => ?_⟩
  · rcases Nat.lt_succ_iff_lt_or_eq.mp hi with hlt | rfl
    · rw [hout m hm y k fun hmk => hlt.ne (hdisj i m k hk hmk)]
      exact hdone i hlt k hk
    · exact hin i hm y hy hrest k hk
  · rw [hout m hm y k (hk m (Nat.lt_succ_self m))]
    exact hrest k fun i hi => hk i (Nat.lt_succ_of_lt hi)

/-! ### Byte strings of pieces of one length -/

theorem length_leBytes (n x : Nat) : (leBytes n x).length = n := by
  induction n generalizing x with
  | zero => rfl
  | succ n ih => exact congrArg (· + 1) (ih (x / 256))

theorem length_flatMap_range {α : Type} {e : Nat} (n : Nat) {f : Nat → List α} (h : ∀ i < n, (f i).length = e) :
    ((List.range n).flatMap f).length = n * e := by
  have hmap : (List.range n).map (fun i => (f i).length) = List.replicate n e :=
    List.eq_replicate_iff.mpr ⟨by simp, by simpa using h⟩
  rw [List.length_flatMap, hmap, List.sum_replicate, smul_eq_mul]

/-- Item `m` of piece `k`. -/
theorem getD_flatMap_range {α : Type} {e n k m : Nat} {f : Nat → List α} (h : ∀ i < n, (f i).length = e) (hk : k < n) (hm : m < e) (d : α) :
    ((List.range n).flatMap f).getD (k * e + m) d = (f k).getD m d := by
  have hlen := length_flatMap_range k fun i hi => h i (hi.trans hk)
  obtain ⟨r, rfl⟩ : ∃ r, n = k + (r + 1) := ⟨n - k - 1, by omega⟩
  rw [List.range_add, List.flatMap_append, List.getD_append_right _ _ _ _ (by omega), hlen, Nat.add_sub_cancel_left, List.range_succ_eq_map]
  simp only [List.map_cons, List.flatMap_cons, Nat.add_zero]
  exact List.getD_append _ _ _ _ (by rw [h k hk]; exact hm)

/-- A read of what was written in pieces gives the piece. -/
theorem State.bytes_eq_piece {s : State} {a e n k : Nat} {f : Nat → List Byte} (h : ∀ i < n, (f i).length = e) (hk : k < n)
    (hwritten : ∀ x, a ≤ x → x < a + n * e → s.byte x = ((List.range n).flatMap f).getD (x - a) 0#8) : s.bytes (a + k * e) e = f k := by
  refine List.ext_getElem (by simp [State.bytes, h k hk]) fun m hm hm' => ?_
  have hme : m < e := by simpa [State.bytes] using hm
  have hend : k * e + e ≤ n * e := by
    rw [← Nat.succ_mul]
    exact Nat.mul_le_mul_right e hk
  have hitem := getD_flatMap_range h hk hme 0#8
  rw [List.getD_eq_getElem _ _ hm'] at hitem
  rw [← hitem]
  simp only [State.bytes, List.getElem_map, List.getElem_range]
  rw [hwritten _ (by omega) (by omega)]
  congr 1
  omega

theorem State.bytes_setBytes_pieces (s : State) (a : Nat) {e n k : Nat} {f : Nat → List Byte} (h : ∀ i < n, (f i).length = e) (hk : k < n) :
    (s.setBytes a ((List.range n).flatMap f)).bytes (a + k * e) e = f k :=
  State.bytes_eq_piece h hk fun x hlo hhi => by rw [State.byte_setBytes, length_flatMap_range n h, if_pos ⟨hlo, hhi⟩]

theorem State.byte_setBytes_outside (s : State) {a x : Nat} {bs : List Byte} (h : x < a ∨ a + bs.length ≤ x) : (s.setBytes a bs).byte x = s.byte x := by
  rw [State.byte_setBytes, if_neg (by omega)]

theorem State.bytes_congr {s t : State} {a n : Nat} (h : ∀ i < n, t.byte (a + i) = s.byte (a + i)) : t.bytes a n = s.bytes a n :=
  List.map_congr_left fun i hi => h i (List.mem_range.mp hi)

/-! ### Block units -/

theorem State.blk_setBlk (s : State) (b b' : Nat) (u : BlockUnit) : (s.setBlk b u).blk b' = if b' = b then u else s.blk b' :=
  SMap.get_set blockDefault s.blocks b b' u

theorem State.blk_congr {s t : State} (h : t.blocks = s.blocks) (b : Nat) : t.blk b = s.blk b := by
  unfold State.blk
  rw [h]

/-- A part of a unit that an update of one block leaves is as it was in every block. -/
theorem State.part_setBlk {α : Type} (part : BlockUnit → α) (s : State) {b : Nat} {u : BlockUnit} (h : part u = part (s.blk b)) (b' : Nat) :
    part ((s.setBlk b u).blk b') = part (s.blk b') := by
  rw [State.blk_setBlk]
  split
  · next e => rw [h, e]
  · rfl

@[simp] theorem State.complete_blk (s : State) (e : Nat) (st : List Status) (err : ErrCode) (c1 c2 b : Nat) :
    (s.complete e st err c1 c2).blk b = s.blk b :=
  State.blk_congr (s.complete_blocks e st err c1 c2) b

/-- What the end of a LAUNCH leaves of each block's unit. -/
theorem State.blk_endLaunch (s : State) (l : Launch) (st : List Status) (err : ErrCode) (b : Nat) : (s.endLaunch l st err).blk b =
    if b = l.block then { s.blk b with
      drains := (s.blk b).drains.filter (fun d => d.entry != l.entry)
      fabQ := (s.blk b).fabQ.filter (fun j => j.entry != l.entry)
      taps := SMap.erase (s.blk b).taps l.ctx
      lastBg := if l.ctx = 0 then (s.blk b).lastBg else l.ctx } else s.blk b := by
  unfold State.endLaunch
  rw [State.complete_blk, State.blk_setBlk]
  split
  · next h => rw [h]; rfl
  · rfl

/-! ### What writes to memory and counts leave -/

/-- Programs, blocks, pans, stat pans and the configuration. -/
def State.workView (s : State) : List Launch × SMap BlockUnit × SMap PanWord × SMap Nat × DevCfg :=
  (s.launches, s.blocks, s.pan, s.stat, s.cfg)

@[simp] theorem State.workView_setBytes (s : State) (a : Nat) (bs : List Byte) : (s.setBytes a bs).workView = s.workView := by
  induction bs generalizing s a with
  | nil => rfl
  | cons x bs ih => exact ih (s.setByte a x) (a + 1)

@[simp] theorem State.workView_count (s : State) (k n : Nat) : (s.count k n).workView = s.workView := by
  obtain ⟨r, e, c, h⟩ := s.count_eq k n
  rw [h]
  rfl

@[simp] theorem State.workView_countBytes (s : State) (k n : Nat) : (s.countBytes k n).workView = s.workView := State.workView_count ..

@[simp] theorem State.setBytes_lanes (s : State) (a : Nat) (bs : List Byte) : (s.setBytes a bs).lanes = s.lanes := by
  induction bs generalizing s a with
  | nil => rfl
  | cons x bs ih => exact ih (s.setByte a x) (a + 1)

@[simp] theorem State.count_lanes (s : State) (k n : Nat) : (s.count k n).lanes = s.lanes := by
  obtain ⟨r, e, c, h⟩ := s.count_eq k n
  rw [h]

section
variable {s t : State} (h : t.workView = s.workView)
include h

theorem State.launches_of_workView : t.launches = s.launches := congrArg (·.1) h
theorem State.blocks_of_workView : t.blocks = s.blocks := congrArg (·.2.1) h
theorem State.blk_of_workView (b : Nat) : t.blk b = s.blk b := State.blk_congr (State.blocks_of_workView h) b
theorem State.pan_of_workView : t.pan = s.pan := congrArg (·.2.2.1) h
theorem State.stat_of_workView : t.stat = s.stat := congrArg (·.2.2.2.1) h
theorem State.cfg_of_workView : t.cfg = s.cfg := congrArg (·.2.2.2.2) h

end

/-! ### What the progress of block programs leaves -/

/-- A register that no end of a descriptor writes: it is not the count of an update engine (R352). -/
abbrev OffUpdates (a : Nat) : Prop := a % 0x10000 ≠ 0xF04

/-- Block programs have gone on, and some have ended: stores, lanes, stat pans and planes, the counts of block errors and the registers are as
before. -/
structure Progressed (s t : State) : Prop where
  stores : t.stores = s.stores
  lanes : t.lanes = s.lanes
  stat : t.stat = s.stat
  blkErr : t.blkErr = s.blkErr
  planes : ∀ b, (t.blk b).planes = (s.blk b).planes
  regs : ∀ a, OffUpdates a → t.reg a = s.reg a

theorem Progressed.refl (s : State) : Progressed s s := ⟨rfl, rfl, rfl, rfl, fun _ => rfl, fun _ _ => rfl⟩

theorem Progressed.trans {s t u : State} (h : Progressed s t) (k : Progressed t u) : Progressed s u :=
  ⟨k.stores.trans h.stores, k.lanes.trans h.lanes, k.stat.trans h.stat, k.blkErr.trans h.blkErr, fun b => (k.planes b).trans (h.planes b),
    fun a ha => (k.regs a ha).trans (h.regs a ha)⟩

theorem Progressed.memSame {s t : State} (h : Progressed s t) : MemSame s t := State.memSame_of_stores h.stores

theorem Progressed.pan {s t : State} (h : Progressed s t) : t.pan = s.pan := (Prod.mk.inj h.stores).2

theorem Progressed.image {s t : State} (h : Progressed s t) (b p : Nat) : t.image b p = s.image b p := by
  unfold State.image
  rw [h.planes]

theorem Progressed.fld {s t : State} (h : Progressed s t) {f : Fld} (hf : OffUpdates f.addr) : t.fld f = s.fld f := by
  unfold State.fld
  rw [h.regs _ hf]

theorem offUpdates_blk (b o : Nat) (h : o < 0x10000 ∧ o ≠ 0xF04 := by decide) : OffUpdates (blkBase b + o) := by
  unfold OffUpdates blkBase
  omega

theorem offUpdates_mapFld (b : Nat) : OffUpdates (mapFld b).addr := by
  show (0x1000000 + b / 16 * 0x400000 + 0x10 + b % 16 / 4 * 4) % 0x10000 ≠ 0xF04
  omega

/-- Blocks stay where they are. -/
theorem Progressed.phys {s t : State} (h : Progressed s t) (b : Nat) : t.phys b = s.phys b := by
  unfold State.phys
  rw [h.fld (offUpdates_mapFld b)]

theorem Progressed.setBlk (s : State) {b : Nat} {u : BlockUnit} (h : u.planes = (s.blk b).planes) : Progressed s (s.setBlk b u) :=
  ⟨rfl, rfl, rfl, rfl, State.part_setBlk BlockUnit.planes s h, fun _ _ => rfl⟩

theorem Progressed.setLaunch (s : State) (l : Launch) : Progressed s (s.setLaunch l) := ⟨rfl, rfl, rfl, rfl, fun _ => rfl, fun _ _ => rfl⟩

theorem State.reg_complete (s : State) (e : Nat) (st : List Status) (err : ErrCode) (c1 c2 : Nat) {a : Nat} (ha : OffUpdates a) :
    (s.complete e st err c1 c2).reg a = s.reg a := by
  have hne (u : Nat) : a ≠ UPD_ENGINE_COUNT u := fun h => ha (by rw [h, UPD_ENGINE_COUNT, blkBase]; omega)
  refine (State.reg_congr rfl a).trans (?_ : (s.countUpdate e).reg a = s.reg a)
  by_cases hk : dKind (s.desc e) = kindUpdate
  · have hregs : (s.countUpdate e).regs = (s.bump (UPD_ENGINE_COUNT_updates (leAt (s.desc e) 37 1 % 64))).regs := by simp [State.countUpdate, hk]
    rw [State.reg_congr hregs, State.reg_bump_other _ _ _ (hne _)]
  · exact State.reg_congr (by simp [State.countUpdate, hk]) a

theorem Progressed.endLaunch (s : State) (l : Launch) (st : List Status) (err : ErrCode) : Progressed s (s.endLaunch l st err) := by
  refine ⟨s.stores_endLaunch l st err, ?_, ?_, ?_, fun b => ?_, fun a ha => ?_⟩
  · unfold State.endLaunch
    rw [State.complete_lanes]
    rfl
  · unfold State.endLaunch
    rw [State.complete_stat]
    rfl
  · unfold State.endLaunch
    rw [State.complete_blkErr]
    rfl
  · rw [State.blk_endLaunch]
    split <;> rfl
  · exact State.reg_complete _ _ _ _ _ _ ha

theorem Progressed.finishLaunch (s : State) (e : Nat) : Progressed s (s.finishLaunch e) := by
  unfold State.finishLaunch
  split
  · exact .refl s
  · split
    · exact .endLaunch s _ _ _
    · exact .refl s

theorem Progressed.advance (s : State) (l : Launch) : Progressed s (s.advance l) := by
  unfold State.advance
  split
  · exact .refl s
  · exact ((Progressed.setLaunch s _).trans (.setBlk _ (by rfl))).trans (.finishLaunch _ _)

theorem Progressed.stepStart (s : State) (l : Launch) : Progressed s (s.stepStart l) := by
  unfold State.stepStart
  split
  · exact .setLaunch s _
  · exact .refl s

theorem Progressed.feed (s : State) (b fuel : Nat) : Progressed s (s.feed b fuel) := by
  induction fuel generalizing s with
  | zero => exact .refl s
  | succ fuel ih =>
    unfold State.feed
    split
    · exact .refl s
    · split
      · refine Progressed.trans (Progressed.trans (Progressed.trans (.stepStart s _) (.setBlk _ ?_)) (.advance _ _)) (ih _)
        rfl
      · exact .refl s

theorem Progressed.fed (s : State) (b : Nat) : Progressed s (s.fed b) := .feed s b 6

/-! ### The fabric queue (R215) -/

/-- A program ends only with none of its fabric instructions in the queue. -/
@[simp] theorem State.fabQ_finishLaunch (s : State) (e b : Nat) : ((s.finishLaunch e).blk b).fabQ = (s.blk b).fabQ := by
  unfold State.finishLaunch
  split
  · rfl
  · next l _ =>
    split
    · next hdone =>
      obtain ⟨-, -, -, hjobs⟩ := hdone
      rw [State.blk_endLaunch]
      split
      · next hb =>
        subst hb
        refine List.filter_eq_self.mpr fun j hj => ?_
        simpa using List.filter_eq_nil_iff.mp hjobs j hj
      · rfl
    · rfl

@[simp] theorem State.fabQ_advance (s : State) (l : Launch) (b : Nat) : ((s.advance l).blk b).fabQ = (s.blk b).fabQ := by
  unfold State.advance
  split
  · rfl
  · rw [State.fabQ_finishLaunch]
    refine (State.part_setBlk BlockUnit.fabQ _ ?_ b).trans rfl
    rfl

/-- The sequencer feeds the queue at its end. -/
theorem State.fabQ_begins_feed (s : State) (b fuel : Nat) : (s.blk b).fabQ <+: ((s.feed b fuel).blk b).fabQ := by
  induction fuel generalizing s with
  | zero => exact ⟨[], List.append_nil _⟩
  | succ fuel ih =>
    unfold State.feed
    split
    · exact ⟨[], List.append_nil _⟩
    · next l w _ =>
      split
      · refine List.IsPrefix.trans ?_ (ih _)
        rw [State.fabQ_advance, State.blk_setBlk_same, (s.stepStart_keeps l b).2.2.1]
        exact ⟨_, rfl⟩
      · exact ⟨[], List.append_nil _⟩

/-- A fabric instruction goes to the queue as it issues. -/
theorem State.fabQ_begins_fed {s : State} {b c : Nat} {l : Launch} {w : Nat} (h : s.nextInstr b c = some (l, w)) (hfab : isFab w = true) :
    (s.blk b).fabQ ++ [⟨l.ctx, l.entry, w⟩] <+: ((s.fed b).blk b).fabQ := by
  obtain ⟨hcur, -, -⟩ := State.nextInstr_spec h
  obtain ⟨-, -, hblk, -⟩ := s.stepStart_keeps l b
  unfold State.fed State.feed
  rw [hcur, h]
  simp only [hfab, if_true]
  refine List.IsPrefix.trans ?_ (State.fabQ_begins_feed _ b 5)
  rw [State.fabQ_advance, State.blk_setBlk_same, hblk]

end Sys2Proof.Machine
end

section
/-! SUPPORT. Family 06_element_fabric.md: what a block error leaves of the flags of fabric and Gram unit and of the planes (O18, O19). -/

namespace Sys2Proof.Machine

/-! ### The flags of a block's fabric and Gram unit -/

/-- BLK_FAB_STATUS or GRM_STATUS of a block. -/
abbrev UnitReg (a : Nat) : Prop := 0x1000000 ≤ a ∧ (a % 0x10000 = 0xA00 ∨ a % 0x10000 = 0xC00)

/-- A flag or field in the lower half of such a register. -/
abbrev UnitFlag (f : Fld) : Prop := UnitReg f.addr ∧ f.lo + f.width ≤ 16

/-- A field that holds no such flag. Counts of tie groups and of event counters may lie in such a register, for an index that no group or counter has,
but always in its upper half. -/
abbrev OffUnits (f : Fld) : Prop := ¬UnitReg f.addr ∨ 16 ≤ f.lo ∧ f.lo + f.width ≤ 32

theorem unitReg_fabStatus (b : Nat) : UnitReg (BLK_FAB_STATUS b) := by
  unfold UnitReg BLK_FAB_STATUS blkBase
  omega

theorem unitReg_grmStatus (b : Nat) : UnitReg (GRM_STATUS b) := by
  unfold UnitReg GRM_STATUS blkBase
  omega

theorem not_unitReg_blk (b o : Nat) (h : o < 0x10000 ∧ o ≠ 0xA00 ∧ o ≠ 0xC00 := by decide) : ¬UnitReg (blkBase b + o) := by
  unfold UnitReg blkBase
  omega

theorem not_unitReg_rgnStatus (n : Nat) : ¬UnitReg (RGN_STATUS n) := by
  unfold UnitReg RGN_STATUS rgnBase
  omega

/-- The registers of an HBM controller. -/
theorem not_unitReg_hbm (n c : Nat) (hc : c < 6) : ¬UnitReg (RGN_HBM_STATUS n c) := by
  show ¬UnitReg (0x1000000 + n * 0x400000 + 0x5000 + c * 0x40 + 0)
  unfold UnitReg
  omega

theorem not_unitReg_pba {v : Nat} (h : v < 2 ^ 11) : ¬UnitReg (pbaFld v).addr := by
  show ¬UnitReg (0x3C0000 + v / 32 * 4)
  unfold UnitReg
  omega

theorem not_unitReg_mapFld (b : Nat) : ¬UnitReg (mapFld b).addr := by
  show ¬UnitReg (0x1000000 + b / 16 * 0x400000 + 0x10 + b % 16 / 4 * 4)
  unfold UnitReg
  omega

theorem offUnits_cntOverflow (k : Nat) : OffUnits (CNT_VALUE_HI_overflow k) := .inr (by decide : 16 ≤ 16 ∧ 16 + 1 ≤ 32)

theorem offUnits_tieIssued (b t : Nat) : OffUnits (BLK_TIE_CFG_issued b t) := .inr (by decide : 16 ≤ 16 ∧ 16 + 12 ≤ 32)

/-- A record of severity 1 or more is kept for the mailbox, one of severity 3 or more in the history too (R547, R633). -/
def State.logErr (s : State) (severity : Nat) (bs : List Byte) : State :=
  let s1 := if 1 ≤ severity then { s with errNew := (s.errNew ++ [bs]).drop (s.errNew.length - 62) } else s
  if 3 ≤ severity then { s1 with errHist := (s1.errHist ++ [bs]).drop (s1.errHist.length - 63) } else s1

theorem State.logErr_keeps (s : State) (severity : Nat) (bs : List Byte) :
    (s.logErr severity bs).regs = s.regs ∧ (s.logErr severity bs).blocks = s.blocks := by
  unfold State.logErr
  dsimp only
  split <;> split <;> exact ⟨rfl, rfl⟩

theorem State.writeErr_eq (s : State) (severity : Nat) (bs : List Byte) : s.writeErr severity bs =
    if (s.logErr severity bs).errRoom && (s.logErr severity bs).errBuf.isEmpty then (s.logErr severity bs).errToRing bs
    else if severity = 0 then ((s.logErr severity bs).setFlag HUB_ERR_STATUS_dropped).bump HUB_ERR_STATUS_dropped_count
    else if (s.logErr severity bs).errBuf.length < 256 then
      State.showErrBuf { s.logErr severity bs with errBuf := (s.logErr severity bs).errBuf ++ [bs] }
    else ((s.logErr severity bs).setFlag HUB_ERR_STATUS_lost_severe).bump HUB_ERR_STATUS_dropped_count := rfl

/-- The flags of fabrics and Gram units are as before, and no plane that was not there has come. -/
structure Marked (s t : State) : Prop where
  flags : ∀ f, UnitFlag f → t.fld f = s.fld f
  planes : ∀ b p, s.image b p = none → t.image b p = none

theorem Marked.refl (s : State) : Marked s s := ⟨fun _ _ => rfl, fun _ _ h => h⟩

theorem Marked.trans {s t u : State} (h : Marked s t) (k : Marked t u) : Marked s u :=
  ⟨fun f hf => (k.flags f hf).trans (h.flags f hf), fun b p hp => k.planes b p (h.planes b p hp)⟩

section
variable {s t u : State} (h : Marked s t)
include h

/-! ### Registers, counters and memory -/

/-- An update of neither the registers nor the blocks. -/
theorem Marked.congr (hregs : u.regs = t.regs) (hblocks : u.blocks = t.blocks) : Marked s u := by
  refine h.trans ⟨fun f _ => State.fld_congr hregs f, fun b p hp => ?_⟩
  unfold State.image at hp ⊢
  rwa [State.blk_congr hblocks]

/-- An update of one block that loads no plane. -/
theorem Marked.setBlk {b : Nat} {x : BlockUnit} (hx : x.planes = (t.blk b).planes ∨ x.planes = []) : Marked s (t.setBlk b x) := by
  refine h.trans ⟨fun _ _ => rfl, fun b' p hp => ?_⟩
  unfold State.image at hp ⊢
  rw [State.blk_setBlk]
  split
  · next e =>
    rcases hx with hx | hx
    · rw [hx, ← e, hp]
    · rw [hx, SMap.find_nil]
  · exact hp

theorem Marked.setFld (f : Fld) (v : Nat) (hf : OffUnits f := by exact .inl (by decide)) : Marked s (t.setFld f v) := by
  refine h.trans ⟨fun g hg => ?_, fun _ _ hp => hp⟩
  obtain ⟨haddr, hbits⟩ := hg
  rcases hf with hf | ⟨hlo, hhi⟩
  · exact State.fld_setFld_addr _ _ _ _ fun e => hf (e ▸ haddr)
  · exact State.fld_setFld_bits _ _ _ _ hhi (.inr (hbits.trans hlo))

theorem Marked.setReg (a : Nat) (v : Word) (ha : ¬UnitReg a) : Marked s (t.setReg a v) := by
  refine h.trans ⟨fun g hg => ?_, fun _ _ hp => hp⟩
  have hne : g.addr ≠ a := fun e => ha (by rw [← e]; exact hg.1)
  unfold State.fld
  rw [State.reg_setReg_other _ _ hne]

theorem Marked.bump (f : Fld) (n : Nat) (hf : OffUnits f := by exact .inl (by decide)) : Marked s (t.bump f n) := h.setFld f _ hf

theorem Marked.setFlag (f : Fld) (hf : OffUnits f := by exact .inl (by decide)) : Marked s (t.setFlag f) := (h.setFld f 1 hf).congr rfl rfl

theorem Marked.setFlagIf (c : Bool) (f : Fld) (hf : OffUnits f := by exact .inl (by decide)) : Marked s (t.setFlagIf c f) := by
  unfold State.setFlagIf
  split
  · exact h.setFlag f hf
  · exact h

theorem Marked.count (k n : Nat) : Marked s (t.count k n) :=
  Marked.setFlagIf (by exact h.congr rfl rfl) _ _ (offUnits_cntOverflow k)

theorem Marked.setBytes (a : Nat) (bs : List Byte) : Marked s (t.setBytes a bs) := by
  induction bs generalizing t a with
  | nil => exact h
  | cons b bs ih => exact ih (by exact h.congr rfl rfl) (a + 1)

theorem Marked.writeLine (a : Nat) (bs : List Byte) : Marked s (t.writeLine a bs) := by
  have hcounted : Marked s ((t.count (cntCtrl (hbmStack a) 1)).countBytes (cntRegion (hbmStack a / 6) 1) bs.length) :=
    Marked.count (by exact (h.count _ _).congr rfl rfl) _ _
  have hbytes := hcounted.setBytes a bs
  unfold State.writeLine
  dsimp only
  split
  · exact hbytes
  · split
    · exact hbytes.congr rfl rfl
    · exact hbytes.setFlag _ (.inl (not_unitReg_hbm _ _ (Nat.mod_lt _ (by decide))))

theorem Marked.writeHbm (a : Nat) (bs : List Byte) (fuel : Nat) : Marked s (t.writeHbm a bs fuel) := by
  induction fuel generalizing t a bs with
  | zero => exact h
  | succ fuel ih =>
    unfold State.writeHbm
    split
    · exact h
    · exact ih (h.writeLine _ _) _ _

theorem Marked.put (a : Nat) (bs : List Byte) : Marked s (t.put a bs) := by
  unfold State.put
  split
  · exact h.writeHbm a bs _
  · exact h.setBytes a bs

theorem Marked.setHost (a : Nat) (bs : List Byte) : Marked s (t.setHost a bs) := by
  have hput : Marked s (t.putHost a bs) := by
    induction bs generalizing t a with
    | nil => exact h
    | cons b bs ih => exact ih (by exact h.congr rfl rfl) (a + 1)
  unfold State.setHost
  split
  · exact h
  · exact hput

/-! ### Error records (R544 to R547, R550) -/

theorem Marked.msix {v : Nat} (hv : v < 2 ^ 11) : Marked s (t.msix v) := by
  unfold State.msix State.msixMessage
  split
  · exact h.setFld _ _ (.inl (not_unitReg_pba hv))
  · exact ((h.setHost _ _).setFld _ _ (.inl (not_unitReg_pba hv))).count _ _

theorem Marked.errToRing (bs : List Byte) : Marked s (t.errToRing bs) := by
  have hwritten (a : Nat) : Marked s (if t.flag HUB_ERR_CFG_in_device then t.put a bs else t.setHost a bs) := by
    split
    · exact h.put a bs
    · exact h.setHost a bs
  unfold State.errToRing
  dsimp only
  split
  · exact ((hwritten _).setFld HUB_ERR_TAIL_tail _).msix (t.fld_lt HUB_ERR_CFG_vector)
  · exact (hwritten _).setFld HUB_ERR_TAIL_tail _

theorem Marked.writeErr (severity : Nat) (bs : List Byte) : Marked s (t.writeErr severity bs) := by
  obtain ⟨hregs, hblocks⟩ := t.logErr_keeps severity bs
  have hlog := h.congr hregs hblocks
  rw [State.writeErr_eq]
  split
  · exact hlog.errToRing bs
  · split
    · exact (hlog.setFlag HUB_ERR_STATUS_dropped).bump HUB_ERR_STATUS_dropped_count 1
    · split
      · exact Marked.setFld (by exact hlog.congr rfl rfl) HUB_ERR_STATUS_buffered _
      · exact (hlog.setFlag HUB_ERR_STATUS_lost_severe).bump HUB_ERR_STATUS_dropped_count 1

theorem Marked.error (r : ErrRec) : Marked s (t.error r) := by
  unfold State.error
  split
  · exact h.congr rfl rfl
  · exact Marked.writeErr (by exact h.congr rfl rfl) _ _

/-! ### The re-run of program steps and the move to the spare (R20 to R22) -/

theorem Marked.progressed (hu : Progressed t u) : Marked s u := by
  refine h.trans ⟨fun f hf => hu.fld fun hoff => ?_, fun b p hp => (hu.image b p).trans hp⟩
  obtain ⟨⟨-, hmod⟩, -⟩ := hf
  omega

theorem Marked.begun (e ph : Nat) : Marked s (t.begun e ph) := by
  unfold State.begun
  split
  · exact h.congr rfl rfl
  · exact h

theorem Marked.rerunStep (l : Launch) (retried : Bool) : Marked s (t.rerunStep l retried) := by
  unfold State.rerunStep
  split
  · exact h
  · have hstep (x : Launch) {b : Nat} {y : BlockUnit} (hy : y.planes = ((t.setLaunch x).blk b).planes) :
        Marked s ((t.setLaunch x).setBlk b y) := Marked.setBlk (by exact h.congr rfl rfl) (.inl hy)
    refine Marked.count (foldl_keeps (Marked s) _ _ _ (hstep _ ?_) fun _ i hy => hy.setFld _ _ (offUnits_tieIssued _ i)) _ _
    rfl

theorem Marked.rerunBlock (b : Nat) (ctx : Option Nat) : Marked s (t.rerunBlock b ctx) := by
  refine forUpTo_keeps (Marked s) 4 _ t h fun c y hy => ?_
  split
  · exact hy.rerunStep _ _
  · exact hy

theorem Marked.rerunFirst (b : Nat) (ctx : Option Nat) : Marked s (t.rerunFirst b ctx) := by
  unfold State.rerunFirst
  split
  · split
    · exact h.rerunStep _ _
    · exact h
  · exact h.rerunBlock b none

theorem Marked.failBlock (b : Nat) : Marked s (t.failBlock b) :=
  foldl_keeps (Marked s) _ _ t h fun y l hy => hy.progressed (.endLaunch y l _ _)

theorem Marked.showRegion (r : Nat) : Marked s (t.showRegion r) := by
  have hstatus : ¬UnitReg (RGN_STATUS r) := not_unitReg_rgnStatus r
  exact (((h.setFld _ _ (.inl hstatus)).setFld _ _ (.inl hstatus)).setFld _ _ (.inl hstatus)).setFld HUB_MODULE_STATUS_region_degraded _

/-- The stores of blocks, and the jobs, hold neither flags nor planes. -/
theorem Marked.setStores (mem : SMap Byte) (pan : SMap PanWord) (panRows : SMap PanRow) (stat lanes : SMap Nat) (jobs : SMap RootJob) :
    Marked s { t with mem := mem, pan := pan, panRows := panRows, stat := stat, lanes := lanes, rootJobs := jobs } := h.congr rfl rfl

theorem Marked.resetPan (b : Nat) : Marked s (t.resetPan b) := h.setStores _ _ _ _ _ _

theorem Marked.clearVat (b : Nat) : Marked s (t.clearVat b) := h.setStores _ _ _ _ _ _

theorem Marked.markRoots (b : Nat) : Marked s (t.markRoots b) := h.setStores _ _ _ _ _ _

theorem Marked.takeFree (w : Nat) : Marked s (t.takeFree w).2 := h.congr rfl rfl

theorem Marked.clearBlock (b : Nat) : Marked s (t.clearBlock b) := by
  have hplanes (y : State) (hy : Marked s y) : Marked s (forUpTo 2 (fun p t =>
      (t.setFld (BLK_FAB_PLANE_valid b p) 0).setFld (BLK_FAB_PLANE_image_id b p) 0) y) :=
    forUpTo_induct (fun _ => Marked s) 2 _ y hy fun p hp z hz => by
      have hplane : ¬UnitReg (BLK_FAB_PLANE b p) := by
        rw [BLK_FAB_PLANE, Nat.add_assoc]
        exact not_unitReg_blk b _ (by omega)
      exact (hz.setFld _ 0 (.inl hplane)).setFld _ 0 (.inl hplane)
  unfold State.clearBlock
  refine forUpTo_induct (fun _ => Marked s) 16 _ _ (hplanes _ (Marked.setBlk ?_ (.inr rfl))) fun i hi z hz => hz.setFld _ 0 (.inl ?_)
  · exact (h.resetPan b).setStores _ _ _ _ _ _
  · show ¬UnitReg (blkBase b + 0xC40 + i * 4)
    rw [Nat.add_assoc]
    exact not_unitReg_blk b _ (by omega)

theorem Marked.programRows (b : Nat) : Marked s (t.programRows b) := by
  have hmap (v : Nat → Word) : Marked s (forUpTo 32 (fun k y => y.setReg (BLK_ROW_MAP b k) (v k)) t) :=
    forUpTo_induct (fun _ => Marked s) 32 _ t h fun k hk z hz => by
      refine hz.setReg _ _ ?_
      rw [BLK_ROW_MAP, Nat.add_assoc]
      exact not_unitReg_blk b _ (by omega)
  have hlatency : ¬UnitReg (BLK_LATENCY b) := not_unitReg_blk b 0
  have hrepair : ¬UnitReg (BLK_REPAIR b) := not_unitReg_blk b 4
  exact ((((((hmap _).setFld _ _ (.inl hlatency)).setFld _ _ (.inl hlatency)).setFld _ _ (.inl hlatency)).setFld _ _ (.inl hrepair)).setFld _ _
    (.inl hrepair)).setFld _ _ (.inl hrepair)

/-! ### Accesses that waited for the pan (R152, R153) -/

theorem Marked.dropWindow (b : Nat) : Marked s (t.dropWindow b) := by
  refine foldl_keeps (Marked s) _ _ _ (h.setBlk (.inl rfl)) fun y a hy => ?_
  split
  · exact hy.begun _ 0
  · unfold State.winRefuse
    have hcounted := (hy.bump HUB_ADDR_COUNT_window_refusals 1).setFlagIf (!y.absent b && y.regionFenced (b / 16)) HUB_ADDR_STATUS_window_fenced
    dsimp only
    split
    · exact hcounted.congr rfl rfl
    · exact hcounted

theorem Marked.winMake (b : Nat) (a : WinAccess) : Marked s (t.winMake b a) := by
  have hstatus : ¬UnitReg (PAN_STATUS b) := not_unitReg_blk b 0x400
  unfold State.winMake
  split
  · unfold State.winWrite
    split
    · exact (h.setFlag _ (.inl hstatus)).bump _ _ (.inl (not_unitReg_blk b 0x404))
    · refine Marked.count (forUpTo_keeps (Marked s) _ _ t h fun i y hy => ?_) _ _
      dsimp only
      split
      · exact hy
      · exact hy.congr rfl rfl
  · refine Marked.congr (Marked.count (foldl_keeps (Marked s) _ _ t h fun y r hy => ?_) _ _) rfl rfl
    have hrow : Marked s (y.setPanRow b r { y.panRow b r with parityErr := true }) := hy.congr rfl rfl
    exact ((hrow.setFlag _ (.inl hstatus)).bump _ 1 (.inl hstatus)).count _ _

theorem Marked.serveWindow (b fuel : Nat) : Marked s (t.serveWindow b fuel) := by
  induction fuel generalizing t with
  | zero => exact h
  | succ fuel ih =>
    unfold State.serveWindow
    split
    · exact h
    · refine ih ?_
      unfold State.winGo
      split
      · exact Marked.begun (by exact h.setBlk (.inl rfl)) _ 0
      · exact Marked.winMake (by exact h.setBlk (.inl rfl)) b _

/-- A quarantine (R20, R21). -/
theorem Marked.quarantine (b : Nat) (ctx : Option Nat) (unit cause : Nat) (l : Option Launch) : Marked s (t.quarantine b ctx unit cause l) := by
  have hmap : OffUnits (mapFld b) := .inl (not_unitReg_mapFld b)
  by_cases hspare : t.flag (RGN_STATUS_spare_used (b / 16)) = true
  · have hquar : t.quarantine b ctx unit cause l = _ := if_pos hspare
    rw [hquar]
    exact (((((((h.failBlock b).markRoots b).takeFree 5).setFld (mapFld b) _ hmap).dropWindow b).showRegion _).error _).congr rfl rfl
  · have hquar : t.quarantine b ctx unit cause l = _ := if_neg hspare
    have hcleared := ((h.clearBlock b).clearVat b).markRoots b
    rw [hquar]
    refine Marked.congr (Marked.error (Marked.serveWindow (Marked.rerunBlock (Marked.programRows ?_ b) b ctx) b _) _) rfl rfl
    exact Marked.showRegion (Marked.setFld (hcleared.setBlk (.inr rfl)) (mapFld b) 16 hmap) _

/-- A block error (R22, R25). -/
theorem Marked.blockError (b : Nat) (ctx : Option Nat) (unit cause : Nat) : Marked s (t.blockError b ctx unit cause) := by
  have hcounted : Marked s (t.bump (RGN_STATUS_block_error_count (b / 16))) := h.bump _ 1 (.inl (not_unitReg_rgnStatus (b / 16)))
  unfold State.blockError
  dsimp only
  split
  · exact hcounted.error _
  · split
    · exact Marked.rerunFirst (Marked.error (by exact hcounted.congr rfl rfl) _) b ctx
    · exact Marked.quarantine (by exact hcounted.congr rfl rfl) b ctx unit cause _

end

/-- A flag of a fabric or a Gram unit that is set stays set through a block error. -/
theorem State.fld_blockError {s : State} {f : Fld} (hf : UnitFlag f) (b : Nat) (ctx : Option Nat) (unit cause : Nat) :
    (s.blockError b ctx unit cause).fld f = s.fld f :=
  ((Marked.refl s).blockError b ctx unit cause).flags f hf

end Sys2Proof.Machine
end

section
/-! SUPPORT. Family 06_element_fabric.md: faulty planes and the Gram unit (O19). -/

namespace Sys2Proof.Machine

theorem forUpTo_zero {α : Type} (f : Nat → α → α) (x : α) : forUpTo 0 f x = x := rfl

/-! ### Parity faults (R217, R232) -/

theorem unitFlag_fabParity (b : Nat) : UnitFlag (BLK_FAB_STATUS_parity_error b) := ⟨unitReg_fabStatus b, (by decide : 4 + 1 ≤ 16)⟩

theorem unitFlag_gramParity (b : Nat) : UnitFlag (GRM_STATUS_parity_error b) := ⟨unitReg_grmStatus b, (by decide : 9 + 1 ≤ 16)⟩

theorem State.fld_fabParity (s : State) (b : Nat) : (s.fabParity b).fld (BLK_FAB_STATUS_parity_error b) = 1 := by
  have hcounted := ((Marked.refl (s.setFlag (BLK_FAB_STATUS_parity_error b))).bump (BLK_FAB_COUNT_parity_count b) 1
    (.inl (not_unitReg_blk b 0xA04))).count (cntBlock b 43) 1
  exact (hcounted.flags _ (unitFlag_fabParity b)).trans (s.fld_setFlag_same _ rfl (by decide : 4 + 1 ≤ 32))

theorem State.fld_gramParity (s : State) (b : Nat) : (s.gramParity b).fld (GRM_STATUS_parity_error b) = 1 := by
  have hcounted := ((Marked.refl (s.setFlag (GRM_STATUS_parity_error b))).bump (GRM_EVENT_COUNT_parity_count b) 1
    (.inl (not_unitReg_blk b 0xC08))).count (cntBlock b 43) 1
  exact (hcounted.flags _ (unitFlag_gramParity b)).trans (s.fld_setFlag_same _ rfl (by decide : 9 + 1 ≤ 32))

theorem State.fabParity_blocks (s : State) (b : Nat) : (s.fabParity b).blocks = s.blocks := by
  exact ((State.blocks_of_workView (State.workView_count ..)).trans (State.bump_blocks ..)).trans (s.setFlag_blocks _)

/-- A record of severity 0 waits for its coalescing interval (R546). -/
theorem State.error_minor (s : State) {r : ErrRec} (h : r.severity = 0) : (s.error r).blocks = s.blocks ∧ (s.error r).regs = s.regs := by
  unfold State.error
  rw [if_pos h]
  exact ⟨rfl, rfl⟩

/-! ### Faulty planes (R217) -/

theorem State.image_losePlane (s : State) (b p : Nat) : (s.losePlane b p).image b p = none := by
  have hblk : (s.losePlane b p).blk b = { s.blk b with planes := SMap.erase (s.blk b).planes p } :=
    (State.blk_congr (State.setFld_blocks ..) b).trans (s.blk_setBlk_same b _)
  unfold State.image
  rw [hblk]
  exact SMap.find_erase_same _ p

theorem State.fld_losePlane (s : State) (b p : Nat) {f : Fld} (hf : UnitFlag f) : (s.losePlane b p).fld f = s.fld f := by
  unfold State.losePlane
  rw [State.fld_setFld_bits _ (BLK_FAB_PLANE_valid b p) _ _ (by decide : 16 + 1 ≤ 32) (.inr hf.2)]
  unfold State.fld
  rw [State.reg_setBlk]

section
variable {s : State} {b : Fin 64} (hpresent : s.absent b.val = false) (hopen : s.regionFenced (b.val / 16) = false)
include hpresent hopen

/-- A faulty plane whose shadow is good is restored. -/
theorem exec_planeScan_restores {p : Fin 2} (hloaded : s.image b.val p.val ≠ none) : ∃ t, exec (.planeScan b (some p) true) s = .next t ∧
    t.fld (BLK_FAB_STATUS_plane_restored b.val) = 1 ∧ t.blocks = s.blocks := by
  have hrun : exec (.planeScan b (some p) true) s = .next (((s.fabParity b.val).setFlag (BLK_FAB_STATUS_plane_restored b.val)).error
      (s.blockRec 0 1 3 b.val 0xFFFF (BLK_FAB_STATUS_plane_restored b.val).cause none)) := by
    show execPlaneScan b (some p) true s = _
    simp [execPlaneScan, hpresent, hopen, hloaded]
  obtain ⟨hblocks, hregs⟩ := ((s.fabParity b.val).setFlag (BLK_FAB_STATUS_plane_restored b.val)).error_minor
    (r := s.blockRec 0 1 3 b.val 0xFFFF (BLK_FAB_STATUS_plane_restored b.val).cause none) rfl
  refine ⟨_, hrun, ?_, ?_⟩
  · rw [State.fld_congr hregs]
    exact State.fld_setFlag_same _ _ rfl (by decide : 5 + 1 ≤ 32)
  · rw [hblocks, State.setFlag_blocks, State.fabParity_blocks]

/-- One whose shadow is not is lost. -/
theorem exec_planeScan_loses {p : Fin 2} (hloaded : s.image b.val p.val ≠ none) : ∃ t, exec (.planeScan b (some p) false) s = .next t ∧
    t.fld (BLK_FAB_STATUS_parity_error b.val) = 1 ∧ t.image b.val p.val = none := by
  have hrun : exec (.planeScan b (some p) false) s = .next (((s.fabParity b.val).losePlane b.val p.val).blockError b.val none 3
      (BLK_FAB_STATUS_parity_error b.val).cause) := by
    show execPlaneScan b (some p) false s = _
    simp [execPlaneScan, hpresent, hopen, hloaded]
  have hmarked := (Marked.refl ((s.fabParity b.val).losePlane b.val p.val)).blockError b.val none 3 (BLK_FAB_STATUS_parity_error b.val).cause
  refine ⟨_, hrun, ?_, hmarked.planes _ _ (State.image_losePlane _ _ _)⟩
  rw [hmarked.flags _ (unitFlag_fabParity b.val), State.fld_losePlane _ _ _ (unitFlag_fabParity b.val), State.fld_fabParity]

/-- A row that meets a wrong word of the stat pan raises a block error (R232). -/
theorem exec_gramRowStart_parity (hwaiting : (s.blk b.val).samples ≠ []) : ∃ t, exec (.gramRowStart b true) s = .next t ∧
    t.fld (GRM_STATUS_parity_error b.val) = 1 := by
  have hrun : exec (.gramRowStart b true) s =
      .next ((s.gramParity b.val).blockError b.val none 4 (GRM_STATUS_parity_error b.val).cause) := by
    show execGramRowStart b true s = _
    simp [execGramRowStart, hpresent, hopen, hwaiting]
  exact ⟨_, hrun, (State.fld_blockError (unitFlag_gramParity b.val) ..).trans (s.fld_gramParity b.val)⟩

theorem exec_gramRowStart (hwaiting : (s.blk b.val).samples ≠ []) : exec (.gramRowStart b false) s = .next (s.takeSample b.val) := by
  show execGramRowStart b false s = _
  simp [execGramRowStart, hpresent, hopen, hwaiting]

end

/-! ### The upper triangle of a sampled row (R224, R228) -/

/-- What word (i, j) becomes when the row `x` is added to it. -/
def Sample.added (x : Sample) (word i j : Nat) : Nat :=
  Fmt.fp32.rne ((Fmt.fp32.decode word).add ((Fmt.bf16.decode (x.row.getD i 0)).mul (Fmt.bf16.decode (x.row.getD j 0))))

/-- Row `i` of the triangle. -/
def State.addTriRow (s : State) (b : Nat) (x : Sample) (i : Nat) : State :=
  forUpTo (128 - i) (fun d y => y.setStat b x.slot i (i + d) (x.added (y.statWord b x.slot i (i + d)) i (i + d))) s

theorem State.addSample_eq (s : State) (b : Nat) (x : Sample) : s.addSample b x =
    ((forUpTo 128 (fun i y => y.addTriRow b x i) (if x.clear then s.clearSlot b x.slot else s)).bump (GRM_SLOT_samples b x.slot)).count
      (cntBlock b 26) := rfl

/-- A word of a slot, by its row and its column. -/
def State.statAt (s : State) (b slot : Nat) (k : Nat × Fin 128) : Nat := s.statWord b slot k.1 k.2

theorem State.statWord_congr {s t : State} (h : t.stat = s.stat) : t.statWord = s.statWord := by
  unfold State.statWord
  rw [h]

theorem State.statAt_setStat (s : State) (b slot i v : Nat) {j : Nat} (hj : j < 128) (k : Nat × Fin 128) :
    (s.setStat b slot i j v).statAt b slot k = if k.1 = i ∧ k.2.val = j then v else s.statAt b slot k := by
  have hkey : statKey b slot k.1 k.2 = statKey b slot i j ↔ k.1 = i ∧ k.2.val = j := by
    unfold statKey
    omega
  unfold State.statAt State.statWord State.setStat
  rw [SMap.get_set]
  exact if_congr hkey rfl rfl

/-- Each word of the row takes its product, once. -/
theorem State.statAt_addTriRow (s : State) (b : Nat) (x : Sample) (i : Nat) (k : Nat × Fin 128) : (s.addTriRow b x i).statAt b x.slot k =
    if k.1 = i ∧ i ≤ k.2.val then x.added (s.statAt b x.slot k) k.1 k.2 else s.statAt b x.slot k := by
  obtain ⟨-, hin, hout⟩ := forUpTo_places (fun y k => State.statAt y b x.slot k) (fun d k => k.1 = i ∧ k.2.val = i + d)
    (fun _ k => x.added (s.statAt b x.slot k) k.1 k.2) (fun _ => True) (128 - i)
    (fun d y => y.setStat b x.slot i (i + d) (x.added (y.statWord b x.slot i (i + d)) i (i + d))) s
    (fun d d' k hd hd' => by omega) trivial (fun _ _ _ => trivial)
    (fun d hd y _ hrest k hk => by
      obtain ⟨rfl, hcol⟩ := hk
      have hold : y.statWord b x.slot k.1 (k.1 + d) = s.statAt b x.slot k := by
        rw [← hrest k fun e he hke => by omega, ← hcol]
        rfl
      rw [State.statAt_setStat _ _ _ _ _ (by omega), if_pos ⟨rfl, hcol⟩, hold, hcol])
    (fun d hd y k hk => by
      rw [State.statAt_setStat _ _ _ _ _ (by omega), if_neg hk])
  split
  · next hk => exact hin (k.2.val - i) (by omega) k ⟨hk.1, by omega⟩
  · next hk => exact hout k fun d _ hd => hk ⟨hd.1, by omega⟩

/-- Each word of the triangle takes its product, once. -/
theorem State.statAt_addTriangle (s : State) (b : Nat) (x : Sample) (k : Nat × Fin 128) :
    (forUpTo 128 (fun i y => y.addTriRow b x i) s).statAt b x.slot k =
      if k.1 ≤ k.2.val then x.added (s.statAt b x.slot k) k.1 k.2 else s.statAt b x.slot k := by
  obtain ⟨-, hin, hout⟩ := forUpTo_places (fun y k => State.statAt y b x.slot k) (fun i k => k.1 = i ∧ i ≤ k.2.val)
    (fun _ k => x.added (s.statAt b x.slot k) k.1 k.2) (fun _ => True) 128 (fun i y => y.addTriRow b x i) s
    (fun i i' k hi hi' => hi.1.symm.trans hi'.1) trivial (fun _ _ _ => trivial)
    (fun i _ y _ hrest k hk => by
      rw [State.statAt_addTriRow, if_pos hk, hrest k fun j hj hkj => by omega])
    (fun i _ y k hk => by
      rw [State.statAt_addTriRow, if_neg hk])
  split
  · next hk => exact hin k.1 (by omega) k ⟨rfl, hk⟩
  · next hk => exact hout k fun i _ hi => hk (by omega)

theorem State.addTriangle_keeps (s : State) (b : Nat) (x : Sample) :
    (forUpTo 128 (fun i y => y.addTriRow b x i) s).mem = s.mem ∧ (forUpTo 128 (fun i y => y.addTriRow b x i) s).blocks = s.blocks :=
  forUpTo_keeps (fun y : State => y.mem = s.mem ∧ y.blocks = s.blocks) 128 _ s ⟨rfl, rfl⟩ fun _ _ hy =>
    forUpTo_keeps (fun y : State => y.mem = s.mem ∧ y.blocks = s.blocks) _ _ _ hy fun _ _ hz => hz

/-- A sampled row that does not clear its slot. -/
theorem State.addSample_keeps (s : State) (b : Nat) {x : Sample} (h : x.clear = false) :
    MemSame s (s.addSample b x) ∧ (s.addSample b x).blocks = s.blocks ∧ ∀ k, (s.addSample b x).statAt b x.slot k =
      if k.1 ≤ k.2.val then x.added (s.statAt b x.slot k) k.1 k.2 else s.statAt b x.slot k := by
  obtain ⟨hmem, hblocks⟩ := s.addTriangle_keeps b x
  have htri := s.statAt_addTriangle b x
  rw [State.addSample_eq, h]
  simp only [Bool.false_eq_true, if_false]
  generalize forUpTo 128 (fun i y => y.addTriRow b x i) s = t at hmem hblocks htri
  have hview := (t.bump (GRM_SLOT_samples b x.slot)).workView_count (cntBlock b 26) 1
  have hstat := (State.stat_of_workView hview).trans (t.bump_stat ..)
  refine ⟨State.byte_congr ?_, ?_, fun k => ?_⟩
  · rw [State.count_mem, State.bump_mem, hmem]
  · exact ((State.blocks_of_workView hview).trans (t.bump_blocks ..)).trans hblocks
  · rw [← htri, State.statAt, State.statWord_congr hstat]
    rfl

/-- The oldest row that waits. -/
theorem State.takeSample_of_cons {s : State} {b : Nat} {x : Sample} {xs : List Sample} (h : (s.blk b).samples = x :: xs) :
    s.takeSample b = (s.setBlk b { s.blk b with samples := xs }).addSample b x := by
  unfold State.takeSample
  rw [h]

/-- GRAM_ROW_START adds the oldest row into the upper triangle of its slot. -/
theorem exec_gramRowStart_adds {s : State} {b : Fin 64} {x : Sample} {xs : List Sample} (hpresent : s.absent b.val = false)
    (hopen : s.regionFenced (b.val / 16) = false) (hsamples : (s.blk b.val).samples = x :: xs) (hclear : x.clear = false) :
    ∃ t, exec (.gramRowStart b false) s = .next t ∧ (t.blk b.val).samples = xs ∧ MemSame s t ∧
      (∀ i j, i ≤ j → j < 128 → t.statWord b.val x.slot i j = x.added (s.statWord b.val x.slot i j) i j) ∧
      (∀ i j, j < i → i < 128 → t.statWord b.val x.slot i j = s.statWord b.val x.slot i j) := by
  have hrun := exec_gramRowStart hpresent hopen (b := b) (by rw [hsamples]; exact List.cons_ne_nil x xs)
  rw [State.takeSample_of_cons hsamples] at hrun
  obtain ⟨hmem, hblocks, hstat⟩ := (s.setBlk b.val { s.blk b.val with samples := xs }).addSample_keeps b.val hclear
  refine ⟨_, hrun, ?_, hmem, fun i j hij hj => ?_, fun i j hji hi => ?_⟩
  · rw [State.blk_congr hblocks, State.blk_setBlk_same]
  · exact (hstat (i, ⟨j, hj⟩)).trans (if_pos hij)
  · exact (hstat (i, ⟨j, hji.trans hi⟩)).trans (if_neg (Nat.not_le_of_lt hji))

/-! ### GRM_TAP (R220, R222) -/

/-- A program's step begins, and the program stands where it stood. -/
theorem State.find_stepStart {s : State} {l : Launch} (h : s.launches.find? (fun x => x.entry == l.entry) = some l) :
    ∃ x, (s.stepStart l).launches.find? (fun x => x.entry == l.entry) = some x ∧ x.pc = l.pc ∧ x.len = l.len := by
  unfold State.stepStart
  split
  · exact ⟨_, find_map_setLaunch (y := { l with ties := s.tieCounts l.block, tied := [] }) h rfl, rfl, rfl⟩
  · exact ⟨l, h, rfl, rfl⟩

/-- A program that goes on keeps its taps. -/
theorem State.taps_advance {s : State} {l x : Launch} (hx : s.launches.find? (fun x => x.entry == l.entry) = some x) (hmore : x.pc + 1 < x.len)
    (b : Nat) : ((s.advance l).blk b).taps = (s.blk b).taps := by
  have hentry : x.entry = l.entry := by simpa using List.find?_some hx
  have hfind := find_map_setLaunch (y := { x with pc := x.pc + 1, issued := x.issued + 1 }) hx hentry
  unfold State.advance State.finishLaunch
  rw [hx]
  dsimp only
  rw [State.launches_setBlk, State.setLaunch, hfind]
  dsimp only
  rw [if_neg fun hend => Nat.not_le_of_lt hmore hend.1]
  refine (State.part_setBlk BlockUnit.taps _ ?_ b).trans rfl
  rfl

/-- The tap of the context is armed, and the loss of one that was armed is shown (R222). -/
def State.armTap (s : State) (b c : Nat) (t : Tap) : State :=
  let s1 := s.setBlk b { s.blk b with taps := SMap.insert (s.blk b).taps c t }
  if (SMap.find (s.blk b).taps c).isSome then (s1.setFlag (GRM_STATUS_tap_dropped b)).bump (GRM_EVENT_COUNT_dropped_taps b) else s1

theorem tapAct_eq (s : State) (l : Launch) (w : Nat) : tapAct s l w = (s.armTap l.block l.ctx (tapOp w)).advance l := rfl

theorem State.armTap_shows (s : State) (b c : Nat) (t : Tap) : (s.armTap b c t).mem = s.mem ∧ (s.armTap b c t).launches = s.launches ∧
    SMap.find ((s.armTap b c t).blk b).taps c = some t ∧
    (SMap.find (s.blk b).taps c ≠ none → (s.armTap b c t).fld (GRM_STATUS_tap_dropped b) = 1) := by
  have harmed : ∀ u, u = s.setBlk b { s.blk b with taps := SMap.insert (s.blk b).taps c t } →
      u.mem = s.mem ∧ u.launches = s.launches ∧ SMap.find (u.blk b).taps c = some t := by
    rintro u rfl
    refine ⟨rfl, rfl, ?_⟩
    rw [State.blk_setBlk_same]
    exact SMap.find_insert_same _ c t
  have hne : GRM_STATUS b ≠ GRM_EVENT_COUNT b := by
    unfold GRM_STATUS GRM_EVENT_COUNT
    omega
  unfold State.armTap
  dsimp only
  generalize s.setBlk b { s.blk b with taps := SMap.insert (s.blk b).taps c t } = u at harmed
  obtain ⟨hmem, hlaunches, htap⟩ := harmed u rfl
  split
  · rw [State.bump_mem, State.setFlag_mem, State.bump_launches, State.setFlag_launches,
      State.blk_congr ((State.bump_blocks ..).trans (u.setFlag_blocks _))]
    refine ⟨hmem, hlaunches, htap, fun _ => ?_⟩
    rw [State.fld_bump_other _ (GRM_EVENT_COUNT_dropped_taps b) _ _ (by decide : 0 + 16 ≤ 32) (.inl hne)]
    exact State.fld_setFlag_same _ _ rfl (by decide : 10 + 1 ≤ 32)
  · next hnone => exact ⟨hmem, hlaunches, htap, fun hsome => absurd (Option.isSome_iff_ne_none.mpr hsome) hnone⟩

section
variable {s : State} {b : Fin 64} {c : Fin 4} {l : Launch} {w : Nat} (hnext : s.nextInstr b.val c.val = some (l, w))
  (hfind : s.launches.find? (fun x => x.entry == l.entry) = some l)
include hnext hfind

theorem exec_grmTap_arms (hop : iBits w 0 8 = opGrmTap) (hlegal : tapLegal s l w = true) :
    ∃ t, exec (.grmTap b c) s = .next t ∧ IssuedOne l t ∧ MemSame s t ∧
      (l.pc + 1 < l.len → SMap.find (t.blk b.val).taps l.ctx = some (tapOp w)) ∧
      (SMap.find (s.blk b.val).taps l.ctx ≠ none → t.fld (GRM_STATUS_tap_dropped b.val) = 1) := by
  have hrun : exec (.grmTap b c) s = .next (tapAct (s.stepStart l) l w) :=
    congrArg Host.Outcome.next (State.issue_legal tapLegal _ hnext (isFab_of_opcode hop (by decide)) hop hlegal)
  obtain ⟨-, hb, -⟩ := State.nextInstr_spec hnext
  obtain ⟨hstart, -, hblk, -⟩ := s.stepStart_keeps l b.val
  have hcounting : Counting l (s.stepStart l) := Counting.stepStart ⟨l, hfind, rfl, rfl⟩
  obtain ⟨x, hx, hpc, hlen⟩ := State.find_stepStart hfind
  rw [tapAct_eq, hb] at hrun
  generalize s.stepStart l = u at hrun hstart hblk hcounting hx
  obtain ⟨hmem, hlaunches, harmed, hdropped⟩ := u.armTap_shows b.val l.ctx (tapOp w)
  have hadvance := Progressed.advance (u.armTap b.val l.ctx (tapOp w)) l
  refine ⟨_, hrun, (hcounting.congr hlaunches).issuedOne_advance, fun a => ?_, fun hmore => ?_, fun hhad => ?_⟩
  · rw [hadvance.memSame, State.byte_congr (hmem.trans hstart)]
  · rw [State.taps_advance (by rw [hlaunches]; exact hx) (by omega), harmed]
  · rw [hadvance.fld (f := GRM_STATUS_tap_dropped b.val) (offUpdates_blk b.val 0xC00), hdropped (by rw [hblk]; exact hhad)]

/-! ### GRM_DRAIN (R229, R230) -/


theorem exec_grmDrain_copies (hop : iBits w 0 8 = opGrmDrain) (hlegal : gdrainLegal s l w = true) (hsamples : (s.blk b.val).samples = []) :
    ∃ t, exec (.grmDrain b c false) s = .next t ∧ IssuedOne l t ∧ t.stat = s.stat ∧
      (∀ k < 16384, t.bytes (vatAt b.val + iBits w 32 17 * 64 + 4 * k) 4 = leBytes 4 (s.statWord b.val (iBits w 8 4) (k / 128) (k % 128))) ∧
      (∀ a, a < vatAt b.val + iBits w 32 17 * 64 ∨ vatAt b.val + iBits w 32 17 * 64 + 65536 ≤ a → t.byte a = s.byte a) := by
  have hrun : exec (.grmDrain b c false) s = .next (gdrainAct false (s.stepStart l) l w) :=
    congrArg Host.Outcome.next (State.issue_legal gdrainLegal _ hnext (isFab_of_opcode hop (by decide)) hop hlegal)
  obtain ⟨-, hb, -⟩ := State.nextInstr_spec hnext
  obtain ⟨hstart, -, hblk, -⟩ := s.stepStart_keeps l b.val
  have hstat := (Progressed.stepStart s l).stat
  have hcounting : Counting l (s.stepStart l) := Counting.stepStart ⟨l, hfind, rfl, rfl⟩
  generalize s.stepStart l = u at hrun hstart hblk hcounting hstat
  rw [← hblk] at hsamples
  have hdrain : gdrainAct false u l w = ((u.setBytes (vatAt b.val + iBits w 32 17 * 64) ((List.range 16384).flatMap fun k =>
      leBytes 4 (u.statWord b.val (iBits w 8 4) (k / 128) (k % 128)))).countBytes (cntBlock b.val 38) 65536).advance l := by
    simp only [gdrainAct, hb, hsamples, List.length_nil, forUpTo_zero, Bool.false_eq_true, if_false]
  have hpieces : ∀ k < 16384, (leBytes 4 (u.statWord b.val (iBits w 8 4) (k / 128) (k % 128))).length = 4 := fun _ _ => length_leBytes 4 _
  have hend := length_flatMap_range 16384 hpieces
  have hwritten := fun k hk => u.bytes_setBytes_pieces (vatAt b.val + iBits w 32 17 * 64) (k := k) hpieces hk
  rw [hdrain] at hrun
  generalize (List.range 16384).flatMap (fun k => leBytes 4 (u.statWord b.val (iBits w 8 4) (k / 128) (k % 128))) = data at hrun hend hwritten
  have hview : ((u.setBytes (vatAt b.val + iBits w 32 17 * 64) data).countBytes (cntBlock b.val 38) 65536).workView = u.workView := by simp
  have hadvance := Progressed.advance ((u.setBytes (vatAt b.val + iBits w 32 17 * 64) data).countBytes (cntBlock b.val 38) 65536) l
  have hbyte := fun a => (hadvance.memSame a).trans (State.byte_congr (State.countBytes_mem ..) a)
  refine ⟨_, hrun, (hcounting.congr (State.launches_of_workView hview)).issuedOne_advance,
    (hadvance.stat.trans (State.stat_of_workView hview)).trans hstat, fun k hk => ?_, fun a ha => ?_⟩
  · rw [State.bytes_congr fun i _ => hbyte _, Nat.mul_comm 4 k, hwritten k hk, State.statWord_congr hstat]
  · rw [hbyte, State.byte_setBytes_outside _ (by omega), State.byte_congr hstart]

end

/-- Settles O19: the plane scan by the flags that a block error leaves, the Gram unit word by word, tap and drain by what the program's progress
leaves. -/
theorem gramAndPlanes : Obligations.GramAndPlanes := by
  refine fun s b => ⟨fun p hpresent hopen hloaded => ⟨exec_planeScan_restores hpresent hopen hloaded, exec_planeScan_loses hpresent hopen hloaded⟩,
    fun x xs hpresent hopen hsamples => ⟨exec_gramRowStart_adds hpresent hopen hsamples, exec_gramRowStart_parity hpresent hopen ?_⟩,
    fun c l w hnext hfind => ⟨exec_grmTap_arms hnext hfind, exec_grmDrain_copies hnext hfind⟩⟩
  rw [hsamples]
  exact List.cons_ne_nil x xs

end Sys2Proof.Machine
end

section
/-! SUPPORT. Family 06_element_fabric.md: what FAB_CFG, FAB_RUN and FAB_LANE do (O18). -/

namespace Sys2Proof.Machine

theorem forUpTo_one {α : Type} (f : Nat → α → α) (x : α) : forUpTo 1 f x = f 0 x := rfl

/-! ### What the end of a fabric instruction leaves -/

theorem Progressed.fabEnd (s : State) (l : Launch) : Progressed s (s.fabEnd l) := .finishLaunch s l.entry

theorem State.fabQ_fabEnd (s : State) (l : Launch) (b : Nat) : ((s.fabEnd l).blk b).fabQ = (s.blk b).fabQ := s.fabQ_finishLaunch l.entry b

theorem State.bytes_memSame {s t : State} (h : MemSame s t) (a n : Nat) : t.bytes a n = s.bytes a n := State.bytes_congr fun _ _ => h _

theorem fabOp_congr {s t : State} (h : MemSame s t) (b w : Nat) : fabOp t b w = fabOp s b w := by
  unfold fabOp
  dsimp only
  rw [State.bytes_memSame h]

/-! ### FAB_CFG (R201, R202) -/

/-- An image is loaded into a plane. -/
def State.loadPlane (s : State) (b p : Nat) (g : List Byte) : State :=
  ((s.setBlk b { s.blk b with planes := SMap.insert (s.blk b).planes p g }).setFld (BLK_FAB_PLANE_image_id b p) (imgId g)).setFld
    (BLK_FAB_PLANE_valid b p) 1

theorem cfgAct_good {s : State} {l : Launch} {w : Nat} (h : imageOk (s.bytes (vatAt l.block + iBits w 32 17 * 64) imageSize) = true) :
    cfgAct s l w = ((s.countBytes (cntBlock l.block 37) imageSize).loadPlane l.block (iBits w 8 1)
      (s.bytes (vatAt l.block + iBits w 32 17 * 64) imageSize)).fabEnd l := by
  unfold cfgAct State.loadPlane
  dsimp only
  rw [if_pos h]

theorem cfgAct_bad {s : State} {l : Launch} {w : Nat} (h : imageOk (s.bytes (vatAt l.block + iBits w 32 17 * 64) imageSize) = false) :
    cfgAct s l w = (((s.countBytes (cntBlock l.block 37) imageSize).losePlane l.block (iBits w 8 1)).setFlag
      (BLK_FAB_STATUS_bad_image l.block)).endLaunch l [.faultFailed] .illegalInstruction := by
  unfold cfgAct State.losePlane
  dsimp only
  rw [h, if_neg Bool.false_ne_true]

theorem offUpdates_plane (b : Nat) {p : Nat} (hp : p < 2) : OffUpdates (BLK_FAB_PLANE b p) := by
  rw [BLK_FAB_PLANE, Nat.add_assoc]
  exact offUpdates_blk b _ (by omega)

theorem State.loadPlane_shows (s : State) (b p : Nat) (g : List Byte) : (s.loadPlane b p g).mem = s.mem ∧
    ((s.loadPlane b p g).blk b).fabQ = (s.blk b).fabQ ∧ (s.loadPlane b p g).image b p = some g ∧
    (s.loadPlane b p g).fld (BLK_FAB_PLANE_valid b p) = 1 := by
  have hblk : (s.loadPlane b p g).blk b = { s.blk b with planes := SMap.insert (s.blk b).planes p g } := by
    unfold State.loadPlane
    rw [State.blk_congr ((State.setFld_blocks ..).trans (State.setFld_blocks ..)), State.blk_setBlk_same]
  refine ⟨?_, by rw [hblk], ?_, State.fld_setFld_same _ _ _ (by decide : 16 + 1 ≤ 32)⟩
  · unfold State.loadPlane
    rw [State.setFld_mem, State.setFld_mem]
    rfl
  · unfold State.image
    rw [hblk]
    exact SMap.find_insert_same _ p g

theorem State.losePlane_mem (s : State) (b p : Nat) : (s.losePlane b p).mem = s.mem := by
  unfold State.losePlane
  rw [State.setFld_mem]
  rfl

/-- A good image is loaded. -/
theorem cfgAct_loads {s : State} {l : Launch} {w : Nat} (h : imageOk (s.bytes (vatAt l.block + iBits w 32 17 * 64) imageSize) = true) :
    ((cfgAct s l w).blk l.block).fabQ = (s.blk l.block).fabQ ∧ MemSame s (cfgAct s l w) ∧
    (cfgAct s l w).fld (BLK_FAB_PLANE_valid l.block (iBits w 8 1)) = 1 ∧
    (cfgAct s l w).image l.block (iBits w 8 1) = some (s.bytes (vatAt l.block + iBits w 32 17 * 64) imageSize) := by
  rw [cfgAct_good h]
  generalize s.bytes (vatAt l.block + iBits w 32 17 * 64) imageSize = g
  obtain ⟨hmem, hqueue, himage, hvalid⟩ := (s.countBytes (cntBlock l.block 37) imageSize).loadPlane_shows l.block (iBits w 8 1) g
  have hend := Progressed.fabEnd ((s.countBytes (cntBlock l.block 37) imageSize).loadPlane l.block (iBits w 8 1) g) l
  refine ⟨?_, fun a => ?_, ?_, ?_⟩
  · rw [State.fabQ_fabEnd, hqueue, State.blk_of_workView (s.workView_countBytes ..)]
  · rw [hend.memSame, State.byte_congr (hmem.trans (s.countBytes_mem ..))]
  · exact (hend.fld (offUpdates_plane l.block (bitsOf_lt w 8 1))).trans hvalid
  · rw [hend.image, himage]

/-- A bad image leaves the plane empty and ends the program. -/
theorem cfgAct_fails {s : State} {l : Launch} {w : Nat} (h : imageOk (s.bytes (vatAt l.block + iBits w 32 17 * 64) imageSize) = false) :
    EndsAs (cfgAct s l w) l.entry .faultFailed .illegalInstruction ∧ MemSame s (cfgAct s l w) ∧
    (cfgAct s l w).image l.block (iBits w 8 1) = none ∧ (cfgAct s l w).fld (BLK_FAB_STATUS_bad_image l.block) = 1 := by
  rw [cfgAct_bad h]
  generalize hu : (s.countBytes (cntBlock l.block 37) imageSize).losePlane l.block (iBits w 8 1) = u
  have hmem : u.mem = s.mem := by rw [← hu, State.losePlane_mem, State.countBytes_mem]
  have himage : u.image l.block (iBits w 8 1) = none := by rw [← hu, State.image_losePlane]
  have hend := Progressed.endLaunch (u.setFlag (BLK_FAB_STATUS_bad_image l.block)) l [.faultFailed] .illegalInstruction
  refine ⟨State.endsAs_endLaunch_failed _ l _, fun a => ?_, ?_, ?_⟩
  · rw [hend.memSame, State.byte_congr ((u.setFlag_mem _).trans hmem)]
  · rw [hend.image, ← himage]
    unfold State.image
    rw [State.blk_congr (u.setFlag_blocks _)]
  · exact (hend.fld (f := BLK_FAB_STATUS_bad_image l.block) (offUpdates_blk l.block 0xA00)).trans
      (u.fld_setFlag_same _ rfl (by decide : 7 + 1 ≤ 32))

/-! ### Lanes (R209) -/

theorem State.laneReg_setLane (s : State) (b c r v : Nat) {ln ln' : Nat} (hln : ln < 64) (hln' : ln' < 64) (r' : Nat) :
    (s.setLane b c r ln v).laneReg b c r' ln' = if r' = r ∧ ln' = ln then v else s.laneReg b c r' ln' := by
  have hkey : laneKey b c r' ln' = laneKey b c r ln ↔ r' = r ∧ ln' = ln := by
    unfold laneKey
    omega
  unfold State.laneReg State.setLane
  rw [SMap.get_set]
  exact if_congr hkey rfl rfl

theorem State.laneReg_congr {s t : State} (h : t.lanes = s.lanes) : t.laneReg = s.laneReg := by
  unfold State.laneReg
  rw [h]

/-! ### What a run writes (R204, R206, R210, R212) -/

/-- The used output streams of a run. -/
def FabOp.outs (o : FabOp) : List FabStream := (o.streams.drop 3).filter FabStream.used

/-- The used input streams of a run. -/
def FabOp.ins (o : FabOp) : List FabStream := (o.streams.take 3).filter FabStream.used

theorem length_fabOut (s : State) (l : Launch) (g : List Byte) (o : FabOp) (i k q : Nat) (x : FabStream) :
    (fabOut s l g o i k q x).1.length = (fabFmt x.fmt).bytes := length_leBytes _ _

/-- The bytes of row `i` of an output stream. -/
def fabRowBytes (s : State) (l : Launch) (g : List Byte) (o : FabOp) (i q : Nat) (x : FabStream) : List Byte :=
  (List.range o.len).flatMap (fun k => (fabOut s l g o i k q x).1)

theorem length_fabRowBytes (s : State) (l : Launch) (g : List Byte) (o : FabOp) (i q : Nat) (x : FabStream) :
    (fabRowBytes s l g o i q x).length = o.len * (fabFmt x.fmt).bytes :=
  length_flatMap_range o.len fun k _ => length_fabOut s l g o i k q x

theorem State.byte_fabOutRow (s : State) (l : Launch) (g : List Byte) (o : FabOp) (i q : Nat) (x : FabStream) (a : Nat) :
    (s.fabOutRow l g o i q x).byte a = (s.setBytes (vatAt l.block + x.base + i * x.stride) (fabRowBytes s l g o i q x)).byte a := by
  unfold State.fabOutRow fabRowBytes
  rw [State.byte_congr (State.count_mem ..), List.flatMap_map]

theorem State.fabOutRow_keeps (s : State) (l : Launch) (g : List Byte) (o : FabOp) (i q : Nat) (x : FabStream) :
    (s.fabOutRow l g o i q x).workView = s.workView ∧ (s.fabOutRow l g o i q x).lanes = s.lanes := by
  unfold State.fabOutRow
  simp

theorem State.fabRows_eq (s : State) (l : Launch) (g : List Byte) (o : FabOp) (n : Nat) : s.fabRows l g o n =
    forUpTo n (fun i y => forUpTo o.outs.length (fun q z => z.fabOutRow l g o i q (o.outs.getD q ⟨0, 0, 0⟩)) y) s := rfl

/-- The rows of a run leave programs, pans and lanes as they are. -/
theorem State.fabRows_keeps (s : State) (l : Launch) (g : List Byte) (o : FabOp) (n : Nat) :
    (s.fabRows l g o n).workView = s.workView ∧ (s.fabRows l g o n).lanes = s.lanes :=
  forUpTo_keeps (fun y : State => y.workView = s.workView ∧ y.lanes = s.lanes) n _ s ⟨rfl, rfl⟩ fun _ _ hy =>
    forUpTo_keeps (fun y : State => y.workView = s.workView ∧ y.lanes = s.lanes) _ _ _ hy fun _ z ⟨hview, hlanes⟩ => by
      obtain ⟨hviewRow, hlanesRow⟩ := z.fabOutRow_keeps l g o _ _ _
      exact ⟨hviewRow.trans hview, hlanesRow.trans hlanes⟩

/-- Row `i` of a stream lies in the stream's span. -/
theorem FabStream.row_le_span (x : FabStream) {i rows : Nat} (hi : i < rows) (len : Nat) :
    i * x.stride + len * (fabFmt x.fmt).bytes ≤ x.span rows len := by
  have hstride : i * x.stride ≤ (rows - 1) * x.stride := Nat.mul_le_mul_right _ (by omega)
  unfold FabStream.span
  omega

/-- A run writes its output streams only. -/
theorem State.byte_fabRows_outside (s : State) (l : Launch) (g : List Byte) (o : FabOp) {a : Nat}
    (h : ∀ x ∈ o.outs, a < vatAt l.block + x.base ∨ vatAt l.block + x.base + x.span o.rows o.len ≤ a) :
    (s.fabRows l g o o.rows).byte a = s.byte a := by
  rw [State.fabRows_eq]
  refine forUpTo_induct (fun _ (y : State) => y.byte a = s.byte a) o.rows _ s rfl fun i hi y hy =>
    forUpTo_induct (fun _ (z : State) => z.byte a = s.byte a) o.outs.length _ y hy fun q hq z hz => ?_
  have hx := h (o.outs.getD q ⟨0, 0, 0⟩) (by rw [List.getD_eq_getElem _ _ hq]; exact List.getElem_mem hq)
  have hspan := (o.outs.getD q ⟨0, 0, 0⟩).row_le_span hi o.len
  refine (z.byte_fabOutRow l g o i q _ a).trans ((z.byte_setBytes_outside ?_).trans hz)
  rw [length_fabRowBytes]
  omega

/-- The value of an element depends on the run's inputs only. -/
theorem fabOut_congr {s t : State} {l : Launch} {o : FabOp} {i : Nat} (hlanes : t.lanes = s.lanes) (hcfg : t.cfg = s.cfg)
    (hins : ∀ z ∈ o.ins, t.fabRow l.block z i o.len = s.fabRow l.block z i o.len) (g : List Byte) (k q : Nat) (x : FabStream) :
    fabOut t l g o i k q x = fabOut s l g o i k q x := by
  have hword : fabWord t l g o i k = fabWord s l g o i k := by
    unfold fabWord
    rw [hcfg]
  have hrows : o.ins.map (fun z => (z.fmt, t.fabRow l.block z i o.len)) = o.ins.map (fun z => (z.fmt, s.fabRow l.block z i o.len)) :=
    List.map_congr_left fun z hz => by rw [hins z hz]
  have hresult : fabResult t l g o i k q = fabResult s l g o i k q := by
    unfold fabResult
    unfold FabOp.ins at hrows
    dsimp only
    rw [hrows, hword, State.laneReg_congr hlanes]
  unfold fabOut fabMode
  rw [hresult, hword]

theorem fabRowBytes_congr {s t : State} {l : Launch} {o : FabOp} {i : Nat} (hlanes : t.lanes = s.lanes) (hcfg : t.cfg = s.cfg)
    (hins : ∀ z ∈ o.ins, t.fabRow l.block z i o.len = s.fabRow l.block z i o.len) (g : List Byte) (q : Nat) (x : FabStream) :
    fabRowBytes t l g o i q x = fabRowBytes s l g o i q x :=
  List.flatMap_congr fun k _ => congrArg Prod.fst (fabOut_congr hlanes hcfg hins g k q x)

theorem State.fabRow_congr {s t : State} {b : Nat} {z : FabStream} {i rows len : Nat} (hi : i < rows)
    (h : ∀ a, vatAt b + z.base ≤ a → a < vatAt b + z.base + z.span rows len → t.byte a = s.byte a) :
    t.fabRow b z i len = s.fabRow b z i len := by
  refine List.map_congr_left fun k hk => ?_
  have hspan := z.row_le_span hi len
  have hend : k * (fabFmt z.fmt).bytes + (fabFmt z.fmt).bytes ≤ len * (fabFmt z.fmt).bytes := by
    rw [← Nat.succ_mul]
    exact Nat.mul_le_mul_right _ (List.mem_range.mp hk)
  unfold State.vatLe State.le
  rw [State.bytes_congr fun m hm => h _ (by omega) (by omega)]

/-- No output of a replayable run lies in an input (R217). -/
theorem FabOp.replayable_apart {o : FabOp} (h : o.replayable = true) {x z : FabStream} (hx : x ∈ o.outs) (hz : z ∈ o.ins) :
    x.base + x.span o.rows o.len ≤ z.base ∨ z.base + z.span o.rows o.len ≤ x.base := by
  unfold FabOp.replayable at h
  simpa using List.all_eq_true.mp (List.all_eq_true.mp h x hx) z hz

/-- Rows that their stride keeps apart have no place in common. -/
theorem rows_apart {base stride n i j a : Nat} (h : n ≤ stride) (hi : base + i * stride ≤ a ∧ a < base + i * stride + n)
    (hj : base + j * stride ≤ a ∧ a < base + j * stride + n) : i = j := by
  have hrow : ∀ k, base + k * stride ≤ a ∧ a < base + k * stride + n → (a - base) / stride = k := fun k hk =>
    Nat.div_eq_of_lt_le (by omega) (by rw [Nat.succ_mul]; omega)
  exact (hrow i hi).symm.trans (hrow j hj)

/-- A run with one output stream, of rows that do not overlap each other or the inputs, leaves each element in its place. -/
theorem State.bytes_fabRows (s : State) (l : Launch) (g : List Byte) {o : FabOp} (hreplay : o.replayable = true) {x : FabStream}
    (houts : o.outs = [x]) (hstride : o.len * (fabFmt x.fmt).bytes ≤ x.stride) {i k : Nat} (hi : i < o.rows) (hk : k < o.len) :
    (s.fabRows l g o o.rows).bytes (vatAt l.block + x.base + i * x.stride + k * (fabFmt x.fmt).bytes) (fabFmt x.fmt).bytes =
      (fabOut s l g o i k 0 x).1 := by
  have hloop : s.fabRows l g o o.rows = forUpTo o.rows (fun i y => y.fabOutRow l g o i 0 x) s := by
    rw [State.fabRows_eq, houts]
    simp only [List.length_singleton, forUpTo_one, List.getD_cons_zero]
  have hx : x ∈ o.outs := by simp [houts]
  obtain ⟨-, hin, -⟩ := forUpTo_places State.byte
    (fun i a => vatAt l.block + x.base + i * x.stride ≤ a ∧ a < vatAt l.block + x.base + i * x.stride + o.len * (fabFmt x.fmt).bytes)
    (fun i a => (fabRowBytes s l g o i 0 x).getD (a - (vatAt l.block + x.base + i * x.stride)) 0#8)
    (fun y => y.workView = s.workView ∧ y.lanes = s.lanes) o.rows (fun i y => y.fabOutRow l g o i 0 x) s
    (fun _ _ _ => rows_apart hstride)
    ⟨rfl, rfl⟩
    (fun i y ⟨hview, hlanes⟩ => by
      obtain ⟨hviewRow, hlanesRow⟩ := y.fabOutRow_keeps l g o i 0 x
      exact ⟨hviewRow.trans hview, hlanesRow.trans hlanes⟩)
    (fun i hi y ⟨hview, hlanes⟩ hrest a ha => by
      have hins : ∀ z ∈ o.ins, y.fabRow l.block z i o.len = s.fabRow l.block z i o.len := fun z hz =>
        State.fabRow_congr hi fun a hlo hhi => hrest a fun j hj hout => by
          have hspan := x.row_le_span (hj.trans hi) o.len
          have hapart := FabOp.replayable_apart hreplay hx hz
          omega
      have hrow := fabRowBytes_congr hlanes (State.cfg_of_workView hview) hins g 0 x
      rw [State.byte_fabOutRow, State.byte_setBytes, hrow, length_fabRowBytes, if_pos ha])
    (fun i hi y a ha => by
      rw [State.byte_fabOutRow, State.byte_setBytes_outside _ (by rw [length_fabRowBytes]; omega)])
  rw [hloop]
  exact State.bytes_eq_piece (fun k _ => length_fabOut s l g o i k 0 x) hk fun a hlo hhi => hin i hi a ⟨hlo, hhi⟩

/-! ### FAB_RUN (R204, R210) -/

/-- The lane results of a run, held apart until its end. -/
def State.laneResults (s u : State) (l : Launch) (g : List Byte) (o : FabOp) : State :=
  if o.mode = 0 then u else forUpTo o.rows (fun i t => t.setLane l.block l.ctx (o.reg + i / 64) (i % 64) (laneSum s l g o i)) u

theorem State.fabDone_eq (s : State) (l : Launch) (g : List Byte) (o : FabOp) : s.fabDone l g o =
    (((s.laneResults (s.fabRows l g o o.rows) l g o).count (cntBlock l.block 23) (fabAc g o)).count (cntBlock l.block 24) (o.rows * o.len)).fabEnd
      l := rfl

theorem State.laneResults_keeps (s u : State) (l : Launch) (g : List Byte) (o : FabOp) :
    (s.laneResults u l g o).mem = u.mem ∧ (s.laneResults u l g o).workView = u.workView := by
  unfold State.laneResults
  split
  · exact ⟨rfl, rfl⟩
  · exact forUpTo_keeps (fun y : State => y.mem = u.mem ∧ y.workView = u.workView) _ _ u ⟨rfl, rfl⟩ fun _ _ hy => hy

theorem State.laneResults_of_plain {o : FabOp} (h : o.mode = 0) (s u : State) (l : Launch) (g : List Byte) : s.laneResults u l g o = u := if_pos h

/-- A reduction leaves each lane the sum of its row. -/
theorem State.laneReg_laneResults {o : FabOp} (h : o.mode ≠ 0) (s u : State) (l : Launch) (g : List Byte) {i : Nat} (hi : i < o.rows) :
    (s.laneResults u l g o).laneReg l.block l.ctx (o.reg + i / 64) (i % 64) = laneSum s l g o i := by
  have hmod : ∀ i, i % 64 < 64 := fun i => Nat.mod_lt _ (by decide)
  obtain ⟨-, hin, -⟩ := forUpTo_places (fun (y : State) i => y.laneReg l.block l.ctx (o.reg + i / 64) (i % 64)) (fun i k => k = i)
    (fun _ k => laneSum s l g o k) (fun _ => True) o.rows
    (fun i t => t.setLane l.block l.ctx (o.reg + i / 64) (i % 64) (laneSum s l g o i)) u
    (fun i j k hi hj => hi.symm.trans hj) trivial (fun _ _ _ => trivial)
    (fun i _ y _ _ k hk => by
      subst hk
      rw [State.laneReg_setLane _ _ _ _ _ (hmod _) (hmod _), if_pos ⟨rfl, rfl⟩])
    (fun i _ y k hk => by
      rw [State.laneReg_setLane _ _ _ _ _ (hmod _) (hmod _), if_neg (by omega)])
  unfold State.laneResults
  rw [if_neg h]
  exact hin i hi i rfl

/-- What a run that meets no fault leaves. -/
structure RunDone (s t : State) (l : Launch) (g : List Byte) (o : FabOp) : Prop where
  queue : (t.blk l.block).fabQ = (s.blk l.block).fabQ
  pan : t.pan = s.pan
  mem : MemSame (s.fabRows l g o o.rows) t
  lanes : t.lanes = (s.laneResults (s.fabRows l g o o.rows) l g o).lanes

theorem RunDone.fabDone (s : State) (l : Launch) (g : List Byte) (o : FabOp) : RunDone s (s.fabDone l g o) l g o := by
  obtain ⟨hrows, -⟩ := s.fabRows_keeps l g o o.rows
  obtain ⟨hmem, hresults⟩ := s.laneResults_keeps (s.fabRows l g o o.rows) l g o
  rw [State.fabDone_eq]
  generalize hu : s.laneResults (s.fabRows l g o o.rows) l g o = u at hmem hresults
  have hend := Progressed.fabEnd ((u.count (cntBlock l.block 23) (fabAc g o)).count (cntBlock l.block 24) (o.rows * o.len)) l
  have hview : ((u.count (cntBlock l.block 23) (fabAc g o)).count (cntBlock l.block 24) (o.rows * o.len)).workView = s.workView := by
    rw [State.workView_count, State.workView_count, hresults, hrows]
  refine ⟨?_, hend.pan.trans (State.pan_of_workView hview), fun a => ?_, ?_⟩
  · rw [State.fabQ_fabEnd, State.blk_of_workView hview]
  · rw [hend.memSame, State.byte_congr ((State.count_mem ..).trans ((State.count_mem ..).trans hmem))]
  · rw [hend.lanes, State.count_lanes, State.count_lanes, hu]

end Sys2Proof.Machine
end

section
/-! SUPPORT. Family 06_element_fabric.md: the lanes' instruction, and the instructions of the fabric as they leave its queue (O18). -/

namespace Sys2Proof.Machine

/-! ### FAB_LANE (R209, R213) -/

/-- A loop over the 64 lanes of each of `n` registers, whose turn for a lane writes that lane's place and no other lane's. -/
theorem forUpTo_lanes {σ β : Type} (get : σ → Nat × Fin 64 → β) (val : Nat × Fin 64 → β) (write : Nat → Nat → σ → σ)
    (hin : ∀ y k, get (write k.1 k.2 y) k = val k) (hout : ∀ y j, ∀ ln < 64, ∀ k, ¬(k.1 = j ∧ k.2.val = ln) → get (write j ln y) k = get y k)
    (n : Nat) (x : σ) {k : Nat × Fin 64} (hk : k.1 < n) : get (forUpTo n (fun j y => forUpTo 64 (fun ln z => write j ln z) y) x) k = val k := by
  have hreg (j : Nat) (y : σ) (k : Nat × Fin 64) :
      get (forUpTo 64 (fun ln z => write j ln z) y) k = if k.1 = j then val k else get y k := by
    obtain ⟨-, hlane, hrest⟩ := forUpTo_places get (fun ln k => k.1 = j ∧ k.2.val = ln) (fun _ => val) (fun _ => True) 64
      (fun ln z => write j ln z) y (fun _ _ _ h h' => h.2.symm.trans h'.2) trivial (fun _ _ _ => trivial)
      (fun ln _ z _ _ k hk => by
        obtain ⟨rfl, rfl⟩ := hk
        exact hin z k)
      (fun ln hln z k => hout z j ln hln k)
    split
    · next h => exact hlane k.2 k.2.isLt k ⟨h, rfl⟩
    · next h => exact hrest k fun _ _ hlane => h hlane.1
  obtain ⟨-, hdone, -⟩ := forUpTo_places get (fun j k => k.1 = j) (fun _ => val) (fun _ => True) n
    (fun j y => forUpTo 64 (fun ln z => write j ln z) y) x (fun _ _ _ h h' => h.symm.trans h') trivial (fun _ _ _ => trivial)
    (fun j _ y _ _ k hk => by rw [hreg, if_pos hk]) (fun j _ y k hk => by rw [hreg, if_neg hk])
  exact hdone k.1 hk k rfl

/-- The vat address of lane `ln` of the `j`th register of a load or a store. -/
def laneAddr (b : Nat) (o : LaneOp) (j ln : Nat) : Nat := vatAt b + o.vat + j * 256 + ln * 4

/-- What lane `ln` of the `j`th register gets. -/
def State.laneValue (s : State) (b c : Nat) (o : LaneOp) (j ln : Nat) : Nat :=
  if o.op = 8 then s.le (laneAddr b o j ln) 4 else laneResult o.op o.imm (s.laneReg b c (o.dst + j) ln) (s.laneReg b c (o.src + j) ln)

/-- The lanes get the values `v`. -/
def State.setLanes (s : State) (b c : Nat) (o : LaneOp) (v : Nat → Nat → Nat) : State :=
  forUpTo o.count (fun j y => forUpTo 64 (fun ln z => z.setLane b c (o.dst + j) ln (v j ln)) y) s

/-- The vat gets the values `v` of the lanes. -/
def State.storeLanes (s : State) (b : Nat) (o : LaneOp) (v : Nat → Nat → Nat) : State :=
  forUpTo o.count (fun j y => forUpTo 64 (fun ln z => z.setBytes (laneAddr b o j ln) (leBytes 4 (v j ln))) y) s

theorem laneAct_eq (s : State) (l : Launch) (w : Nat) : laneAct false s l w =
    ((if (laneOp w).op = 9 then s.storeLanes l.block (laneOp w) fun j ln => s.laneReg l.block l.ctx ((laneOp w).dst + j) ln
      else s.setLanes l.block l.ctx (laneOp w) (s.laneValue l.block l.ctx (laneOp w))).count (cntBlock l.block 23) ((laneOp w).count + 8)).fabEnd l :=
  rfl

theorem State.setLanes_keeps (s : State) (b c : Nat) (o : LaneOp) (v : Nat → Nat → Nat) :
    (s.setLanes b c o v).mem = s.mem ∧ (s.setLanes b c o v).workView = s.workView :=
  forUpTo_keeps (fun y : State => y.mem = s.mem ∧ y.workView = s.workView) _ _ s ⟨rfl, rfl⟩ fun _ _ hy =>
    forUpTo_keeps (fun y : State => y.mem = s.mem ∧ y.workView = s.workView) _ _ _ hy fun _ _ hz => hz

theorem State.storeLanes_keeps (s : State) (b : Nat) (o : LaneOp) (v : Nat → Nat → Nat) :
    (s.storeLanes b o v).lanes = s.lanes ∧ (s.storeLanes b o v).workView = s.workView :=
  forUpTo_keeps (fun y : State => y.lanes = s.lanes ∧ y.workView = s.workView) _ _ s ⟨rfl, rfl⟩ fun _ _ hy =>
    forUpTo_keeps (fun y : State => y.lanes = s.lanes ∧ y.workView = s.workView) _ _ _ hy fun _ z ⟨hlanes, hview⟩ =>
      ⟨(z.setBytes_lanes _ _).trans hlanes, (z.workView_setBytes _ _).trans hview⟩

theorem State.laneReg_setLanes (s : State) (b c : Nat) (o : LaneOp) (v : Nat → Nat → Nat) {j ln : Nat} (hj : j < o.count) (hln : ln < 64) :
    (s.setLanes b c o v).laneReg b c (o.dst + j) ln = v j ln :=
  forUpTo_lanes (fun (y : State) k => y.laneReg b c (o.dst + k.1) k.2) (fun k => v k.1 k.2)
    (fun j ln y => y.setLane b c (o.dst + j) ln (v j ln))
    (fun y k => by rw [State.laneReg_setLane _ _ _ _ _ k.2.isLt k.2.isLt, if_pos ⟨rfl, rfl⟩])
    (fun y j ln hln k hk => by rw [State.laneReg_setLane _ _ _ _ _ hln k.2.isLt, if_neg (by omega)])
    o.count s (k := (j, ⟨ln, hln⟩)) hj

theorem State.bytes_storeLanes (s : State) (b : Nat) (o : LaneOp) (v : Nat → Nat → Nat) {j ln : Nat} (hj : j < o.count) (hln : ln < 64) :
    (s.storeLanes b o v).bytes (laneAddr b o j ln) 4 = leBytes 4 (v j ln) :=
  forUpTo_lanes (fun (y : State) k => y.bytes (laneAddr b o k.1 k.2) 4) (fun k => leBytes 4 (v k.1 k.2))
    (fun j ln y => y.setBytes (laneAddr b o j ln) (leBytes 4 (v j ln)))
    (fun y k => by
      have hpiece := y.bytes_setBytes_pieces (laneAddr b o k.1 k.2) (e := 4) (n := 1) (k := 0) (f := fun _ => leBytes 4 (v k.1 k.2))
        (fun _ _ => length_leBytes 4 _) (by decide)
      simpa using hpiece)
    (fun y j ln hln k hk => State.bytes_congr fun i hi => y.byte_setBytes_outside (by
      rw [length_leBytes]
      unfold laneAddr
      omega))
    o.count s (k := (j, ⟨ln, hln⟩)) hj

/-- What a FAB_LANE that meets no fault leaves. -/
theorem laneAct_shows (s : State) (l : Launch) (w : Nat) : ((laneAct false s l w).blk l.block).fabQ = (s.blk l.block).fabQ ∧
    ((laneOp w).op ≠ 9 → MemSame s (laneAct false s l w) ∧ ∀ i < (laneOp w).count, ∀ ln < 64,
      (laneAct false s l w).laneReg l.block l.ctx ((laneOp w).dst + i) ln = s.laneValue l.block l.ctx (laneOp w) i ln) ∧
    ((laneOp w).op = 9 → (laneAct false s l w).lanes = s.lanes ∧ ∀ i < (laneOp w).count, ∀ ln < 64,
      (laneAct false s l w).bytes (laneAddr l.block (laneOp w) i ln) 4 =
        leBytes 4 (s.laneReg l.block l.ctx ((laneOp w).dst + i) ln)) := by
  rw [laneAct_eq]
  generalize laneOp w = o
  have hend (u : State) := Progressed.fabEnd (u.count (cntBlock l.block 23) (o.count + 8)) l
  have hmem (u : State) : MemSame u ((u.count (cntBlock l.block 23) (o.count + 8)).fabEnd l) := fun a => by
    rw [(hend u).memSame, State.byte_congr (u.count_mem ..)]
  have hlanes (u : State) : ((u.count (cntBlock l.block 23) (o.count + 8)).fabEnd l).lanes = u.lanes := (hend u).lanes.trans (u.count_lanes ..)
  have hqueue (u : State) (hu : u.workView = s.workView) :
      (((u.count (cntBlock l.block 23) (o.count + 8)).fabEnd l).blk l.block).fabQ = (s.blk l.block).fabQ := by
    rw [State.fabQ_fabEnd, State.blk_of_workView ((u.workView_count ..).trans hu)]
  by_cases hop : o.op = 9
  · obtain ⟨hkept, hview⟩ := s.storeLanes_keeps l.block o fun j ln => s.laneReg l.block l.ctx (o.dst + j) ln
    rw [if_pos hop]
    refine ⟨hqueue _ hview, fun h => absurd hop h, fun _ => ⟨(hlanes _).trans hkept, fun i hi ln hln => ?_⟩⟩
    rw [State.bytes_memSame (hmem _), State.bytes_storeLanes s l.block o _ hi hln]
  · obtain ⟨hkept, hview⟩ := s.setLanes_keeps l.block l.ctx o (s.laneValue l.block l.ctx o)
    rw [if_neg hop]
    refine ⟨hqueue _ hview, fun _ => ⟨fun a => (hmem _ a).trans (State.byte_congr hkept a), fun i hi ln hln => ?_⟩, fun h => absurd h hop⟩
    rw [State.laneReg_congr (hlanes _), State.laneReg_setLanes s l.block l.ctx o _ hi hln]

/-! ### A lane register of wrong parity (R217) -/

theorem State.phys_fabParity (s : State) {b : Nat} (hb : b < 64) : (s.fabParity b).phys b = s.phys b := by
  have hhigh : 0x1000000 ≤ (mapFld b).addr := by
    show 0x1000000 ≤ 0x1000000 + b / 16 * 0x400000 + 0x10 + b % 16 / 4 * 4
    omega
  have hoff : (mapFld b).addr % 0x10000 < 0xA00 := by
    show (0x1000000 + b / 16 * 0x400000 + 0x10 + b % 16 / 4 * 4) % 0x10000 < 0xA00
    omega
  have hunit : (mapFld b).addr ≠ BLK_FAB_STATUS b ∧ (mapFld b).addr ≠ BLK_FAB_COUNT b := by
    unfold BLK_FAB_STATUS BLK_FAB_COUNT blkBase
    omega
  have hcnt : (mapFld b).addr ≠ CNT_VALUE_HI (cntBlock b 43) := by
    unfold CNT_VALUE_HI cntBlock
    omega
  have hcount (t : State) : (t.count (cntBlock b 43)).fld (mapFld b) = t.fld (mapFld b) := by
    unfold State.count
    dsimp only
    rw [State.fld_setFlagIf]
    split
    · rw [State.fld_setFlag, State.fld_setFld_addr _ _ _ _ hcnt]
      exact State.fld_congr rfl _
    · exact State.fld_congr rfl _
  unfold State.phys State.fabParity
  rw [hcount, State.bump, State.fld_setFld_addr _ _ _ _ hunit.2, State.fld_setFlag, State.fld_setFld_addr _ _ _ _ hunit.1]

theorem Untouched.fabParity (s : State) (b : Nat) : Untouched s (s.fabParity b) :=
  (((Untouched.refl s).setFlag (BLK_FAB_STATUS_parity_error b) (not_fenceReg_blk b 0xA00)).bump (BLK_FAB_COUNT_parity_count b) 1
    (not_fenceReg_blk b 0xA04)).count (cntBlock b 43) 1

/-- The parity error shows, and counts for the block. -/
theorem laneAct_parity {s : State} {l : Launch} (hb : l.block < 64) (hopen : s.regionFenced (l.block / 16) = false) (w : Nat) :
    (laneAct true s l w).fld (BLK_FAB_STATUS_parity_error l.block) = 1 ∧
    SMap.get (fun _ => 0) (laneAct true s l w).blkErr (s.phys l.block) = SMap.get (fun _ => 0) s.blkErr (s.phys l.block) + 1 := by
  have hrun : laneAct true s l w = (s.fabParity l.block).blockError l.block (some l.ctx) 3 (BLK_FAB_STATUS_parity_error l.block).cause := rfl
  have hflagged := Untouched.fabParity s l.block
  obtain ⟨hcount, -⟩ := State.blockError_counts ((hflagged.regionFenced _).trans hopen) (some l.ctx) 3 (BLK_FAB_STATUS_parity_error l.block).cause
  refine ⟨?_, ?_⟩
  · rw [hrun, State.fld_blockError (unitFlag_fabParity l.block), State.fld_fabParity]
  · rw [hrun, hcount, s.phys_fabParity hb, SMap.get_set_same, hflagged.blkErr]

/-! ### The fabric queue (R215) -/

section
variable {s s1 : State} {b c op : Nat} {j : FabJob} {q : List FabJob} {l : Launch} (hq : ((s.fed b).blk b).fabQ = j :: q) (hctx : j.ctx = c)
  (hstop : (s.fed b).blockStopped b = false) (hwaits : (s.fed b).fabWaits b j = false)
  (hs1 : s1 = (s.fed b).setBlk b { (s.fed b).blk b with fabQ := q }) (hl : s1.launches.find? (fun x => x.entry == j.entry) = some l)

section
include hq hctx hstop hwaits hs1 hl

/-- A legal instruction acts as it leaves the queue. -/
theorem State.fabIssue_legal {legal : State → Launch → Nat → Bool} (act : State → Launch → Nat → State) (hop : iBits j.word 0 8 = op)
    (hlegal : legal s1 l j.word = true) : s.fabIssue b c op legal act = act s1 l j.word := by
  unfold State.fabIssue
  dsimp only
  rw [hq]
  dsimp only
  rw [if_pos ⟨hctx, hop, by rw [hstop]; rfl, by rw [hwaits]; rfl⟩, ← hs1, hl]
  dsimp only
  rw [if_pos hlegal]

end

section
include hs1

theorem Progressed.taken : Progressed s s1 := by
  rw [hs1]
  exact (Progressed.fed s b).trans (.setBlk _ rfl)

theorem State.fabQ_taken : (s1.blk b).fabQ = q := by rw [hs1, State.blk_setBlk_same]

include hstop

theorem State.regionFenced_taken : s1.regionFenced (b / 16) = false := by
  have hopen : (s.fed b).regionFenced (b / 16) = false := by
    unfold State.blockStopped at hstop
    simp only [Bool.or_eq_false_iff] at hstop
    obtain ⟨⟨⟨⟨⟨⟨-, hfence⟩, -⟩, -⟩, -⟩, -⟩, -⟩ := hstop
    exact hfence
  rw [hs1]
  exact hopen

end

end

/-! ### The commands -/

section
variable {s s1 : State} {b : Fin 64} {c : Fin 4} {j : FabJob} {q : List FabJob} {l : Launch} (hq : ((s.fed b.val).blk b.val).fabQ = j :: q)
  (hctx : j.ctx = c.val) (hstop : (s.fed b.val).blockStopped b.val = false) (hwaits : (s.fed b.val).fabWaits b.val j = false)
  (hs1 : s1 = (s.fed b.val).setBlk b.val { (s.fed b.val).blk b.val with fabQ := q })
  (hl : s1.launches.find? (fun x => x.entry == j.entry) = some l) (hb : l.block = b.val)
include hq hctx hstop hwaits hs1 hl hb

theorem exec_fabCfg_loads (hop : iBits j.word 0 8 = opFabCfg) (hlegal : cfgLegal s1 l j.word = true)
    (himage : imageOk (s.bytes (vatAt b.val + iBits j.word 32 17 * 64) imageSize) = true) :
    ∃ t, exec (.fabCfg b c) s = .next t ∧ (t.blk b.val).fabQ = q ∧ MemSame s t ∧ t.fld (BLK_FAB_PLANE_valid b.val (iBits j.word 8 1)) = 1 ∧
      t.image b.val (iBits j.word 8 1) = some (s.bytes (vatAt b.val + iBits j.word 32 17 * 64) imageSize) := by
  have hrun : exec (.fabCfg b c) s = .next (cfgAct s1 l j.word) :=
    congrArg Host.Outcome.next (State.fabIssue_legal hq hctx hstop hwaits hs1 hl cfgAct hop hlegal)
  have htaken := Progressed.taken hs1
  have hbytes := State.bytes_memSame htaken.memSame (vatAt b.val + iBits j.word 32 17 * 64) imageSize
  rw [← hbytes] at himage ⊢
  rw [← hb] at himage
  obtain ⟨hqueue, hmem, hvalid, hloaded⟩ := cfgAct_loads himage
  rw [hb] at hqueue hvalid hloaded
  exact ⟨_, hrun, hqueue.trans (State.fabQ_taken hs1), fun a => (hmem a).trans (htaken.memSame a), hvalid, hloaded⟩

theorem exec_fabCfg_fails (hop : iBits j.word 0 8 = opFabCfg) (hlegal : cfgLegal s1 l j.word = true)
    (himage : imageOk (s.bytes (vatAt b.val + iBits j.word 32 17 * 64) imageSize) = false) :
    ∃ t, exec (.fabCfg b c) s = .next t ∧ EndsAs t l.entry .faultFailed .illegalInstruction ∧ MemSame s t ∧
      t.image b.val (iBits j.word 8 1) = none ∧ t.fld (BLK_FAB_STATUS_bad_image b.val) = 1 := by
  have hrun : exec (.fabCfg b c) s = .next (cfgAct s1 l j.word) :=
    congrArg Host.Outcome.next (State.fabIssue_legal hq hctx hstop hwaits hs1 hl cfgAct hop hlegal)
  have htaken := Progressed.taken hs1
  have hbytes := State.bytes_memSame htaken.memSame (vatAt b.val + iBits j.word 32 17 * 64) imageSize
  rw [← hbytes, ← hb] at himage
  obtain ⟨hends, hmem, hlost, hbad⟩ := cfgAct_fails himage
  rw [hb] at hlost hbad
  exact ⟨_, hrun, hends, fun a => (hmem a).trans (htaken.memSame a), hlost, hbad⟩

theorem exec_fabRun_writes (hop : iBits j.word 0 8 = opFabRun) (hlegal : runLegal s1 l j.word = true) {o : FabOp} {outs : List FabStream}
    (ho : o = fabOp s b.val j.word) (houts : outs = (o.streams.drop 3).filter FabStream.used) :
    ∃ t, exec (.fabRun b c .none) s = .next t ∧ (t.blk b.val).fabQ = q ∧ t.pan = s.pan ∧
      (∀ a, (∀ x ∈ outs, a < vatAt b.val + x.base ∨ vatAt b.val + x.base + x.span o.rows o.len ≤ a) → t.byte a = s.byte a) ∧
      (o.mode = 0 → t.lanes = s.lanes) ∧
      (∀ g, s.image b.val o.plane = some g →
        (o.mode ≠ 0 → ∀ i < o.rows, t.laneReg b.val l.ctx (o.reg + i / 64) (i % 64) = laneSum s1 l g o i) ∧
        (∀ x, o.replayable = true → outs = [x] → o.len * (fabFmt x.fmt).bytes ≤ x.stride → ∀ i < o.rows, ∀ k < o.len,
          t.bytes (vatAt b.val + x.base + i * x.stride + k * (fabFmt x.fmt).bytes) (fabFmt x.fmt).bytes = (fabOut s1 l g o i k 0 x).1)) := by
  have htaken := Progressed.taken hs1
  have hop1 : fabOp s1 l.block j.word = o := by rw [ho, hb, fabOp_congr htaken.memSame]
  have hrun : exec (.fabRun b c .none) s = .next (s1.fabDone l ((s1.image l.block o.plane).getD []) o) := by
    rw [← hop1]
    exact congrArg Host.Outcome.next (State.fabIssue_legal hq hctx hstop hwaits hs1 hl (runAct .none) hop hlegal)
  rw [hb, htaken.image] at hrun
  generalize hplane : (s.image b.val o.plane).getD [] = g0 at hrun
  have hloaded (g : List Byte) (hg : s.image b.val o.plane = some g) : g0 = g := by rw [← hplane, hg, Option.getD_some]
  have hdone := RunDone.fabDone s1 l g0 o
  obtain ⟨-, hrowLanes⟩ := s1.fabRows_keeps l g0 o o.rows
  refine ⟨_, hrun, ?_, hdone.pan.trans htaken.pan, fun a ha => ?_, fun hmode => ?_, fun g hg => ⟨fun hmode i hi => ?_,
    fun x hreplay hx hstride i hi k hk => ?_⟩⟩
  · rw [← hb, hdone.queue, hb, State.fabQ_taken hs1]
  · rw [hdone.mem, State.byte_fabRows_outside, htaken.memSame]
    rwa [houts, ← hb] at ha
  · rw [hdone.lanes, State.laneResults_of_plain hmode, hrowLanes, htaken.lanes]
  · rw [State.laneReg_congr hdone.lanes, ← hb, State.laneReg_laneResults hmode _ _ _ _ hi, hloaded g hg]
  · rw [State.bytes_memSame hdone.mem, hloaded g hg, ← hb]
    exact s1.bytes_fabRows l g hreplay (houts.symm.trans hx) hstride hi hk

theorem exec_fabLane_acts (hop : iBits j.word 0 8 = opFabLane) (hlegal : laneLegal s1 l j.word = true) :
    ∃ t, exec (.fabLane b ⟨c, false⟩) s = .next t ∧ (t.blk b.val).fabQ = q ∧
      ((laneOp j.word).op ≠ 9 → MemSame s t ∧ ∀ i < (laneOp j.word).count, ∀ ln < 64, t.laneReg b.val l.ctx ((laneOp j.word).dst + i) ln =
        if (laneOp j.word).op = 8 then s.le (vatAt b.val + (laneOp j.word).vat + i * 256 + ln * 4) 4
        else laneResult (laneOp j.word).op (laneOp j.word).imm (s.laneReg b.val l.ctx ((laneOp j.word).dst + i) ln)
          (s.laneReg b.val l.ctx ((laneOp j.word).src + i) ln)) ∧
      ((laneOp j.word).op = 9 → t.lanes = s.lanes ∧ ∀ i < (laneOp j.word).count, ∀ ln < 64,
        t.bytes (vatAt b.val + (laneOp j.word).vat + i * 256 + ln * 4) 4 = leBytes 4 (s.laneReg b.val l.ctx ((laneOp j.word).dst + i) ln)) := by
  have hrun : exec (.fabLane b ⟨c, false⟩) s = .next (laneAct false s1 l j.word) :=
    congrArg Host.Outcome.next (State.fabIssue_legal hq hctx hstop hwaits hs1 hl (laneAct false) hop hlegal)
  have htaken := Progressed.taken hs1
  have hreg := State.laneReg_congr htaken.lanes
  have hle : ∀ a n, s1.le a n = s.le a n := fun a n => congrArg leNat (State.bytes_memSame htaken.memSame a n)
  obtain ⟨hqueue, hresult, hstore⟩ := laneAct_shows s1 l j.word
  simp only [State.laneValue, laneAddr, hreg, hle, hb] at hqueue hresult hstore
  refine ⟨_, hrun, hqueue.trans (State.fabQ_taken hs1), fun hne => ?_, fun heq => ?_⟩
  · obtain ⟨hmem, hlanes⟩ := hresult hne
    exact ⟨fun a => (hmem a).trans (htaken.memSame a), hlanes⟩
  · obtain ⟨hlanes, hbytes⟩ := hstore heq
    exact ⟨hlanes.trans htaken.lanes, hbytes⟩

theorem exec_fabLane_parity (hop : iBits j.word 0 8 = opFabLane) (hlegal : laneLegal s1 l j.word = true) :
    ∃ t, exec (.fabLane b ⟨c, true⟩) s = .next t ∧ t.fld (BLK_FAB_STATUS_parity_error b.val) = 1 ∧
      SMap.get (fun _ => 0) t.blkErr (s.phys b.val) = SMap.get (fun _ => 0) s.blkErr (s.phys b.val) + 1 := by
  have hrun : exec (.fabLane b ⟨c, true⟩) s = .next (laneAct true s1 l j.word) :=
    congrArg Host.Outcome.next (State.fabIssue_legal hq hctx hstop hwaits hs1 hl (laneAct true) hop hlegal)
  have htaken := Progressed.taken hs1
  obtain ⟨hflag, hcount⟩ := laneAct_parity (by rw [hb]; exact b.isLt) (by rw [hb]; exact State.regionFenced_taken hstop hs1) j.word
  rw [hb] at hflag hcount
  rw [htaken.phys, htaken.blkErr] at hcount
  exact ⟨_, hrun, hflag, hcount⟩

end

/-- Settles O18: the queue by what the sequencer feeds it; each instruction acts on the state from which it has left the queue
(notes/assumptions/147.md). -/
theorem fabricOperations : Obligations.FabricOperations := by
  refine fun s b c => ⟨fun l w hnext hfab => State.fabQ_begins_fed hnext hfab, fun j q s1 l hq hctx hstop hwaits hs1 hl hb _ =>
    ⟨fun hop hlegal => ⟨?_, ?_⟩, fun hop hlegal o outs ho houts => ?_, fun hop hlegal => ⟨?_, ?_⟩⟩⟩
  · exact exec_fabCfg_loads hq hctx hstop hwaits hs1 hl hb hop hlegal
  · exact exec_fabCfg_fails hq hctx hstop hwaits hs1 hl hb hop hlegal
  · exact exec_fabRun_writes hq hctx hstop hwaits hs1 hl hb hop hlegal ho houts
  · exact exec_fabLane_acts hq hctx hstop hwaits hs1 hl hb hop hlegal
  · exact exec_fabLane_parity hq hctx hstop hwaits hs1 hl hb hop hlegal

end Sys2Proof.Machine
end

section
/-! SUPPORT. Family 07_curvature_statistics.md: what a unit's access to memory leaves of the journal, of the configuration and of the registers that tell
which regions and blocks work (O20). -/

namespace Sys2Proof.Machine

/-! ### The fields that tell which regions and blocks work -/

/-- The bit of RGN_BLOCK_MAP that shows logical block `b` absent (R37). -/
def absentFld (b : Nat) : Fld := ⟨(mapFld b).addr, 8 * (b % 4) + 7, 1, .ro, 0⟩

/-- The top bit of a byte of a number. -/
theorem bitOf_bitsOf_top (x lo : Nat) : bitOf (bitsOf x lo 8) 7 = (bitsOf x (lo + 7) 1 == 1) := by
  unfold bitOf bitsOf
  rw [pow_add, ← Nat.div_div_eq_div_mul, pow_one]
  congr 1
  generalize x / 2 ^ lo = y
  omega

theorem State.absent_eq_fld (s : State) (b : Nat) : s.absent b = (s.fld (absentFld b) == 1) := bitOf_bitsOf_top _ _

/-- A field that shows fences, the journal's mirrors or an absent block. -/
abbrev StatusFld (f : Fld) : Prop := FenceReg f.addr ∨ ∃ b, f = absentFld b

/-- The registers of those fields. -/
abbrev StatusReg (a : Nat) : Prop := FenceReg a ∨ 0x1000000 ≤ a ∧ 16 ≤ a % 0x400000 ∧ a % 0x400000 < 32

/-- A field that shares no bit with one of those: it lies in another register, or it is the overflow bit of an event counter, which no index brings onto
one of them. -/
abbrev OffStatus (f : Fld) : Prop := ¬StatusReg f.addr ∨ ∃ k, f = CNT_VALUE_HI_overflow k

theorem StatusFld.statusReg {f : Fld} (hf : StatusFld f) : StatusReg f.addr := by
  rcases hf with hf | ⟨b, rfl⟩
  · exact .inl hf
  · right
    unfold absentFld mapFld RGN_BLOCK_MAP rgnBase
    dsimp only
    omega

theorem not_statusReg_rgn (n o : Nat) (h : 32 ≤ o ∧ o < 0x400000 := by decide) : ¬StatusReg (rgnBase n + o) := by
  unfold StatusReg FenceReg HUB_MODULE_STATUS RNG_JOURNAL_STATUS SAF_STATUS rgnBase
  omega

/-- The registers of an HBM controller. -/
theorem not_statusReg_hbm (n c o : Nat) (hc : c < 6) (h : o < 0x40 := by decide) : ¬StatusReg (rgnBase n + 0x5000 + c * 0x40 + o) := by
  unfold StatusReg FenceReg HUB_MODULE_STATUS RNG_JOURNAL_STATUS SAF_STATUS rgnBase
  omega

theorem not_statusReg_blk (b o : Nat) (h : o < 0x10000 := by decide) : ¬StatusReg (blkBase b + o) := by
  unfold StatusReg FenceReg HUB_MODULE_STATUS RNG_JOURNAL_STATUS SAF_STATUS blkBase
  omega

theorem StatusFld.fld_setFld {f g : Fld} (hf : StatusFld f) (hg : OffStatus g) (s : State) (v : Nat) : (s.setFld g v).fld f = s.fld f := by
  rcases hg with hg | ⟨k, rfl⟩
  · exact State.fld_setFld_addr s g f v fun e => hg (e ▸ hf.statusReg)
  · rcases hf with hf | ⟨b, rfl⟩
    · exact State.fld_setFld_addr s _ f v (FenceReg.ne hf (not_fenceReg_cntOverflow k))
    · refine State.fld_setFld_bits s _ _ v (by decide : 16 + 1 ≤ 32) ?_
      show 16 + 1 ≤ 8 * (b % 4) + 7 ∨ 8 * (b % 4) + 7 + 1 ≤ 16
      omega

/-! ### What an access leaves as it is -/

/-- The journal with the fences that keep it served, and the configuration. -/
def State.journalView (s : State) : SMap JEntry × SMap JEntry × SMap JEntry × List Nat × DevCfg :=
  (s.mirrorA, s.mirrorB, s.shadow, s.shutFenced, s.cfg)

/-- Journal, configuration, and the fields that tell which regions and blocks work are as before. -/
structure Steady (s t : State) : Prop where
  view : t.journalView = s.journalView
  flds : ∀ f, StatusFld f → t.fld f = s.fld f

theorem Steady.refl (s : State) : Steady s s := ⟨rfl, fun _ _ => rfl⟩

theorem Steady.trans {s t u : State} (h : Steady s t) (k : Steady t u) : Steady s u :=
  ⟨k.view.trans h.view, fun f hf => (k.flds f hf).trans (h.flds f hf)⟩

section
variable {s t u : State} (h : Steady s t)
include h

theorem Steady.regionFenced (r : Nat) : t.regionFenced r = s.regionFenced r := by
  unfold State.regionFenced State.flag
  rw [h.flds _ (.inl (fenceReg_rgnStatus r))]

theorem Steady.absent (b : Nat) : t.absent b = s.absent b := by
  rw [State.absent_eq_fld, State.absent_eq_fld, h.flds _ (.inr ⟨b, rfl⟩)]

theorem Steady.presentBlocks (r : Nat) : t.presentBlocks r = s.presentBlocks r := by
  unfold State.presentBlocks
  simp only [h.absent]

theorem Steady.cfg : t.cfg = s.cfg := congrArg (·.2.2.2.2) h.view

theorem Steady.journal : t.journal = s.journal := by
  have hview := h.view
  simp only [State.journalView, Prod.mk.injEq] at hview
  obtain ⟨hA, hB, hshadow, hshut, -⟩ := hview
  have hAOk : t.mirrorAOk = s.mirrorAOk := by
    unfold State.mirrorAOk
    rw [h.regionFenced, hshut, h.flds RNG_JOURNAL_STATUS_mirror_a (.inl (by decide))]
  have hBOk : t.mirrorBOk = s.mirrorBOk := by
    unfold State.mirrorBOk
    rw [h.regionFenced, hshut, h.flds RNG_JOURNAL_STATUS_mirror_b (.inl (by decide))]
  unfold State.journal
  rw [hAOk, hBOk, hA, hB, hshadow]

theorem Steady.desc (e : Nat) : t.desc e = s.desc e := by
  unfold State.desc State.jget
  rw [h.journal]

/-! #### Registers and event counters -/

/-- An update of neither the journal, the configuration nor the registers. -/
theorem Steady.congr (hview : u.journalView = t.journalView) (hregs : u.regs = t.regs) : Steady s u :=
  h.trans ⟨hview, fun f _ => State.fld_congr hregs f⟩

theorem Steady.foldl {α : Type} (l : List α) (f : State → α → State) (hf : ∀ y b, Steady s y → Steady s (f y b)) : Steady s (l.foldl f t) :=
  foldl_keeps (Steady s) l f t h hf

theorem Steady.forUpTo (n : Nat) (f : Nat → State → State) (hf : ∀ i y, Steady s y → Steady s (f i y)) : Steady s (forUpTo n f t) :=
  forUpTo_keeps (Steady s) n f t h hf

theorem Steady.setFld (f : Fld) (v : Nat) (hf : OffStatus f := by exact .inl (by decide)) : Steady s (t.setFld f v) :=
  h.trans ⟨rfl, fun _ hg => hg.fld_setFld hf t v⟩

theorem Steady.bump (f : Fld) (n : Nat) (hf : OffStatus f := by exact .inl (by decide)) : Steady s (t.bump f n) := h.setFld f _ hf

theorem Steady.setFlag (f : Fld) (hf : OffStatus f := by exact .inl (by decide)) : Steady s (t.setFlag f) := (h.setFld f 1 hf).congr rfl rfl

theorem Steady.count (k n : Nat) : Steady s (t.count k n) := by
  have hcounted : Steady s { t with cnt := SMap.set (fun _ => 0) t.cnt k ((SMap.get (fun _ => 0) t.cnt k + n) % 2 ^ 48) } := h.congr rfl rfl
  unfold State.count State.setFlagIf
  dsimp only
  split
  · exact hcounted.setFlag _ (.inr ⟨k, rfl⟩)
  · exact hcounted

theorem Steady.countBytes (k n : Nat) : Steady s (t.countBytes k n) := Steady.count (by exact h.congr rfl rfl) k _

/-! #### Writes to memory -/

theorem Steady.setBytes (a : Nat) (bs : List Byte) : Steady s (t.setBytes a bs) := by
  induction bs generalizing t a with
  | nil => exact h
  | cons b bs ih => exact ih (by exact h.congr rfl rfl) (a + 1)

theorem Steady.writeLine (a : Nat) (bs : List Byte) : Steady s (t.writeLine a bs) := by
  have hbytes := ((h.count (cntCtrl (hbmStack a) 1) 1).countBytes (cntRegion (hbmStack a / 6) 1) bs.length).setBytes a bs
  unfold State.writeLine
  dsimp only
  split
  · exact hbytes
  · split
    · exact hbytes.congr rfl rfl
    · exact hbytes.setFlag _ (.inl (not_statusReg_hbm _ _ 0 (Nat.mod_lt _ (by decide))))

theorem Steady.writeHbm (a : Nat) (bs : List Byte) (fuel : Nat) : Steady s (t.writeHbm a bs fuel) := by
  induction fuel generalizing t a bs with
  | zero => exact h
  | succ fuel ih =>
    unfold State.writeHbm
    split
    · exact h
    · exact ih (h.writeLine _ _) _ _

theorem Steady.put (a : Nat) (bs : List Byte) : Steady s (t.put a bs) := by
  unfold State.put
  split
  · exact h.writeHbm a bs _
  · exact h.setBytes a bs

/-! #### Reads of memory (R418, R510 to R513, R520) -/

theorem Steady.noteHbmRead (a n : Nat) : Steady s (t.noteHbmRead a n) := by
  unfold State.noteHbmRead
  split
  · exact h
  · refine Steady.countBytes (h.forUpTo _ _ fun i y hy => ?_) _ _
    have hc : ∀ k : Nat, k % 6 < 6 := fun k => Nat.mod_lt _ (by decide)
    unfold State.noteLineRead
    dsimp only
    split
    · exact ((hy.count _ 1).setFlag _ (.inl (not_statusReg_hbm _ _ 0 (hc _)))).bump _ 1 (.inl (not_statusReg_hbm _ _ 8 (hc _)))
    · exact hy.count _ 1

theorem Steady.unmapped : Steady s t.unmapped := (h.setFlag HUB_ADDR_STATUS_unmapped).bump HUB_ADDR_COUNT_unmapped_accesses 1

theorem Steady.winRead (b off len : Nat) : Steady s (t.winRead b off len).2.2 := by
  refine Steady.count (h.foldl _ _ fun y row hy => ?_) _ _
  have hrow : Steady s (y.setPanRow b row { y.panRow b row with parityErr := true }) := hy.congr rfl rfl
  exact ((hrow.setFlag _ (.inl (not_statusReg_blk b 0x400))).bump _ 1 (.inl (not_statusReg_blk b 0x400))).count _ _

theorem Steady.syncDrop (r : Nat) : Steady s (t.syncDrop r) :=
  (h.bump _ 1 (.inl (not_statusReg_rgn r 0x4008))).setFlag _ (.inl (not_statusReg_rgn r 0x4000))

/-- A read of the register mirror latches at most TID_NOW_HI (R42). -/
theorem Steady.readReg (a : Nat) : Steady s (t.readReg a).2 := by
  unfold State.readReg
  dsimp only
  split
  · exact h.setFld TID_NOW_HI_tide_hi _
  · exact h

theorem Steady.readPiece (who : Who) (a n : Nat) : Steady s (t.readPiece who a n).2.2 := by
  unfold State.readPiece
  split
  · split
    · exact h.noteHbmRead a n
    · exact (h.countBytes _ n).countBytes _ n
    · exact (h.winRead _ _ n).countBytes _ n
    · exact h.countBytes _ n
    · split
      · exact h.unmapped
      · split
        · exact h
        · exact h.syncDrop _
    · split
      · exact h.unmapped.setFlag HUB_ADDR_STATUS_remote_mirror
      · split
        · exact h.readReg _
        · exact h.bump HUB_ADDR_COUNT_unmapped_accesses 1
    · exact h.unmapped
  · exact h.unmapped

theorem Steady.busRead (who : Who) (a n fuel : Nat) : Steady s (t.busRead who a n fuel).2.2 := by
  induction fuel generalizing t a n with
  | zero => exact h
  | succ fuel ih =>
    unfold State.busRead
    split
    · exact h
    · exact ih (h.readPiece who a _) _ _

theorem Steady.load (who : Who) (a n : Nat) : Steady s (t.load who a n).2.2 := h.busRead who a n _

end

end Sys2Proof.Machine
end

section
/-! SUPPORT. Family 07_curvature_statistics.md: the memory that a unit's read leaves, the HBM that it finds open, and a unit's write there (O20). -/

namespace Sys2Proof.Machine

/-! ### A read leaves memory as it is -/

@[simp] theorem State.unmapped_mem (s : State) : s.unmapped.mem = s.mem :=
  (State.bump_mem _ _ _).trans (State.setFlag_mem _ _)

@[simp] theorem State.syncDrop_mem (s : State) (r : Nat) : (s.syncDrop r).mem = s.mem :=
  (State.setFlag_mem _ _).trans (State.bump_mem _ _ _)

@[simp] theorem State.noteHbmRead_mem (s : State) (a n : Nat) : (s.noteHbmRead a n).mem = s.mem := by
  unfold State.noteHbmRead
  split
  · rfl
  · rw [State.countBytes_mem]
    refine forUpTo_keeps (fun t : State => t.mem = s.mem) _ _ s rfl fun i y hy => ?_
    unfold State.noteLineRead
    dsimp only
    split
    · exact (State.bump_mem _ _ _).trans ((State.setFlag_mem _ _).trans ((State.count_mem _ _ _).trans hy))
    · exact (State.count_mem _ _ _).trans hy

@[simp] theorem State.winRead_mem (s : State) (b off len : Nat) : (s.winRead b off len).2.2.mem = s.mem := by
  refine (State.count_mem _ _ _).trans (foldl_keeps (fun t : State => t.mem = s.mem) _ _ s rfl fun y row hy => ?_)
  exact (State.count_mem _ _ _).trans ((State.bump_mem _ _ _).trans ((State.setFlag_mem _ _).trans hy))

@[simp] theorem State.readReg_mem (s : State) (a : Nat) : (s.readReg a).2.mem = s.mem := by
  unfold State.readReg
  dsimp only
  split <;> rfl

theorem State.readPiece_mem (s : State) (who : Who) (a n : Nat) : (s.readPiece who a n).2.2.mem = s.mem := by
  unfold State.readPiece
  split
  · split
    · exact s.noteHbmRead_mem a n
    · simp
    · simp
    · simp
    · split
      · exact s.unmapped_mem
      · split
        · rfl
        · exact s.syncDrop_mem _
    · split
      · exact (State.setFlag_mem _ _).trans s.unmapped_mem
      · split
        · exact s.readReg_mem _
        · exact State.bump_mem _ _ _
    · exact s.unmapped_mem
  · exact s.unmapped_mem

theorem State.busRead_mem (s : State) (who : Who) (a n fuel : Nat) : (s.busRead who a n fuel).2.2.mem = s.mem := by
  induction fuel generalizing s a n with
  | zero => rfl
  | succ fuel ih =>
    unfold State.busRead
    split
    · rfl
    · exact (ih _ _ _).trans (s.readPiece_mem who a _)

theorem State.memSame_load (s : State) (who : Who) (a n : Nat) : MemSame s (s.load who a n).2.2 := State.byte_congr (s.busRead_mem who a n _)

/-! ### Pieces of HBM (R509, R510) -/

theorem placeOf_hbm {a : Nat} (ha : a < hbmTop) : placeOf a = (.hbm, 0x003600000000 - a % 0x003600000000) := if_pos ha

/-- A piece in HBM ends with its region. -/
theorem max_pieceLen_hbm {a n : Nat} (ha : a < hbmTop) (hn : n ≠ 0) : max 1 (pieceLen a n) = min n (0x003600000000 - a % 0x003600000000) := by
  unfold pieceLen
  rw [placeOf_hbm ha]
  show max 1 (min n (0x003600000000 - a % 0x003600000000)) = _
  omega

theorem hbmRegion_of_piece {a x : Nat} (hlo : a ≤ x) (hhi : x < a + (0x003600000000 - a % 0x003600000000)) : hbmRegion x = hbmRegion a := by
  unfold hbmRegion
  omega

theorem AccEnd.join_eq_ok {x y : AccEnd} : x.join y = .ok → x = .ok ∧ y = .ok := by
  cases x <;> cases y <;> simp [AccEnd.join]

/-! ### The HBM that a read finds open (R23, R512) -/

theorem State.openAt_of_readPiece {s : State} {who : Who} {a n : Nat} (h : (s.readPiece who a n).2.1 = .ok) : s.openAt a = .ok := by
  cases ho : s.openAt a with
  | ok => rfl
  | fault => rw [State.readPiece, ho] at h; cases h
  | fenced => rw [State.readPiece, ho] at h; cases h

theorem State.regionFenced_of_openAt {s : State} {a : Nat} (ha : a < hbmTop) (h : s.openAt a = .ok) : s.regionFenced (hbmRegion a) = false := by
  unfold State.openAt at h
  rw [placeOf_hbm ha] at h
  cases hf : s.regionFenced (hbmRegion a) with
  | false => rfl
  | true => simp [hf] at h

/-- A read that succeeds has found the regions of its bytes running. -/
theorem State.open_of_busRead {s : State} {who : Who} {a n fuel : Nat} (hfuel : n < fuel) (h : (s.busRead who a n fuel).2.1 = .ok) :
    ∀ x, a ≤ x → x < a + n → x < hbmTop → s.regionFenced (hbmRegion x) = false := by
  induction fuel generalizing s a n with
  | zero => omega
  | succ fuel ih =>
    intro x hlo hhi hx
    have hn : n ≠ 0 := by omega
    have ha : a < hbmTop := by omega
    rw [State.busRead, if_neg hn] at h
    obtain ⟨hpiece, hrest⟩ := AccEnd.join_eq_ok h
    rw [max_pieceLen_hbm ha hn] at hpiece hrest
    have hmod := Nat.mod_lt a (by decide : 0x003600000000 > 0)
    by_cases hin : x < a + min n (0x003600000000 - a % 0x003600000000)
    · rw [hbmRegion_of_piece hlo (by omega)]
      exact State.regionFenced_of_openAt ha (State.openAt_of_readPiece hpiece)
    · rw [← ((Steady.refl s).readPiece who a (min n (0x003600000000 - a % 0x003600000000))).regionFenced]
      exact ih (by omega) hrest x (by omega) (by omega) hx

theorem State.open_of_load {s : State} {who : Who} {a n : Nat} (h : (s.load who a n).2.1 = .ok) :
    ∀ x, a ≤ x → x < a + n → x < hbmTop → s.regionFenced (hbmRegion x) = false :=
  State.open_of_busRead (Nat.lt_succ_self n) h

/-! ### A write to open HBM (R510, R512, R521) -/

theorem State.writePiece_hbm {s : State} {a : Nat} (ha : a < hbmTop) (hopen : s.regionFenced (hbmRegion a) = false)
    (wr : State → Nat → Word → State) (who : Who) (bs : List Byte) : s.writePiece wr who a bs = (.ok, s.writeHbm a bs (bs.length + 1)) := by
  have ho : s.openAt a = .ok := by
    unfold State.openAt
    rw [placeOf_hbm ha]
    simp [hopen]
  unfold State.writePiece
  rw [ho, placeOf_hbm ha]

/-- A unit's write to HBM whose regions run is a write of its bytes. -/
theorem State.byte_busWrite {s : State} {a : Nat} {bs : List Byte} {fuel : Nat} (hfuel : bs.length < fuel) (htop : a + bs.length ≤ hbmTop)
    (hopen : ∀ x, a ≤ x → x < a + bs.length → s.regionFenced (hbmRegion x) = false) (wr : State → Nat → Word → State) (who : Who) (x : Nat) :
    (s.busWrite wr who a bs fuel).2.byte x = if a ≤ x ∧ x < a + bs.length then bs.getD (x - a) 0#8 else s.byte x := by
  induction fuel generalizing s a bs with
  | zero => omega
  | succ fuel ih =>
    unfold State.busWrite
    split
    · next hempty => rw [List.isEmpty_iff.mp hempty, if_neg (by simp only [List.length_nil]; omega)]
    · next hne =>
      have hlen : bs.length ≠ 0 := fun h0 => hne (by simpa using h0)
      have ha : a < hbmTop := by omega
      have hmod := Nat.mod_lt a (by decide : 0x003600000000 > 0)
      dsimp only
      rw [max_pieceLen_hbm ha hlen, State.writePiece_hbm ha (hopen a (Nat.le_refl a) (by omega))]
      generalize hk : min bs.length (0x003600000000 - a % 0x003600000000) = k
      have hrest : (bs.drop k).length = bs.length - k := List.length_drop
      have hpiece : (bs.take k).length = k := List.length_take_of_le (by omega)
      rw [ih (by omega) (by omega) fun y hlo hhi =>
        (((Steady.refl s).writeHbm a (bs.take k) _).regionFenced _).trans (hopen y (by omega) (by omega))]
      rw [State.byte_writeHbm _ s a (bs.take k) (Nat.lt_succ_self _), hrest, hpiece]
      by_cases hlow : x < a + k
      · rw [if_neg (by omega)]
        by_cases hlo : a ≤ x
        · rw [if_pos ⟨hlo, hlow⟩, if_pos (by omega), List.getD_eq_getElem?_getD, List.getElem?_take_of_lt (by omega), List.getD_eq_getElem?_getD]
        · rw [if_neg (by omega), if_neg (by omega)]
      · rw [if_neg (c := a ≤ x ∧ x < a + k) (by omega)]
        by_cases hhi : x < a + bs.length
        · rw [if_pos (by omega), if_pos (by omega), List.getD_eq_getElem?_getD, List.getElem?_drop, List.getD_eq_getElem?_getD]
          congr 2
          omega
        · rw [if_neg (by omega), if_neg (by omega)]

theorem State.byte_store {s : State} {a : Nat} {bs : List Byte} (htop : a + bs.length ≤ hbmTop)
    (hopen : ∀ x, a ≤ x → x < a + bs.length → s.regionFenced (hbmRegion x) = false) (who : Who) (x : Nat) :
    (s.store who a bs).2.byte x = if a ≤ x ∧ x < a + bs.length then bs.getD (x - a) 0#8 else s.byte x :=
  State.byte_busWrite (Nat.lt_succ_self _) htop hopen noMirror who x

/-- Bytes that a write has left read as the string written. -/
theorem State.bytes_of_written {s t : State} {a : Nat} {bs : List Byte}
    (h : ∀ x, t.byte x = if a ≤ x ∧ x < a + bs.length then bs.getD (x - a) 0#8 else s.byte x) : t.bytes a bs.length = bs := by
  refine List.ext_getElem (by simp [State.bytes]) fun i hi hi' => ?_
  simp only [State.bytes, List.getElem_map, List.getElem_range]
  rw [h, if_pos (by omega), Nat.add_sub_cancel_left, List.getD_eq_getElem _ _ hi']

end Sys2Proof.Machine
end

section
/-! SUPPORT. Family 07_curvature_statistics.md: STATS and its deadline (O20). -/

namespace Sys2Proof.Machine

/-! ### The end of a descriptor that is in no group (R342, R477) -/

theorem Status.pick_single (st : Status) : Status.pick [st] = st := by cases st <;> rfl

/-- A descriptor that completes with one status leaves its completion last. -/
theorem State.complete_ends (s : State) (e : Nat) (st : Status) (err : ErrCode) (c1 c2 : Nat) :
    ∃ d, (s.complete e [st] err c1 c2).doneQ.getLast? = some d ∧ d.entry = e ∧ d.status = st ∧ (err = .none → d.err = .none) ∧ d.c2 = c2 % 2 ^ 32 :=
  ⟨_, List.getLast?_concat .., rfl, Status.pick_single st, fun h => by rw [h]; exact ite_self _, rfl⟩

theorem State.complete_endsAs (s : State) (e : Nat) (st : Status) (c1 c2 : Nat) : EndsAs (s.complete e [st] .none c1 c2) e st .none := by
  obtain ⟨d, hlast, hentry, hstatus, herr, -⟩ := s.complete_ends e st .none c1 c2
  exact ⟨d, hlast, hentry, hstatus, herr rfl⟩

theorem State.memSame_complete (s : State) (e : Nat) (st : List Status) (err : ErrCode) (c1 c2 : Nat) : MemSame s (s.complete e st err c1 c2) :=
  State.byte_congr (s.complete_mem e st err c1 c2)

theorem memberOf_eq_zero {d : List Byte} (h : dGroup d = 0) : memberOf d = 0 := by
  unfold memberOf
  rw [h, ite_self]

section
variable {s : State} {e : Nat} (hsingle : dGroup (s.desc e) = 0)
include hsingle

theorem State.failMember_single (err : ErrCode) : s.failMember e err = s.complete e [.faultFailed] err := by
  unfold State.failMember
  rw [memberOf_eq_zero hsingle]
  rfl

theorem State.finish_single (fx : List Effect) (st : List Status) (err : ErrCode) (c1 c2 : Nat) :
    s.finish e fx st err c1 c2 = (fx.foldl State.makeEffect s).complete e st err c1 c2 := if_pos hsingle

/-- A descriptor in no group that is late ends with LATE and writes nothing. -/
theorem State.lateMember_single : EndsAs (s.lateMember e) e .late .none ∧ (s.lateMember e).tide = s.tide ∧ MemSame s (s.lateMember e) := by
  have hlate : s.lateMember e = (s.setFlagIf (dKind (s.desc e) == kindOwnerMap) HUB_MAP_STATUS_map_late).complete e [.late] .none := by
    unfold State.lateMember
    rw [memberOf_eq_zero hsingle]
    rfl
  rw [hlate]
  refine ⟨State.complete_endsAs .., ?_, fun a => (State.memSame_complete _ e _ _ 0 0 a).trans (State.byte_congr (State.setFlagIf_mem _ _ _) a)⟩
  rw [State.complete_tide]
  unfold State.setFlagIf
  split
  · exact State.setFlag_tide _ _
  · rfl

/-- A STATS of a step that is skipped, outside a group, ends with SKIPPED and writes nothing (R240). -/
theorem State.statsSkip_single : EndsAs (s.statsSkip e) e .skipped .none ∧ MemSame s (s.statsSkip e) := by
  unfold State.statsSkip
  rw [State.finish_single hsingle, List.foldl_nil, ite_self]
  exact ⟨State.complete_endsAs .., s.memSame_complete e _ _ _ _⟩

end

/-! ### What a STATS reads (R236, R238, R239) -/

theorem Steady.statsPlace {s t : State} (h : Steady s t) (d hd : List Byte) : t.statsPlace d hd = s.statsPlace d hd := by
  unfold State.statsPlace
  rw [h.regionFenced, h.regionFenced, h.absent, h.presentBlocks]

theorem State.sumsFinite_congr {s t : State} (h : MemSame s t) : t.sumsFinite = s.sumsFinite := by
  funext d hd q
  simp only [State.sumsFinite, State.tileSum, State.le, State.bytes_memSame h]

theorem State.newFactor_congr {s t : State} (h : MemSame s t) (hcfg : t.cfg = s.cfg) : t.newFactor = s.newFactor := by
  funext d hd q
  simp only [State.newFactor, State.tileSum, State.le, State.bytes_memSame h, State.sumsFinite_congr h, hcfg]

/-! ### What a STATS writes (R238 to R240) -/

/-- The bytes of the copy that a STATS writes. -/
def State.newCopy (s : State) (d h : List Byte) : List Byte := (List.range (blockCount (faD h) (faB h))).flatMap (fun q => s.newFactor d h q)

/-- How many of its blocks a STATS leaves out (R240). -/
def State.leftOut (s : State) (d h : List Byte) : Nat :=
  ((List.range (stCount d)).filter (fun k => !s.sumsFinite d h (stFirst d + k))).length

theorem State.length_left (s : State) (d h : List Byte) : ((stBlocks d).filter (fun q => !s.sumsFinite d h q)).length = s.leftOut d h := by
  unfold stBlocks State.leftOut
  rw [List.filter_map, List.length_map]
  rfl

theorem length_bytesAt (bs : List Byte) (off n : Nat) : (bytesAt bs off n).length = n := by
  simp [bytesAt]

theorem length_statsHeader (d h : List Byte) : (statsHeader d h).length = 64 := by
  simp [statsHeader, length_leBytes, length_bytesAt]

/-- The header lies below either copy (R235). -/
theorem header_le_factorAt (area d b v q : Nat) : area + 64 ≤ factorAt area d b v q := by
  unfold factorAt
  omega

/-- The work of a STATS in no group whose blocks can run it: the new copy is written, then the header, and it completes. -/
theorem State.runStats_single {s : State} {e : Nat} {h : List Byte} (hsingle : dGroup (s.desc e) = 0) (hplace : s.statsPlace (s.desc e) h = .none) :
    ∃ u n, Steady s u ∧
      MemSame (s.put (factorAt (stArea (s.desc e)) (faD h) (faB h) (faVersion h + 1) 0) (s.newCopy (s.desc e) h)) u ∧
      s.runStats e h .none = (u.store devUnit (stArea (s.desc e)) (statsHeader (s.desc e) h)).2.complete e
        [if s.leftOut (s.desc e) h = 0 then .ok else .range] .blockError n (s.leftOut (s.desc e) h) := by
  have hput := (Steady.refl s).put (factorAt (stArea (s.desc e)) (faD h) (faB h) (faVersion h + 1) 0) (s.newCopy (s.desc e) h)
  unfold State.runStats
  extract_lets d n left done s1 x u count t
  have hs1 : Steady s s1 := hput
  have hu : u.2 = s1 := rfl
  have hcounted : Steady s t ∧ t.mem = s1.mem := by
    refine foldl_keeps (fun y : State => Steady s y ∧ y.mem = s1.mem) _ _ _ ⟨hs1, rfl⟩ fun y b hy => ?_
    exact ⟨hy.1.count _ _, (State.count_mem _ _ _).trans hy.2⟩
  obtain ⟨hsteady, hmem⟩ := hcounted
  refine ⟨t, count, hsteady, State.byte_congr hmem, ?_⟩
  rw [if_neg (by rw [hu, hs1.statsPlace, hplace]; simp), State.finish_single (by rw [hsteady.desc]; exact hsingle)]
  have hleft : left.length = s.leftOut d h := s.length_left d h
  have hempty : (if left.isEmpty then Status.ok else .range) = if s.leftOut d h = 0 then .ok else .range := by
    rw [← hleft]
    simp only [List.isEmpty_iff_length_eq_zero]
  rw [hempty, hleft]
  rfl

/-- What that work leaves: its completion last, with the count of the blocks left out, and in HBM that runs the new copy and the header. -/
theorem State.runStats_writes {s : State} {e : Nat} {h : List Byte} (hsingle : dGroup (s.desc e) = 0) (hplace : s.statsPlace (s.desc e) h = .none)
    (hopen : ∀ a, stArea (s.desc e) ≤ a → a < stArea (s.desc e) + 64 → a < hbmTop → s.regionFenced (hbmRegion a) = false) :
    (∃ d, (s.runStats e h .none).doneQ.getLast? = some d ∧ d.entry = e ∧ d.c2 = s.leftOut (s.desc e) h % 2 ^ 32 ∧
      d.status = if s.leftOut (s.desc e) h = 0 then .ok else .range) ∧
    (stArea (s.desc e) + 64 ≤ hbmTop → (s.runStats e h .none).bytes (stArea (s.desc e)) 64 = statsHeader (s.desc e) h ∧
      (s.runStats e h .none).bytes (factorAt (stArea (s.desc e)) (faD h) (faB h) (faVersion h + 1) 0) (s.newCopy (s.desc e) h).length =
        s.newCopy (s.desc e) h) := by
  obtain ⟨u, n, hsteady, hmem, hrun⟩ := State.runStats_single hsingle hplace
  rw [hrun]
  refine ⟨?_, fun htop => ?_⟩
  · obtain ⟨d, hlast, hentry, hstatus, -, hleft⟩ := State.complete_ends _ e _ .blockError n _
    exact ⟨d, hlast, hentry, hleft, hstatus⟩
  have hlen := length_statsHeader (s.desc e) h
  have hstored := State.byte_store (s := u) (bs := statsHeader (s.desc e) h) (by rw [hlen]; exact htop)
    (fun a hlo hhi => (hsteady.regionFenced _).trans (hopen a hlo (by omega) (by omega))) devUnit
  rw [State.bytes_memSame (State.memSame_complete _ e _ _ n _), State.bytes_memSame (State.memSame_complete _ e _ _ n _)]
  constructor
  · have hheader := State.bytes_of_written hstored
    rwa [hlen] at hheader
  · have hbelow := header_le_factorAt (stArea (s.desc e)) (faD h) (faB h) (faVersion h + 1) 0
    rw [State.bytes_congr fun i _ => (hstored _).trans (if_neg (by omega)), State.bytes_memSame hmem]
    exact State.bytes_of_written fun a => s.byte_put _ _ a

/-! ### STATS (R237 to R244) -/

theorem exec_stats (e : Nat) (u : LaneUpset) (s : State) : exec (.stats e u) s = execStats e u s := rfl

section
variable {s : State} {e : Nat} (hfresh : s.fresh e kindStats = true)
include hfresh

theorem exec_stats_bad (hok : statsOk (s.desc e) = false) (u : LaneUpset) : exec (.stats e u) s = .next (s.failMember e .badDescriptor) := by
  rw [exec_stats]
  unfold execStats
  dsimp only
  rw [if_neg (by simp [hfresh]), if_pos (by simp [hok])]

theorem exec_stats_late (hok : statsOk (s.desc e) = true) (hlate : s.statsLate (s.desc e) = true) (u : LaneUpset) :
    exec (.stats e u) s = .next (s.lateMember e) := by
  rw [exec_stats]
  unfold execStats
  dsimp only
  rw [if_neg (by simp [hfresh]), if_neg (by simp [hok]), if_pos hlate]

variable {x : List Byte × AccEnd × State} (hok : statsOk (s.desc e) = true) (hlate : s.statsLate (s.desc e) = false)
  (hearlier : s.earlier e kindStats (fun d => stArea d == stArea (s.desc e)) = false)
  (hwork : ∀ p ∈ s.work, p.2.done = true ∨ p.2.kind ≠ kindStats ∨ p.1 = e ∨ p.2.phase = 0 ∨ stArea (s.desc p.1) ≠ stArea (s.desc e))
  (hx : x = s.load devUnit (stArea (s.desc e)) 64) (hxok : x.2.1 = .ok) (hhead : statsHeaderOk (s.desc e) x.1 = true)
  (hplace : s.statsPlace (s.desc e) x.1 = .none)
include hok hlate hearlier hwork hx hxok hhead hplace

/-- A STATS whose checks pass waits for the confirmed verdict of its step; on skip or veto it is skipped, else it runs once the committed copy and the
tile sums have been read. -/
theorem exec_stats_checked (u : LaneUpset) :
    (s.confirmedCode (leAt (s.desc e) 36 4) = none → exec (.stats e u) s = .next s) ∧
    (∀ code, s.confirmedCode (leAt (s.desc e) 36 4) = some code → code = 3 ∨ code = 4 → exec (.stats e u) s = .next (x.2.2.statsSkip e)) ∧
    (∀ code, s.confirmedCode (leAt (s.desc e) 36 4) = some code → ¬(code = 3 ∨ code = 4) → ∀ y z : List Byte × AccEnd × State,
      y = x.2.2.load devUnit (factorAt (stArea (s.desc e)) (faD x.1) (faB x.1) (faVersion x.1) 0) (copySize (faD x.1) (faB x.1)) → y.2.1 = .ok →
      z = y.2.2.load devUnit (leAt (s.desc e) 40 8) (sumOff (s.desc e) x.1 (stFirst (s.desc e) + stCount (s.desc e))) → z.2.1 = .ok →
      exec (.stats e u) s = .next (z.2.2.runStats e x.1 u)) := by
  have hturn : ¬((s.earlier e kindStats (fun d => stArea d == stArea (s.desc e)) || s.work.any (fun p => !p.2.done && p.2.kind == kindStats &&
      p.1 != e && p.2.phase != 0 && stArea (s.desc p.1) == stArea (s.desc e))) = true) := by
    rw [hearlier, Bool.false_or, List.any_eq_true]
    rintro ⟨p, hp, hbusy⟩
    simp only [Bool.and_eq_true, Bool.not_eq_true', beq_iff_eq, bne_iff_ne] at hbusy
    obtain ⟨⟨⟨⟨hdone, hkind⟩, hother⟩, hphase⟩, harea⟩ := hbusy
    rcases hwork p hp with h | h | h | h | h
    · exact absurd h (by simp [hdone])
    · exact h hkind
    · exact hother h
    · exact hphase h
    · exact h harea
  rw [exec_stats]
  unfold execStats
  dsimp only
  rw [if_neg (by simp [hfresh]), if_neg (by simp [hok]), if_neg (by simp [hlate]), if_neg hturn, ← hx, if_neg (by simp [hxok]),
    if_neg (by simp [hhead]), if_neg (by simp [hplace])]
  refine ⟨fun hnone => ?_, fun code hcode hskip => ?_, fun code hcode happly y z hy hyok hz hzok => ?_⟩
  · rw [hnone]
  · rw [hcode]
    exact congrArg _ (if_pos hskip)
  · rw [hcode]
    dsimp only
    rw [if_neg happly, ← hy, ← hz, hyok, hzok]
    rfl

end

theorem exec_statsDeadline {s : State} {e : Nat} (hfresh : s.fresh e kindStats = true) (hvalid : dDeadlineValid (s.desc e) = true)
    (hnone : s.confirmedCode (leAt (s.desc e) 36 4) = none) :
    exec (.statsDeadline e) s = .next ((s.atTide (dDeadline (s.desc e))).lateMember e) :=
  congrArg Host.Outcome.next (if_pos ⟨hfresh, hvalid, by rw [hnone]; rfl⟩)

/-- Settles O20: reads leave the journal, the places and the memory that the work depends on, and the header is written where it was read, in HBM that
runs. -/
theorem statsRuns : Obligations.StatsRuns := by
  intro s e hfresh hsingle
  refine ⟨fun x y z hok hlate hearlier hwork hx hxok hhead hplace => ?_, fun hok hlate u => ?_, fun hbad u => ?_, fun hvalid hnone => ?_⟩
  · obtain ⟨hwaits, hskips, hruns⟩ := exec_stats_checked hfresh hok hlate hearlier hwork hx hxok hhead hplace .none
    have hsx : Steady s x.2.2 := by rw [hx]; exact (Steady.refl s).load ..
    have hmx : MemSame s x.2.2 := by rw [hx]; exact s.memSame_load _ _ _
    refine ⟨fun code hcode hskip => ?_, fun code hcode h3 h4 hy hyok hz hzok => ?_, hwaits⟩
    · obtain ⟨hends, hmem⟩ := State.statsSkip_single (s := x.2.2) (e := e) (by rw [hsx.desc]; exact hsingle)
      exact ⟨_, hskips code hcode hskip, hends, fun a => (hmem a).trans (hmx a)⟩
    · have hsz : Steady s z.2.2 := by rw [hz, hy]; exact (hsx.load ..).load ..
      have hmz : MemSame s z.2.2 := fun a => by rw [hz, State.memSame_load, hy, State.memSame_load, hmx]
      have hdesc := hsz.desc e
      have hcopy : z.2.2.newCopy (s.desc e) x.1 = s.newCopy (s.desc e) x.1 := by
        unfold State.newCopy
        rw [State.newFactor_congr hmz hsz.cfg]
      have hleft : z.2.2.leftOut (s.desc e) x.1 = s.leftOut (s.desc e) x.1 := by
        unfold State.leftOut
        rw [State.sumsFinite_congr hmz]
      have hwrites := State.runStats_writes (s := z.2.2) (e := e) (h := x.1) (by rw [hdesc]; exact hsingle)
        (by rw [hdesc, hsz.statsPlace]; exact hplace) fun a hlo hhi htop => by
          rw [hdesc] at hlo hhi
          rw [hsz.regionFenced]
          exact State.open_of_load (hx ▸ hxok) a hlo hhi htop
      rw [hdesc, hcopy, hleft] at hwrites
      obtain ⟨⟨d, hlast, hentry, hcount, hstatus⟩, hbytes⟩ := hwrites
      refine ⟨_, d, _, hruns code hcode (by simp [h3, h4]) y z hy hyok hz hzok, hlast, hentry, rfl, hcount, hstatus, fun htop => ?_⟩
      obtain ⟨hheader, hnew⟩ := hbytes (by omega)
      exact ⟨hheader, fun new hdef => by rw [hdef]; exact hnew⟩
  · obtain ⟨hends, -, hmem⟩ := State.lateMember_single hsingle
    exact ⟨_, exec_stats_late hfresh hok hlate u, hends, hmem⟩
  · rw [exec_stats_bad hfresh hbad, State.failMember_single hsingle]
  · obtain ⟨hends, htide, hmem⟩ := State.lateMember_single (s := s.atTide (dDeadline (s.desc e))) (e := e) hsingle
    exact ⟨_, exec_statsDeadline hfresh hvalid hnone, hends, congrArg TideUnit.ns htide, hmem⟩

end Sys2Proof.Machine
end

section
/-! SUPPORT. Family 08_matrix_function_unit.md: what a unit's read of memory notes, and that no access to memory touches jobs and descriptors (O21). -/

namespace Sys2Proof.Machine

/-! ### What a read notes (R510 to R513, R520, R601) -/

/-- A state without what a read notes: registers and their events, event counters, and the parity marks of pan rows. -/
def State.unnoted (s : State) : State := { s with regs := [], evt := [], cnt := [], cntRem := [], panRows := [] }

/-- Only such notes differ, and dup_roots (R548) is as before. -/
structure Noted (s t : State) : Prop where
  rest : t.unnoted = s.unnoted
  dupRoots : t.fld HUB_REDUN_CTL_dup_roots = s.fld HUB_REDUN_CTL_dup_roots

theorem Noted.refl (s : State) : Noted s s := ⟨rfl, rfl⟩

theorem Noted.trans {s t u : State} (h : Noted s t) (k : Noted t u) : Noted s u := ⟨k.rest.trans h.rest, k.dupRoots.trans h.dupRoots⟩

theorem rgn_ne_redun (n o : Nat) : rgnBase n + o ≠ HUB_REDUN_CTL := by
  unfold rgnBase HUB_REDUN_CTL
  omega

/-- The registers of an HBM controller. -/
theorem hbm_ne_redun (n c o : Nat) : rgnBase n + 0x5000 + c * 0x40 + o ≠ HUB_REDUN_CTL := by
  unfold rgnBase HUB_REDUN_CTL
  omega

theorem blk_ne_redun (b o : Nat) : blkBase b + o ≠ HUB_REDUN_CTL := by
  unfold blkBase HUB_REDUN_CTL
  omega

theorem cntOverflow_ne_redun (k : Nat) : (CNT_VALUE_HI_overflow k).addr ≠ HUB_REDUN_CTL := by
  show 0xC10004 + k * 8 ≠ 0xA020
  omega

section
variable {s t u : State} (h : Noted s t)
include h

theorem Noted.congr (hrest : u.unnoted = t.unnoted) (hregs : u.regs = t.regs) : Noted s u := h.trans ⟨hrest, State.fld_congr hregs _⟩

theorem Noted.foldl {α : Type} (l : List α) (f : State → α → State) (hf : ∀ y b, Noted s y → Noted s (f y b)) : Noted s (l.foldl f t) :=
  foldl_keeps (Noted s) l f t h hf

theorem Noted.forUpTo (n : Nat) (f : Nat → State → State) (hf : ∀ i y, Noted s y → Noted s (f i y)) : Noted s (forUpTo n f t) :=
  forUpTo_keeps (Noted s) n f t h hf

theorem Noted.setFld (f : Fld) (v : Nat) (hf : f.addr ≠ HUB_REDUN_CTL := by decide) : Noted s (t.setFld f v) :=
  h.trans ⟨rfl, State.fld_setFld_addr t f _ v hf.symm⟩

theorem Noted.bump (f : Fld) (n : Nat) (hf : f.addr ≠ HUB_REDUN_CTL := by decide) : Noted s (t.bump f n) := h.setFld f _ hf

theorem Noted.setFlag (f : Fld) (hf : f.addr ≠ HUB_REDUN_CTL := by decide) : Noted s (t.setFlag f) := (h.setFld f 1 hf).congr rfl rfl

theorem Noted.count (k n : Nat) : Noted s (t.count k n) := by
  have hcounted : Noted s { t with cnt := SMap.set (fun _ => 0) t.cnt k ((SMap.get (fun _ => 0) t.cnt k + n) % 2 ^ 48) } := h.congr rfl rfl
  unfold State.count State.setFlagIf
  dsimp only
  split
  · exact hcounted.setFlag _ (cntOverflow_ne_redun k)
  · exact hcounted

theorem Noted.countBytes (k n : Nat) : Noted s (t.countBytes k n) := Noted.count (by exact h.congr rfl rfl) k _

theorem Noted.noteHbmRead (a n : Nat) : Noted s (t.noteHbmRead a n) := by
  unfold State.noteHbmRead
  split
  · exact h
  · refine Noted.countBytes (h.forUpTo _ _ fun i y hy => ?_) _ _
    unfold State.noteLineRead
    dsimp only
    split
    · exact ((hy.count _ 1).setFlag _ (hbm_ne_redun _ _ 0)).bump _ 1 (hbm_ne_redun _ _ 8)
    · exact hy.count _ 1

theorem Noted.unmapped : Noted s t.unmapped := (h.setFlag HUB_ADDR_STATUS_unmapped).bump HUB_ADDR_COUNT_unmapped_accesses 1

theorem Noted.winRead (b off len : Nat) : Noted s (t.winRead b off len).2.2 := by
  refine Noted.count (h.foldl _ _ fun y row hy => ?_) _ _
  have hrow : Noted s (y.setPanRow b row { y.panRow b row with parityErr := true }) := hy.congr rfl rfl
  exact ((hrow.setFlag _ (blk_ne_redun b 0x400)).bump _ 1 (blk_ne_redun b 0x400)).count _ _

theorem Noted.syncDrop (r : Nat) : Noted s (t.syncDrop r) := (h.bump _ 1 (rgn_ne_redun r 0x4008)).setFlag _ (rgn_ne_redun r 0x4000)

theorem Noted.readReg (a : Nat) : Noted s (t.readReg a).2 := by
  unfold State.readReg
  dsimp only
  split
  · exact h.setFld TID_NOW_HI_tide_hi _
  · exact h

theorem Noted.readPiece (who : Who) (a n : Nat) : Noted s (t.readPiece who a n).2.2 := by
  unfold State.readPiece
  split
  case h_1 =>
    split
    case h_1 => exact h.noteHbmRead a n
    case h_2 => exact (h.countBytes _ n).countBytes _ n
    case h_3 => exact (h.winRead _ _ n).countBytes _ n
    case h_4 => exact h.countBytes _ n
    case h_5 =>
      split
      · exact h.unmapped
      · split
        · exact h
        · exact h.syncDrop _
    case h_6 =>
      split
      · exact h.unmapped.setFlag HUB_ADDR_STATUS_remote_mirror
      · split
        · exact h.readReg _
        · exact h.bump HUB_ADDR_COUNT_unmapped_accesses 1
    case h_7 => exact h.unmapped
  case h_2 => exact h.unmapped

theorem Noted.busRead (who : Who) (a n fuel : Nat) : Noted s (t.busRead who a n fuel).2.2 := by
  induction fuel generalizing t a n with
  | zero => exact h
  | succ fuel ih =>
    unfold State.busRead
    split
    · exact h
    · exact ih (h.readPiece who a _) _ _

theorem Noted.load (who : Who) (a n : Nat) : Noted s (t.load who a n).2.2 := h.busRead who a n _

/-! #### What the notes leave as it is -/

theorem Noted.mem : t.mem = s.mem := (congrArg State.mem h.rest :)
theorem Noted.poison : t.poison = s.poison := (congrArg State.poison h.rest :)
theorem Noted.work : t.work = s.work := (congrArg State.work h.rest :)

end

theorem State.anyPoison_congr {s t : State} (h : t.poison = s.poison) (a n : Nat) : t.anyPoison a n = s.anyPoison a n := by
  unfold State.anyPoison
  rw [h]

theorem State.working_congr {s t : State} (h : t.work = s.work) (e : Nat) : t.working e = s.working e := by
  unfold State.working
  rw [h]

theorem State.fresh_congr {s t : State} (h : t.work = s.work) (e k : Nat) : t.fresh e k = s.fresh e k := by
  unfold State.fresh
  rw [State.working_congr h]

/-! ### What no access to memory touches -/

/-- The root jobs, the descriptors under way and their completions, the copies that an UPDATE has recorded, and the tide. -/
def State.jobView (s : State) : SMap RootJob × SMap Work × List Done × List RecCopy × TideUnit := (s.rootJobs, s.work, s.doneQ, s.copies, s.tide)

theorem Noted.jobView {s t : State} (h : Noted s t) : t.jobView = s.jobView := (congrArg State.jobView h.rest :)

@[simp] theorem State.setFld_jobView (s : State) (f : Fld) (v : Nat) : (s.setFld f v).jobView = s.jobView := rfl
@[simp] theorem State.bump_jobView (s : State) (f : Fld) (n : Nat) : (s.bump f n).jobView = s.jobView := rfl
@[simp] theorem State.setFlag_jobView (s : State) (f : Fld) : (s.setFlag f).jobView = s.jobView := rfl

@[simp] theorem State.noteHbmRead_jobView (s : State) (a n : Nat) : (s.noteHbmRead a n).jobView = s.jobView :=
  ((Noted.refl s).noteHbmRead a n).jobView

@[simp] theorem State.count_jobView (s : State) (k n : Nat) : (s.count k n).jobView = s.jobView := ((Noted.refl s).count k n).jobView

@[simp] theorem State.countBytes_jobView (s : State) (k n : Nat) : (s.countBytes k n).jobView = s.jobView := ((Noted.refl s).countBytes k n).jobView

@[simp] theorem State.setBytes_jobView (s : State) (a : Nat) (bs : List Byte) : (s.setBytes a bs).jobView = s.jobView := by
  induction bs generalizing s a with
  | nil => rfl
  | cons b bs ih => exact ih (s.setByte a b) (a + 1)

theorem State.writeLine_jobView (s : State) (a : Nat) (bs : List Byte) : (s.writeLine a bs).jobView = s.jobView := by
  have hbytes : (((s.count (cntCtrl (hbmStack a) 1)).countBytes (cntRegion (hbmStack a / 6) 1) bs.length).setBytes a bs).jobView = s.jobView := by
    simp
  unfold State.writeLine
  dsimp only
  split
  · exact hbytes
  · split
    · exact hbytes
    · rwa [State.setFlag_jobView]

@[simp] theorem State.writeHbm_jobView (s : State) (a : Nat) (bs : List Byte) (fuel : Nat) : (s.writeHbm a bs fuel).jobView = s.jobView := by
  induction fuel generalizing s a bs with
  | zero => rfl
  | succ fuel ih =>
    unfold State.writeHbm
    split
    · rfl
    · exact (ih _ _ _).trans (s.writeLine_jobView _ _)

@[simp] theorem State.put_jobView (s : State) (a : Nat) (bs : List Byte) : (s.put a bs).jobView = s.jobView := by
  unfold State.put
  split <;> simp

@[simp] theorem State.unmapped_jobView (s : State) : s.unmapped.jobView = s.jobView := (Noted.refl s).unmapped.jobView

@[simp] theorem State.syncDrop_jobView (s : State) (r : Nat) : (s.syncDrop r).jobView = s.jobView := ((Noted.refl s).syncDrop r).jobView

theorem State.toHome_jobView (s : State) (o : SyncOp) : (s.toHome o).jobView = s.jobView := by
  unfold State.toHome State.setSync
  rw [State.count_jobView, State.setFld_jobView, State.setFld_jobView]
  rfl

theorem State.winWrite_jobView (s : State) (b off : Nat) (data : List Byte) : (s.winWrite b off data).jobView = s.jobView := by
  unfold State.winWrite
  split
  · rw [State.bump_jobView, State.setFlag_jobView]
  · rw [State.count_jobView]
    refine forUpTo_keeps (fun t : State => t.jobView = s.jobView) _ _ s rfl fun i y hy => ?_
    dsimp only
    split <;> exact hy

theorem State.writePiece_jobView (s : State) (who : Who) (a : Nat) (bs : List Byte) : (s.writePiece noMirror who a bs).2.jobView = s.jobView := by
  unfold State.writePiece
  split
  case h_1 =>
    split
    case h_1 => exact s.writeHbm_jobView a bs _
    case h_2 => simp
    case h_3 => exact (State.countBytes_jobView _ _ _).trans (s.winWrite_jobView _ _ bs)
    case h_4 => rfl
    case h_5 =>
      dsimp only
      split
      · exact s.toHome_jobView _
      · exact s.syncDrop_jobView _
    case h_6 =>
      split
      · simp
      · split
        · rfl
        · exact s.bump_jobView _ _
    case h_7 => exact s.unmapped_jobView
  case h_2 => exact s.unmapped_jobView

theorem State.busWrite_jobView (s : State) (who : Who) (a : Nat) (bs : List Byte) (fuel : Nat) :
    (s.busWrite noMirror who a bs fuel).2.jobView = s.jobView := by
  induction fuel generalizing s a bs with
  | zero => rfl
  | succ fuel ih =>
    unfold State.busWrite
    split
    · rfl
    · exact (ih _ _ _).trans (s.writePiece_jobView who a _)

theorem State.store_jobView (s : State) (who : Who) (a : Nat) (bs : List Byte) : (s.store who a bs).2.jobView = s.jobView :=
  s.busWrite_jobView who a bs _

end Sys2Proof.Machine
end

section
/-! SUPPORT. Family 08_matrix_function_unit.md: what the work of a root job leaves of jobs, descriptors and journal (O21). -/

namespace Sys2Proof.Machine

/-! ### Jobs and descriptors as before -/

/-- `Steady`, and root jobs, descriptors and tide are as before. -/
structure JobsKept (s t : State) : Prop extends Steady s t where
  jobs : t.jobView = s.jobView

theorem JobsKept.refl (s : State) : JobsKept s s := ⟨.refl s, rfl⟩

section
variable {s t : State} (h : JobsKept s t)
include h

theorem JobsKept.rootJobs : t.rootJobs = s.rootJobs := congrArg (·.1) h.jobs
theorem JobsKept.work : t.work = s.work := congrArg (·.2.1) h.jobs
theorem JobsKept.doneQ : t.doneQ = s.doneQ := congrArg (·.2.2.1) h.jobs
theorem JobsKept.tide : t.tide = s.tide := congrArg (·.2.2.2.2) h.jobs

theorem JobsKept.copyRecorded (area q v : Nat) : t.copyRecorded area q v = s.copyRecorded area q v := by
  have hcopies : t.copies = s.copies := congrArg (·.2.2.2.1) h.jobs
  unfold State.copyRecorded
  rw [hcopies]

theorem JobsKept.foldl {α : Type} (l : List α) (f : State → α → State) (hf : ∀ y b, JobsKept s y → JobsKept s (f y b)) : JobsKept s (l.foldl f t) :=
  foldl_keeps (JobsKept s) l f t h hf

theorem JobsKept.forUpTo (n : Nat) (f : Nat → State → State) (hf : ∀ i y, JobsKept s y → JobsKept s (f i y)) : JobsKept s (forUpTo n f t) :=
  forUpTo_keeps (JobsKept s) n f t h hf

/-! #### Registers, counters and memory -/

theorem JobsKept.setFld (f : Fld) (v : Nat) (hf : OffStatus f := by exact .inl (by decide)) : JobsKept s (t.setFld f v) :=
  ⟨h.toSteady.setFld f v hf, h.jobs⟩

theorem JobsKept.bump (f : Fld) (n : Nat) (hf : OffStatus f := by exact .inl (by decide)) : JobsKept s (t.bump f n) := h.setFld f _ hf

theorem JobsKept.setFlagIf (c : Bool) (f : Fld) (hf : OffStatus f := by exact .inl (by decide)) : JobsKept s (t.setFlagIf c f) := by
  unfold State.setFlagIf
  split
  · exact ⟨h.toSteady.setFlag f hf, h.jobs⟩
  · exact h

theorem JobsKept.count (k n : Nat) : JobsKept s (t.count k n) := ⟨h.toSteady.count k n, (t.count_jobView k n).trans h.jobs⟩

theorem JobsKept.put (a : Nat) (bs : List Byte) : JobsKept s (t.put a bs) := ⟨h.toSteady.put a bs, (t.put_jobView a bs).trans h.jobs⟩

theorem JobsKept.noteHbmRead (a n : Nat) : JobsKept s (t.noteHbmRead a n) := ⟨h.toSteady.noteHbmRead a n, (t.noteHbmRead_jobView a n).trans h.jobs⟩

theorem JobsKept.takeFree (w : Nat) : JobsKept s (t.takeFree w).2 := ⟨h.toSteady.congr rfl rfl, h.jobs⟩

/-! #### The workspace of a root job (R265 to R267) -/

theorem JobsKept.scaleOf (p : Nat) (v : FVal) : JobsKept s (t.scaleOf p v).2 := by
  unfold State.scaleOf
  split
  · exact h
  · exact h.takeFree 8

theorem JobsKept.scratch (d : List Byte) (j : RootJob) : JobsKept s (t.scratch d j) := h.foldl _ _ fun _ _ hy => (hy.takeFree _).put _ _

theorem JobsKept.clearSlots (d : List Byte) (j : RootJob) : JobsKept s (t.clearSlots d j) := h.foldl _ _ fun _ _ hy => hy.put _ _

theorem JobsKept.putStart (d : List Byte) (j : RootJob) : JobsKept s (t.putStart d j) := h.foldl _ _ fun _ _ hy => (hy.put _ _).put _ _

theorem JobsKept.putJobRecord (d : List Byte) (j : RootJob) (st : Nat) : JobsKept s (t.putJobRecord d j st) := h.foldl _ _ fun _ _ hy => hy.put _ _

theorem JobsKept.putSlot (d : List Byte) (j : RootJob) (k : Nat) (valid : Bool) : JobsKept s (t.putSlot d j k valid) := by
  refine h.foldl _ _ fun y w hy => ?_
  have htiles := ((hy.put (w.1 + 64 + 64 * (k % 2)) (slotHeader false 0 0 0)).put (slotAt d j.n w.1 w.2 k) (packUpper j.n j.x)).put
    (slotAt d j.n w.1 w.2 k + packSize j.n) (packUpper j.n j.m)
  dsimp only
  split
  · exact htiles.put _ _
  · exact htiles

theorem JobsKept.coldStart (d : List Byte) (j : RootJob) : JobsKept s (t.coldStart d j).2 := ((h.clearSlots d _).putStart d _).putJobRecord d _ 1

theorem JobsKept.streamSlots (d : List Byte) (j : RootJob) : JobsKept s (t.streamSlots d j) := by
  have hstream (y : State) (a : Nat) (hy : JobsKept s y) : JobsKept s (y.streamMatrix a j.n) := hy.forUpTo _ _ fun _ _ hz => hz.noteHbmRead _ _
  unfold State.streamSlots
  split
  · exact h
  · refine h.foldl _ _ fun y w hy => hy.forUpTo _ _ fun _ u hu => JobsKept.forUpTo ?_ _ _ fun _ v hv => hstream v _ hv
    split
    · exact hu
    · exact hstream u _ hu

/-! #### The registers of a root job (R279) -/

theorem JobsKept.countRoot (j : RootJob) {f : State → Nat → State} (hf : ∀ y b, JobsKept s y → JobsKept s (f y b)) : JobsKept s (t.countRoot j f) :=
  h.foldl _ f hf

theorem JobsKept.showRoot (d : List Byte) (j : RootJob) (phase : Nat) : JobsKept s (t.showRoot d j phase) := by
  refine h.foldl _ _ fun y b hy => ?_
  have hstatus : ¬StatusReg (MFU_STATUS b) := not_statusReg_blk b 0xE00
  have hshown := (((hy.setFld (MFU_STATUS_busy b) (b2n (phase != 0)) (.inl hstatus)).setFld (MFU_STATUS_phase b) phase (.inl hstatus)).setFld
    (MFU_STATUS_region_job b) (b2n (rtRegion d && phase != 0)) (.inl hstatus)).setFld (MFU_STATUS_context b) (dContext d) (.inl hstatus)
  exact ((hshown.setFld (MFU_STATUS_iteration b) j.k (.inl hstatus)).setFld (MFU_SIG_LO_sig_lo b) _ (.inl (not_statusReg_blk b 0xE08))).setFld
    (MFU_SIG_HI_sig_hi b) _ (.inl (not_statusReg_blk b 0xE0C))

theorem JobsKept.showResidual (j : RootJob) : JobsKept s (t.showResidual j) :=
  h.foldl _ _ fun _ b hy => hy.setFld _ _ (.inl (not_statusReg_blk b 0xE04))

end

/-! ### A job that runs on, and one that ends -/

theorem State.rootJob_setRoot (s : State) (e : Nat) (j : RootJob) : (s.setRoot e j).rootJob e = some j := SMap.find_insert_same _ _ _

/-- A job set down and shown is the entry's job; descriptors are as before. -/
theorem State.rootJob_shown {s t : State} (h : JobsKept s t) (e : Nat) (j : RootJob) (d : List Byte) (shown : RootJob) (phase : Nat) :
    ((t.setRoot e j).showRoot d shown phase).rootJob e = some j ∧ ((t.setRoot e j).showRoot d shown phase).work = s.work ∧
      ((t.setRoot e j).showRoot d shown phase).doneQ = s.doneQ := by
  have hshown := (JobsKept.refl (t.setRoot e j)).showRoot d shown phase
  refine ⟨?_, hshown.work.trans h.work, hshown.doneQ.trans h.doneQ⟩
  rw [State.rootJob, hshown.rootJobs]
  exact t.rootJob_setRoot e j

/-- The registers and counts of a job that ends, with the job gone (R275, R279). -/
def State.rootEnded (s : State) (e : Nat) (j : RootJob) (st : List Status) : State :=
  (State.showRoot { s with rootJobs := SMap.erase s.rootJobs e } (s.desc e) j 0).countRoot j fun (t : State) (b : Nat) =>
    ((((t.bump (MFU_COUNT_jobs b)).setFlagIf (st.contains .range) (MFU_STATUS_range_end b)).bump (MFU_EVENT_range_ends b) (b2n (st.contains .range))).setFlagIf
      (st.contains .late) (MFU_STATUS_late b)).bump (MFU_EVENT_late_ends b) (b2n (st.contains .late))

/-- The statuses that apply to a job that ends with `st`, OK last (R275). -/
def RootJob.outcomes (j : RootJob) (st : List Status) : List Status :=
  st ++ (if j.retried then [.faultRetried] else []) ++ (if j.cold then [.coldStart] else []) ++ (if j.replayed then [.replayed] else []) ++ [.ok]

theorem State.endRoot_published (s : State) (e : Nat) (j : RootJob) (err : ErrCode) (fx : List Effect) :
    s.endRoot e j [] err fx = (s.rootEnded e j []).finish e fx (j.outcomes []) .blockError j.run j.kept := rfl

theorem State.endRoot_late (s : State) (e : Nat) (j : RootJob) (err : ErrCode) (fx : List Effect) :
    s.endRoot e j [.late] err fx =
      ((s.rootEnded e j [.late]).complete e (j.outcomes [.late]) .blockError j.run j.kept).failGroup (memberOf (s.desc e)) := rfl

/-- Beyond the job of `e` itself, no job, no descriptor and no entry of the journal is touched. -/
theorem State.rootEnded_kept (s : State) (e : Nat) (j : RootJob) (st : List Status) :
    JobsKept { s with rootJobs := SMap.erase s.rootJobs e } (s.rootEnded e j st) := by
  refine JobsKept.countRoot (JobsKept.showRoot (.refl _) _ j 0) j fun y b hy => ?_
  have hstatus : ¬StatusReg (MFU_STATUS b) := not_statusReg_blk b 0xE00
  have hevent : ¬StatusReg (MFU_EVENT b) := not_statusReg_blk b 0xE14
  exact ((((hy.bump (MFU_COUNT_jobs b) 1 (.inl (not_statusReg_blk b 0xE10))).setFlagIf _ (MFU_STATUS_range_end b) (.inl hstatus)).bump
    (MFU_EVENT_range_ends b) _ (.inl hevent)).setFlagIf _ (MFU_STATUS_late b) (.inl hstatus)).bump (MFU_EVENT_late_ends b) _ (.inl hevent)

theorem State.rootEnded_desc (s : State) (e : Nat) (j : RootJob) (st : List Status) (i : Nat) : (s.rootEnded e j st).desc i = s.desc i :=
  (s.rootEnded_kept e j st).toSteady.desc i

theorem State.rootEnded_rootJob (s : State) (e : Nat) (j : RootJob) (st : List Status) : (s.rootEnded e j st).rootJob e = none := by
  rw [State.rootJob, (s.rootEnded_kept e j st).rootJobs]
  exact SMap.find_erase_same _ _

end Sys2Proof.Machine
end

section
/-! SUPPORT. Family 08_matrix_function_unit.md: the start of a root job and its resumption (O21). -/

namespace Sys2Proof.Machine

/-! ### The start of a job (R257, R259, R260) -/

/-- What a job keeps from its descriptor through a start: dimension, blocks, duplicate's blocks, signature and iterations of this execution. -/
def RootJob.setting (j : RootJob) : Nat × List Nat × List Nat × Nat × Nat := (j.n, j.blocks, j.dupBlocks, j.sig, j.run)

/-- Entry `e` runs a job of the setting of `j`, at iteration `k`, and the descriptors under way are those of `s`. -/
def Runs (s t : State) (e : Nat) (j : RootJob) (k : Nat) : Prop := ∃ y, t.rootJob e = some y ∧ y.setting = j.setting ∧ y.k = k ∧ t.work = s.work

theorem runs_shown {s t : State} (h : JobsKept s t) {e k : Nat} {j y : RootJob} (hset : y.setting = j.setting) (hk : y.k = k) (d : List Byte)
    (shown : RootJob) (phase : Nat) : Runs s ((t.setRoot e y).showRoot d shown phase) e j k := by
  obtain ⟨hjob, hwork, -⟩ := State.rootJob_shown h e y d shown phase
  exact ⟨y, hjob, hset, hk, hwork⟩

/-- A job starts at iteration 0, cold in each of the four cases of R259 or warm, if no line of the committed copy is poisoned. -/
theorem State.startRoot_runs {s : State} {e : Nat} {j : RootJob} (hclean : s.anyPoison (s.warmAt (s.desc e)) (rootSize (j.n / 128)) = false) :
    Runs s (s.startRoot e j) e j 0 := by
  unfold State.startRoot
  extract_lets d r valid same lam x j0 s0 fin x0 m0 r0 j1 s1
  have hscratch : JobsKept s s0 := ((JobsKept.refl s).scaleOf _ _).scratch d j0
  have hcold (y : RootJob) (hset : y.setting = j.setting) : Runs s (fin y s0) e j 0 := by
    refine runs_shown (JobsKept.countRoot (hscratch.coldStart d y) y fun _ b hz => ?_) (y := (s0.coldStart d y).1) hset rfl d _ 3
    exact (hz.setFlagIf _ (MFU_STATUS_cold_start b) (.inl (not_statusReg_blk b 0xE00))).bump (MFU_COUNT_cold_starts b) _
      (.inl (not_statusReg_blk b 0xE10))
  have hs1 : JobsKept s s1 := ((hscratch.clearSlots d j1).putStart d j1).putJobRecord d j1 1
  have hwarm : Runs s ((s1.setRoot e j1).showRoot d j1 3) e j 0 := runs_shown hs1 (j := j) (y := j1) (by unfold RootJob.setting; rfl) rfl d j1 3
  split
  · exact hcold _ (by unfold RootJob.setting; rfl)
  · split
    · exact hcold _ (by unfold RootJob.setting; rfl)
    · split
      · exact hcold _ (by unfold RootJob.setting; rfl)
      · rw [if_neg (Bool.eq_false_iff.mp hclean)]
        split
        · exact hcold _ (by unfold RootJob.setting; rfl)
        · exact hwarm

/-! ### What a ROOT reads of memory (R248, R266, R268, R271) -/

section
variable {s t : State} (h : MemSame s t)
include h

theorem State.le_memSame (a n : Nat) : t.le a n = s.le a n := congrArg leNat (State.bytes_memSame h a n)

theorem State.warmAt_congr (d : List Byte) : t.warmAt d = s.warmAt d := by simp only [State.warmAt, State.le_memSame h]

theorem State.ingest_congr (d hd : List Byte) : t.ingest d hd = s.ingest d hd := by simp only [State.ingest, State.le_memSame h]

theorem State.slotK_congr (w k : Nat) : t.slotK w k = s.slotK w k := State.le_memSame h _ _

theorem State.newestSlot_congr (w : Nat) : t.newestSlot w = s.newestSlot w := by
  have hvalid (k : Nat) : t.slotValid w k = s.slotValid w k := congrArg (bitOf · 0) (State.le_memSame h _ _)
  unfold State.newestSlot
  rw [hvalid, hvalid, State.slotK_congr h, State.slotK_congr h]

theorem State.canResume_congr (d hd : List Byte) : t.canResume d hd = s.canResume d hd := by
  simp only [State.canResume, State.newestSlot_congr h, State.le_memSame h]

end

/-! ### ROOT begins (R264, R271) -/

theorem State.begun_of_working {s : State} {e : Nat} {w : Work} (h : s.working e = some w) (ph : Nat) : s.begun e ph = s.setWork e { w with phase := ph } := by
  unfold State.begun
  rw [h]

/-- A fresh descriptor of kind `k` is of that kind, and not done. -/
theorem State.working_of_fresh {s : State} {e k : Nat} (h : s.fresh e k = true) : ∃ w, s.working e = some w ∧ w.kind = k ∧ w.done = false := by
  unfold State.fresh at h
  cases hw : s.working e with
  | none => rw [hw] at h; cases h
  | some w =>
    rw [hw] at h
    obtain ⟨hkind, -⟩ := Bool.and_eq_true_iff.mp h
    refine ⟨w, rfl, beq_iff_eq.mp hkind, ?_⟩
    unfold State.working at hw
    split at hw
    · split at hw
      · cases hw
      · cases hw
        exact Bool.eq_false_iff.mpr ‹_›
    · cases hw

theorem State.doing_of_fresh {s : State} {e k : Nat} (h : s.fresh e k = true) : s.doing e k = true := by
  obtain ⟨w, hw, hkind, -⟩ := State.working_of_fresh h
  unfold State.doing
  rw [hw]
  exact beq_iff_eq.mpr hkind

/-- A descriptor that its command has begun is under way. -/
theorem State.doing_begun {s t u : State} {e k : Nat} (h : s.fresh e k = true) (hu : u.work = s.work) (ht : t.work = (u.begun e).work) :
    t.doing e k = true := by
  obtain ⟨w, hw, hkind, hdone⟩ := State.working_of_fresh h
  have hfind : SMap.find t.work e = some { w with phase := 1 } := by
    rw [ht, State.begun_of_working ((State.working_congr hu e).trans hw)]
    show SMap.find (SMap.set workDefault u.work e { w with phase := 1 }) e = _
    unfold SMap.set
    rw [if_neg fun hnone => Nat.one_ne_zero (congrArg Work.phase hnone)]
    exact SMap.find_insert_same _ _ _
  unfold State.doing State.working
  rw [hfind]
  simp [hdone, hkind]

section
variable {s : State} {e : Nat} {h : List Byte} (hfresh : s.fresh e kindRoot = true)
include hfresh

/-- What a descriptor finds as it begins, once a register field has been counted: journal, memory and poison as before. -/
theorem State.begun_counted {f : Fld} (hf : OffStatus f) (n : Nat) :
    Steady s ((s.bump f n).begun e) ∧ ((s.bump f n).begun e).mem = s.mem ∧ ((s.bump f n).begun e).poison = s.poison := by
  obtain ⟨w, hw, -, -⟩ := State.working_of_fresh hfresh
  rw [State.begun_of_working ((State.working_congr (s.bump_work f n) e).trans hw)]
  exact ⟨((Steady.refl s).bump f n hf).congr rfl rfl, rfl, rfl⟩

/-- A ROOT that does not resume starts from its source, if that holds finite values. -/
theorem State.beginRoot_starts (hres : s.canResume (s.desc e) h = false) (hfin : ∀ v ∈ s.ingest (s.desc e) h, finBits Fmt.bf16 v = true)
    (hclean : s.anyPoison (s.warmAt (s.desc e)) (rootSize (rtN (s.desc e) h / 128)) = false) :
    (s.beginRoot e h).doing e kindRoot = true ∧ ∃ y, (s.beginRoot e h).rootJob e = some y ∧ y.k = 0 ∧
      y.setting = (rtN (s.desc e) h, s.placement (s.desc e) (leAt (s.desc e) 59 1), (s.dupPlace (s.desc e)).1, rootSig (s.desc e) h, 0) := by
  obtain ⟨hsteady, hmem, hpoison⟩ := State.begun_counted hfresh (f := HUB_REDUN_CTL_dup_unplaced) (.inl (by decide)) (b2n (s.dupPlace (s.desc e)).2)
  have hfinite : ((s.ingest (s.desc e) h).any fun x => !finBits Fmt.bf16 x) = false :=
    List.any_eq_false.mpr fun v hv => by simp [hfin v hv]
  unfold State.beginRoot
  dsimp only
  rw [if_neg (by simp [hres]), if_neg (by simp [hfinite])]
  generalize hj : ({ rootInit (s.desc e) h (s.placement (s.desc e) (leAt (s.desc e) 59 1)) (s.dupPlace (s.desc e)).1 with
    src := _, eps := _ } : RootJob) = j
  obtain ⟨y, hjob, hset, hk, hwork⟩ := State.startRoot_runs (e := e) (j := j) (by
    rw [hsteady.desc, State.warmAt_congr (State.byte_congr hmem), State.anyPoison_congr hpoison, ← hj]
    exact hclean)
  exact ⟨State.doing_begun hfresh (State.bump_work ..) hwork, y, hjob, hk, by rw [hset, ← hj]; rfl⟩

/-- A ROOT that resumes in state 2 goes on from the newest slot. -/
theorem State.beginRoot_resumes (hres : s.canResume (s.desc e) h = true) (hstate : s.le (rtWork (s.desc e)) 1 = 2) :
    (s.beginRoot e h).doing e kindRoot = true ∧ ∃ y, (s.beginRoot e h).rootJob e = some y ∧
      y.k = s.slotK (rtWork (s.desc e)) (s.newestSlot (rtWork (s.desc e))) ∧
      y.setting = (rtN (s.desc e) h, s.placement (s.desc e) (leAt (s.desc e) 59 1), (s.dupPlace (s.desc e)).1, rootSig (s.desc e) h, 0) := by
  unfold State.beginRoot
  dsimp only
  rw [if_pos hres, if_neg (by rw [hstate]; decide)]
  generalize hj : ({ rootInit (s.desc e) h (s.placement (s.desc e) (leAt (s.desc e) 59 1)) (s.dupPlace (s.desc e)).1 with
    eps := _, lam := _, fver := _, exp := _, kind := _, k := _, res := _, kept := _, x := _, m := _ } : RootJob) = j
  obtain ⟨y, hjob, hset, hk, hwork⟩ := runs_shown (e := e) (((JobsKept.refl _).scratch (s.desc e) j).putJobRecord (s.desc e) j 1) rfl rfl
    (s.desc e) j 3
  exact ⟨State.doing_begun hfresh (State.bump_work ..) hwork, y, hjob, by rw [hk, ← hj], by rw [hset, ← hj]; rfl⟩

end

/-! ### What the reads before the start leave (R261, R271, R272) -/

theorem Steady.placement {s t : State} (h : Steady s t) (d : List Byte) (b : Nat) : t.placement d b = s.placement d b := by
  unfold State.placement
  rw [h.presentBlocks]

theorem Steady.placementErr {s t : State} (h : Steady s t) (d : List Byte) (b : Nat) : t.placementErr d b = s.placementErr d b := by
  unfold State.placementErr State.placeErr
  rw [h.regionFenced, h.presentBlocks, h.regionFenced, h.absent]

theorem Steady.dupPlace {s t : State} (h : Steady s t) (hn : Noted s t) (d : List Byte) : t.dupPlace d = s.dupPlace d := by
  unfold State.dupPlace
  dsimp only
  rw [hn.dupRoots, h.placement, h.placement, h.placementErr]

/-- Only units' reads lie between the two states. -/
structure ReadOnly (s t : State) : Prop where
  noted : Noted s t
  steady : Steady s t

theorem ReadOnly.load {s t : State} (h : ReadOnly s t) (who : Who) (a n : Nat) : ReadOnly s (t.load who a n).2.2 :=
  ⟨h.noted.load who a n, h.steady.load who a n⟩

theorem exec_root (e : Nat) (s : State) : exec (.root e) s = execRoot e s := rfl

/-- A ROOT whose checks pass and which does not wait begins once its source, or with RESUME its slots, have been read. -/
theorem exec_root_begins {s : State} {e : Nat} {x y z : List Byte × AccEnd × State} (hfresh : s.fresh e kindRoot = true)
    (hbody : rootBodyOk (s.desc e) = true) (htide : s.tide.ns < dDeadline (s.desc e))
    (hx : x = if rtRaw (s.desc e) then ([], .ok, s) else s.load devUnit (rtSource (s.desc e)) 64) (hxok : x.2.1 = .ok)
    (hy : y = x.2.2.load devUnit (rtArea (s.desc e)) 64) (hyok : y.2.1 = .ok) (hhead : rootHeadOk (s.desc e) x.1 y.1 = true)
    (hplace : s.placementErr (s.desc e) (leAt (s.desc e) 59 1) = .none)
    (hdup : rtFlag (s.desc e) 6 = true → s.placementErr (s.desc e) (leAt (s.desc e) 61 1) = .none) (hwaits : s.rootWaits e (s.desc e) = false)
    (hz : z = y.2.2.load devUnit (if s.canResume (s.desc e) x.1 then slotSpan (s.desc e) x.1 else rootSpan (s.desc e) x.1).1
      (if s.canResume (s.desc e) x.1 then slotSpan (s.desc e) x.1 else rootSpan (s.desc e) x.1).2) (hzok : z.2.1 = .ok) :
    exec (.root e) s = .next (z.2.2.beginRoot e x.1) := by
  have hread : ¬(x.2.1.join y.2.1 ≠ .ok) := by rw [hxok, hyok]; decide
  rw [exec_root]
  unfold execRoot
  dsimp only
  rw [if_neg (by simp [hfresh]), if_neg (by simp [hbody]), if_neg (Nat.not_le.mpr htide), ← hx, ← hy, if_neg hread, if_neg (by simp [hhead]),
    if_neg (by simp [hplace]), if_neg fun hbad => hbad.2 (hdup hbad.1), if_neg (by simp [hwaits]), ← hz, if_neg (by simp [hzok])]

end Sys2Proof.Machine
end

section
/-! SUPPORT. Family 08_matrix_function_unit.md: the end of an iteration, publication and deadline of a root job (O21). -/

namespace Sys2Proof.Machine

/-! ### The status of a job that ends (R275, R477) -/

theorem RootJob.pick_published {j : RootJob} (h : j.retried = false) :
    Status.pick (j.outcomes []) = if j.cold then .coldStart else if j.replayed then .replayed else .ok := by
  unfold RootJob.outcomes
  rw [h]
  cases j.cold <;> cases j.replayed <;> rfl

theorem RootJob.no_fault_published {j : RootJob} (h : j.retried = false) :
    ((j.outcomes []).contains .faultFailed || (j.outcomes []).contains .faultRetried) = false := by
  unfold RootJob.outcomes
  rw [h]
  cases j.cold <;> cases j.replayed <;> rfl

theorem RootJob.pick_late (j : RootJob) : Status.pick (j.outcomes [.late]) = .late := by
  unfold RootJob.outcomes
  cases j.retried <;> cases j.cold <;> cases j.replayed <;> rfl

/-! ### Publication (R269, R326) -/

theorem State.makeEffect_write_rootJobs (s : State) (a : Nat) (bs : List Byte) : (s.makeEffect (.write a bs)).rootJobs = s.rootJobs :=
  congrArg (·.1) (s.store_jobView (.unit (srcOther 1)) a bs)

/-- A job in no group whose copy no UPDATE has recorded publishes before its deadline and ends. -/
theorem State.publish_ends {s : State} {e : Nat} {j : RootJob} (k : Nat) (htide : s.tide.ns < dDeadline (s.desc e))
    (hfree : ∀ v, s.copyRecorded (rtArea (s.desc e)) (rtQ (s.desc e)) v = false) (hsingle : dGroup (s.desc e) = 0) (hretried : j.retried = false) :
    (s.publish e j k).rootJob e = none ∧ ∃ d, (s.publish e j k).doneQ.getLast? = some d ∧ d.entry = e ∧ d.err = .none ∧
      d.status = (if j.cold then .coldStart else if j.replayed then .replayed else .ok) ∧ d.c1 = j.run % 2 ^ 32 := by
  unfold State.publish
  extract_lets d q a rec0 v w x dim blk s1 r j1
  rw [if_neg (Nat.not_le.mpr htide), if_neg (by rw [hfree]; decide), State.endRoot_published]
  have hs1 : JobsKept s (s1.putJobRecord d j1 4) := ((JobsKept.refl s).put _ _).putJobRecord d j1 4
  generalize hs2 : s1.putJobRecord d j1 4 = s2 at hs1
  rw [State.finish_single (by rw [State.rootEnded_desc, hs1.desc]; exact hsingle)]
  refine ⟨?_, _, List.getLast?_concat .., rfl, ?_, RootJob.pick_published (j := j1) hretried, rfl⟩
  · rw [State.rootJob, State.complete_rootJobs, List.foldl_cons, List.foldl_nil, State.makeEffect_write_rootJobs]
    exact s2.rootEnded_rootJob e j1 []
  · exact if_neg (by rw [RootJob.no_fault_published (j := j1) hretried]; decide)

/-! ### The end of an iteration (R249, R255, R256) -/

/-- A job after one more iteration, of order code `pcode`. -/
def RootJob.next (j : RootJob) (pcode : Nat) : RootJob :=
  { j with
    x := (iterate j.n pcode j.x j.m).1, m := (iterate j.n pcode j.x j.m).2, k := j.k + 1, run := j.run + 1
    res := residual j.n (iterate j.n pcode j.x j.m).2, kept := j.k + 1 }

/-- The state in which an iteration that has not diverged is checkpointed and shown. -/
def State.iterated (s : State) (e : Nat) (j : RootJob) : State :=
  let y := j.next (rtCode (s.desc e))
  ((((((s.streamSlots (s.desc e) j).scratch (s.desc e) j).countRoot j fun (t : State) (b : Nat) =>
    (t.bump (MFU_ITER_COUNT_iterations b)).count (cntBlock b 28)).putSlot (s.desc e) y y.k true).putJobRecord (s.desc e) y 1).showResidual y)

theorem State.iterated_kept (s : State) (e : Nat) (j : RootJob) : JobsKept s (s.iterated e j) :=
  ((((((JobsKept.refl s).streamSlots _ j).scratch _ j).countRoot j fun _ b hy =>
    (hy.bump (MFU_ITER_COUNT_iterations b) 1 (.inl (not_statusReg_blk b 0xE18))).count _ 1).putSlot _ _ _ true).putJobRecord _ _ 1).showResidual _

/-- An iteration of finite residual, at most 2, ends by its residual and its number. -/
theorem State.endIteration_of_bounded {s : State} {e : Nat} {j y : RootJob} (hy : y = j.next (rtCode (s.desc e))) (hfinite : f32finite y.res = true)
    (hbound : f32lt 0x40000000 y.res = false) (differs : Bool) :
    s.endIteration e j differs =
      if f32le y.res (rtTol (s.desc e)) then (s.iterated e j).comparePublish e y (y.k % 2) differs
      else if 2 ≤ y.k && f32le j.res y.res then (s.iterated e j).publishBest e y differs
      else if y.k = rtKmax (s.desc e) then (s.iterated e j).publishBest e y differs
      else ((s.iterated e j).setRoot e y).showRoot (s.desc e) y 3 := by
  have hbounded : (!f32finite y.res || f32lt 0x40000000 y.res) = false := by rw [hfinite, hbound]; rfl
  subst hy
  exact if_neg (Bool.eq_false_iff.mp hbounded)

/-- A job that neither converges nor stalls nor reaches its last iteration goes on. -/
theorem State.endIteration_goesOn {s : State} {e : Nat} {j y : RootJob} (hy : y = j.next (rtCode (s.desc e))) (hfinite : f32finite y.res = true)
    (hbound : f32lt 0x40000000 y.res = false) (hopen : f32le y.res (rtTol (s.desc e)) = false) (hfalls : y.k < 2 ∨ f32le j.res y.res = false)
    (hkmax : y.k ≠ rtKmax (s.desc e)) (differs : Bool) :
    (s.endIteration e j differs).rootJob e = some y ∧ (s.endIteration e j differs).doneQ = s.doneQ := by
  have hstall : ¬((decide (2 ≤ y.k) && f32le j.res y.res) = true) := by
    rw [Bool.and_eq_true, decide_eq_true_eq]
    rintro ⟨hlate, hle⟩
    rcases hfalls with hearly | hless
    · omega
    · rw [hless] at hle
      cases hle
  rw [State.endIteration_of_bounded hy hfinite hbound, if_neg (by rw [hopen]; decide), if_neg hstall, if_neg hkmax]
  obtain ⟨hjob, -, hdone⟩ := State.rootJob_shown (s.iterated_kept e j) e y (s.desc e) y 3
  exact ⟨hjob, hdone⟩

/-- A job that reaches the tolerance publishes, with its duplicate in agreement. -/
theorem State.endIteration_publishes {s : State} {e : Nat} {j y : RootJob} (hy : y = j.next (rtCode (s.desc e))) (hfinite : f32finite y.res = true)
    (hbound : f32lt 0x40000000 y.res = false) (htol : f32le y.res (rtTol (s.desc e)) = true) :
    s.endIteration e j false = (s.iterated e j).publish e y (y.k % 2) := by
  rw [State.endIteration_of_bounded hy hfinite hbound, if_pos htol]
  exact if_pos (by simp)

theorem exec_rootIterationEnd (e : Nat) (differs : Bool) (s : State) : exec (.rootIterationEnd e differs) s = execRootIterationEnd e differs s := rfl

/-- An iteration of a job that no block error, publication or poisoned slot holds ends by the deadline. -/
theorem exec_rootIterationEnd_runs {s : State} {e : Nat} {j : RootJob} (hjob : s.rootJob e = some j) (hlost : j.lost = false) (hpub : j.pub = none)
    (hclean : s.slotPoisoned (s.desc e) j = false) (htide : s.tide.ns ≤ dDeadline (s.desc e)) (differs : Bool) :
    exec (.rootIterationEnd e differs) s = .next (s.endIteration e j differs) := by
  rw [exec_rootIterationEnd]
  unfold execRootIterationEnd
  rw [hjob]
  dsimp only
  rw [if_neg (Nat.not_lt.mpr htide), if_neg (by rw [hlost]; decide)]
  dsimp only
  rw [hpub]
  exact congrArg Host.Outcome.next (if_neg (by rw [hclean]; decide))

/-! ### The abort of a group (R342, R344) -/

/-- Root jobs, tide and memory are as before, and every completion is still there. -/
structure OnlyCompleted (s t : State) : Prop where
  jobs : t.rootJobs = s.rootJobs
  tide : t.tide = s.tide
  mem : t.mem = s.mem
  done : s.doneQ ⊆ t.doneQ

section
variable {s t u : State} (h : OnlyCompleted s t)
include h

theorem OnlyCompleted.congr (hjobs : u.rootJobs = t.rootJobs) (htide : u.tide = t.tide) (hmem : u.mem = t.mem) (hdone : u.doneQ = t.doneQ) :
    OnlyCompleted s u :=
  ⟨hjobs.trans h.jobs, htide.trans h.tide, hmem.trans h.mem, hdone ▸ h.done⟩

theorem OnlyCompleted.complete (e : Nat) (st : List Status) (err : ErrCode) (c1 c2 : Nat) : OnlyCompleted s (t.complete e st err c1 c2) :=
  ⟨h.jobs, h.tide, h.mem, List.subset_append_of_subset_left _ h.done⟩

theorem OnlyCompleted.setFld (f : Fld) (v : Nat) : OnlyCompleted s (t.setFld f v) := h.congr rfl rfl rfl rfl

theorem OnlyCompleted.setFlagIf (c : Bool) (f : Fld) : OnlyCompleted s (t.setFlagIf c f) := by
  unfold State.setFlagIf
  split
  · exact h.congr rfl rfl rfl rfl
  · exact h

theorem OnlyCompleted.count (k n : Nat) : OnlyCompleted s (t.count k n) := OnlyCompleted.setFlagIf (by exact h.congr rfl rfl rfl rfl) _ _

theorem OnlyCompleted.unstage (e : Nat) : OnlyCompleted s (t.unstage e) := by
  refine forUpTo_keeps (OnlyCompleted s) 18 _ t h fun p y hy => ?_
  dsimp only
  split
  · exact OnlyCompleted.setFld (by exact hy.congr rfl rfl rfl rfl) _ _
  · exact hy

theorem OnlyCompleted.dropGroup (g : Nat) (st : Status) (late : List Nat) : OnlyCompleted s (t.dropGroup g st late) := by
  have hfreed (y : State) (hy : OnlyCompleted s y) : OnlyCompleted s (State.showGroups { y with groups := SMap.erase y.groups g }) :=
    OnlyCompleted.setFld (OnlyCompleted.setFld (by exact hy.congr rfl rfl rfl rfl) _ _) _ _
  unfold State.dropGroup
  split
  · exact h
  · next x _ =>
    have hmembers := foldl_keeps (OnlyCompleted s) x.members (fun (y : State) (m : Member) =>
      (y.unstage m.entry).complete m.entry [if late.contains m.entry then .late else st] .none m.c1 m.c2) t h
      fun y m hy => (hy.unstage m.entry).complete _ _ _ _ _
    refine hfreed _ ?_
    split
    · exact (hmembers.unstage _).complete _ _ _ _ _
    · exact hmembers

theorem OnlyCompleted.failGroup (g : Nat) : OnlyCompleted s (t.failGroup g) := by
  unfold State.failGroup State.abortGroup
  split
  · exact h
  · split
    · exact h
    · exact ((h.dropGroup g .groupAborted []).setFld _ _).count _ _

end

theorem OnlyCompleted.refl (s : State) : OnlyCompleted s s := ⟨rfl, rfl, rfl, fun _ hd => hd⟩

/-- The completion of an entry whose group then fails. -/
theorem State.completion_failGroup (s : State) (e : Nat) (st : List Status) (err : ErrCode) (c1 c2 g : Nat) :
    OnlyCompleted s ((s.complete e st err c1 c2).failGroup g) ∧
      ∃ d ∈ ((s.complete e st err c1 c2).failGroup g).doneQ, d.entry = e ∧ d.status = Status.pick st := by
  have hdone := ((OnlyCompleted.refl (s.complete e st err c1 c2)).failGroup g).done List.mem_concat_self
  exact ⟨((OnlyCompleted.refl s).complete e st err c1 c2).failGroup g, _, hdone, rfl, rfl⟩

/-! ### The deadline of a root job (R270) -/

/-- A job that its deadline cuts short is gone, and its descriptor ends with LATE. -/
theorem State.rootLate_ends (s : State) (e : Nat) (j : RootJob) :
    (s.rootLate e j).rootJob e = none ∧ (∃ d ∈ (s.rootLate e j).doneQ, d.entry = e ∧ d.status = .late) ∧ (s.rootLate e j).tide = s.tide := by
  unfold State.rootLate
  generalize hs1 : s.putJobRecord (s.desc e) j (if j.pub.isSome then 3 else 2) = s1
  have hkept : JobsKept s s1 := hs1 ▸ (JobsKept.refl s).putJobRecord _ j _
  rw [State.endRoot_late]
  obtain ⟨hrest, d, hd, hentry, hstatus⟩ :=
    (s1.rootEnded e j [.late]).completion_failGroup e (j.outcomes [.late]) .blockError j.run j.kept (memberOf (s1.desc e))
  refine ⟨?_, ⟨d, hd, hentry, hstatus.trans j.pick_late⟩, ?_⟩
  · rw [State.rootJob, hrest.jobs]
    exact State.rootEnded_rootJob s1 e j [.late]
  · exact hrest.tide.trans ((s1.rootEnded_kept e j [.late]).tide.trans hkept.tide)

/-- A descriptor that is late, in a group or not, ends with LATE and writes nothing. -/
theorem State.lateMember_ends (s : State) (e : Nat) : (∃ d ∈ (s.lateMember e).doneQ, d.entry = e ∧ d.status = .late) ∧ MemSame s (s.lateMember e) := by
  unfold State.lateMember
  generalize hs1 : s.setFlagIf (dKind (s.desc e) == kindOwnerMap) HUB_MAP_STATUS_map_late = s1
  have hmem : s1.mem = s.mem := hs1 ▸ State.setFlagIf_mem _ _ _
  obtain ⟨hrest, d, hd, hentry, hstatus⟩ := s1.completion_failGroup e [.late] .none 0 0 (memberOf (s.desc e))
  exact ⟨⟨d, hd, hentry, hstatus.trans (Status.pick_single .late)⟩, State.byte_congr (hrest.mem.trans hmem)⟩

theorem exec_rootDeadline (e : Nat) (s : State) : exec (.rootDeadline e) s = execRootDeadline e s := rfl

section
variable {s : State} {e : Nat} (hvalid : dDeadlineValid (s.desc e) = true)
include hvalid

theorem exec_rootDeadline_running {j : RootJob} (hdoing : s.doing e kindRoot = true) (hjob : s.rootJob e = some j) :
    exec (.rootDeadline e) s = .next ((s.atTide (dDeadline (s.desc e))).rootLate e j) := by
  rw [exec_rootDeadline]
  unfold execRootDeadline
  dsimp only
  rw [if_neg (by simp [hdoing, hvalid]), hjob]

theorem exec_rootDeadline_waiting (hfresh : s.fresh e kindRoot = true) (hjob : s.rootJob e = none) :
    exec (.rootDeadline e) s = .next ((s.atTide (dDeadline (s.desc e))).lateMember e) := by
  rw [exec_rootDeadline]
  unfold execRootDeadline
  dsimp only
  rw [if_neg (by simp [State.doing_of_fresh hfresh, hvalid]), hjob]
  exact congrArg Host.Outcome.next (if_pos hfresh)

end

end Sys2Proof.Machine
end

section
/-! SUPPORT. Family 08_matrix_function_unit.md: ROOT, its iterations and its deadline (O21). -/

namespace Sys2Proof.Machine

/-! ### A ROOT after its reads (R264, R271) -/

section
variable {s u : State} (h : ReadOnly s u) {e : Nat} {hd : List Byte} (hfresh : s.fresh e kindRoot = true)
include h hfresh

theorem ReadOnly.beginRoot_starts (hres : s.canResume (s.desc e) hd = false) (hfin : ∀ v ∈ s.ingest (s.desc e) hd, finBits Fmt.bf16 v = true)
    (hclean : s.anyPoison (s.warmAt (s.desc e)) (rootSize (rtN (s.desc e) hd / 128)) = false) :
    (u.beginRoot e hd).doing e kindRoot = true ∧ ∃ y, (u.beginRoot e hd).rootJob e = some y ∧ y.k = 0 ∧
      y.setting = (rtN (s.desc e) hd, s.placement (s.desc e) (leAt (s.desc e) 59 1), (s.dupPlace (s.desc e)).1, rootSig (s.desc e) hd, 0) := by
  have hmem : MemSame s u := State.byte_congr h.noted.mem
  have hstart := State.beginRoot_starts (s := u) (e := e) (h := hd)
  rw [h.steady.desc, State.fresh_congr h.noted.work, State.canResume_congr hmem, State.ingest_congr hmem, State.warmAt_congr hmem,
    State.anyPoison_congr h.noted.poison, h.steady.placement, h.steady.dupPlace h.noted] at hstart
  exact hstart hfresh hres hfin hclean

theorem ReadOnly.beginRoot_resumes (hres : s.canResume (s.desc e) hd = true) (hstate : s.le (rtWork (s.desc e)) 1 = 2) :
    (u.beginRoot e hd).doing e kindRoot = true ∧ ∃ y, (u.beginRoot e hd).rootJob e = some y ∧
      y.k = s.slotK (rtWork (s.desc e)) (s.newestSlot (rtWork (s.desc e))) ∧
      y.setting = (rtN (s.desc e) hd, s.placement (s.desc e) (leAt (s.desc e) 59 1), (s.dupPlace (s.desc e)).1, rootSig (s.desc e) hd, 0) := by
  have hmem : MemSame s u := State.byte_congr h.noted.mem
  have hresume := State.beginRoot_resumes (s := u) (e := e) (h := hd)
  rw [h.steady.desc, State.fresh_congr h.noted.work, State.canResume_congr hmem, State.le_memSame hmem, State.slotK_congr hmem,
    State.newestSlot_congr hmem, h.steady.placement, h.steady.dupPlace h.noted] at hresume
  exact hresume hfresh hres hstate

end

theorem RootJob.setting_eq {j : RootJob} {n sig run : Nat} {blocks dup : List Nat} (h : j.setting = (n, blocks, dup, sig, run)) :
    j.n = n ∧ j.blocks = blocks ∧ j.dupBlocks = dup ∧ j.sig = sig ∧ j.run = run := by
  simpa only [RootJob.setting, Prod.mk.injEq] using h

/-- Settles O21: reads leave what the start depends on, the work of a job leaves jobs and descriptors, and an abort only adds completions. -/
theorem rootJobs : Obligations.RootJobs := by
  intro s e
  refine ⟨fun x y z hfresh hbody htide hx hxok hy hyok hhead hplace hdup hwaits => ?_, fun j xm r hjob hlost hpub hclean hxm hr hfinite hbound => ?_,
    fun j hdoing hvalid hjob => ?_, fun hfresh hvalid hjob => ?_⟩
  · have hreadx : ReadOnly s x.2.2 := by
      rw [hx]
      split
      · exact ⟨.refl s, .refl s⟩
      · exact ReadOnly.load ⟨.refl s, .refl s⟩ _ _ _
    have hready : ReadOnly s y.2.2 := hy ▸ hreadx.load _ _ _
    have hreadz {a n : Nat} (hz : z = y.2.2.load devUnit a n) : ReadOnly s z.2.2 := hz ▸ hready.load _ _ _
    refine ⟨fun hres hz hzok hfin hnopoison => ?_, fun hres hstate hz hzok => ?_⟩
    · have hexec := exec_root_begins hfresh hbody htide hx hxok hy hyok hhead hplace hdup hwaits (by rw [hres]; exact hz) hzok
      obtain ⟨hdoing, j, hjob, hk, hset⟩ := (hreadz hz).beginRoot_starts hfresh hres hfin hnopoison
      obtain ⟨hn, hblocks, hdupBlocks, hsig, hrun⟩ := RootJob.setting_eq hset
      exact ⟨_, j, hexec, hdoing, hjob, hk, hrun, hn, hblocks, hdupBlocks, hsig⟩
    · have hexec := exec_root_begins hfresh hbody htide hx hxok hy hyok hhead hplace hdup hwaits (by rw [hres]; exact hz) hzok
      obtain ⟨hdoing, j, hjob, hk, hset⟩ := (hreadz hz).beginRoot_resumes hfresh hres hstate
      obtain ⟨hn, hblocks, -, hsig, hrun⟩ := RootJob.setting_eq hset
      exact ⟨_, j, hexec, hdoing, hjob, hk, hrun, hn, hblocks, hsig⟩
  · subst hxm hr
    refine ⟨fun hintime hopen hfalls hkmax => ?_, fun hbefore htol hfree hsingle hretried => ?_⟩
    · obtain ⟨hgoes, hdone⟩ := State.endIteration_goesOn (y := j.next (rtCode (s.desc e))) rfl hfinite hbound hopen hfalls hkmax false
      exact ⟨_, _, exec_rootIterationEnd_runs hjob hlost hpub hclean hintime false, hgoes, rfl, rfl, rfl, rfl, rfl, rfl, hdone⟩
    · have hkept := s.iterated_kept e j
      obtain ⟨hgone, d, hlast, hentry, herr, hstatus, hcount⟩ :=
        State.publish_ends (s := s.iterated e j) (e := e) (j := j.next (rtCode (s.desc e))) ((j.k + 1) % 2)
          (by rw [hkept.tide, hkept.desc]; exact hbefore) (fun v => by rw [hkept.copyRecorded, hkept.desc]; exact hfree v)
          (by rw [hkept.desc]; exact hsingle) hretried
      refine ⟨_, d, ?_, hgone, hlast, hentry, herr, hstatus, hcount⟩
      rw [exec_rootIterationEnd_runs hjob hlost hpub hclean hbefore.le]
      exact congrArg Host.Outcome.next (State.endIteration_publishes rfl hfinite hbound htol)
  · obtain ⟨hgone, hlate, htide⟩ := (s.atTide (dDeadline (s.desc e))).rootLate_ends e j
    exact ⟨_, exec_rootDeadline_running hvalid hdoing hjob, hgone, hlate, congrArg TideUnit.ns htide⟩
  · obtain ⟨hlate, hmem⟩ := (s.atTide (dDeadline (s.desc e))).lateMember_ends e
    exact ⟨_, exec_rootDeadline_waiting hvalid hfresh hjob, hlate, hmem⟩

end Sys2Proof.Machine
end

section
/-! SUPPORT. Family 09_sparse_solver.md: what an access to memory, an error record and the end of a descriptor leave of the resident systems and of what
SIS_STATUS tells of them (O22). -/

namespace Sys2Proof.Machine

/-! ### The fields of SIS_STATUS that tell of a system -/

/-- SIS_STATUS of a region. -/
abbrev SisReg (a : Nat) : Prop := 0x1000000 ≤ a ∧ a % 0x400000 = 0x2000

/-- sys_valid, or a field above the flags of a solve's end: the errors of the structure store and the last reason. -/
abbrev SystemFld (f : Fld) : Prop := SisReg f.addr ∧ (f.lo = 4 ∧ f.width = 1 ∨ 12 ≤ f.lo)

/-- A field that shares no bit with one of those, nor with one that tells which regions and blocks work. -/
abbrev OffSystem (f : Fld) : Prop := OffStatus f ∧ (SisReg f.addr → f.lo + f.width ≤ 4 ∨ 5 ≤ f.lo ∧ f.lo + f.width ≤ 12)

theorem sisReg_status (r : Nat) : SisReg (SIS_STATUS r) := by
  unfold SisReg SIS_STATUS rgnBase
  omega

/-- The fields of SIS_STATUS that show how a descriptor runs and ends. -/
theorem offSystem_status {acc : Access} {reset : Nat} (r lo w : Nat) (h : lo + w ≤ 4 ∨ 5 ≤ lo ∧ lo + w ≤ 12 := by decide) :
    OffSystem ⟨SIS_STATUS r, lo, w, acc, reset⟩ := ⟨.inl (not_statusReg_rgn r 0x2000), fun _ => h⟩

/-- The other registers of a region. -/
theorem offSystem_rgn {f : Fld} (n o : Nat) (hf : f.addr = rgnBase n + o := by rfl) (ho : 32 ≤ o ∧ o < 0x400000 ∧ o ≠ 0x2000 := by decide) :
    OffSystem f := by
  refine ⟨.inl (hf ▸ not_statusReg_rgn n o ⟨ho.1, ho.2.1⟩), fun hsis => ?_⟩
  unfold SisReg rgnBase at *
  omega

/-- The registers of an HBM controller. -/
theorem offSystem_hbm {f : Fld} (n c o : Nat) (hc : c < 6) (hf : f.addr = rgnBase n + 0x5000 + c * 0x40 + o := by rfl)
    (ho : o < 0x40 := by decide) : OffSystem f :=
  offSystem_rgn n (0x5000 + c * 0x40 + o) (by omega) (by omega)

theorem offSystem_blk {f : Fld} (b o : Nat) (hf : f.addr = blkBase b + o := by rfl) (ho : o < 0x10000 := by decide) : OffSystem f := by
  refine ⟨.inl (hf ▸ not_statusReg_blk b o ho), fun hsis => ?_⟩
  unfold SisReg blkBase at *
  omega

theorem offSystem_cntOverflow (k : Nat) : OffSystem (CNT_VALUE_HI_overflow k) := by
  refine ⟨.inr ⟨k, rfl⟩, fun hsis => ?_⟩
  have haddr : SisReg (0xC10004 + k * 8) := hsis
  omega

theorem offSystem_pba {v : Nat} (h : v < 2 ^ 11) : OffSystem (pbaFld v) := by
  have haddr : (pbaFld v).addr = 0x3C0000 + v / 32 * 4 := rfl
  refine ⟨.inl ?_, fun hsis => ?_⟩ <;> rw [haddr] at *
  · unfold StatusReg FenceReg HUB_MODULE_STATUS RNG_JOURNAL_STATUS SAF_STATUS
    omega
  · omega

theorem SystemFld.fld_setFld {f g : Fld} (hf : SystemFld f) (hg : OffSystem g) (s : State) (v : Nat) : (s.setFld g v).fld f = s.fld f := by
  by_cases haddr : f.addr = g.addr
  · have hbits := hg.2 (haddr ▸ hf.1)
    exact State.fld_setFld_bits s g f v (by omega) (by omega)
  · exact State.fld_setFld_addr s g f v haddr

/-! ### What leaves the systems as they are -/

/-- The systems, the tide, the journal and the configuration. -/
def State.systemView (s : State) : SMap Solver × TideUnit × SMap JEntry × SMap JEntry × SMap JEntry × List Nat × DevCfg :=
  (s.solvers, s.tide, s.journalView)

/-- Systems, tide, journal and configuration, and the fields that tell of systems, regions and blocks are as before. -/
structure SystemsKept (s t : State) : Prop where
  view : t.systemView = s.systemView
  flds : ∀ f, StatusFld f ∨ SystemFld f → t.fld f = s.fld f

theorem SystemsKept.refl (s : State) : SystemsKept s s := ⟨rfl, fun _ _ => rfl⟩

theorem SystemsKept.trans {s t u : State} (h : SystemsKept s t) (k : SystemsKept t u) : SystemsKept s u :=
  ⟨k.view.trans h.view, fun f hf => (k.flds f hf).trans (h.flds f hf)⟩

section
variable {s t u : State} (h : SystemsKept s t)
include h

theorem SystemsKept.steady : Steady s t := ⟨congrArg (·.2.2) h.view, fun f hf => h.flds f (.inl hf)⟩

theorem SystemsKept.solvers : t.solvers = s.solvers := congrArg Prod.fst h.view

theorem SystemsKept.tide : t.tide = s.tide := congrArg (·.2.1) h.view

theorem SystemsKept.solver (r : Nat) : t.solver r = s.solver r := by
  unfold State.solver
  rw [h.solvers]

theorem SystemsKept.fld {f : Fld} (hf : SystemFld f) : t.fld f = s.fld f := h.flds f (.inr hf)

theorem SystemsKept.congr (hview : u.systemView = t.systemView) (hregs : u.regs = t.regs) : SystemsKept s u :=
  h.trans ⟨hview, fun f _ => State.fld_congr hregs f⟩

theorem SystemsKept.forUpTo (n : Nat) (f : Nat → State → State) (hf : ∀ i y, SystemsKept s y → SystemsKept s (f i y)) :
    SystemsKept s (forUpTo n f t) :=
  forUpTo_keeps (SystemsKept s) n f t h hf

/-! #### Registers and event counters -/

theorem SystemsKept.setFld (f : Fld) (v : Nat) (hf : OffSystem f := by exact ⟨.inl (by decide), by decide⟩) : SystemsKept s (t.setFld f v) :=
  h.trans ⟨rfl, fun _ hg => hg.elim (fun hg => hg.fld_setFld hf.1 t v) (fun hg => hg.fld_setFld hf t v)⟩

theorem SystemsKept.bump (f : Fld) (n : Nat) (hf : OffSystem f := by exact ⟨.inl (by decide), by decide⟩) : SystemsKept s (t.bump f n) :=
  h.setFld f _ hf

theorem SystemsKept.setFlag (f : Fld) (hf : OffSystem f := by exact ⟨.inl (by decide), by decide⟩) : SystemsKept s (t.setFlag f) :=
  (h.setFld f 1 hf).congr rfl rfl

theorem SystemsKept.setFlagIf (c : Bool) (f : Fld) (hf : OffSystem f := by exact ⟨.inl (by decide), by decide⟩) :
    SystemsKept s (t.setFlagIf c f) := by
  unfold State.setFlagIf
  split
  · exact h.setFlag f hf
  · exact h

theorem SystemsKept.count (k n : Nat) : SystemsKept s (t.count k n) :=
  SystemsKept.setFlagIf (by exact h.congr rfl rfl) _ _ (offSystem_cntOverflow k)

theorem SystemsKept.countBytes (k n : Nat) : SystemsKept s (t.countBytes k n) := SystemsKept.count (by exact h.congr rfl rfl) k _

theorem SystemsKept.takeFree (w : Nat) : SystemsKept s (t.takeFree w).2 := h.congr rfl rfl

/-! #### Memory and host memory -/

theorem SystemsKept.setBytes (a : Nat) (bs : List Byte) : SystemsKept s (t.setBytes a bs) := by
  induction bs generalizing t a with
  | nil => exact h
  | cons b bs ih => exact ih (by exact h.congr rfl rfl) (a + 1)

theorem SystemsKept.writeLine (a : Nat) (bs : List Byte) : SystemsKept s (t.writeLine a bs) := by
  have hbytes := ((h.count (cntCtrl (hbmStack a) 1) 1).countBytes (cntRegion (hbmStack a / 6) 1) bs.length).setBytes a bs
  unfold State.writeLine
  dsimp only
  split
  · exact hbytes
  · split
    · exact hbytes.congr rfl rfl
    · exact hbytes.setFlag _ (offSystem_hbm _ _ 0 (Nat.mod_lt (hbmStack a) (by decide : 6 > 0)))

theorem SystemsKept.writeHbm (a : Nat) (bs : List Byte) (fuel : Nat) : SystemsKept s (t.writeHbm a bs fuel) := by
  induction fuel generalizing t a bs with
  | zero => exact h
  | succ fuel ih =>
    unfold State.writeHbm
    split
    · exact h
    · exact ih (h.writeLine _ _) _ _

theorem SystemsKept.put (a : Nat) (bs : List Byte) : SystemsKept s (t.put a bs) := by
  unfold State.put
  split
  · exact h.writeHbm a bs _
  · exact h.setBytes a bs

theorem SystemsKept.setHost (a : Nat) (bs : List Byte) : SystemsKept s (t.setHost a bs) := by
  have hput : SystemsKept s (t.putHost a bs) := by
    induction bs generalizing t a with
    | nil => exact h
    | cons b bs ih => exact ih (by exact h.congr rfl rfl) (a + 1)
  unfold State.setHost
  split
  · exact h
  · exact hput

/-! #### Error records (R544, R546, R547, R550) -/

theorem SystemsKept.msix {v : Nat} (hv : v < 2 ^ 11) : SystemsKept s (t.msix v) := by
  unfold State.msix State.msixMessage
  split
  · exact h.setFld _ _ (offSystem_pba hv)
  · exact ((h.setHost _ _).setFld _ _ (offSystem_pba hv)).count _ _

theorem SystemsKept.errToRing (bs : List Byte) : SystemsKept s (t.errToRing bs) := by
  have hwritten (a : Nat) : SystemsKept s (if t.flag HUB_ERR_CFG_in_device then t.put a bs else t.setHost a bs) := by
    split
    · exact h.put a bs
    · exact h.setHost a bs
  unfold State.errToRing
  dsimp only
  split
  · exact ((hwritten _).setFld HUB_ERR_TAIL_tail _).msix (t.fld_lt HUB_ERR_CFG_vector)
  · exact (hwritten _).setFld HUB_ERR_TAIL_tail _

theorem SystemsKept.logErr (severity : Nat) (bs : List Byte) : SystemsKept s (t.logErr severity bs) := by
  unfold State.logErr
  dsimp only
  split <;> split <;> exact h.congr rfl rfl

theorem SystemsKept.writeErr (severity : Nat) (bs : List Byte) : SystemsKept s (t.writeErr severity bs) := by
  have hlogged := h.logErr severity bs
  rw [State.writeErr_eq]
  split
  · exact hlogged.errToRing bs
  · split
    · exact (hlogged.setFlag HUB_ERR_STATUS_dropped).bump HUB_ERR_STATUS_dropped_count 1
    · split
      · exact SystemsKept.setFld (by exact hlogged.congr rfl rfl) HUB_ERR_STATUS_buffered _
      · exact (hlogged.setFlag HUB_ERR_STATUS_lost_severe).bump HUB_ERR_STATUS_dropped_count 1

theorem SystemsKept.error (r : ErrRec) : SystemsKept s (t.error r) := by
  unfold State.error
  split
  · exact h.congr rfl rfl
  · exact SystemsKept.writeErr (by exact h.congr rfl rfl) _ _

/-! #### A unit's write (R418, R510, R512, R513) -/

theorem SystemsKept.unmapped : SystemsKept s t.unmapped := (h.setFlag HUB_ADDR_STATUS_unmapped).bump HUB_ADDR_COUNT_unmapped_accesses 1

theorem SystemsKept.syncDrop (r : Nat) : SystemsKept s (t.syncDrop r) :=
  (h.bump _ 1 (offSystem_rgn r 0x4008)).setFlag _ (offSystem_rgn r 0x4000)

theorem SystemsKept.toHome (o : SyncOp) : SystemsKept s (t.toHome o) :=
  SystemsKept.count (SystemsKept.setFld (SystemsKept.setFld (by exact h.congr rfl rfl) _ _ (offSystem_rgn (homeOf o.counter) 0x4000)) _ _
    (offSystem_rgn (homeOf o.counter) 0x4000)) _ _

theorem SystemsKept.winWrite (b off : Nat) (data : List Byte) : SystemsKept s (t.winWrite b off data) := by
  unfold State.winWrite
  split
  · exact (h.setFlag _ (offSystem_blk b 0x400)).bump _ 1 (offSystem_blk b 0x404)
  · refine SystemsKept.count (h.forUpTo _ _ fun i y hy => ?_) _ _
    dsimp only
    split
    · exact hy
    · exact hy.congr rfl rfl

theorem SystemsKept.writePiece (who : Who) (a : Nat) (bs : List Byte) : SystemsKept s (t.writePiece noMirror who a bs).2 := by
  unfold State.writePiece
  split
  case h_1 =>
    split
    case h_1 => exact h.writeHbm a bs _
    case h_2 => exact ((h.setBytes a bs).countBytes _ _).countBytes _ _
    case h_3 => exact (h.winWrite _ _ bs).countBytes _ _
    case h_4 => exact h
    case h_5 =>
      dsimp only
      split
      · exact h.toHome _
      · exact h.syncDrop _
    case h_6 =>
      split
      · exact h.unmapped.setFlag HUB_ADDR_STATUS_remote_mirror
      · split
        · exact h
        · exact h.bump HUB_ADDR_COUNT_unmapped_accesses 1
    case h_7 => exact h.unmapped
  case h_2 => exact h.unmapped

theorem SystemsKept.store (who : Who) (a : Nat) (bs : List Byte) : SystemsKept s (t.store who a bs).2 := by
  unfold State.store
  generalize bs.length + 1 = fuel
  induction fuel generalizing t a bs with
  | zero => exact h
  | succ fuel ih =>
    unfold State.busWrite
    split
    · exact h
    · exact ih (h.writePiece who a _) _ _

/-! #### A descriptor that begins or completes (R352, R470) -/

theorem SystemsKept.countUpdate (e : Nat) : SystemsKept s (t.countUpdate e) := by
  refine h.trans ⟨rfl, fun f hf => ?_⟩
  by_cases hk : dKind (t.desc e) = kindUpdate
  · have hregs : (t.countUpdate e).regs = (t.bump (UPD_ENGINE_COUNT_updates (leAt (t.desc e) 37 1 % 64))).regs := if_pos hk
    have hcounted := (SystemsKept.refl t).bump (UPD_ENGINE_COUNT_updates (leAt (t.desc e) 37 1 % 64)) 1 (offSystem_blk _ 0xF04)
    exact (State.fld_congr hregs f).trans (hcounted.flds f hf)
  · exact State.fld_congr (if_neg hk) f

theorem SystemsKept.complete (e : Nat) (st : List Status) (err : ErrCode) (c1 c2 : Nat) : SystemsKept s (t.complete e st err c1 c2) :=
  (h.countUpdate e).congr rfl rfl

theorem SystemsKept.begun (e ph : Nat) : SystemsKept s (t.begun e ph) := by
  unfold State.begun
  split
  · exact h.congr rfl rfl
  · exact h

end

end Sys2Proof.Machine
end

section
/-! SUPPORT. Family 09_sparse_solver.md: the resident system of a region, and how a SOLVE descriptor goes on or ends (O22). -/

namespace Sys2Proof.Machine

/-! ### Descriptors through accesses to memory and changes of a system -/

theorem JobsKept.load {s t : State} (h : JobsKept s t) (who : Who) (a n : Nat) : JobsKept s (t.load who a n).2.2 :=
  ⟨h.toSteady.load who a n, ((Noted.refl t).load who a n).jobView.trans h.jobs⟩

theorem JobsKept.store {s t : State} (h : JobsKept s t) (who : Who) (a : Nat) (bs : List Byte) : JobsKept s (t.store who a bs).2 :=
  ⟨h.toSteady.trans ((SystemsKept.refl t).store who a bs).steady, (t.store_jobView who a bs).trans h.jobs⟩

/-- A region's system and its sys_valid. -/
def State.putSystem (s : State) (r : Nat) (x : Solver) : State :=
  State.setFld { s with solvers := SMap.set solverDefault s.solvers r x } (SIS_STATUS_sys_valid r) (b2n x.valid)

/-- Beside these a change of a system shows itself in registers of its own (R311). -/
theorem State.setSolver_kept (s : State) (r : Nat) (x : Solver) : SystemsKept (s.putSystem r x) (s.setSolver r x) := by
  have hsystem := (((SystemsKept.refl (s.putSystem r x)).setFld (SIS_SYSTEM_ID_system_id r) x.id (offSystem_rgn r 0x2004)).setFld (SIS_ROWS_n r) x.n
    (offSystem_rgn r 0x2008)).setFld (SIS_NNZ_nnz r) x.entries.length (offSystem_rgn r 0x200C)
  have hrange := (hsystem.setFld (SIS_RANGE_f r) x.f (offSystem_rgn r 0x2010)).setFld (SIS_RANGE_h r) x.h (offSystem_rgn r 0x2010)
  exact (hrange.setFld (SIS_RANGE_g_max r) _ (offSystem_rgn r 0x2010)).setFld (SIS_RANGE_f_bound r) _ (offSystem_rgn r 0x2010)

theorem State.solver_setSolver (s : State) (r : Nat) (x : Solver) : (s.setSolver r x).solver r = x :=
  ((s.setSolver_kept r x).solver r).trans (SMap.get_set_same solverDefault s.solvers r x)

theorem State.fld_setSolver_valid (s : State) (r : Nat) (x : Solver) : (s.setSolver r x).fld (SIS_STATUS_sys_valid r) = b2n x.valid := by
  rw [(s.setSolver_kept r x).fld ⟨sisReg_status r, .inl ⟨rfl, rfl⟩⟩, State.putSystem, State.fld_setFld_same _ _ _ (by decide : 4 + 1 ≤ 32)]
  cases x.valid <;> rfl

theorem State.setSolver_jobView (s : State) (r : Nat) (x : Solver) : (s.setSolver r x).jobView = s.jobView := by
  unfold State.setSolver
  dsimp only
  iterate 8 rw [State.setFld_jobView]
  rfl

theorem JobsKept.setSolver {s t : State} (h : JobsKept s t) (r : Nat) (x : Solver) : JobsKept s (t.setSolver r x) := by
  have hsystem : Steady s { t with solvers := SMap.set solverDefault t.solvers r x } := h.toSteady.congr rfl rfl
  have hput : Steady s (t.putSystem r x) := hsystem.setFld _ _ (.inl (not_statusReg_rgn r 0x2000))
  exact ⟨hput.trans (t.setSolver_kept r x).steady, (t.setSolver_jobView r x).trans h.jobs⟩

/-! ### LOAD or UPDATE is done: the SOLVE op follows, or the descriptor completes (R301, R302) -/

theorem State.endOps_kept (s : State) (e : Nat) (st : List Status) (err : ErrCode) (count : Nat) : SystemsKept s (s.endOps e st err count) :=
  (((SystemsKept.refl s).setFld _ 0 (offSystem_status _ 0 1)).setFld _ 0 (offSystem_status _ 1 3)).complete e st err count _

theorem State.opDone'_kept (s : State) (e count : Nat) (add : List Status) : SystemsKept s (s.opDone' e count add) := by
  unfold State.opDone'
  dsimp only
  split
  · exact (((SystemsKept.refl s).setFld _ 1 (offSystem_status _ 0 1)).setFld _ 3 (offSystem_status _ 1 3)).begun e _
  · exact s.endOps_kept e _ _ _

theorem State.opDone'_ends {s t : State} {e : Nat} (hfresh : s.fresh e kindSolve = true) (h : JobsKept s t) (count : Nat) :
    (slOp (s.desc e) 2 = true → (t.opDone' e count []).doing e kindSolve = true) ∧
      (slOp (s.desc e) 2 = false → EndsAs (t.opDone' e count []) e .ok .none) := by
  unfold State.opDone'
  dsimp only
  rw [h.toSteady.desc]
  refine ⟨fun hop => ?_, fun hop => ?_⟩
  · rw [if_pos hop]
    exact State.doing_begun hfresh (((State.setFld_work ..).trans (State.setFld_work ..)).trans h.work) rfl
  · rw [if_neg (Bool.eq_false_iff.mp hop)]
    exact State.complete_endsAs ..

/-! ### A SOLVE ends with a stop reason (R298, R300, R311) -/

/-- The record of a solve is written, and the solver shows its method and that it is idle. -/
def State.solveRecorded (s : State) (e reason iters rel : Nat) : State :=
  ((State.setFld (s.store devUnit (slWork (s.desc e)) (solveRecord (s.solver (slRegion (s.desc e))) (s.desc e) reason iters rel)).2
    (SIS_STATUS_method (slRegion (s.desc e))) (slMethod (s.desc e))).setFld (SIS_STATUS_busy (slRegion (s.desc e))) 0).setFld
    (SIS_STATUS_phase (slRegion (s.desc e))) 0

/-- The counts and flags of a solve that has ended. -/
def State.solveCounted (s : State) (r reason iters : Nat) (sat : Bool) : State :=
  let s1 := ((s.setFld (SIS_ITER_iterations r) iters).bump (SIS_COUNT_solves r)).bump (SIS_EVENT_range_ends r) (b2n (reason == 3))
  let s2 := (s1.bump (SIS_EVENT_breakdowns r) (b2n (reason == 4))).setFlagIf (reason == 4) (SIS_STATUS_breakdown r)
  let s3 := (s2.bump (SIS_EVENT_late_ends r) (b2n (reason == 2))).setFlagIf (reason == 2) (SIS_STATUS_late r)
  (s3.setFlagIf sat (SIS_STATUS_range_sat r)).count (cntRegion r 10) iters

theorem State.endSolve_eq (s : State) (e reason iters rel : Nat) (sat : Bool) (st : List Status) (err : ErrCode) :
    s.endSolve e reason iters rel sat st err =
      (((s.solveRecorded e reason iters rel).setFld (SIS_STATUS_last_reason (slRegion (s.desc e))) reason).solveCounted
        (slRegion (s.desc e)) reason iters sat).complete e st err iters reason := rfl

theorem State.solveRecorded_kept (s : State) (e reason iters rel : Nat) : SystemsKept s (s.solveRecorded e reason iters rel) :=
  ((((SystemsKept.refl s).store _ _ _).setFld _ _ (offSystem_status _ 5 2)).setFld _ 0 (offSystem_status _ 0 1)).setFld _ 0 (offSystem_status _ 1 3)

theorem State.solveCounted_kept (s : State) (r reason iters : Nat) (sat : Bool) : SystemsKept s (s.solveCounted r reason iters sat) := by
  have hreason := (((SystemsKept.refl s).setFld (SIS_ITER_iterations r) iters (offSystem_rgn r 0x2014)).bump (SIS_COUNT_solves r) 1
    (offSystem_rgn r 0x2018)).bump (SIS_EVENT_range_ends r) (b2n (reason == 3)) (offSystem_rgn r 0x201C)
  have hbreakdown := (hreason.bump (SIS_EVENT_breakdowns r) (b2n (reason == 4)) (offSystem_rgn r 0x201C)).setFlagIf (reason == 4)
    (SIS_STATUS_breakdown r) (offSystem_status r 10 1)
  have hlate := (hbreakdown.bump (SIS_EVENT_late_ends r) (b2n (reason == 2)) (offSystem_rgn r 0x201C)).setFlagIf (reason == 2)
    (SIS_STATUS_late r) (offSystem_status r 11 1)
  exact (hlate.setFlagIf sat (SIS_STATUS_range_sat r) (offSystem_status r 8 1)).count _ _

theorem State.endSolve_solvers (s : State) (e reason iters rel : Nat) (sat : Bool) (st : List Status) (err : ErrCode) :
    (s.endSolve e reason iters rel sat st err).solvers = s.solvers := by
  rw [State.endSolve_eq, State.complete_solvers, (State.solveCounted_kept ..).solvers, State.setFld_solvers, (s.solveRecorded_kept ..).solvers]

theorem State.endSolve_tide (s : State) (e reason iters rel : Nat) (sat : Bool) (st : List Status) (err : ErrCode) :
    (s.endSolve e reason iters rel sat st err).tide = s.tide := by
  rw [State.endSolve_eq, State.complete_tide, (State.solveCounted_kept ..).tide, State.setFld_tide, (s.solveRecorded_kept ..).tide]

theorem State.endSolve_fld_reason (s : State) (e reason iters rel : Nat) (sat : Bool) (st : List Status) (err : ErrCode) :
    (s.endSolve e reason iters rel sat st err).fld (SIS_STATUS_last_reason (slRegion (s.desc e))) = reason % 2 ^ 8 := by
  rw [State.endSolve_eq, ((State.solveCounted_kept ..).complete ..).fld ⟨sisReg_status _, .inr (by decide : 12 ≤ 16)⟩]
  exact State.fld_setFld_same _ _ _ (by decide : 16 + 8 ≤ 32)

/-- The end of a solve leaves the fields of SIS_STATUS that tell of the system, below the last reason. -/
theorem State.endSolve_fld (s : State) (e reason iters rel : Nat) (sat : Bool) (st : List Status) (err : ErrCode) {f : Fld} (hf : SystemFld f)
    (hlo : f.lo + f.width ≤ 16) : (s.endSolve e reason iters rel sat st err).fld f = s.fld f := by
  rw [State.endSolve_eq, ((State.solveCounted_kept ..).complete ..).fld hf, State.fld_setFld_bits _ (SIS_STATUS_last_reason _) f _
    (by decide : 16 + 8 ≤ 32) (.inr hlo), (s.solveRecorded_kept ..).fld hf]

/-! ### A descriptor fails (R298, R309) -/

theorem State.complete_failed (s : State) (e : Nat) (err : ErrCode) (c1 c2 : Nat) :
    EndsAs (s.complete e [.faultFailed] err c1 c2) e .faultFailed err :=
  ⟨_, List.getLast?_concat .., rfl, rfl, rfl⟩

theorem State.solveFail_failed (s : State) (e reason : Nat) (err : ErrCode) : EndsAs (s.solveFail e reason .faultFailed err) e .faultFailed err := by
  unfold State.solveFail
  split
  · exact State.complete_failed ..
  · exact State.complete_failed ..

/-- A failure leaves the systems, and the fields that tell of them below the last reason. -/
theorem State.solveFail_keeps (s : State) (e reason : Nat) (st : Status) (err : ErrCode) {f : Fld} (hf : SystemFld f) (hlo : f.lo + f.width ≤ 16) :
    (s.solveFail e reason st err).solvers = s.solvers ∧ (s.solveFail e reason st err).fld f = s.fld f := by
  unfold State.solveFail
  split
  · exact ⟨State.endSolve_solvers .., State.endSolve_fld _ _ _ _ _ _ _ _ hf hlo⟩
  · exact ⟨(s.endOps_kept ..).solvers, (s.endOps_kept ..).fld hf⟩

end Sys2Proof.Machine
end

section
/-! SUPPORT. Family 09_sparse_solver.md: the stop reasons of a solve, and what LOAD, UPDATE, SOLVE and the structure scrub leave (O22). -/

namespace Sys2Proof.Machine

/-! ### The stop reasons (R293, R295, R298, R299) -/

theorem reason_ite {c : Prop} [Decidable c] {o p : Solved} (ho : o.reason ≤ 4) (hp : p.reason ≤ 4) : (if c then o else p).reason ≤ 4 := by
  split
  · exact ho
  · exact hp

theorem cgLoop_reason (z : FVal) (m : Solver) (pc : Prec) (thr : Int) (fuel k : Nat) (c : CgState) : (cgLoop z m pc thr fuel k c).reason ≤ 4 := by
  induction fuel generalizing k c with
  | zero => exact (by decide : 1 ≤ 4)
  | succ fuel ih =>
    have hrange : 3 ≤ 4 := by decide
    unfold cgLoop
    extract_lets
    exact reason_ite hrange (reason_ite (Nat.le_refl 4) (reason_ite hrange (reason_ite (Nat.zero_le 4) (reason_ite hrange (ih _ _)))))

theorem cg_reason (z : FVal) (m : Solver) (method size kmax : Nat) (tol : FVal) (b x : List Int) (warm : Bool) :
    (cg z m method size kmax tol b x warm).reason ≤ 4 := by
  unfold cg
  extract_lets
  exact reason_ite (Nat.le_refl 4) (reason_ite (by decide : 3 ≤ 4) (reason_ite (Nat.zero_le 4) (cgLoop_reason ..)))

theorem minresLoop_reason (z : FVal) (m : Solver) (thr : FVal) (fuel k : Nat) (c : MrState) : (minresLoop z m thr fuel k c).reason ≤ 4 := by
  induction fuel generalizing k c with
  | zero => exact (by decide : 1 ≤ 4)
  | succ fuel ih =>
    have hrange : 3 ≤ 4 := by decide
    unfold minresLoop
    extract_lets
    exact reason_ite hrange (reason_ite (Nat.le_refl 4) (reason_ite hrange (reason_ite (Nat.zero_le 4) (ih _ _))))

theorem minres_reason (z : FVal) (m : Solver) (kmax : Nat) (tol : FVal) (b x : List Int) (warm : Bool) :
    (minres z m kmax tol b x warm).reason ≤ 4 := by
  unfold minres
  extract_lets
  exact reason_ite (by decide : 3 ≤ 4) (reason_ite (Nat.zero_le 4) (minresLoop_reason ..))

/-- What stops a solve without a fault leaves it a reason of 0 to 4. -/
theorem stopped_reason {run : Nat → Solved} {kmax : Nat} {stop : SolveEnd} (hrun : ∀ k, (run k).reason ≤ 4)
    (hstop : ∀ u n, stop ≠ .fault u n) : (stopped run kmax stop).reason ≤ 4 := by
  cases stop with
  | free => exact hrun kmax
  | setup =>
    unfold stopped
    dsimp only
    split
    · exact (by decide : 2 ≤ 4)
    · exact hrun 0
  | deadline n =>
    unfold stopped
    dsimp only
    split
    · exact hrun _
    · split
      · exact hrun _
      · exact (by decide : 2 ≤ 4)
  | fault u n => exact absurd rfl (hstop u n)

/-- A deadline in setup leaves no solve converged or at its limit. -/
theorem stopped_setup_reason (run : Nat → Solved) (kmax : Nat) : 2 ≤ (stopped run kmax .setup).reason := by
  unfold stopped
  dsimp only
  split
  · exact Nat.le_refl 2
  · omega

/-! ### SOLVE (R293 to R301, R304) -/

section
variable {s : State} {e : Nat} {stop : SolveEnd} {x y : List Byte × AccEnd × State} (hstop : ∀ u n, stop ≠ .fault u n)
  (hx : x = s.load devUnit (leAt (s.desc e) 40 8) (4 * (s.solver (slRegion (s.desc e))).n)) (hxok : x.2.1 = .ok)
  (hy : y = if slOp (s.desc e) 3 then x.2.2.load devUnit (leAt (s.desc e) 48 8) (4 * (s.solver (slRegion (s.desc e))).n) else ([], .ok, x.2.2))
  (hyok : y.2.1 = .ok)
include hstop hx hxok hy hyok

/-- A SOLVE whose vectors can be read, and that no fault stops, comes to its end with a reason of 0 to 4 and with the matrix as it was. -/
theorem State.runSolve_eq : ∃ u reason iters rel sat, s.runSolve e stop [] = State.endSolve u e reason iters rel sat [reasonStatus reason] .none ∧
    Steady s u ∧ u.tide = s.tide ∧ (u.solver (slRegion (s.desc e))).entries = (s.solver (slRegion (s.desc e))).entries ∧ reason ≤ 4 ∧
    (stop = .setup → 2 ≤ reason) := by
  have hread : JobsKept s y.2.2 := by
    have hfirst : JobsKept s x.2.2 := hx ▸ (JobsKept.refl s).load _ _ _
    rw [hy]
    split
    · exact hfirst.load _ _ _
    · exact hfirst
  unfold State.runSolve
  extract_lets d r m x' y' k z w fb b x0 badB run o s1 vn v s2 pn p s3 s4 free rel s5
  have hx' : x' = x := hx.symm
  have hy' : y' = y := by rw [hy, ← hx']
  have hreason : o.reason ≤ 4 := reason_ite (by decide : 3 ≤ 4)
    (stopped_reason (fun _ => reason_ite (minres_reason ..) (cg_reason ..)) hstop)
  have hsetup (hs : stop = .setup) : 2 ≤ o.reason := by
    unfold o
    split
    · exact (by decide : 2 ≤ 3)
    · rw [hs]
      exact stopped_setup_reason _ _
  have hset : JobsKept s s1 := (((hy' ▸ hread).takeFree 96).takeFree (32 * m.n)).setSolver r _
  have hkept : SystemsKept s1 s5 := by
    have hvectors : SystemsKept s1 s3 := ((((SystemsKept.refl s1).takeFree _).store _ _ _).takeFree _).store _ _ _
    refine SystemsKept.count ?_ _ _
    unfold s4
    split
    · exact hvectors
    · exact hvectors.store _ _ _
  rw [if_neg (by rw [hx', hy', hxok, hyok]; decide), if_neg (by omega)]
  refine ⟨s5, o.reason, o.iters, rel, _, rfl, hset.toSteady.trans hkept.steady, hkept.tide.trans hset.tide, ?_, hreason, hsetup⟩
  have hsolver : s5.solver r = { m with gather := o.mul } := (hkept.solver r).trans (State.solver_setSolver ..)
  show (s5.solver r).entries = m.entries
  rw [hsolver]

theorem State.runSolve_ends : ∃ d reason, (s.runSolve e stop []).doneQ.getLast? = some d ∧ d.entry = e ∧ reason ≤ 4 ∧ d.c2 = reason ∧
    d.status = reasonStatus reason ∧ (s.runSolve e stop []).fld (SIS_STATUS_last_reason (slRegion (s.desc e))) = reason ∧
    (s.runSolve e stop []).tide = s.tide ∧
    ((s.runSolve e stop []).solver (slRegion (s.desc e))).entries = (s.solver (slRegion (s.desc e))).entries ∧ (stop = .setup → 2 ≤ reason) := by
  obtain ⟨u, reason, iters, rel, sat, hrun, hsteady, htide, hentries, hle, hsetup⟩ := State.runSolve_eq hstop hx hxok hy hyok
  rw [hrun]
  obtain ⟨d, hlast, hentry, hstatus, -, hc2⟩ := State.complete_ends _ e (reasonStatus reason) .none iters reason
  have hshown := State.endSolve_fld_reason u e reason iters rel sat [reasonStatus reason] .none
  rw [hsteady.desc, Nat.mod_eq_of_lt (by omega)] at hshown
  refine ⟨d, reason, hlast, hentry, hle, hc2.trans (Nat.mod_eq_of_lt (by omega)), hstatus, hshown, (State.endSolve_tide ..).trans htide, ?_, hsetup⟩
  rw [State.solver, State.endSolve_solvers]
  exact hentries

end

theorem exec_solverSolve (e : Nat) (u : SolveUpset) (s : State) : exec (.solverSolve e u) s = execSolverSolve e u s := rfl

theorem exec_solveDeadline (e : Nat) (done : Option Nat) (s : State) : exec (.solveDeadline e done) s = execSolveDeadline e done s := rfl

section
variable {s : State} {e : Nat} (hnext : s.solveNext e = true) (hok : solveOk (s.desc e) = true)
  (hfence : s.regionFenced (slRegion (s.desc e)) = false) (hsys : systemOk (s.solver (slRegion (s.desc e))) (s.desc e) = true)
  (hwork : wrongWork (s.solver (slRegion (s.desc e))) (s.desc e) = false)
include hnext hok hfence hsys hwork

/-- A SOLVE of the resident system runs, in setup to its end where its deadline has passed (R299, R305). -/
theorem exec_solverSolve_runs : exec (.solverSolve e .none) s =
    .next (s.runSolve e (if s.deadlinePast (s.desc e) then .setup else .free) (s.solveAdd e)) := by
  rw [exec_solverSolve]
  unfold execSolverSolve
  dsimp only
  rw [if_neg (by simp [hok]), if_neg (by simp [hnext]), if_neg (by simp [hfence]), if_neg (by simp [hsys]), if_neg (by simp [hwork])]
  split
  · rfl
  · exact congrArg (fun add => Host.Outcome.next (s.runSolve e .free add)) (List.append_nil _)

/-- The deadline of such a SOLVE comes in its setup, where it has passed or no iteration has begun, or in an iteration (R299). -/
theorem exec_solveDeadline_runs (hvalid : dDeadlineValid (s.desc e) = true) (within : Option Nat) : exec (.solveDeadline e within) s =
    .next ((s.atTide (dDeadline (s.desc e))).runSolve e (if s.deadlinePast (s.desc e) then .setup else within.elim .setup .deadline)
      (s.solveAdd e)) := by
  rw [exec_solveDeadline]
  unfold execSolveDeadline
  dsimp only
  rw [if_pos ⟨hnext, hok, hvalid, hsys, hwork, by simp [hfence]⟩]

end

/-! ### LOAD (R282 to R286) -/

theorem not_bnot {b : Bool} (h : b = true) : ¬((!b) = true) := by
  rw [h]
  decide

theorem exec_solverLoad (e f : Nat) (u : SolverUpset) (s : State) : exec (.solverLoad e f u) s = execSolverLoad e f u s := rfl

section
variable {s : State} {e f nn f' : Nat} {x y : List Byte × AccEnd × State} {raw : List (Nat × Nat)} {vals : List (FVal × Nat)}
  {lam : FVal} {g l : Int} {es : List (Int × Nat)} (hfresh : s.fresh e kindSolve = true) (hok : solveOk (s.desc e) = true) (hturn : s.solveTurn e = true)
  (hfence : s.regionFenced (slRegion (s.desc e)) = false) (hop : slOp (s.desc e) 0 = true)
  (hx : x = s.load devUnit (leAt (s.desc e) 32 8) 64) (hxok : x.2.1 = .ok) (hnn : nn = leAt x.1 4 4)
  (hy : y = x.2.2.load devUnit (leAt (s.desc e) 32 8 + 64) (8 * nn)) (hyok : y.2.1 = .ok)
  (hraw : raw = (List.range nn).map (fun i => (leAt y.1 (8 * i) 4, leAt y.1 (8 * i + 4) 4))) (hstruct : structOk (leAt x.1 0 4) nn x.1 raw = true)
  (hvals : vals = raw.map (fun t => (Fmt.fp32.decode t.1, t.2))) (hlam : lam = Fmt.fp32.decode (leAt x.1 8 4))
  (hfin : ∀ v ∈ vals, v.1.isFin = true) (hlamfin : lam.isFin = true)
  (hg : g = ((rowsOf (·.2) vals []).zipIdx.map (fun t => gOf (rowMag lam t.2 t.1))).foldl max (-128)) (hbound : 0 ≤ fBound (slHead (s.desc e)) g)
  (hf : f' = min f (fBound (slHead (s.desc e)) g).toNat) (hes : es = vals.map (fun t => (((toSq f' t.1).getD (0, false)).1, t.2)))
  (hl : l = ((toSq f' lam).getD (0, false)).1) (hrules : rulesHold (slHead (s.desc e)) l es = true)
include hfresh hok hturn hfence hop hx hxok hnn hy hyok hraw hstruct hvals hlam hfin hlamfin hg hbound hf hes hl hrules

/-- A LOAD whose image passes every check, at the f that is set or the bound, makes its system the resident one, and then goes on. -/
theorem exec_solverLoad_stands :
    ∃ u m, exec (.solverLoad e f .none) s = .next (u.opDone' e nn []) ∧ JobsKept s u ∧
      u.solver (slRegion (s.desc e)) = ⟨true, slId (s.desc e), slWork (s.desc e), leAt x.1 0 4, f', slHead (s.desc e), g, l, es, m⟩ ∧
      u.fld (SIS_STATUS_sys_valid (slRegion (s.desc e))) = 1 := by
  have hsize : nn ≤ 8388608 := by
    unfold structOk at hstruct
    simp only [Bool.and_eq_true, decide_eq_true_eq] at hstruct
    omega
  have hread : JobsKept s y.2.2 := by
    rw [hy, hx]
    exact ((JobsKept.refl s).load _ _ _).load _ _ _
  rw [exec_solverLoad]
  unfold execSolverLoad
  extract_lets d r u x' n nn' y' raw' s1 vals' lam' g' bnd f'' es' l' s2 s3
  have hx' : x' = x := hx.symm
  clear_value x'
  subst hx' hnn
  have hy' : y' = y := by
    rw [hy]
    exact congrArg (x'.2.2.load devUnit (leAt d 32 8 + 64)) (if_pos hsize)
  clear_value y'
  subst hy' hraw hvals hlam hg hf hes hl
  have hkept : SystemsKept s2 s3 := (SystemsKept.refl s2).store _ _ _
  have hset : JobsKept s s2 := ((hread.setSolver r _).setSolver r _)
  have hturns : ¬((!slOp d 0) = true ∨ (!s.solveTurn e) = true) := not_or_intro (not_bnot hop) (not_bnot hturn)
  have hvalues : ¬(((vals'.any fun t => !t.1.isFin) || !lam'.isFin) = true) := by
    rw [Bool.or_eq_true, List.any_eq_true]
    rintro (⟨v, hv, hbad⟩ | hbad)
    · exact not_bnot (hfin v hv) hbad
    · exact not_bnot hlamfin hbad
  rw [if_neg (not_bnot hfresh), if_neg (not_bnot hok), if_neg hturns, if_neg (Bool.eq_false_iff.mp hfence), if_neg (c := u.1 = true) Bool.false_ne_true,
    if_neg (by rw [hxok, hyok]; decide), if_neg (Nat.not_lt.mpr hsize), if_neg (c := (!structOk n nn' x'.1 raw') = true) (not_bnot hstruct),
    if_neg hvalues, if_neg (c := bnd < 0) (Int.not_lt.mpr hbound), if_neg (c := (!rulesHold (slHead d) l' es') = true) (not_bnot hrules)]
  refine ⟨_, (s.solver r).gather, rfl, (hset.store _ _ _).count _ _, ?_, ?_⟩
  · exact ((hkept.count _ _).solver r).trans (State.solver_setSolver ..)
  · exact ((hkept.count _ _).fld ⟨sisReg_status r, .inl ⟨rfl, rfl⟩⟩).trans (State.fld_setSolver_valid ..)

end

/-! ### UPDATE (R289, R290) -/

theorem exec_solverUpdate (e f : Nat) (u : SolverUpset) (s : State) : exec (.solverUpdate e f u) s = execSolverUpdate e f u s := rfl

/-- An UPDATE of the resident system whose batch fits changes the values that it names, keeps f, and then goes on. -/
theorem exec_solverUpdate_stands {s : State} {e : Nat} (f : Nat) {y : List Byte × AccEnd × State} {b : List (Nat × FVal)} {m : Solver}
    (hm : m = s.solver (slRegion (s.desc e))) (hfresh : s.fresh e kindSolve = true) (hok : solveOk (s.desc e) = true)
    (hturn : s.solveTurn e = true) (hfence : s.regionFenced (slRegion (s.desc e)) = false) (hop : slOp (s.desc e) 1 = true)
    (hsys : systemOk m (s.desc e) = true) (hwork : wrongWork m (s.desc e) = false)
    (hy : y = s.load devUnit (leAt (s.desc e) 32 8) (8 * slCount (s.desc e))) (hyok : y.2.1 = .ok)
    (hb : b = (List.range (slCount (s.desc e))).map (fun i => (leAt y.1 (8 * i) 4, Fmt.fp32.decode (leAt y.1 (8 * i + 4) 4))))
    (hindex : ∀ t ∈ b, t.1 < m.entries.length ∨ t.1 = 0xFFFFFFFF) (hfits : (applyBatch m.h m.f (m.lam, m.entries) b).2 = true) :
    ∃ u, exec (.solverUpdate e f .none) s = .next (u.opDone' e (slCount (s.desc e)) []) ∧ JobsKept s u ∧
      u.solver (slRegion (s.desc e)) = { m with
        lam := (applyBatch m.h m.f (m.lam, m.entries) b).1.1, entries := (applyBatch m.h m.f (m.lam, m.entries) b).1.2 } := by
  subst hm hy hb
  rw [exec_solverUpdate]
  unfold execSolverUpdate
  extract_lets d r m u y b n k s1 a
  have hread : JobsKept s s1 := (((JobsKept.refl s).load _ _ _).takeFree _).store _ _ _
  have hturns : ¬((!slOp d 1) = true ∨ (!s.solveTurn e) = true) := not_or_intro (not_bnot hop) (not_bnot hturn)
  have hnames : ¬((b.any fun t => decide (m.entries.length ≤ t.1) && t.1 != 0xFFFFFFFF) = true) := by
    rw [List.any_eq_true]
    rintro ⟨t, ht, hbad⟩
    obtain ⟨hbeyond, hother⟩ := Bool.and_eq_true_iff.mp hbad
    exact (hindex t ht).elim (Nat.not_lt.mpr (of_decide_eq_true hbeyond)) (bne_iff_ne.mp hother)
  rw [if_neg (not_bnot hfresh), if_neg (not_bnot hok), if_neg hturns, if_neg (Bool.eq_false_iff.mp hfence), if_neg (not_bnot hsys),
    if_neg (Bool.eq_false_iff.mp hwork), if_neg (c := u.1 = true) Bool.false_ne_true, if_neg (c := y.2.1 ≠ .ok) (not_not_intro hyok),
    if_neg hnames, if_pos (c := a.2 = true) hfits]
  exact ⟨_, rfl, hread.setSolver r _, State.solver_setSolver ..⟩

/-! ### The structure scrub (R309, R310) -/

theorem exec_structureScrub (r : Fin 4) (u : SolverUpset) (s : State) : exec (.structureScrub r u) s = execStructureScrub r u s := rfl

/-- A corrected error is shown and leaves every system. -/
theorem State.solverUpset_corrected (s : State) (r : Nat) (x : Option Nat) :
    (s.solverUpset r x .corrected).2.2.fld (SIS_STATUS_ecc_corrected r) = 1 ∧ (s.solverUpset r x .corrected).2.2.solvers = s.solvers := by
  have hkept : SystemsKept (s.setFlag (SIS_STATUS_ecc_corrected r)) (s.solverUpset r x .corrected).2.2 :=
    ((SystemsKept.refl _).bump _ 1 (offSystem_rgn r 0x2018)).error _
  have hshown := s.fld_setFlag_same (SIS_STATUS_ecc_corrected r) rfl (by decide : 12 + 1 ≤ 32)
  exact ⟨(hkept.fld ⟨sisReg_status r, .inr (Nat.le_refl 12)⟩).trans hshown, hkept.solvers.trans (s.setFlag_solvers _)⟩

theorem State.solver_setFlag (s : State) (f : Fld) (r : Nat) : (s.setFlag f).solver r = s.solver r := by
  rw [State.solver, State.setFlag_solvers, State.solver]

/-- A fatal error is shown and drops the region's system. -/
theorem State.solverUpset_fatal (s : State) (r : Nat) (x : Option Nat) :
    (s.solverUpset r x .fatal).2.2.fld (SIS_STATUS_ecc_fatal r) = 1 ∧ ((s.solverUpset r x .fatal).2.2.solver r).valid = false := by
  have hkept : SystemsKept ((s.dropSystem r).setFlag (SIS_STATUS_ecc_fatal r)) (s.solverUpset r x .fatal).2.2 := (SystemsKept.refl _).error _
  have hshown := (s.dropSystem r).fld_setFlag_same (SIS_STATUS_ecc_fatal r) rfl (by decide : 13 + 1 ≤ 32)
  refine ⟨(hkept.fld ⟨sisReg_status r, .inr (by decide : 12 ≤ 13)⟩).trans hshown, ?_⟩
  rw [hkept.solver, State.solver_setFlag, State.dropSystem, State.solver_setSolver]
  rfl

theorem exec_structureScrub_corrected (s : State) (r : Fin 4) :
    exec (.structureScrub r .corrected) s = .next (s.solverUpset r.val (s.solveRunning r.val) .corrected).2.2 := by
  rw [exec_structureScrub]
  unfold execStructureScrub
  dsimp only
  cases s.solveRunning r.val with
  | none => rfl
  | some e => exact congrArg Host.Outcome.next (if_neg Bool.false_ne_true)

theorem exec_structureScrub_fatal_idle {s : State} {r : Fin 4} (hrun : s.solveRunning r.val = none) :
    exec (.structureScrub r .fatal) s = .next (s.solverUpset r.val none .fatal).2.2 := by
  rw [exec_structureScrub]
  unfold execStructureScrub
  dsimp only
  rw [hrun]

theorem exec_structureScrub_fatal_running {s : State} {r : Fin 4} {e : Nat} (hrun : s.solveRunning r.val = some e) :
    exec (.structureScrub r .fatal) s = .next ((s.solverUpset r.val (some e) .fatal).2.2.solveFail e 6 .faultFailed .storeFault) := by
  rw [exec_structureScrub]
  unfold execStructureScrub
  dsimp only
  rw [hrun]
  exact congrArg Host.Outcome.next (if_pos rfl)

/-- A fatal error in the background drops the region's system and fails the descriptor that runs there. -/
theorem structureScrub_fatal (s : State) (r : Fin 4) :
    ∃ t, exec (.structureScrub r .fatal) s = .next t ∧ t.fld (SIS_STATUS_ecc_fatal r.val) = 1 ∧ (t.solver r.val).valid = false ∧
      ∀ e, s.solveRunning r.val = some e → EndsAs t e .faultFailed .storeFault := by
  cases hrun : s.solveRunning r.val with
  | none =>
    obtain ⟨hshown, hdropped⟩ := s.solverUpset_fatal r.val none
    exact ⟨_, exec_structureScrub_fatal_idle hrun, hshown, hdropped, fun e he => nomatch he⟩
  | some e =>
    obtain ⟨hshown, hdropped⟩ := s.solverUpset_fatal r.val (some e)
    obtain ⟨hsolvers, hfld⟩ := State.solveFail_keeps (s.solverUpset r.val (some e) .fatal).2.2 e 6 .faultFailed .storeFault
      (f := SIS_STATUS_ecc_fatal r.val) ⟨sisReg_status r.val, .inr (by decide : 12 ≤ 13)⟩ (by decide : 13 + 1 ≤ 16)
    refine ⟨_, exec_structureScrub_fatal_running hrun, hfld.trans hshown, ?_, fun i hi => ?_⟩
    · rw [State.solver, hsolvers]
      exact hdropped
    · cases hi
      exact State.solveFail_failed ..

/-- Settles O22: what follows the change of a system, and the end of a solve, leaves the systems; the journal that tells where they go on or end is
that of the start. -/
theorem systemsAndSolves : Obligations.SystemsAndSolves := by
  refine ⟨fun s e f r hr hfresh hok hturn hfence => ?_, fun s => ⟨fun e r x y hr hnext hok hfence hsys hwork hadd => ?_, fun r => ?_⟩⟩
  · subst hr
    refine ⟨fun x y nn raw vals lam g f' es l hop hx hxok hnn hy hyok hraw hstruct hvals hlam hfin hlamfin hg hbound hf hes hl hrules => ?_,
      fun y b hop hsys hwork hy hyok hb hindex hfits => ?_⟩
    · obtain ⟨u, m, hexec, hkept, hsolver, hvalid⟩ := exec_solverLoad_stands hfresh hok hturn hfence hop hx hxok hnn hy hyok hraw hstruct
        hvals hlam hfin hlamfin hg hbound hf hes hl hrules
      have hdone := u.opDone'_kept e nn []
      obtain ⟨hgoes, hends⟩ := State.opDone'_ends hfresh hkept nn
      refine ⟨_, hexec, ?_⟩
      rw [hdone.solver, hsolver, hdone.fld ⟨sisReg_status _, .inl ⟨rfl, rfl⟩⟩]
      exact ⟨rfl, rfl, rfl, rfl, rfl, rfl, hvalid, hgoes, hends⟩
    · obtain ⟨u, hexec, hkept, hsolver⟩ := exec_solverUpdate_stands f rfl hfresh hok hturn hfence hop hsys hwork hy hyok hb hindex hfits
      have hdone := u.opDone'_kept e (slCount (s.desc e)) []
      obtain ⟨hgoes, hends⟩ := State.opDone'_ends hfresh hkept (slCount (s.desc e))
      refine ⟨_, hexec, ?_⟩
      rw [hdone.solver, hsolver]
      exact ⟨rfl, rfl, rfl, hgoes, hends⟩
  · subst hr
    refine ⟨fun hx hxok hy hyok => ?_, fun hvalid within hx hxok hy hyok => ?_⟩
    · have hexec := exec_solverSolve_runs hnext hok hfence hsys hwork
      rw [hadd] at hexec
      obtain ⟨d, reason, hlast, hentry, hle, hc2, hstatus, hshown, -, hentries, hsetup⟩ :=
        State.runSolve_ends (stop := if s.deadlinePast (s.desc e) then .setup else .free) (fun u n => by split <;> simp) hx hxok hy hyok
      exact ⟨_, d, reason, hexec, hlast, hentry, hle, hc2, hstatus, hshown, hentries, fun hpast => hsetup (if_pos hpast)⟩
    · have hexec := exec_solveDeadline_runs hnext hok hfence hsys hwork hvalid within
      rw [hadd] at hexec
      obtain ⟨d, reason, hlast, hentry, hle, hc2, hstatus, -, htide, hentries, hsetup⟩ :=
        State.runSolve_ends (s := s.atTide (dDeadline (s.desc e))) (e := e)
          (stop := if s.deadlinePast (s.desc e) then .setup else within.elim .setup .deadline)
          (fun u n => by cases within <;> split <;> simp) hx hxok hy hyok
      exact ⟨_, d, reason, hexec, hlast, hentry, hle, hc2, hstatus, congrArg TideUnit.ns htide, hentries,
        fun hnone => hsetup (by rw [hnone]; exact ite_self _)⟩
  · obtain ⟨hshown, hsolvers⟩ := s.solverUpset_corrected r.val (s.solveRunning r.val)
    exact ⟨⟨_, exec_structureScrub_corrected s r, hshown, hsolvers⟩, structureScrub_fatal s r⟩

end Sys2Proof.Machine
end

section
/-! SUPPORT. Family 10_update_engine.md: what writes to memory, signals, swaps and counts leave of groups, commit records, verdicts, descriptors and
tide (O23, O24, O28, O29, O39). -/

namespace Sys2Proof.Machine

/-! ### What no write, signal or swap touches -/

/-- A state without its stores: registers, memory, counters, pans, ports, maps, harvest windows and cells, the sums of steps, and the count of free
values. -/
def State.core (s : State) : State :=
  { s with
    regs := [], evt := [], cnt := [], cntRem := [], mem := [], poison := [], pan := [], panRows := [], sync := [], gated := [], syncRaise := [],
    ports := [], maps := [], mapPend := [], wins := [], hcells := [], stepSums := [], free := 0 }

/-- Only stores differ. -/
structure Stored (s t : State) : Prop where
  core : t.core = s.core

theorem Stored.refl (s : State) : Stored s s := ⟨rfl⟩

theorem Stored.trans {s t u : State} (h : Stored s t) (k : Stored t u) : Stored s u := ⟨k.core.trans h.core⟩

theorem Noted.stored {s t : State} (h : Noted s t) : Stored s t := ⟨(congrArg State.core h.rest :)⟩

section
variable {s t u : State} (h : Stored s t)
include h

theorem Stored.groups : t.groups = s.groups := (congrArg State.groups h.core :)
theorem Stored.commits : t.commits = s.commits := (congrArg State.commits h.core :)
theorem Stored.work : t.work = s.work := (congrArg State.work h.core :)
theorem Stored.tx : t.tx = s.tx := (congrArg State.tx h.core :)
theorem Stored.doneQ : t.doneQ = s.doneQ := (congrArg State.doneQ h.core :)

theorem Stored.congr (hu : u.core = t.core) : Stored s u := ⟨hu.trans h.core⟩

theorem Stored.foldl {α : Type} (l : List α) (f : State → α → State) (hf : ∀ y b, Stored s y → Stored s (f y b)) : Stored s (l.foldl f t) :=
  foldl_keeps (Stored s) l f t h hf

theorem Stored.forUpTo (n : Nat) (f : Nat → State → State) (hf : ∀ i y, Stored s y → Stored s (f i y)) : Stored s (forUpTo n f t) :=
  forUpTo_keeps (Stored s) n f t h hf

theorem Stored.ite {c : Prop} [Decidable c] (hu : Stored s u) : Stored s (if c then t else u) := by
  split
  · exact h
  · exact hu

/-! #### Registers and event counters -/

theorem Stored.setFld (f : Fld) (v : Nat) : Stored s (t.setFld f v) := h.congr rfl

theorem Stored.bump (f : Fld) (n : Nat) : Stored s (t.bump f n) := h.congr rfl

theorem Stored.setFlag (f : Fld) : Stored s (t.setFlag f) := h.congr rfl

theorem Stored.count (k n : Nat) : Stored s (t.count k n) := h.trans ((Noted.refl t).count k n).stored

theorem Stored.countBytes (k n : Nat) : Stored s (t.countBytes k n) := h.trans ((Noted.refl t).countBytes k n).stored

theorem Stored.unmapped : Stored s t.unmapped := h.trans (Noted.refl t).unmapped.stored

theorem Stored.syncDrop (r : Nat) : Stored s (t.syncDrop r) := h.trans ((Noted.refl t).syncDrop r).stored

theorem Stored.load (who : Who) (a n : Nat) : Stored s (t.load who a n).2.2 := h.trans ((Noted.refl t).load who a n).stored

/-! #### Writes to memory (R418, R510 to R513, R521) -/

theorem Stored.setBytes (a : Nat) (bs : List Byte) : Stored s (t.setBytes a bs) := by
  induction bs generalizing t a with
  | nil => exact h
  | cons b bs ih => exact ih (h.congr rfl : Stored s (t.setByte a b)) (a + 1)

theorem Stored.writeLine (a : Nat) (bs : List Byte) : Stored s (t.writeLine a bs) := by
  have hbytes := ((h.count (cntCtrl (hbmStack a) 1) 1).countBytes (cntRegion (hbmStack a / 6) 1) bs.length).setBytes a bs
  refine hbytes.ite (Stored.ite ?_ (hbytes.setFlag _))
  exact hbytes.congr rfl

theorem Stored.writeHbm (a : Nat) (bs : List Byte) (fuel : Nat) : Stored s (t.writeHbm a bs fuel) := by
  induction fuel generalizing t a bs with
  | zero => exact h
  | succ fuel ih => exact h.ite (ih (h.writeLine _ _) _ _)

theorem Stored.put (a : Nat) (bs : List Byte) : Stored s (t.put a bs) := (h.writeHbm a bs _).ite (h.setBytes a bs)

theorem Stored.setSync (r : Nat) (u : SyncUnit) : Stored s (t.setSync r u) :=
  Stored.setFld (Stored.setFld (by exact h.congr rfl) _ _) _ _

theorem Stored.toHome (o : SyncOp) : Stored s (t.toHome o) := (h.setSync _ _).count _ _

theorem Stored.winWrite (b off : Nat) (data : List Byte) : Stored s (t.winWrite b off data) := by
  refine Stored.ite ((h.setFlag _).bump _ 1) (Stored.count (h.forUpTo _ _ fun i y hy => ?_) _ _)
  exact hy.ite (hy.congr rfl)

theorem Stored.writePiece (who : Who) (a : Nat) (bs : List Byte) : Stored s (t.writePiece noMirror who a bs).2 := by
  unfold State.writePiece
  split
  case h_1 =>
    split
    case h_1 => exact h.writeHbm a bs _
    case h_2 => exact ((h.setBytes a bs).countBytes _ _).countBytes _ _
    case h_3 => exact (h.winWrite _ _ bs).countBytes _ _
    case h_4 => exact h
    case h_5 =>
      dsimp only
      split
      · exact h.toHome _
      · exact h.syncDrop _
    case h_6 =>
      split
      · exact h.unmapped.setFlag _
      · split
        · exact h
        · exact h.bump _ 1
    case h_7 => exact h.unmapped
  case h_2 => exact h.unmapped

theorem Stored.busWrite (who : Who) (a : Nat) (bs : List Byte) (fuel : Nat) : Stored s (t.busWrite noMirror who a bs fuel).2 := by
  induction fuel generalizing t a bs with
  | zero => exact h
  | succ fuel ih =>
    unfold State.busWrite
    split
    · exact h
    · exact ih (h.writePiece who a _) _ _

theorem Stored.store (who : Who) (a : Nat) (bs : List Byte) : Stored s (t.store who a bs).2 := h.busWrite who a bs _

/-! #### The effects of a group (R340) -/

theorem Stored.raise (chip n op operand : Nat) (x : Origin) (e : Option Nat) (gate : Option (Nat × Nat)) :
    Stored s (t.raise chip n op operand x e gate) := by
  refine Stored.ite ?_ (h.congr rfl)
  unfold State.arriveSignal
  split
  · exact h.toHome _
  · exact (h.toHome _).ite (Stored.count (by exact h.congr rfl) _ _)

theorem Stored.writeBank (p : Nat) (rx : Bool) (b : Nat) (l : List Nat) : Stored s (t.writeBank p rx b l) := h.forUpTo _ _ fun _ _ hy => hy.congr rfl

theorem Stored.showSwap (p : Nat) (u : PortUnit) : Stored s (t.showSwap p u) := Stored.setFld (by exact h.congr rfl) _ _

theorem Stored.setMap (remove : Bool) (id : Nat) (m : OwnerMap) : Stored s (t.setMap remove id m) := by
  have hmaps : Stored s { t with maps := if remove then SMap.erase t.maps id else SMap.insert t.maps id m } := h.congr rfl
  have hcounted := ((hmaps.setFld HUB_MAP_STATUS_maps
    (if remove then SMap.erase t.maps id else SMap.insert t.maps id m).length).bump HUB_MAP_COUNT_installs 1).count (cntHub 18) 1
  exact hcounted.ite (hcounted.setFld _ _)

theorem Stored.makeEffect (f : Effect) : Stored s (t.makeEffect f) := by
  cases f with
  | write a bs => exact h.store _ a bs
  | signal chip n op x o gate => exact h.raise chip n op x o none gate
  | bank p rx bs tide => exact ((h.writeBank p rx _ _).showSwap p _).showSwap p _
  | map remove id m tide => exact (h.setMap remove id m).ite (h.congr rfl)

end

/-! ### Completions (R342, R470) -/

section
variable {s t : State}

theorem State.groupOf_congr (h : t.groups = s.groups) (g : Nat) : t.groupOf g = s.groupOf g := by
  unfold State.groupOf
  rw [h]

theorem State.recOf_congr (h : t.commits = s.commits) (g : Nat) : t.recOf g = s.recOf g := by
  unfold State.recOf
  rw [h]

theorem State.openGroup_congr (hgroups : t.groups = s.groups) (hcommits : t.commits = s.commits) (g : Nat) : t.openGroup g = s.openGroup g := by
  unfold State.openGroup
  rw [State.recOf_congr hcommits, State.groupOf_congr hgroups]

theorem State.verdictOf_congr (h : t.verdicts = s.verdicts) (n : Nat) : t.verdictOf n = s.verdictOf n := by
  unfold State.verdictOf
  rw [h]

end

/-- A descriptor that completes with OK, whatever error code it is handed, completes without one (R476, R478). -/
theorem State.complete_ok_endsAs (s : State) (e : Nat) (err : ErrCode) (c1 c2 : Nat) : EndsAs (s.complete e [.ok] err c1 c2) e .ok .none :=
  ⟨_, List.getLast?_concat .., rfl, rfl, rfl⟩

/-- A completion that waits last still does after an update that completes none. -/
theorem EndsAs.congr {s t : State} {e : Nat} {st : Status} {err : ErrCode} (h : EndsAs s e st err) (hdone : t.doneQ = s.doneQ) : EndsAs t e st err := by
  unfold EndsAs
  rw [hdone]
  exact h

end Sys2Proof.Machine
end

section
/-! SUPPORT. Family 10_update_engine.md: the end of a commit group: its members and its GROUP_COMMIT complete, and its entry is freed (O24, O29). -/

namespace Sys2Proof.Machine

/-- An entry of a group completes, with LATE where it is one of `late`. -/
def State.endMember (st : Status) (late : List Nat) (s : State) (m : Member) : State :=
  (s.unstage m.entry).complete m.entry [if late.contains m.entry then .late else st] .none m.c1 m.c2

/-- Entries of a group complete in order. -/
def State.endMembers (s : State) (l : List Member) (st : Status) (late : List Nat) : State := l.foldl (State.endMember st late) s

theorem State.endMembers_append (s : State) (l k : List Member) (st : Status) (late : List Nat) :
    s.endMembers (l ++ k) st late = (s.endMembers l st late).endMembers k st late := List.foldl_append

theorem State.endMembers_singleton (s : State) (m : Member) (st : Status) (late : List Nat) :
    s.endMembers [m] st late = s.endMember st late m := List.foldl_cons ..

/-- Showing the groups writes registers. -/
theorem State.showGroups_keeps (s : State) : s.showGroups.groups = s.groups ∧ s.showGroups.verdicts = s.verdicts ∧ s.showGroups.mem = s.mem ∧
    s.showGroups.doneQ = s.doneQ ∧ s.showGroups.tide = s.tide ∧ s.showGroups.work = s.work := by
  unfold State.showGroups
  exact ⟨(State.setFld_groups _ _ _).trans (State.setFld_groups _ _ _), (State.setFld_verdicts _ _ _).trans (State.setFld_verdicts _ _ _),
    (State.setFld_mem _ _ _).trans (State.setFld_mem _ _ _), (State.setFld_doneQ _ _ _).trans (State.setFld_doneQ _ _ _),
    (State.setFld_tide _ _ _).trans (State.setFld_tide _ _ _), (State.setFld_work _ _ _).trans (State.setFld_work _ _ _)⟩

/-- A group leaves the group table. -/
def State.freeGroup (s : State) (g : Nat) : State := State.showGroups { s with groups := SMap.erase s.groups g }

/-- The entries that complete as an open group ends: its members, and last its GROUP_COMMIT. -/
def Group.ending (x : Group) : List Member := x.members ++ x.commit.toList.map fun e => ⟨e, [], 0, 0⟩

theorem State.dropGroup_of_open {s : State} {g : Nat} {x : Group} (h : s.openGroup g = some x) (st : Status) (late : List Nat) :
    s.dropGroup g st late = (s.endMembers x.ending st late).freeGroup g := by
  have hdrop : s.dropGroup g st late = State.freeGroup (match x.commit with
      | some e => (s.endMembers x.members st late).endMember st late ⟨e, [], 0, 0⟩
      | none => s.endMembers x.members st late) g := by
    unfold State.dropGroup
    rw [h]
    rfl
  rw [hdrop, Group.ending, State.endMembers_append]
  cases x.commit with
  | none => rfl
  | some e => exact congrArg (State.freeGroup · g) (State.endMembers_singleton _ _ st late).symm

theorem State.dropGroup_of_closed {s : State} {g : Nat} (h : s.openGroup g = none) (st : Status) (late : List Nat) : s.dropGroup g st late = s := by
  unfold State.dropGroup
  rw [h]

theorem State.groupOf_freeGroup (s : State) (g : Nat) : (s.freeGroup g).groupOf g = none := SMap.find_erase_same _ _

/-- The GROUP_COMMIT of a group that ends completes last. -/
theorem State.endMembers_commit (s : State) {x : Group} {e : Nat} (h : x.commit = some e) (st : Status) (late : List Nat) :
    s.endMembers x.ending st late = (s.endMembers x.members st late).endMember st late ⟨e, [], 0, 0⟩ := by
  rw [Group.ending, h, State.endMembers_append]
  exact State.endMembers_singleton _ _ st late

end Sys2Proof.Machine
end

section
/-! SUPPORT. Family 10_update_engine.md: the verdicts that a module keeps, and how a step's verdict forms and leaves (O28). -/

namespace Sys2Proof.Machine

/-! ### The verdicts kept (R337) -/

/-- A verdict that is kept is found among the others by its step. -/
theorem State.find_putVerdict (s : State) {v : Verdict} {p : Verdict → Bool} (hv : p v = true) (hp : ∀ x, p x = true → x.step = v.step) :
    (s.putVerdict v).verdicts.find? p = some v := by
  have hothers : ∀ x ∈ s.verdicts.filter (fun x => x.step != v.step), x.step ≠ v.step := fun x hx => by simpa using (List.mem_filter.mp hx).2
  unfold State.putVerdict
  dsimp only
  generalize s.verdicts.filter (fun x => x.step != v.step) = l at hothers
  have hfind (k : List Verdict) (hk : k ⊆ l) : (k ++ [v]).find? p = some v := by
    rw [List.find?_append, List.find?_eq_none.mpr fun x hx hx' => hothers x (hk hx) (hp x hx'), Option.none_or, List.find?_cons_of_pos hv]
  split
  next hfull =>
    rw [List.filter_append] at hfull ⊢
    cases hconf : l.filter (fun x => x.phase == 3) with
    | nil =>
      rw [hconf, List.nil_append] at hfull
      have hone := List.length_filter_le (fun x : Verdict => x.phase == 3) [v]
      rw [List.length_singleton] at hone
      omega
    | cons x xs =>
      have hx : x ∈ l := List.mem_of_mem_filter (hconf ▸ List.mem_cons_self)
      show ((l ++ [v]).erase x).find? p = some v
      rw [List.erase_append_left _ hx]
      exact hfind _ List.erase_subset
  · exact hfind l (List.Subset.refl l)

theorem State.verdictOf_putVerdict (s : State) (v : Verdict) : (s.putVerdict v).verdictOf v.step = some v :=
  s.find_putVerdict (beq_self_eq_true _) fun _ hx => beq_iff_eq.mp hx

theorem State.regs_putVerdict (s : State) (v : Verdict) : (s.putVerdict v).regs = s.regs := rfl

theorem State.step_of_verdictOf {s : State} {n : Nat} {v : Verdict} (h : s.verdictOf n = some v) : v.step = n := by
  unfold State.verdictOf at h
  have hstep := List.find?_some h
  exact beq_iff_eq.mp hstep

/-! ### What a verdict that is kept shows (R352) -/

theorem State.showVerdict_eq (s : State) (v : Verdict) : s.showVerdict v = { s with regs := (s.showVerdict v).regs } := by
  have hall : s.showVerdict v = if v.code = 4 then _ else _ := rfl
  have hstatus := State.setFld_frame (State.setFld_frame (State.setFld_frame (State.setFld_frame (State.setFld_frame (State.setFld_frame (rfl : s = _)
    UPD_VERDICT_STEP_step v.step) UPD_CLIP_FACTOR_c v.factor) UPD_NORM_norm v.norm) UPD_VERDICT_STATUS_state (v.phase + 1))
    UPD_VERDICT_STATUS_code v.code) UPD_VERDICT_STATUS_reason v.reason
  have hsource := State.setFld_frame (State.setFld_frame (State.setFld_frame hstatus UPD_VETO_SOURCE_origin v.origin)
    UPD_VETO_SOURCE_port v.fromPort) UPD_VETO_SOURCE_reason v.reason
  by_cases hveto : v.code = 4
  · rw [hall, if_pos hveto]
    exact hsource
  · rw [hall, if_neg hveto]
    exact hstatus

/-- The flags of UPD_VERDICT_STATUS stay as they are. -/
theorem State.fld_showVerdict_flag (s : State) (v : Verdict) {f : Fld} (ha : f.addr = UPD_VERDICT_STATUS) (hlo : 12 ≤ f.lo) :
    (s.showVerdict v).fld f = s.fld f := by
  have hother (t : State) (g : Fld) (x : Nat) (hg : g.addr ≠ UPD_VERDICT_STATUS ∨ g.lo + g.width ≤ 12) (hw : g.lo + g.width ≤ 32) :
      (t.setFld g x).fld f = t.fld f :=
    State.fld_setFld_other t g f x hw (hg.imp (fun h => by rw [ha]; exact h.symm) fun h => .inl (h.trans hlo))
  have hkept : (((((((s.setFld UPD_VERDICT_STEP_step v.step).setFld UPD_CLIP_FACTOR_c v.factor).setFld UPD_NORM_norm v.norm).setFld
      UPD_VERDICT_STATUS_state (v.phase + 1)).setFld UPD_VERDICT_STATUS_code v.code).setFld UPD_VERDICT_STATUS_reason v.reason)).fld f = s.fld f := by
    rw [hother _ UPD_VERDICT_STATUS_reason _ (by decide) (by decide), hother _ UPD_VERDICT_STATUS_code _ (by decide) (by decide),
      hother _ UPD_VERDICT_STATUS_state _ (by decide) (by decide), hother _ UPD_NORM_norm _ (by decide) (by decide),
      hother _ UPD_CLIP_FACTOR_c _ (by decide) (by decide), hother _ UPD_VERDICT_STEP_step _ (by decide) (by decide)]
  unfold State.showVerdict
  dsimp only
  split
  · rw [hother _ UPD_VETO_SOURCE_reason _ (by decide) (by decide), hother _ UPD_VETO_SOURCE_port _ (by decide) (by decide),
      hother _ UPD_VETO_SOURCE_origin _ (by decide) (by decide)]
    exact hkept
  · exact hkept

theorem State.keepVerdict_eq (s : State) (v : Verdict) :
    s.keepVerdict v = { s with regs := (s.keepVerdict v).regs, verdicts := (s.putVerdict v).verdicts } :=
  (s.putVerdict v).showVerdict_eq v

theorem State.verdicts_keepVerdict (s : State) (v : Verdict) : (s.keepVerdict v).verdicts = (s.putVerdict v).verdicts := by
  rw [State.keepVerdict_eq]

theorem State.verdictOf_keepVerdict (s : State) (v : Verdict) : (s.keepVerdict v).verdictOf v.step = some v :=
  (State.verdictOf_congr (s.verdicts_keepVerdict v) _).trans (s.verdictOf_putVerdict v)

theorem State.keepVerdict_keeps (s : State) (v : Verdict) : (s.keepVerdict v).mem = s.mem ∧ (s.keepVerdict v).tide = s.tide ∧
    (s.keepVerdict v).ports = s.ports ∧ (s.keepVerdict v).normIn = s.normIn :=
  have heq := s.keepVerdict_eq v
  ⟨(congrArg State.mem heq :), (congrArg State.tide heq :), (congrArg State.ports heq :), (congrArg State.normIn heq :)⟩

theorem State.memSame_keepVerdict (s : State) (v : Verdict) : MemSame s (s.keepVerdict v) := State.byte_congr (s.keepVerdict_keeps v).1

/-! ### A module that turns to veto (R334, R335) -/

theorem Verdict.veto_keeps (v : Verdict) (reason origin port : Nat) : (v.veto reason origin port).step = v.step ∧
    (v.veto reason origin port).phase = v.phase ∧ (v.veto reason origin port).window = v.window := by
  unfold Verdict.veto
  split <;> exact ⟨rfl, rfl, rfl⟩

theorem Verdict.veto_code (v : Verdict) (reason origin port : Nat) : (v.veto reason origin port).code = 4 := by
  unfold Verdict.veto
  split
  · assumption
  · rfl

theorem Verdict.veto_of_ne {v : Verdict} (h : v.code ≠ 4) (reason origin port : Nat) :
    v.veto reason origin port = { v with code := 4, reason := reason, origin := origin, fromPort := port } := if_neg h

theorem State.turnVeto_keeps (s : State) (v : Verdict) (reason origin port : Nat) : (s.turnVeto v reason origin port).mem = s.mem ∧
    (s.turnVeto v reason origin port).tide = s.tide ∧ (s.turnVeto v reason origin port).ports = s.ports := by
  have hflag (c : Bool) (f : Fld) : (s.setFlagIf c f).mem = s.mem ∧ (s.setFlagIf c f).tide = s.tide ∧ (s.setFlagIf c f).ports = s.ports := by
    unfold State.setFlagIf
    split <;> exact ⟨rfl, rfl, rfl⟩
  obtain ⟨hmem, htide, hports⟩ := hflag (v.code != 4) UPD_VERDICT_STATUS_veto_seen
  obtain ⟨hmem', htide', hports', -⟩ := (s.setFlagIf (v.code != 4) UPD_VERDICT_STATUS_veto_seen).keepVerdict_keeps (v.veto reason origin port)
  exact ⟨hmem'.trans hmem, htide'.trans htide, hports'.trans hports⟩

theorem State.verdictOf_turnVeto (s : State) (v : Verdict) (reason origin port : Nat) :
    (s.turnVeto v reason origin port).verdictOf v.step = some (v.veto reason origin port) := by
  have hkept := (s.setFlagIf (v.code != 4) UPD_VERDICT_STATUS_veto_seen).verdictOf_keepVerdict (v.veto reason origin port)
  rwa [(v.veto_keeps reason origin port).1] at hkept

theorem State.memSame_turnVeto (s : State) (v : Verdict) (reason origin port : Nat) : MemSame s (s.turnVeto v reason origin port) :=
  State.byte_congr (s.turnVeto_keeps v reason origin port).1

theorem State.fld_turnVeto_seen (s : State) {v : Verdict} (h : v.code ≠ 4) (reason origin port : Nat) :
    (s.turnVeto v reason origin port).fld UPD_VERDICT_STATUS_veto_seen = 1 := by
  have hseen : s.setFlagIf (v.code != 4) UPD_VERDICT_STATUS_veto_seen = s.setFlag UPD_VERDICT_STATUS_veto_seen := if_pos (bne_iff_ne.mpr h)
  unfold State.turnVeto
  rw [hseen, State.keepVerdict, State.fld_showVerdict_flag _ _ (by rfl) (by decide)]
  exact (State.fld_congr (State.regs_putVerdict _ _) _).trans (s.fld_setFlag_same _ rfl (by decide))

/-! ### The verdict of a norm record (R332) -/

/-- The verdict that a norm record forms. -/
def State.formed (s : State) (v : Verdict) (r : List Byte) : Verdict :=
  let clip := s.fld UPD_NORM_CLIP_clip
  let ceil := s.fld UPD_NORM_CEILING_ceiling
  let j := Machine.judge clip ceil r
  { v with
    phase := 1, record := r, clip := clip, ceil := ceil, code := j.1, reason := j.2.1, factor := j.2.2.1, norm := j.2.2.2
    digest := (digestOf (leAt r 12 4) v.domain clip ceil r).toNat, origin := s.chip }

/-- The verdict of a norm record's step before it lands. -/
def State.verdictBefore (s : State) (r : List Byte) : Verdict :=
  (s.verdictOf (leAt r 12 4)).getD { Verdict.zero with step := leAt r 12 4, domain := leAt r 16 2 }

theorem State.step_verdictBefore (s : State) (r : List Byte) : (s.verdictBefore r).step = leAt r 12 4 := by
  unfold State.verdictBefore
  cases hv : s.verdictOf (leAt r 12 4) with
  | none => rfl
  | some v => exact State.step_of_verdictOf hv

/-- The state in which a norm record has been taken up. -/
def State.recordTaken (s : State) (r : List Byte) (rest : List (List Byte)) : State :=
  State.setFlagIf { s with normIn := rest } (bitOf (leAt r 20 1) 0) HRV_NORM_STATUS_incomplete_seen

theorem State.recordTaken_keeps (s : State) (r : List Byte) (rest : List (List Byte)) :
    (s.recordTaken r rest).normIn = rest ∧ (s.recordTaken r rest).mem = s.mem := by
  unfold State.recordTaken State.setFlagIf
  split <;> exact ⟨rfl, rfl⟩

theorem exec_normRecordLand_in_time {s : State} {r : List Byte} {rest : List (List Byte)} (hin : s.normIn = r :: rest)
    (htime : ∀ v, s.verdictOf (leAt r 12 4) = some v → v.phase < 2 ∧ (v.bound = true → s.tide.ns < v.vtide + 24)) :
    exec (.normRecordLand false) s = .next ((s.recordTaken r rest).keepVerdict (s.formed (s.verdictBefore r) r)) := by
  have hearly : ¬(2 ≤ (s.verdictBefore r).phase ∨ (s.verdictBefore r).bound ∧ (s.verdictBefore r).vtide + 24 ≤ s.tide.ns) := by
    unfold State.verdictBefore
    cases hv : s.verdictOf (leAt r 12 4) with
    | none => exact fun h => h.elim (Nat.not_succ_le_zero 1) fun hlate => Bool.false_ne_true hlate.1
    | some v =>
      obtain ⟨hphase, hbound⟩ := htime v hv
      rintro (hlate | ⟨hb, hlate⟩)
      · exact Nat.not_lt.mpr hlate hphase
      · exact Nat.not_lt.mpr hlate (hbound hb)
  show execNormRecordLand false s = _
  unfold execNormRecordLand
  rw [hin]
  unfold State.verdictBefore at hearly
  dsimp only
  rw [if_neg hearly, if_neg Bool.false_ne_true]
  rfl

theorem normRecordLand_forms {s : State} {r : List Byte} {rest : List (List Byte)} (hin : s.normIn = r :: rest)
    (htime : ∀ v, s.verdictOf (leAt r 12 4) = some v → v.phase < 2 ∧ (v.bound = true → s.tide.ns < v.vtide + 24)) :
    ∃ t v, exec (.normRecordLand false) s = .next t ∧ t.normIn = rest ∧ t.verdictOf (leAt r 12 4) = some v ∧ v.phase = 1 ∧ v.record = r ∧
      (v.code, v.reason, v.factor, v.norm) = judge (s.fld UPD_NORM_CLIP_clip) (s.fld UPD_NORM_CEILING_ceiling) r ∧ MemSame s t := by
  obtain ⟨hrest, hmem⟩ := s.recordTaken_keeps r rest
  have hfound := (s.recordTaken r rest).verdictOf_keepVerdict (s.formed (s.verdictBefore r) r)
  rw [show (s.formed (s.verdictBefore r) r).step = leAt r 12 4 from s.step_verdictBefore r] at hfound
  refine ⟨_, _, exec_normRecordLand_in_time hin htime, ?_, hfound, rfl, rfl, rfl,
    fun a => ((s.recordTaken r rest).memSame_keepVerdict _ a).trans (State.byte_congr hmem a)⟩
  exact (State.keepVerdict_keeps _ _).2.2.2.trans hrest

/-! ### Updates of several ports -/

/-- Every port of a list is updated, one after the other. -/
def State.onPorts (s : State) (l : List Nat) (f : PortUnit → PortUnit) : State := l.foldl (fun (t : State) (p : Nat) => t.setPort p (f (t.port p))) s

theorem State.onPorts_eq (s : State) (l : List Nat) (f : PortUnit → PortUnit) : s.onPorts l f = { s with ports := (s.onPorts l f).ports } := by
  refine foldl_keeps (fun t : State => t = { s with ports := t.ports }) l _ s rfl fun y p hy => ?_
  generalize y.ports = q at hy
  subst hy
  rfl

theorem State.regs_onPorts (s : State) (l : List Nat) (f : PortUnit → PortUnit) : (s.onPorts l f).regs = s.regs :=
  (congrArg State.regs (s.onPorts_eq l f) :)

theorem State.onPorts_frame {s t : State} (h : t = { s with regs := t.regs, evt := t.evt, ports := t.ports }) (l : List Nat)
    (f : PortUnit → PortUnit) :
    t.onPorts l f = { s with regs := (t.onPorts l f).regs, evt := (t.onPorts l f).evt, ports := (t.onPorts l f).ports } := by
  refine foldl_keeps (fun y : State => y = { s with regs := y.regs, evt := y.evt, ports := y.ports }) l _ t h fun y p hy => ?_
  generalize y.regs = r, y.evt = w, y.ports = q at hy
  subst hy
  rfl

/-- Of ports that lie apart, each is updated once. -/
theorem State.port_onPorts (s : State) {l : List Nat} (hl : l.Nodup) (f : PortUnit → PortUnit) (p : Nat) :
    (s.onPorts l f).port p = if p ∈ l then f (s.port p) else s.port p := by
  induction l generalizing s with
  | nil => rfl
  | cons q l ih =>
    obtain ⟨hq, hl⟩ := List.nodup_cons.mp hl
    refine (ih (s.setPort q (f (s.port q))) hl).trans ?_
    rw [State.port_setPort]
    by_cases hpq : p = q
    · subst hpq
      simp [hq]
    · simp [hpq]

/-- The ports that are up. -/
def State.upPorts (s : State) : List Nat := (List.range 18).filter s.portUp

theorem State.nodup_upPorts (s : State) : s.upPorts.Nodup := List.nodup_range.filter _

theorem State.mem_upPorts {s : State} {p : Nat} (hp : p < 18) (hup : s.portUp p = true) : p ∈ s.upPorts :=
  List.mem_filter.mpr ⟨List.mem_range.mpr hp, hup⟩

/-! ### Slot 3 of frame V (R333, R334) -/

theorem State.latchVerdict_keeps (s : State) (v : Verdict) : (s.latchVerdict v).step = v.step ∧ (s.latchVerdict v).code = v.code ∧
    (s.latchVerdict v).window = if v.latched then v.window else s.fld UPD_VERDICT_CTL_window := by
  unfold State.latchVerdict
  split <;> exact ⟨rfl, rfl, rfl⟩

/-- A verdict whose window has opened. -/
def State.opened (s : State) (v : Verdict) : Verdict := { s.latchVerdict v with phase := 2 }

/-- The tide has reached slot 3 of frame V, and a payload waits on every up port. -/
def State.verdictSent (s : State) (v : Verdict) (bytes : List Byte) : State :=
  (s.atTide (v.vtide + 24)).onPorts s.upPorts fun u => { u with vOut := some bytes }

theorem State.verdictSent_eq (s : State) (v : Verdict) (bytes : List Byte) :
    s.verdictSent v bytes = { s.atTide (v.vtide + 24) with ports := (s.verdictSent v bytes).ports } := State.onPorts_eq _ _ _

theorem State.vOut_verdictSent (s : State) (v : Verdict) (bytes : List Byte) {p : Nat} (hp : p < 18) (hup : s.portUp p = true) :
    ((s.verdictSent v bytes).port p).vOut = some bytes := by
  unfold State.verdictSent
  rw [State.port_onPorts _ s.nodup_upPorts, if_pos (State.mem_upPorts hp hup)]

section
variable {s : State} {step : BitVec 32} {v : Verdict} (hv : s.verdictOf step.toNat = some v) (hbound : v.bound = true)
include hv hbound

theorem exec_verdictCellSend_formed (hphase : v.phase = 1) : exec (.verdictCellSend step) s =
    .next ((s.verdictSent v (verdictBytes (s.opened v) v.code v.reason v.origin)).keepVerdict (s.opened v)) := by
  show execVerdictCellSend step s = _
  unfold execVerdictCellSend
  rw [hv]
  dsimp only
  rw [if_neg (by simp [hbound, hphase]), hphase]
  rfl

theorem exec_verdictCellSend_without (hphase : v.phase = 0) : exec (.verdictCellSend step) s =
    .next ((s.verdictSent v (verdictBytes (s.opened v) 0 7 s.chip)).turnVeto (s.opened v) 7 s.chip 0x1F) := by
  show execVerdictCellSend step s = _
  unfold execVerdictCellSend
  rw [hv]
  dsimp only
  rw [if_neg (by simp [hbound, hphase]), hphase]
  rfl

end

theorem State.step_opened {s : State} {step : BitVec 32} {v : Verdict} (hv : s.verdictOf step.toNat = some v) : (s.opened v).step = step.toNat :=
  (s.latchVerdict_keeps v).1.trans (State.step_of_verdictOf hv)

theorem State.memSame_verdictSent (s : State) (v : Verdict) (bytes : List Byte) : MemSame s (s.verdictSent v bytes) := by
  rw [State.verdictSent_eq]
  exact fun _ => rfl

section
variable {s : State} {step : BitVec 32} {v : Verdict} (hv : s.verdictOf step.toNat = some v) (hbound : v.bound = true)
include hv hbound

/-- A local verdict leaves as it stands. -/
theorem verdictCellSend_formed (hphase : v.phase = 1) : ∃ t y, exec (.verdictCellSend step) s = .next t ∧ t.verdictOf step.toNat = some y ∧
    y.phase = 2 ∧ y.window = (if v.latched then v.window else s.fld UPD_VERDICT_CTL_window) ∧ t.tide = (s.atTide (v.vtide + 24)).tide ∧
    y.code = v.code ∧ (∀ p < 18, s.portUp p = true → (t.port p).vOut = some (verdictBytes y v.code v.reason v.origin)) ∧ MemSame s t := by
  obtain ⟨-, hcode, hwindow⟩ := s.latchVerdict_keeps v
  have hexec := exec_verdictCellSend_formed hv hbound hphase
  generalize hb : verdictBytes (s.opened v) v.code v.reason v.origin = b at hexec
  refine ⟨_, s.opened v, hexec, ?_, rfl, hwindow, ?_, hcode, fun p hp hup => ?_, fun a => ?_⟩
  · rw [← State.step_opened hv]
    exact State.verdictOf_keepVerdict _ _
  · rw [(State.keepVerdict_keeps _ _).2.1, State.verdictSent_eq]
  · rw [hb, State.port_congr (State.keepVerdict_keeps _ _).2.2.1]
    exact s.vOut_verdictSent v b hp hup
  · exact (State.memSame_keepVerdict _ _ a).trans (s.memSame_verdictSent v b a)

/-- Without a norm record the module says so and turns to veto. -/
theorem verdictCellSend_without (hphase : v.phase = 0) : ∃ t y, exec (.verdictCellSend step) s = .next t ∧ t.verdictOf step.toNat = some y ∧
    y.phase = 2 ∧ y.window = (if v.latched then v.window else s.fld UPD_VERDICT_CTL_window) ∧ t.tide = (s.atTide (v.vtide + 24)).tide ∧
    y.code = 4 ∧ (v.code ≠ 4 → y.reason = 7 ∧ y.origin = s.chip) ∧ (∀ p < 18, s.portUp p = true → ∃ b, (t.port p).vOut = some b) ∧
    MemSame s t := by
  obtain ⟨-, hcode, hwindow⟩ := s.latchVerdict_keeps v
  obtain ⟨-, hphase', hwindow'⟩ := (s.opened v).veto_keeps 7 s.chip 0x1F
  have hexec := exec_verdictCellSend_without hv hbound hphase
  generalize verdictBytes (s.opened v) 0 7 s.chip = b at hexec
  refine ⟨_, _, hexec, ?_, hphase', hwindow'.trans hwindow, ?_, Verdict.veto_code _ _ _ _, fun hne => ?_, fun p hp hup => ⟨b, ?_⟩, fun a => ?_⟩
  · rw [← State.step_opened hv]
    exact State.verdictOf_turnVeto _ _ _ _ _
  · rw [(State.turnVeto_keeps _ _ _ _ _).2.1, State.verdictSent_eq]
  · have hopened : (s.opened v).code ≠ 4 := fun h => hne (hcode.symm.trans h)
    rw [Verdict.veto_of_ne hopened]
    exact ⟨rfl, rfl⟩
  · rw [State.port_congr (State.turnVeto_keeps _ _ _ _ _).2.2]
    exact s.vOut_verdictSent v b hp hup
  · exact (State.memSame_turnVeto _ _ _ _ _ a).trans (s.memSame_verdictSent v b a)

end

/-- Settles O28: a norm record in time forms the verdict, which is kept under its step; frame V finds it formed or not. -/
theorem verdictFormsAndLeaves : Obligations.VerdictFormsAndLeaves := by
  refine fun s => ⟨fun r rest hin htime => normRecordLand_forms hin htime, fun step v hv hbound hphase => ?_⟩
  rcases (by omega : v.phase = 1 ∨ v.phase = 0) with hphase | hphase
  · obtain ⟨t, y, hexec, hfound, hopen, hwindow, htide, hcode, hsent, hmem⟩ := verdictCellSend_formed hv hbound hphase
    exact ⟨t, y, hexec, hfound, hopen, hwindow, congrArg TideUnit.ns htide, fun _ => ⟨hcode, hsent⟩, fun h => by omega, hmem⟩
  · obtain ⟨t, y, hexec, hfound, hopen, hwindow, htide, hcode, hreason, hsent, hmem⟩ := verdictCellSend_without hv hbound hphase
    exact ⟨t, y, hexec, hfound, hopen, hwindow, congrArg TideUnit.ns htide, fun h => by omega, fun _ => ⟨hcode, hreason, hsent⟩, hmem⟩

end Sys2Proof.Machine
end

section
/-! SUPPORT. Family 10_update_engine.md: what a confirmation and the end of groups leave of verdicts and tide (O29). -/

namespace Sys2Proof.Machine

/-! ### What the confirmation of a verdict writes (R338, R367, R378, R382) -/

section
variable {s t : State} (h : Stored s t)
include h

theorem Stored.setHist (i : Nat) (b : List Byte) : Stored s (t.setHist i b) := h.put _ b

theorem Stored.updateHistory (code n : Nat) (r : List Byte) : Stored s (t.updateHistory code n r) := by
  have hraise (i : Nat) (y : State) (hy : Stored s y) : Stored s (y.raiseAnchor i) := Stored.setHist ((hy.bump _ 1).ite (hy.bump _ 1)) _ _
  refine Stored.ite (h.forUpTo _ _ fun i y hy => hy.ite (hy.setHist _ _)) (Stored.ite (h.forUpTo _ _ fun i y hy => ?_) h)
  exact (hraise i y hy).ite hy

theorem Stored.refreshAnchors (n : Nat) : Stored s (t.refreshAnchors n) := h.congr rfl

theorem Stored.setStepSums (m : SMap StepSum) : Stored s { t with stepSums := m } := h.congr rfl

theorem Stored.writeStepRecord (v : Verdict) : Stored s (t.writeStepRecord v) := Stored.setStepSums (h.store _ _ _) _

theorem Stored.setWin (w : Nat) (x : Window) : Stored s (t.setWin w x) := Stored.setFld (by exact h.congr rfl) _ _

theorem Stored.clearCells (w : Nat) (x : Window) (carry : Bool) : Stored s (t.clearCells w x carry) := h.congr rfl

theorem Stored.discardCarry (w : Nat) : Stored s (t.discardCarry w) :=
  Stored.ite (((((h.clearCells w _ true).bump _ _).setFlag _).bump _ 1).setWin w _) h

theorem Stored.freeWindow (w : Nat) : Stored s (t.freeWindow w) := (h.discardCarry w).setWin w _

theorem Stored.releaseTrail (n : Nat) : Stored s (t.releaseTrail n) := h.foldl _ _ fun _ w hy => hy.freeWindow w

end

/-! ### What the end of a group leaves (R344, R345) -/

/-- The verdicts and the tide. -/
def State.course (s : State) : List Verdict × TideUnit := (s.verdicts, s.tide)

theorem Stored.course {s t : State} (h : Stored s t) : t.course = s.course := (congrArg State.course h.core :)

@[simp] theorem State.course_complete (s : State) (e : Nat) (st : List Status) (err : ErrCode) (c1 c2 : Nat) :
    (s.complete e st err c1 c2).course = s.course := rfl

@[simp] theorem State.course_showSwap (s : State) (p : Nat) (u : PortUnit) : (s.showSwap p u).course = s.course := rfl

@[simp] theorem State.course_unstage (s : State) (e : Nat) : (s.unstage e).course = s.course := by
  refine forUpTo_keeps (fun t : State => t.course = s.course) 18 _ s rfl fun p y hy => ?_
  dsimp only
  split
  · exact (State.course_showSwap _ _ _).trans hy
  · exact hy

theorem State.course_endMembers (s : State) (l : List Member) (st : Status) (late : List Nat) : (s.endMembers l st late).course = s.course :=
  foldl_keeps (fun y : State => y.course = s.course) l _ s rfl fun _ _ hy => (State.course_complete ..).trans ((State.course_unstage _ _).trans hy)

theorem State.course_freeGroup (s : State) (g : Nat) : (s.freeGroup g).course = s.course := by
  obtain ⟨-, hverdicts, -, -, htide, -⟩ := State.showGroups_keeps { s with groups := SMap.erase s.groups g }
  unfold State.freeGroup State.course
  rw [hverdicts, htide]

theorem State.course_dropGroup (s : State) (g : Nat) (st : Status) (late : List Nat) : (s.dropGroup g st late).course = s.course := by
  cases h : s.openGroup g with
  | none => rw [State.dropGroup_of_closed h]
  | some x =>
    rw [State.dropGroup_of_open h]
    exact (State.course_freeGroup _ _).trans (s.course_endMembers _ _ _)

theorem State.course_skipGroup (s : State) (g code : Nat) : (s.skipGroup g code).course = s.course := by
  unfold State.skipGroup
  split
  · rfl
  · exact foldl_keeps (fun y : State => y.course = s.course) _ _ _ (State.course_dropGroup _ _ _ _) fun _ _ hy => hy

theorem State.course_skipGroups (s : State) (n code : Nat) : (s.skipGroups n code).course = s.course :=
  foldl_keeps (fun y : State => y.course = s.course) _ _ _ rfl fun y g hy => (y.course_skipGroup g code).trans hy

/-! ### A verdict that is confirmed (R336, R337) -/

/-- A verdict as its confirmation keeps it. -/
def State.confirmed (s : State) (v : Verdict) : Verdict := { v with phase := 3, conf := s.tide.ns }

theorem State.course_confirm (s : State) (v : Verdict) : (s.confirm v).course = ((s.putVerdict (s.confirmed v)).verdicts, s.tide) := by
  have hkept : (s.keepVerdict (s.confirmed v)).course = ((s.putVerdict (s.confirmed v)).verdicts, s.tide) := (congrArg State.course (s.keepVerdict_eq (s.confirmed v)) :)
  have hstored := ((((((Stored.refl (s.keepVerdict (s.confirmed v))).updateHistory v.code v.step v.record).refreshAnchors
    ((v.step + 1) % 2 ^ 32)).writeStepRecord v).releaseTrail v.step).count (cntHub (10 + v.code)) 1)
  rw [← hkept]
  unfold State.confirm
  dsimp only
  split
  · exact (State.course_skipGroups _ _ _).trans ((hstored.bump _ 1).bump _ _).course
  · exact hstored.course

theorem State.confirm_shows (s : State) (v : Verdict) : (s.confirm v).confirmedCode v.step = some v.code ∧ (s.confirm v).tide = s.tide := by
  obtain ⟨hverdicts, htide⟩ := Prod.mk.inj (s.course_confirm v)
  refine ⟨?_, htide⟩
  have hfound := s.find_putVerdict (v := s.confirmed v) (p := fun x => x.step == v.step && x.phase == 3) (by simp [State.confirmed])
    fun x hx => beq_iff_eq.mp (Bool.and_eq_true_iff.mp hx).1
  rw [State.confirmedCode, hverdicts, hfound]
  rfl

end Sys2Proof.Machine
end

section
/-! SUPPORT. Family 10_update_engine.md: the agreement on a verdict with the neighbours (O29). -/

namespace Sys2Proof.Machine

/-! ### The cells of frame V (R334) -/

theorem State.awaited_spec {s : State} {p : Nat} {v : Verdict} (h : s.awaited p = [v]) : v.phase = 2 ∧ p ∈ v.ports := by
  have hmem : v ∈ s.awaited p := h ▸ List.mem_singleton_self v
  have hcond := (List.mem_filter.mp hmem).2
  simp only [Bool.and_eq_true, beq_iff_eq, List.contains_iff_mem] at hcond
  obtain ⟨⟨hphase, -⟩, hport⟩ := hcond
  exact ⟨hphase, hport⟩

theorem Verdict.not_mem_heard (v : Verdict) (p : Nat) : p ∉ (v.heard p).ports := fun h => by simpa using (List.mem_filter.mp h).2

section
variable {s : State} {p : Fin 18} {v : Verdict} (hup : s.portUp p.val = true) (hawaited : s.awaited p.val = [v])
include hup hawaited

theorem exec_verdictCellReceive_awaited {cell : Cell} (htype : cell.hdr.ctype = 5#8) (hlen : cell.hdr.length ≠ 0#16)
    (hverdict : bitOf (leAt cell.payload 4 1) 7 = false) : exec (.verdictCellReceive p cell false) s =
    .next (if leAt cell.payload 24 2 = v.domain then s.compareCell v p.val cell.payload else s.putVerdict (v.heard p.val)) := by
  show execVerdictCellReceive p cell false s = _
  unfold execVerdictCellReceive
  dsimp only
  rw [if_neg (by simp [hup]), if_neg Bool.false_ne_true, if_neg (by simp [htype, hlen, hverdict]), hawaited]
  rfl

theorem exec_verdictCellReceive_bad (cell : Cell) : exec (.verdictCellReceive p cell true) s =
    .next (s.turnVeto (v.heard p.val) 8 s.chip 0x1F) := by
  show execVerdictCellReceive p cell true s = _
  unfold execVerdictCellReceive
  dsimp only
  rw [if_neg (by simp [hup]), if_pos rfl, hawaited]
  rfl

end

/-- A cell agrees with the module's own verdict. -/
def Verdict.matches (v : Verdict) (b : List Byte) : Prop :=
  b.take 6 = (verdictBytes v v.code v.reason v.origin).take 6 ∧ bytesAt b 8 16 = bytesAt (verdictBytes v v.code v.reason v.origin) 8 16

section
variable {s : State} {v : Verdict} {b : List Byte} (hcode : v.code ≠ 4)
include hcode

theorem State.compareCell_matches (hnone : leAt b 4 1 ≠ 0) (hveto : leAt b 4 1 ≠ 4) (hmatch : v.matches b) (p : Nat) :
    s.compareCell v p b = s.putVerdict (v.heard p) := by
  unfold State.compareCell
  dsimp only
  rw [if_neg hcode, if_neg (not_or_intro hnone hveto)]
  exact if_pos hmatch

theorem State.compareCell_differs (h : leAt b 4 1 = 0 ∨ leAt b 4 1 = 4 ∨ ¬v.matches b) (p : Nat) :
    ∃ origin port, s.compareCell v p b = s.turnVeto (v.heard p) 5 origin port := by
  unfold State.compareCell
  dsimp only
  rw [if_neg hcode]
  split
  · exact ⟨_, _, rfl⟩
  · next hother =>
    have hdiffers : ¬v.matches b := (h.resolve_left fun h0 => hother (.inl h0)).resolve_left fun h4 => hother (.inr h4)
    exact ⟨_, _, if_neg hdiffers⟩

end

/-- A module that turns to veto as a cell of frame V has come or is missing. -/
theorem State.turnVeto_heard {v : Verdict} (hcode : v.code ≠ 4) (s : State) (p reason origin port : Nat) :
    (s.turnVeto (v.heard p) reason origin port).verdictOf v.step =
      some { v.heard p with code := 4, reason := reason, origin := origin, fromPort := port } ∧
    (s.turnVeto (v.heard p) reason origin port).fld UPD_VERDICT_STATUS_veto_seen = 1 ∧
    MemSame s (s.turnVeto (v.heard p) reason origin port) := by
  refine ⟨?_, s.fld_turnVeto_seen (v := v.heard p) hcode _ _ _, s.memSame_turnVeto _ _ _ _⟩
  rw [← Verdict.veto_of_ne (v := v.heard p) hcode reason origin port]
  exact s.verdictOf_turnVeto (v.heard p) reason origin port

theorem exec_verdictMissingCell {s : State} {p : Fin 18} {step : BitVec 32} {v : Verdict} (hv : s.verdictOf step.toNat = some v)
    (hphase : v.phase = 2) (hport : p.val ∈ v.ports) :
    exec (.verdictMissingCell p step) s = .next ((s.atTide (v.vtide + frameNs)).turnVeto (v.heard p.val) 6 s.chip 0x1F) := by
  show execVerdictMissingCell p step s = _
  unfold execVerdictMissingCell
  rw [hv]
  exact congrArg Host.Outcome.next (if_pos ⟨hphase, List.contains_iff_mem.mpr hport⟩)

/-! ### Confirmation at the start of frame V + W + 1 (R334, R336) -/

theorem exec_verdictConfirm {s : State} {step : BitVec 32} {v : Verdict} (hv : s.verdictOf step.toNat = some v) (hphase : v.phase = 2) :
    exec (.verdictConfirm step) s = .next (if v.ports.isEmpty then (s.atTide (v.vtide + (v.window + 1) * frameNs)).confirm v
      else ((s.atTide (v.vtide + (v.window + 1) * frameNs)).setFlagIf (v.code != 4) UPD_VERDICT_STATUS_veto_seen).confirm (v.veto 6 s.chip 0x1F)) := by
  show execVerdictConfirm step s = _
  unfold execVerdictConfirm
  rw [hv]
  exact congrArg Host.Outcome.next (if_pos hphase)

theorem verdictConfirm_confirms {s : State} {step : BitVec 32} {v : Verdict} (hv : s.verdictOf step.toNat = some v) (hphase : v.phase = 2) :
    ∃ t, exec (.verdictConfirm step) s = .next t ∧ t.tide.ns = max s.tide.ns (v.vtide + (v.window + 1) * frameNs) % 2 ^ 64 ∧
      t.confirmedCode step.toNat = some (if v.ports = [] then v.code else 4) := by
  have hstep := State.step_of_verdictOf hv
  refine ⟨_, exec_verdictConfirm hv hphase, ?_⟩
  by_cases hports : v.ports = []
  · obtain ⟨hcode, htide⟩ := (s.atTide (v.vtide + (v.window + 1) * frameNs)).confirm_shows v
    rw [if_pos (List.isEmpty_iff.mpr hports), if_pos hports, ← hstep]
    exact ⟨congrArg TideUnit.ns htide, hcode⟩
  · obtain ⟨hcode, htide⟩ := State.confirm_shows ((s.atTide (v.vtide + (v.window + 1) * frameNs)).setFlagIf (v.code != 4) UPD_VERDICT_STATUS_veto_seen)
      (v.veto 6 s.chip 0x1F)
    rw [(v.veto_keeps 6 s.chip 0x1F).1, hstep, Verdict.veto_code] at hcode
    rw [State.tide_setFlagIf] at htide
    rw [if_neg (mt List.isEmpty_iff.mp hports), if_neg hports]
    exact ⟨congrArg TideUnit.ns htide, hcode⟩

/-! ### Queries and answers (R337, R377) -/

theorem State.setFlag_frame (s : State) (f : Fld) :
    s.setFlag f = { s with regs := (s.setFlag f).regs, evt := (s.setFlag f).evt, ports := (s.setFlag f).ports } := rfl

/-- The queries wait on every up port. -/
def State.querySent (s : State) (step : BitVec 32) : State :=
  (s.setFlag UPD_VERDICT_STATUS_query_sent).onPorts s.upPorts fun u => { u with ctlOut := u.ctlOut ++ [.query step] }

theorem State.querySent_keeps (s : State) (step : BitVec 32) : (s.querySent step).fld UPD_VERDICT_STATUS_query_sent = 1 ∧
    (∀ p < 18, s.portUp p = true → ((s.querySent step).port p).ctlOut = (s.port p).ctlOut ++ [Notice.query step]) ∧
    RegsBut [UPD_VERDICT_STATUS] s (s.querySent step) ∧
    s.querySent step = { s with regs := (s.querySent step).regs, evt := (s.querySent step).evt, ports := (s.querySent step).ports } := by
  have hregs : (s.querySent step).regs = (s.setFlag UPD_VERDICT_STATUS_query_sent).regs := State.regs_onPorts _ _ _
  refine ⟨?_, fun p hp hup => ?_, fun a ha => ?_, ?_⟩
  · exact (State.fld_congr hregs _).trans (s.fld_setFlag_same _ rfl (by decide))
  · unfold State.querySent
    rw [State.port_onPorts _ s.nodup_upPorts, if_pos (State.mem_upPorts hp hup), State.port_congr (State.setFlag_ports _ _)]
  · have hne : a ≠ UPD_VERDICT_STATUS := by simpa using ha
    have hflag := s.reg_setFlag UPD_VERDICT_STATUS_query_sent a
    have hfld := s.reg_setFld_other UPD_VERDICT_STATUS_query_sent 1 hne
    exact (State.reg_congr hregs a).trans (hflag.trans hfld)
  · unfold State.querySent
    exact State.onPorts_frame (s.setFlag_frame UPD_VERDICT_STATUS_query_sent) _ _

theorem exec_verdictQuerySend {s : State} {step : BitVec 32} (hlocked : s.flag TID_STATUS_locked = true)
    (hnone : s.confirmedCode step.toNat = none) : exec (.verdictQuerySend step) s = .next (s.querySent step) := by
  show execVerdictQuerySend step s = _
  unfold execVerdictQuerySend
  rw [hlocked, hnone]
  rfl

theorem exec_verdictQueryReceive {s : State} {p : Fin 18} {step : BitVec 32} {v : Verdict} (hv : s.verdictOf step.toNat = some v)
    (hphase : v.phase = 3) : exec (.verdictQueryReceive p step) s =
    .next (s.setPort p.val { s.port p.val with vNext := some (verdictBytes v (v.code + 128) v.reason v.origin) }) := by
  show execVerdictQueryReceive p step s = _
  unfold execVerdictQueryReceive
  rw [hv]
  exact congrArg Host.Outcome.next (if_pos hphase)

theorem exec_verdictAnswerReceive {s : State} {p : Fin 18} {cell : Cell} (rec : List Byte) (hup : s.portUp p.val = true)
    (htype : cell.hdr.ctype = 5#8) (hanswer : bitOf (leAt cell.payload 4 1) 7 = true) (hnone : s.confirmedCode (leAt cell.payload 0 4) = none) :
    ∃ (t : State) (v : Verdict), exec (.verdictAnswerReceive p cell rec) s = .next (t.confirm v) ∧ v.step = leAt cell.payload 0 4 ∧
      v.code = leAt cell.payload 4 1 % 128 := by
  have hexec : exec (.verdictAnswerReceive p cell rec) s = execVerdictAnswerReceive p cell rec s := rfl
  unfold execVerdictAnswerReceive at hexec
  dsimp only at hexec
  rw [if_neg (by simp [hup, htype, hanswer, hnone])] at hexec
  refine ⟨_, _, hexec, ?_, rfl⟩
  cases hv : s.verdictOf (leAt cell.payload 0 4) with
  | none => rfl
  | some v => exact (State.step_of_verdictOf hv :)

/-! ### The agreement -/

/-- A cell of frame V that is not compared, or that matches, takes its port off the list. -/
theorem State.putVerdict_heard (s : State) (v : Verdict) (p : Nat) :
    (s.putVerdict (v.heard p)).verdictOf v.step = some { v with ports := v.ports.filter (fun x => x != p) } ∧
    s.putVerdict (v.heard p) = { s with verdicts := (s.putVerdict (v.heard p)).verdicts } :=
  ⟨s.verdictOf_putVerdict (v.heard p), rfl⟩

/-- Settles O29: a cell that matches is struck off, any other turns the module to veto, and each confirmation keeps the verdict in phase 3. -/
theorem verdictAgreement : Obligations.VerdictAgreement := by
  refine ⟨fun s p v hup hawaited => ⟨fun cell htype hlen hverdict => ?_, fun cell hcode => ?_, fun step hv hcode => ?_⟩,
    fun s => ⟨fun step v hv hphase => verdictConfirm_confirms hv hphase, fun step hlocked hnone => ?_, fun p step v hv hphase => ?_,
      fun p cell rec hup htype hanswer hnone => ?_⟩⟩
  · have hexec := exec_verdictCellReceive_awaited hup hawaited htype hlen hverdict
    obtain ⟨hheard, hframe⟩ := s.putVerdict_heard v p.val
    refine ⟨fun hdomain => ?_, fun hdomain hcode => ⟨fun hnone hveto hsame hsame' => ?_, fun hdiffers => ?_⟩⟩
    · rw [if_neg hdomain] at hexec
      exact ⟨_, hexec, hheard, hframe⟩
    · rw [if_pos hdomain, State.compareCell_matches hcode hnone hveto ⟨hsame, hsame'⟩] at hexec
      exact ⟨_, hexec, hheard, hframe⟩
    · have hother : leAt cell.payload 4 1 = 0 ∨ leAt cell.payload 4 1 = 4 ∨ ¬v.matches cell.payload :=
        hdiffers.imp_right (.imp_right fun h hmatch => h.elim (absurd hmatch.1) (absurd hmatch.2))
      obtain ⟨origin, port, hturn⟩ := State.compareCell_differs (s := s) hcode hother p.val
      obtain ⟨hfound, hseen, hmem⟩ := State.turnVeto_heard hcode s p.val 5 origin port
      rw [if_pos hdomain, hturn] at hexec
      exact ⟨_, _, hexec, hfound, rfl, rfl, (State.awaited_spec hawaited).1, hseen, hmem⟩
  · obtain ⟨hfound, hseen, hmem⟩ := State.turnVeto_heard hcode s p.val 8 s.chip 0x1F
    exact ⟨_, _, exec_verdictCellReceive_bad hup hawaited cell, hfound, rfl, rfl, hseen, hmem⟩
  · obtain ⟨hphase, hport⟩ := State.awaited_spec hawaited
    obtain ⟨hfound, -, hmem⟩ := State.turnVeto_heard hcode (s.atTide (v.vtide + frameNs)) p.val 6 s.chip 0x1F
    rw [State.step_of_verdictOf hv] at hfound
    exact ⟨_, _, exec_verdictMissingCell hv hphase hport, hfound, rfl, rfl, v.not_mem_heard p.val,
      congrArg TideUnit.ns (State.turnVeto_keeps _ _ _ _ _).2.1, hmem⟩
  · obtain ⟨hsent, hctl, hregs, hframe⟩ := s.querySent_keeps step
    exact ⟨_, exec_verdictQuerySend hlocked hnone, hsent, hctl, hregs, hframe⟩
  · refine ⟨_, exec_verdictQueryReceive hv hphase, ?_, rfl⟩
    rw [State.port_setPort_same]
  · obtain ⟨t, v, hexec, hstep, hcode⟩ := exec_verdictAnswerReceive rec hup htype hanswer hnone
    obtain ⟨hconfirmed, -⟩ := t.confirm_shows v
    rw [hstep, hcode] at hconfirmed
    exact ⟨_, hexec, hconfirmed⟩

end Sys2Proof.Machine
end

section
/-! SUPPORT. Family 10_update_engine.md: commit groups, from GROUP_BEGIN to their end (O24). -/

namespace Sys2Proof.Machine

/-! ### Opening a group (R339, R341) -/

/-- The group that a GROUP_BEGIN opens. -/
def State.newGroup (s : State) (e : Nat) (bound : Option (Nat × Nat × Nat)) : Group :=
  { Group.zero with begin_ := e, expected := leAt (s.desc e) 16 4, bound := bound }

/-- A group enters the group table. -/
def State.openedGroup (s : State) (g : Nat) (x : Group) : State := State.showGroups { s with groups := SMap.insert s.groups g x }

theorem State.groupOf_openedGroup (s : State) (g : Nat) (x : Group) : (s.openedGroup g x).groupOf g = some x ∧
    ∀ k, k ≠ g → (s.openedGroup g x).groupOf k = s.groupOf k :=
  ⟨SMap.find_insert_same _ _ _, fun _ hk => SMap.find_insert_other _ _ hk⟩

theorem State.mem_openedGroup (s : State) (g : Nat) (x : Group) : (s.openedGroup g x).mem = s.mem := (State.showGroups_keeps _).2.2.1

theorem State.restartAt_of_not_due {s : State} (h : s.restartDue = false) (n : Nat) : s.restartAt n = s := by
  unfold State.restartAt
  rw [h]
  rfl

/-- The verdict that a group binds to its step, domain and verdict tide. -/
def boundVerdict (n dom v : Nat) : Verdict := { Verdict.zero with step := n, domain := dom, bound := true, vtide := v }

section
variable {s : State} {e : Nat} (hfresh : s.fresh e kindGroupBegin = true) (hok : s.groupBeginOk (s.desc e) = true)
include hfresh hok

theorem exec_groupBegin_unbound (hbound : bitOf (leAt (s.desc e) 20 1) 0 = false) :
    exec (.groupBegin e) s = .next ((s.openedGroup (dGroup (s.desc e)) (s.newGroup e none)).okWith e) := by
  show execGroupBegin e s = _
  unfold execGroupBegin
  dsimp only
  rw [hfresh, hok, hbound]
  rfl

theorem exec_groupBegin_bound (hbound : bitOf (leAt (s.desc e) 20 1) 0 = true) (hnone : s.verdictOf (leAt (s.desc e) 24 4) = none)
    (hdue : s.restartDue = false) : exec (.groupBegin e) s = .next (State.okWith (State.setFld (State.putVerdict
      (s.openedGroup (dGroup (s.desc e)) (s.newGroup e (some (leAt (s.desc e) 24 4, leAt (s.desc e) 22 2, leAt (s.desc e) 32 8))))
      (boundVerdict (leAt (s.desc e) 24 4) (leAt (s.desc e) 22 2) (leAt (s.desc e) 32 8))) UPD_VERDICT_STATUS_state 1) e) := by
  have hnone' (x : Group) : (s.openedGroup (dGroup (s.desc e)) x).verdictOf (leAt (s.desc e) 24 4) = none :=
    (State.verdictOf_congr (State.showGroups_keeps _).2.1 _).trans hnone
  unfold State.openedGroup at hnone'
  show execGroupBegin e s = _
  unfold execGroupBegin
  dsimp only
  rw [hfresh, hok, hbound, if_pos rfl, if_neg (by decide), if_pos rfl, if_pos rfl, if_pos rfl, State.restartAt_of_not_due hdue, hnone']
  rfl

end

theorem State.putVerdict_keeps (s : State) (v : Verdict) : (s.putVerdict v).groups = s.groups ∧ (s.putVerdict v).mem = s.mem := ⟨rfl, rfl⟩

theorem State.okWith_keeps (s : State) (e c1 c2 : Nat) : (s.okWith e c1 c2).groups = s.groups ∧ (s.okWith e c1 c2).verdicts = s.verdicts ∧
    MemSame s (s.okWith e c1 c2) := ⟨rfl, rfl, State.memSame_complete _ _ _ _ _ _⟩

section
variable {s : State} {e : Nat} (hfresh : s.fresh e kindGroupBegin = true) (hok : s.groupBeginOk (s.desc e) = true)
include hfresh hok

theorem groupBegin_unbound (hbound : bitOf (leAt (s.desc e) 20 1) 0 = false) :
    ∃ t, exec (.groupBegin e) s = .next t ∧ EndsAs t e .ok .none ∧ t.groupOf (dGroup (s.desc e)) = some (s.newGroup e none) ∧
      (∀ g, g ≠ dGroup (s.desc e) → t.groupOf g = s.groupOf g) ∧ MemSame s t := by
  obtain ⟨hsame, hother⟩ := s.groupOf_openedGroup (dGroup (s.desc e)) (s.newGroup e none)
  obtain ⟨hgroups, -, hmem⟩ := (s.openedGroup (dGroup (s.desc e)) (s.newGroup e none)).okWith_keeps e 0 0
  exact ⟨_, exec_groupBegin_unbound hfresh hok hbound, State.complete_ok_endsAs _ _ _ _ _, (State.groupOf_congr hgroups _).trans hsame,
    fun g hg => (State.groupOf_congr hgroups g).trans (hother g hg), fun a => (hmem a).trans (State.byte_congr (s.mem_openedGroup _ _) a)⟩

theorem groupBegin_bound (hbound : bitOf (leAt (s.desc e) 20 1) 0 = true) (hnone : s.verdictOf (leAt (s.desc e) 24 4) = none)
    (hdue : s.restartDue = false) :
    ∃ t v, exec (.groupBegin e) s = .next t ∧ EndsAs t e .ok .none ∧ t.groupOf (dGroup (s.desc e)) =
        some (s.newGroup e (some (leAt (s.desc e) 24 4, leAt (s.desc e) 22 2, leAt (s.desc e) 32 8))) ∧
      t.verdictOf (leAt (s.desc e) 24 4) = some v ∧ v.bound = true ∧ v.domain = leAt (s.desc e) 22 2 ∧ v.vtide = leAt (s.desc e) 32 8 ∧ v.phase = 0 ∧
      t.fld UPD_VERDICT_STATUS_state = 1 ∧ (∀ g, g ≠ dGroup (s.desc e) → t.groupOf g = s.groupOf g) ∧ MemSame s t := by
  have hexec := exec_groupBegin_bound hfresh hok hbound hnone hdue
  generalize s.newGroup e (some (leAt (s.desc e) 24 4, leAt (s.desc e) 22 2, leAt (s.desc e) 32 8)) = x at hexec ⊢
  obtain ⟨hsame, hother⟩ := s.groupOf_openedGroup (dGroup (s.desc e)) x
  generalize hv : boundVerdict (leAt (s.desc e) 24 4) (leAt (s.desc e) 22 2) (leAt (s.desc e) 32 8) = v at hexec
  obtain ⟨hstep, hbinds, hdomain, htide, hphase⟩ : v.step = leAt (s.desc e) 24 4 ∧ v.bound = true ∧ v.domain = leAt (s.desc e) 22 2 ∧
      v.vtide = leAt (s.desc e) 32 8 ∧ v.phase = 0 := by
    rw [← hv]
    exact ⟨rfl, rfl, rfl, rfl, rfl⟩
  have hput := (s.openedGroup (dGroup (s.desc e)) x).verdictOf_putVerdict v
  rw [hstep] at hput
  have hmem := s.mem_openedGroup (dGroup (s.desc e)) x
  generalize s.openedGroup (dGroup (s.desc e)) x = u at hexec hsame hother hput hmem
  have hshown : ((u.putVerdict v).setFld UPD_VERDICT_STATUS_state 1).fld UPD_VERDICT_STATUS_state = 1 := State.fld_setFld_same _ _ _ (by decide)
  obtain ⟨hgroups, hverdicts, hmem'⟩ := ((u.putVerdict v).setFld UPD_VERDICT_STATUS_state 1).okWith_keeps e 0 0
  obtain ⟨hgroups', hmem''⟩ := u.putVerdict_keeps v
  replace hgroups := (hgroups.trans (State.setFld_groups _ _ _)).trans hgroups'
  replace hverdicts := hverdicts.trans (State.setFld_verdicts _ _ _)
  replace hmem := ((State.setFld_mem _ UPD_VERDICT_STATUS_state 1).trans hmem'').trans hmem
  refine ⟨_, v, hexec, State.complete_ok_endsAs _ _ _ _ _, (State.groupOf_congr hgroups _).trans hsame, (State.verdictOf_congr hverdicts _).trans hput,
    hbinds, hdomain, htide, hphase, ?_, fun g hg => (State.groupOf_congr hgroups g).trans (hother g hg),
    fun a => (hmem' a).trans (State.byte_congr hmem a)⟩
  unfold State.fld at hshown ⊢
  rw [State.okWith, State.reg_complete _ _ _ _ _ _ (by decide), hshown]

end

/-! ### GROUP_COMMIT waits in its group (R343) -/

/-- A group has its GROUP_COMMIT. -/
def State.committing (s : State) (e : Nat) (x : Group) : State :=
  { s with groups := SMap.insert s.groups (dGroup (s.desc e)) { x with commit := some e } }

section
variable {s : State} {e : Nat} (hfresh : s.fresh e kindGroupCommit = true) (hzero : dZero (s.desc e) 16 63 = true)
include hfresh hzero

theorem exec_groupCommit_closed (hnone : s.groupOf (dGroup (s.desc e)) = none) :
    exec (.groupCommit e) s = .next (s.complete e [.faultFailed] .groupClosed) := by
  show execGroupCommit e s = _
  unfold execGroupCommit
  dsimp only
  rw [hfresh, hzero, hnone]
  rfl

theorem groupCommit_waits {x : Group} (hopen : s.groupOf (dGroup (s.desc e)) = some x) (hfirst : x.commit = none) :
    ∃ t, exec (.groupCommit e) s = .next t ∧ t.groupOf (dGroup (s.desc e)) = some { x with commit := some e } ∧
      t.doing e kindGroupCommit = true ∧ t = { s with groups := t.groups, work := t.work } := by
  obtain ⟨w, hw, -, -⟩ := State.working_of_fresh hfresh
  have hexec : exec (.groupCommit e) s = .next ((s.committing e x).begun e) := by
    show execGroupCommit e s = _
    unfold execGroupCommit
    dsimp only
    rw [hfresh, hzero, hopen, if_pos rfl, if_neg (by decide)]
    exact congrArg Host.Outcome.next (if_neg (by simp [hfirst]))
  refine ⟨_, hexec, ?_, State.doing_begun (u := s.committing e x) hfresh rfl rfl, ?_⟩
  · rw [State.begun_of_working (s := s.committing e x) hw]
    exact SMap.find_insert_same _ _ _
  · rw [State.begun_of_working (s := s.committing e x) hw]
    rfl

end

/-! ### The end of a group without its effects (R344, R347) -/

theorem State.openGroup_eq {s : State} {g : Nat} {x : Group} (h : s.openGroup g = some x) : s.recOf g = none ∧ s.groupOf g = some x := by
  unfold State.openGroup at h
  split at h
  · cases h
  · next hrec => exact ⟨by simpa using hrec, h⟩

theorem State.openGroup_of_rec {s : State} {g : Nat} {c : CommitRec} (h : s.recOf g = some c) : s.openGroup g = none := by
  unfold State.openGroup
  rw [h]
  rfl

theorem State.abortGroup_of_open {s : State} {g : Nat} {x : Group} (h : s.openGroup g = some x) (late : List Nat) :
    s.abortGroup g late = ((s.dropGroup g .groupAborted late).bump UPD_GROUP_COUNT_aborts).count (cntHub 16) := by
  unfold State.abortGroup
  rw [h]

theorem State.abortGroup_keeps {s : State} {g : Nat} {x : Group} (h : s.openGroup g = some x) (late : List Nat) :
    (s.abortGroup g late).groupOf g = none ∧ (s.abortGroup g late).tide = s.tide ∧ MemSame s (s.abortGroup g late) := by
  have hstored : Stored (s.dropGroup g .groupAborted late) (s.abortGroup g late) := by
    rw [State.abortGroup_of_open h]
    exact ((Stored.refl _).bump _ 1).count _ _
  have hdropped : OnlyCompleted s (s.abortGroup g late) := by
    rw [State.abortGroup_of_open h]
    exact OnlyCompleted.count (OnlyCompleted.setFld ((OnlyCompleted.refl s).dropGroup g .groupAborted late) _ _) _ _
  refine ⟨?_, hdropped.tide, State.byte_congr hdropped.mem⟩
  rw [State.groupOf_congr hstored.groups, State.dropGroup_of_open h, State.groupOf_freeGroup]

/-- A GROUP_COMMIT that is late completes last of its group. -/
theorem State.abortGroup_late {s : State} {g e : Nat} {x : Group} (h : s.openGroup g = some x) (hcommit : x.commit = some e) :
    EndsAs (s.abortGroup g [e]) e .late .none := by
  have hlast : EndsAs (s.endMembers x.ending .groupAborted [e]) e .late .none := by
    rw [s.endMembers_commit hcommit, State.endMember, if_pos (by simp)]
    exact State.complete_endsAs _ _ _ _ _
  have hstored : Stored ((s.endMembers x.ending .groupAborted [e]).freeGroup g) (s.abortGroup g [e]) := by
    rw [State.abortGroup_of_open h, State.dropGroup_of_open h]
    exact ((Stored.refl _).bump _ 1).count _ _
  exact hlast.congr (hstored.doneQ.trans (State.showGroups_keeps _).2.2.2.1)

section
variable {s : State} {e : Nat} (hfresh : s.fresh e kindGroupAbort = true) (hzero : dZero (s.desc e) 16 63 = true)
include hfresh hzero

theorem exec_groupAbort_late (hrec : (s.recOf (dGroup (s.desc e))).isSome = true) : exec (.groupAbort e) s = .next (s.complete e [.late] .none) := by
  show execGroupAbort e s = _
  unfold execGroupAbort
  dsimp only
  rw [hfresh, hzero, hrec]
  rfl

theorem exec_groupAbort_closed (hrec : s.recOf (dGroup (s.desc e)) = none) (hnone : s.groupOf (dGroup (s.desc e)) = none) :
    exec (.groupAbort e) s = .next (s.complete e [.faultFailed] .groupClosed) := by
  show execGroupAbort e s = _
  unfold execGroupAbort
  dsimp only
  rw [hfresh, hzero, hrec, hnone]
  rfl

theorem exec_groupAbort_open {x : Group} (hopen : s.openGroup (dGroup (s.desc e)) = some x) :
    exec (.groupAbort e) s = .next ((s.abortGroup (dGroup (s.desc e)) []).okWith e) := by
  obtain ⟨hrec, hgroup⟩ := State.openGroup_eq hopen
  show execGroupAbort e s = _
  unfold execGroupAbort
  dsimp only
  rw [hfresh, hzero, hrec, hgroup]
  rfl

end

theorem groupDeadline_passes {s : State} {g : Fin 4096} {x : Group} {e : Nat} (hopen : s.openGroup g.val = some x) (hcommit : x.commit = some e)
    (hvalid : dDeadlineValid (s.desc e) = true) :
    ∃ t, exec (.groupDeadline g) s = .next t ∧ EndsAs t e .late .none ∧ t.groupOf g.val = none ∧
      t.tide.ns = max s.tide.ns (s.judgedAt x (dDeadline (s.desc e))) % 2 ^ 64 ∧ MemSame s t := by
  have hdeadline : s.groupDeadline x = some (dDeadline (s.desc e)) := by
    unfold State.groupDeadline
    rw [hcommit]
    exact if_pos hvalid
  have hexec : exec (.groupDeadline g) s = .next ((s.atTide (s.judgedAt x (dDeadline (s.desc e)))).abortGroup g.val [e]) := by
    show execGroupDeadline g s = _
    unfold execGroupDeadline
    rw [hopen]
    dsimp only
    rw [hdeadline, hcommit]
    rfl
  have hopen' : (s.atTide (s.judgedAt x (dDeadline (s.desc e)))).openGroup g.val = some x := (State.openGroup_congr rfl rfl _).trans hopen
  obtain ⟨hfreed, htide, hmem⟩ := State.abortGroup_keeps hopen' [e]
  exact ⟨_, hexec, State.abortGroup_late hopen' hcommit, hfreed, congrArg TideUnit.ns htide, hmem⟩

/-! ### The commit record (R343) -/

theorem State.recOf_spec {s : State} {g : Nat} {c : CommitRec} (h : s.recOf g = some c) : c.group = g ∧ c.done = false := by
  have hcond := List.find?_some h
  simpa using hcond

/-- A record that is put back is the group's record. -/
theorem State.recOf_putRec {s : State} {g : Nat} {c k : CommitRec} (h : s.recOf g = some c) (hgroup : k.group = g) (hdone : k.done = false) :
    (s.putRec k).recOf g = some k := by
  subst hgroup
  have hkeeps (y : CommitRec) : ((fun c : CommitRec => c.group == k.group && !c.done) ∘
      fun y => if y.group == k.group && !y.done then k else y) y = (y.group == k.group && !y.done) := by
    by_cases hy : (y.group == k.group && !y.done) = true
    · rw [Function.comp_apply, if_pos hy, hy, hdone, beq_self_eq_true]
      rfl
    · rw [Function.comp_apply, if_neg hy]
  unfold State.recOf State.putRec
  rw [List.find?_map, funext hkeeps]
  unfold State.recOf at h
  rw [h]
  exact congrArg some (if_pos (List.find?_some h))

/-- The record with which the commit of a group begins that is bound to no verdict. -/
def Group.record (x : Group) (g e : Nat) : CommitRec := ⟨g, e, x.effects, 0, 0, false, x.members ++ [⟨e, [.ok], 0, 0⟩]⟩

/-- The commit record write of a group has begun. -/
def State.recordBegun (s : State) (g : Nat) (x : Group) (e : Nat) : State := { s with commits := s.commits ++ [x.record g e] }

theorem State.recOf_recordBegun {s : State} {g : Nat} (h : s.recOf g = none) (x : Group) (e : Nat) :
    (s.recordBegun g x e).recOf g = some (x.record g e) := by
  unfold State.recOf at h ⊢
  rw [State.recordBegun, List.find?_append, h, Option.none_or]
  exact List.find?_cons_of_pos (by simp [Group.record])

theorem State.commitRun_succ {s : State} {g : Nat} {c : CommitRec} (h : s.recOf g = some c) (k : Nat) :
    State.commitRun (k + 1) g s = State.commitRun k g (s.commitStep c) := by
  rw [State.commitRun, h]

section
variable {s : State} {c : CommitRec}

theorem State.commitStep_first (ha : s.mirrorAOk = true) (hb : s.mirrorBOk = true) (hmirrors : c.mirrors = 0) :
    s.commitStep c = s.putRec { c with mirrors := 1 } := by
  unfold State.commitStep
  dsimp only
  rw [ha, hb, hmirrors]
  rfl

theorem State.commitStep_second (ha : s.mirrorAOk = true) (hb : s.mirrorBOk = true) (hmirrors : c.mirrors = 1) :
    s.commitStep c = (((s.putRec { c with mirrors := 2 }).count (cntHub 3)).bump UPD_GROUP_COUNT_commits).count (cntHub 15) := by
  unfold State.commitStep
  dsimp only
  rw [ha, hb, hmirrors]
  rfl

theorem State.commitStep_effect (hmirrors : c.mirrors = 2) {f : Effect} (hf : c.effects[c.made]? = some f) :
    s.commitStep c = ((s.putRec { c with made := c.made + 1 }).count (cntHub 17)).makeEffect f := by
  unfold State.commitStep
  rw [hmirrors, hf]
  rfl

/-- The entries of a committed group complete, in order. -/
def State.payOwed (s : State) (l : List Member) : State :=
  l.foldl (fun (t : State) (m : Member) => t.complete m.entry m.status .blockError m.c1 m.c2) s

theorem State.commitStep_last (hmirrors : c.mirrors = 2) (hf : c.effects[c.made]? = none) : s.commitStep c = (s.freeCommitted c).payOwed c.owed := by
  unfold State.commitStep
  rw [hmirrors, hf]
  rfl

end

/-- With `m` effects left, the commit makes them and then pays what the group owes; with none left it only does the latter. -/
theorem State.commitRun_committed {s : State} {g m : Nat} {c : CommitRec} (h : s.recOf g = some c) (hmirrors : c.mirrors = 2)
    (hleft : c.made + m = c.effects.length) :
    ∃ t k, State.commitRun (m + 1) g s = (State.freeCommitted t k).payOwed c.owed ∧ k.group = g ∧ (m = 0 → t = s) := by
  induction m generalizing s c with
  | zero =>
    refine ⟨s, c, ?_, (State.recOf_spec h).1, fun _ => rfl⟩
    rw [State.commitRun_succ h, State.commitStep_last hmirrors (List.getElem?_eq_none (by omega))]
    rfl
  | succ m ih =>
    obtain ⟨hgroup, hdone⟩ := State.recOf_spec h
    obtain ⟨f, hf⟩ : ∃ f, c.effects[c.made]? = some f := ⟨_, List.getElem?_eq_getElem (by omega)⟩
    have hstored := ((Stored.refl (s.putRec { c with made := c.made + 1 })).count (cntHub 17) 1).makeEffect f
    have hrec := (State.recOf_congr hstored.commits g).trans (State.recOf_putRec (k := { c with made := c.made + 1 }) h hgroup hdone)
    obtain ⟨t, k, hrun, hk, -⟩ := ih hrec hmirrors ((Nat.add_right_comm c.made 1 m).trans hleft)
    refine ⟨t, k, ?_, hk, fun h0 => by omega⟩
    rw [State.commitRun_succ h, State.commitStep_effect hmirrors hf]
    exact hrun

/-! ### What the payment of a committed group leaves -/

theorem State.payOwed_concat (s : State) (l : List Member) (m : Member) :
    s.payOwed (l ++ [m]) = (s.payOwed l).complete m.entry m.status .blockError m.c1 m.c2 := List.foldl_concat ..

theorem State.payOwed_keeps (s : State) (l : List Member) : (s.payOwed l).groups = s.groups ∧ (s.payOwed l).mem = s.mem ∧
    ∀ f : Fld, OffUpdates f.addr → (s.payOwed l).fld f = s.fld f := by
  refine foldl_keeps (fun y : State => y.groups = s.groups ∧ y.mem = s.mem ∧ ∀ f : Fld, OffUpdates f.addr → y.fld f = s.fld f) l _ s
    ⟨rfl, rfl, fun _ _ => rfl⟩ fun y m hy => ?_
  obtain ⟨hgroups, hmem, hfld⟩ := hy
  refine ⟨hgroups, hmem, fun f hf => ?_⟩
  unfold State.fld at hfld ⊢
  rw [State.reg_complete _ _ _ _ _ _ hf]
  exact hfld f hf

theorem State.groupOf_freeCommitted (s : State) (c : CommitRec) : (s.freeCommitted c).groupOf c.group = none := SMap.find_erase_same _ _

theorem State.mem_freeCommitted (s : State) (c : CommitRec) : (s.freeCommitted c).mem = s.mem := (State.showGroups_keeps _).2.2.1

theorem State.commits_freeCommitted (s : State) (c : CommitRec) : (s.freeCommitted c).fld UPD_GROUP_COUNT_commits = s.fld UPD_GROUP_COUNT_commits := by
  unfold State.freeCommitted State.showGroups
  rw [State.fld_setFld_addr _ UPD_GROUP_STATUS_effects _ _ (by decide), State.fld_setFld_addr _ UPD_GROUP_STATUS_open _ _ (by decide)]
  rfl

/-! ### GROUP_COMMIT_EXECUTE (R343) -/

section
variable {s : State} {g : Nat} {x : Group} {e : Nat} (hcommit : x.commit = some e) (hfull : x.members.length = x.expected) (hbound : x.bound = none)
  (hlate : s.lateMembers x = []) (hvalid : dDeadlineValid (s.desc e) = false)
include hcommit hfull hbound hlate hvalid

theorem State.tryCommit_begins : s.tryCommit g x e = s.recordBegun g x e := by
  have hdeadline : s.groupDeadline x = none := by
    unfold State.groupDeadline
    rw [hcommit]
    exact if_neg (by simp [hvalid])
  have hallows : s.verdictAllows x = true := by
    unfold State.verdictAllows
    rw [hbound]
  unfold State.tryCommit
  dsimp only
  rw [hbound, hdeadline, hallows, hlate]
  dsimp only
  rw [if_neg (by decide), if_neg (by simp [hfull]), if_neg Bool.false_ne_true, if_neg (by simp), State.beginRecord, hbound]
  rfl

variable {turn : CommitTurn} (hturn : turn.group.val = g) (hopen : s.openGroup g = some x)
include hturn hopen

/-- The command makes as many steps of the commit as it is asked to. -/
theorem exec_groupCommitExecute_begins {k : Nat} (hk : min (turn.upTo.getD (x.effects.length + 3)) (x.effects.length + 3) = k) :
    exec (.groupCommitExecute turn) s = .next (State.commitRun k g (s.recordBegun g x e)) := by
  obtain ⟨hrec, -⟩ := State.openGroup_eq hopen
  show execGroupCommitExecute turn s = _
  unfold execGroupCommitExecute
  rw [hturn, hopen]
  dsimp only
  rw [hcommit]
  dsimp only
  rw [State.tryCommit_begins hcommit hfull hbound hlate hvalid, State.recOf_recordBegun hrec]
  dsimp only
  rw [← hk]
  rfl

end

theorem State.recOf_firstMirror {s : State} {g : Nat} (hrec : s.recOf g = none) (x : Group) (e : Nat) :
    ((s.recordBegun g x e).putRec { x.record g e with mirrors := 1 }).recOf g = some { x.record g e with mirrors := 1 } :=
  State.recOf_putRec (State.recOf_recordBegun hrec x e) rfl rfl

section
variable {s : State} {g : Nat} {x : Group} {e : Nat} (hrec : s.recOf g = none) (ha : s.mirrorAOk = true) (hb : s.mirrorBOk = true)
include hrec ha hb

/-- The record is written in its first mirror. -/
theorem State.commitRun_first (k : Nat) : State.commitRun (k + 1) g (s.recordBegun g x e) =
    State.commitRun k g ((s.recordBegun g x e).putRec { x.record g e with mirrors := 1 }) := by
  rw [State.commitRun_succ (State.recOf_recordBegun hrec x e)]
  exact congrArg (State.commitRun k g) (State.commitStep_first (s := s.recordBegun g x e) (c := x.record g e) ha hb rfl)

/-- The group with its record in both mirrors. -/
def State.recorded (s : State) (g : Nat) (x : Group) (e : Nat) : State :=
  (((((s.recordBegun g x e).putRec { x.record g e with mirrors := 1 }).putRec { x.record g e with mirrors := 2 }).count (cntHub 3)).bump
    UPD_GROUP_COUNT_commits).count (cntHub 15)

/-- The commit makes both writes of its record, then its effects, and pays what the group owes. -/
theorem State.commitRun_all : ∃ t k, State.commitRun (x.effects.length + 3) g (s.recordBegun g x e) =
    (State.freeCommitted t k).payOwed (x.record g e).owed ∧ k.group = g ∧ (x.effects = [] → t = s.recorded g x e) := by
  have hfirst := State.recOf_firstMirror hrec x e
  have hstored := (((Stored.refl (((s.recordBegun g x e).putRec { x.record g e with mirrors := 1 }).putRec { x.record g e with mirrors := 2 })).count
    (cntHub 3) 1).bump UPD_GROUP_COUNT_commits 1).count (cntHub 15) 1
  have hboth : (s.recorded g x e).recOf g = some { x.record g e with mirrors := 2 } :=
    (State.recOf_congr hstored.commits g).trans (State.recOf_putRec hfirst rfl rfl)
  obtain ⟨t, k, hrun, hk, hnone⟩ := State.commitRun_committed (m := x.effects.length) hboth rfl (Nat.zero_add _)
  refine ⟨t, k, ?_, hk, fun heffects => hnone (by rw [heffects]; rfl)⟩
  rw [State.commitRun_first hrec ha hb, State.commitRun_succ hfirst, State.commitStep_second (by exact ha) (by exact hb) rfl]
  exact hrun

end

theorem State.recorded_keeps (s : State) (g : Nat) (x : Group) (e : Nat) : (s.recorded g x e).mem = s.mem ∧
    (s.recorded g x e).fld UPD_GROUP_COUNT_commits = min (s.fld UPD_GROUP_COUNT_commits + 1) 0xFFFF := by
  unfold State.recorded
  refine ⟨by rw [State.count_mem, State.bump_mem, State.count_mem]; rfl, ?_⟩
  rw [State.fld_count _ _ _ (by decide), State.fld_bump_same _ _ _ (by decide), State.fld_count _ _ _ (by decide)]
  rfl

section
variable {s : State} {g : Fin 4096} {x : Group} {e : Nat} (hopen : s.openGroup g.val = some x) (hcommit : x.commit = some e)
  (hfull : x.members.length = x.expected) (hbound : x.bound = none) (hlate : s.lateMembers x = []) (ha : s.mirrorAOk = true)
  (hb : s.mirrorBOk = true) (hvalid : dDeadlineValid (s.desc e) = false)
include hopen hcommit hfull hbound hlate ha hb hvalid

theorem groupCommitExecute_all : ∃ t, exec (.groupCommitExecute ⟨g, none⟩) s = .next t ∧ EndsAs t e .ok .none ∧ t.groupOf g.val = none ∧
    (x.effects = [] → MemSame s t ∧ t.fld UPD_GROUP_COUNT_commits = min (s.fld UPD_GROUP_COUNT_commits + 1) 0xFFFF) := by
  obtain ⟨hrec, -⟩ := State.openGroup_eq hopen
  have hexec := exec_groupCommitExecute_begins (turn := ⟨g, none⟩) (k := x.effects.length + 3) hcommit hfull hbound hlate hvalid rfl hopen (Nat.min_self _)
  obtain ⟨t, k, hrun, hk, hnone⟩ := State.commitRun_all (x := x) (e := e) hrec ha hb
  rw [hrun] at hexec
  obtain ⟨hgroups, hmem, hfld⟩ := (State.freeCommitted t k).payOwed_keeps (x.record g.val e).owed
  refine ⟨_, hexec, ?_, ?_, fun heffects => ?_⟩
  · rw [Group.record, State.payOwed_concat]
    exact State.complete_ok_endsAs _ _ _ _ _
  · rw [State.groupOf_congr hgroups, ← hk, State.groupOf_freeCommitted]
  · obtain ⟨hmem', hcount⟩ := s.recorded_keeps g.val x e
    rw [hnone heffects] at hmem hfld ⊢
    refine ⟨State.byte_congr (hmem.trans ((State.mem_freeCommitted _ _).trans hmem')), ?_⟩
    rw [hfld _ (by decide), State.commits_freeCommitted, hcount]

theorem groupCommitExecute_one : ∃ t c, exec (.groupCommitExecute ⟨g, some 1⟩) s = .next t ∧ t.recOf g.val = some c ∧ c.entry = e ∧
    c.effects = x.effects ∧ c.mirrors = 1 ∧ c.made = 0 ∧ t.groupOf g.val = some x ∧ MemSame s t := by
  obtain ⟨hrec, hgroup⟩ := State.openGroup_eq hopen
  have hexec := exec_groupCommitExecute_begins (turn := ⟨g, some 1⟩) (k := 1) hcommit hfull hbound hlate hvalid rfl hopen
    (Nat.min_eq_left (by simp only [Option.getD_some]; omega))
  rw [State.commitRun_first hrec ha hb] at hexec
  exact ⟨_, _, hexec, State.recOf_firstMirror hrec x e, rfl, rfl, rfl, rfl, hgroup, fun _ => rfl⟩

end

theorem groupCommitExecute_effect {s : State} {g : Fin 4096} {c : CommitRec} (hrec : s.recOf g.val = some c) (hmirrors : c.mirrors = 2)
    {f : Effect} (hf : c.effects[c.made]? = some f) : exec (.groupCommitExecute ⟨g, some 1⟩) s =
    .next (((s.putRec { c with made := c.made + 1 }).count (cntHub 17)).makeEffect f) := by
  show execGroupCommitExecute ⟨g, some 1⟩ s = _
  unfold execGroupCommitExecute
  dsimp only
  rw [State.openGroup_of_rec hrec]
  dsimp only
  rw [hrec]
  dsimp only
  rw [Option.getD_some, Nat.min_eq_left (by omega), State.commitRun_succ hrec, State.commitStep_effect hmirrors hf]
  rfl

/-- Settles O24: an open group ends through its record and its effects, or its members are dropped; either way its entry is freed. -/
theorem groupLife : Obligations.GroupLife := by
  refine fun s => ⟨fun e hfresh hok => ⟨groupBegin_unbound hfresh hok, groupBegin_bound hfresh hok⟩,
    fun e hfresh hzero => ⟨fun hnone => exec_groupCommit_closed hfresh hzero hnone, fun x hopen hfirst => groupCommit_waits hfresh hzero hopen hfirst⟩,
    fun e hfresh hzero => ⟨fun hrec => exec_groupAbort_late hfresh hzero hrec, fun hrec hnone => exec_groupAbort_closed hfresh hzero hrec hnone,
      fun hsome => ?_⟩,
    fun g x e hopen hcommit hfull hbound hlate ha hb hvalid => ⟨groupCommitExecute_all hopen hcommit hfull hbound hlate ha hb hvalid,
      groupCommitExecute_one hopen hcommit hfull hbound hlate ha hb hvalid⟩,
    fun g c hrec hmirrors hmade => ?_, fun g x e hopen hcommit hvalid => groupDeadline_passes hopen hcommit hvalid⟩
  · obtain ⟨x, hopen⟩ := Option.isSome_iff_exists.mp hsome
    obtain ⟨hfreed, -, hmem⟩ := State.abortGroup_keeps hopen []
    exact ⟨_, exec_groupAbort_open hfresh hzero hopen, State.complete_ok_endsAs _ _ _ _ _, hfreed,
      fun a => (State.memSame_complete _ _ _ _ _ _ a).trans (hmem a)⟩
  · have hf := List.getElem?_eq_getElem hmade
    exact ⟨_, groupCommitExecute_effect hrec hmirrors hf, fun f hf' => by rw [Option.some.inj (hf.symm.trans hf')]⟩

end Sys2Proof.Machine
end

section
/-! SUPPORT. Family 10_update_engine.md: what an UPDATE reads and writes before it stages, and its staging (O23). -/

namespace Sys2Proof.Machine

/-! ### Numbers in byte strings -/

theorem leNat_leBytes (n x : Nat) : leNat (leBytes n x) = x % 256 ^ n := by
  induction n generalizing x with
  | zero => rw [pow_zero, Nat.mod_one]; rfl
  | succ n ih =>
    have hbyte : (BitVec.ofNat 8 x).toNat = x % 256 := BitVec.toNat_ofNat x 8
    rw [leBytes, leNat, ih, hbyte, pow_succ', Nat.mod_mul]

/-- The number with which a byte string begins. -/
theorem leAt_leBytes_append (n x : Nat) (l : List Byte) : leAt (leBytes n x ++ l) 0 n = x % 256 ^ n := by
  unfold leAt
  rw [List.drop_zero, List.take_left' (length_leBytes n x), leNat_leBytes]

/-! ### What an UPDATE keeps until it stages -/

/-- Only stores differ, and journal and status fields are as before. -/
structure StoresOnly (s t : State) : Prop where
  stored : Stored s t
  steady : Steady s t

/-- Groups, commit records, the descriptors under way and the journal are as before. -/
structure GroupsKept (s t : State) : Prop where
  groups : t.groups = s.groups
  commits : t.commits = s.commits
  work : t.work = s.work
  steady : Steady s t

theorem StoresOnly.refl (s : State) : StoresOnly s s := ⟨.refl s, .refl s⟩

section
variable {s t : State} (h : StoresOnly s t)
include h

theorem StoresOnly.load (who : Who) (a n : Nat) : StoresOnly s (t.load who a n).2.2 := ⟨h.stored.load who a n, h.steady.load who a n⟩

theorem StoresOnly.put (a : Nat) (bs : List Byte) : StoresOnly s (t.put a bs) := ⟨h.stored.put a bs, h.steady.put a bs⟩

theorem StoresOnly.bump (f : Fld) (n : Nat) (hf : OffStatus f) : StoresOnly s (t.bump f n) := ⟨h.stored.bump f n, h.steady.bump f n hf⟩

theorem StoresOnly.count (k n : Nat) : StoresOnly s (t.count k n) := ⟨h.stored.count k n, h.steady.count k n⟩

theorem StoresOnly.groupsKept : GroupsKept s t := ⟨h.stored.groups, h.stored.commits, h.stored.work, h.steady⟩

theorem StoresOnly.writeSheet (j : UpdJob) (ms : List Moment) (ds : List Nat) (lv rv : Nat) : StoresOnly s (t.writeSheet j ms ds lv rv) := by
  unfold State.writeSheet
  dsimp only
  have hsheet (a b c d f g : Nat) (ba bb bc bd bf bg : List Byte) : StoresOnly s ((((((t.put a ba).put b bb).put c bc).put d bd).put f bf).put g bg) :=
    (((((h.put _ _).put _ _).put _ _).put _ _).put _ _).put _ _
  split
  · exact (hsheet ..).put _ _
  · exact hsheet ..

end

theorem GroupsKept.setCopies {s t : State} (h : GroupsKept s t) (l : List RecCopy) : GroupsKept s { t with copies := l } :=
  ⟨h.groups, h.commits, h.work, h.steady.congr rfl rfl⟩

theorem Steady.placeErr {s t : State} (h : Steady s t) (b : Nat) : t.placeErr b = s.placeErr b := by
  unfold State.placeErr
  rw [h.regionFenced, h.absent]

/-! ### Staging in an open group (R342) -/

/-- An open group with one more member and its effects. -/
def Group.staged (x : Group) (m : Member) (effects : List Effect) : Group :=
  { x with members := x.members ++ [m], effects := x.effects ++ effects }

theorem Group.staged_ne_zero (x : Group) (m : Member) (effects : List Effect) : x.staged m effects ≠ Group.zero := fun h =>
  List.append_ne_nil_of_right_ne_nil x.members (List.cons_ne_nil m []) (congrArg Group.members h)

theorem State.doing_of_find {t : State} {e : Nat} {w : Work} (h : SMap.find t.work e = some w) (hdone : w.done = false) : t.doing e w.kind = true := by
  unfold State.doing State.working
  rw [h]
  simp [hdone]

theorem SMap.find_set_of_ne {α : Type} [DecidableEq α] {d : Nat → α} {k : Nat} {v : α} (h : v ≠ d k) (m : SMap α) :
    SMap.find (SMap.set d m k v) k = some v := by
  unfold SMap.set
  rw [if_neg h]
  exact SMap.find_insert_same _ _ _

/-- An entry of an open group with room for it stages. -/
theorem State.stage_open {s u : State} (h : GroupsKept s u) {e k : Nat} {x : Group} (hfresh : s.fresh e k = true)
    (hopen : s.openGroup (dGroup (s.desc e)) = some x) {effects : List Effect} (hmembers : x.members.length < x.expected)
    (heffects : x.effects.length + effects.length ≤ 4096) (hheld : s.effectsHeld + effects.length ≤ 32768) (m : Member) :
    (u.stage e effects m none).groupOf (dGroup (s.desc e)) = some (x.staged m effects) ∧ (u.stage e effects m none).doing e k = true ∧
      (u.stage e effects m none).mem = u.mem := by
  obtain ⟨w, hw, rfl, hdone⟩ := State.working_of_fresh hfresh
  have hw' : u.working e = some w := (State.working_congr h.work e).trans hw
  have hopen' : u.openGroup (dGroup (s.desc e)) = some x := (State.openGroup_congr h.groups h.commits _).trans hopen
  have hheld' : u.effectsHeld = s.effectsHeld := by
    unfold State.effectsHeld
    rw [h.groups]
  have hstage : u.stage e effects m none = State.showGroups (State.setWork
      { u with groups := SMap.set groupDefault u.groups (dGroup (s.desc e)) (x.staged m effects) } e { w with phase := 9 }) := by
    rw [← State.begun_of_working (s := { u with groups := SMap.set groupDefault u.groups (dGroup (s.desc e)) (x.staged m effects) }) hw']
    unfold State.stage
    rw [h.steady.desc]
    dsimp only
    rw [hopen']
    dsimp only
    rw [if_neg (by rw [hheld']; omega)]
    rfl
  obtain ⟨hgroups, -, hmem, -, -, hwork⟩ := State.showGroups_keeps (State.setWork
    { u with groups := SMap.set groupDefault u.groups (dGroup (s.desc e)) (x.staged m effects) } e { w with phase := 9 })
  rw [← hstage] at hgroups hmem hwork
  refine ⟨?_, State.doing_of_find (w := { w with phase := 9 }) ?_ hdone, hmem⟩
  · unfold State.groupOf
    rw [hgroups]
    exact SMap.find_set_of_ne (x.staged_ne_zero m effects) u.groups
  · rw [hwork]
    exact SMap.find_set_of_ne (fun hnone => Nat.succ_ne_zero 8 (congrArg Work.phase hnone)) u.work

/-! ### The work of an UPDATE (R324 to R328) -/

/-- The header that an UPDATE writes begins with the next version. -/
theorem State.runUpdate_stages {s t : State} (h : StoresOnly s t) (e : Nat) (hdr hyp grad ext : List Byte) (v : Verdict) :
    ∃ u f, GroupsKept s u ∧ leAt f 0 8 = ((shardOf hdr).version + 1) % 2 ^ 64 ∧ t.runUpdate e hdr hyp grad ext v [] =
      u.stage e [.write (leAt (s.desc e) 16 8) f] ⟨e, [.ok], (shardOf hdr).n, v.code⟩ none := by
  have hdone (j : UpdJob) (ms : List Moment) (ds : List Nat) (lv rv aux n m : Nat) (bs : List Byte) (c : Prop) [Decidable c] (b : Nat) :
      StoresOnly s (((if c then (t.writeSheet j ms ds lv rv).put aux bs else t.writeSheet j ms ds lv rv).bump (UPD_ENGINE_COUNT_graft_fallbacks b) n).count
        (cntBlock b 30) m) := by
    have hsheet := h.writeSheet j ms ds lv rv
    have hwritten : StoresOnly s (if c then (t.writeSheet j ms ds lv rv).put aux bs else t.writeSheet j ms ds lv rv) := by
      split
      · exact hsheet.put _ _
      · exact hsheet
    exact (hwritten.bump _ _ (.inl (not_statusReg_blk b 0xF04))).count _ _
  unfold State.runUpdate
  rw [h.steady.desc]
  refine ⟨_, _, (hdone ..).groupsKept.setCopies _, ?_, rfl⟩
  rw [List.append_assoc, List.append_assoc]
  exact leAt_leBytes_append 8 _ _

/-! ### The checks and waits of an UPDATE (R320, R330, R331) -/

/-- The pass of an UPDATE whose lanes agree, once it has read its gradient, its second source and its sheet. -/
def State.updatePass (s : State) (e : Nat) (y h : List Byte × AccEnd × State) (v : Verdict) : State :=
  let d := s.desc e
  let b := leAt d 37 1 % 64
  let x := shardOf h.1
  let g := h.2.2.load devUnit (leAt d 24 8) (4 * x.n)
  let t := if bitsOf (leAt d 36 1) 0 2 = 2 then g.2.2.load devUnit (leAt d 48 8) (4 * x.n) else ([], .ok, g.2.2)
  let c := t.2.2.load devUnit (sheetAt (leAt d 16 8) x.n x.bittern (x.version % 2 == 1)) (sheetSize x.n x.bittern)
  let bad := (g.2.1.join t.2.1).join c.2.1
  if bad ≠ .ok then c.2.2.failMember e bad.err
  else if c.2.2.placeErr b ≠ .none then c.2.2.failMember e (c.2.2.placeErr b)
  else c.2.2.runUpdate e h.1 y.1 g.1 t.1 v []

/-- An UPDATE that passes its checks, as its step's verdict has it. -/
def State.updateJudged (s : State) (e : Nat) (y h : List Byte × AccEnd × State) : State :=
  match s.verdictFor (s.desc e) with
  | none => s
  | some v =>
    if v.code = 3 ∨ v.code = 4 then h.2.2.stage e [] ⟨e, [.skipped], 0, v.code⟩ none
    else if s.sheetRead (leAt (s.desc e) 16 8) ((shardOf h.1).version % 2 == 0) then
      s.setFlagIf (!s.flag (UPD_ENGINE_STATUS_reader_wait (leAt (s.desc e) 37 1 % 64))) (UPD_ENGINE_STATUS_reader_wait (leAt (s.desc e) 37 1 % 64))
    else s.updatePass e y h v

section
variable {s : State} {e : Nat} {y h : List Byte × AccEnd × State} {x : Group} (hfresh : s.fresh e kindUpdate = true)
  (hbody : updateOk (s.desc e) = true) (hy : y = s.load devUnit (leAt (s.desc e) 40 8) 64) (hyok : y.2.1 = .ok)
  (hh : h = y.2.2.load devUnit (leAt (s.desc e) 16 8) 64) (hhok : h.2.1 = .ok) (hhyper : (hyperOf y.1).ok = true) (hzero : dZero y.1 40 63 = true)
  (hsides : s.sidesOk (s.desc e) (shardOf h.1) = true) (hopen : s.openGroup (dGroup (s.desc e)) = some x)
  (hplace : s.placeErr (leAt (s.desc e) 37 1 % 64) = .none) (hholds : s.updateHolds e (leAt (s.desc e) 16 8) = false)
  (hearlier : s.earlier e kindUpdate (fun z => leAt z 16 8 == leAt (s.desc e) 16 8) = false)
include hfresh hbody hy hyok hh hhok hhyper hzero hsides hopen hplace hholds hearlier

theorem exec_update_checked : exec (.update e .none) s = .next (s.updateJudged e y h) := by
  show execUpdate e .none s = _
  unfold execUpdate
  dsimp only
  rw [hfresh, hbody, ← hy, ← hh, hyok, hhok, hhyper, hzero, hsides, hopen, hplace, hholds, hearlier]
  rw [if_neg (by decide), if_neg (by decide), if_neg (by decide), if_neg (by decide), if_neg (by decide), if_neg (by simp),
    if_neg (by decide), if_neg (by decide)]
  rfl

end

section
variable {s : State} {e : Nat} {y h : List Byte × AccEnd × State}

theorem State.updateJudged_waits (hv : s.verdictFor (s.desc e) = none) : s.updateJudged e y h = s := by
  unfold State.updateJudged
  rw [hv]

theorem State.updateJudged_skipped {v : Verdict} (hv : s.verdictFor (s.desc e) = some v) (hskip : v.code = 3 ∨ v.code = 4) :
    s.updateJudged e y h = h.2.2.stage e [] ⟨e, [.skipped], 0, v.code⟩ none := by
  unfold State.updateJudged
  rw [hv]
  exact if_pos hskip

theorem State.updateJudged_passes {v : Verdict} (hv : s.verdictFor (s.desc e) = some v) (hskip : ¬(v.code = 3 ∨ v.code = 4))
    (hreader : s.sheetRead (leAt (s.desc e) 16 8) ((shardOf h.1).version % 2 == 0) = false) : s.updateJudged e y h = s.updatePass e y h v := by
  unfold State.updateJudged
  rw [hv]
  dsimp only
  rw [if_neg hskip, hreader]
  rfl

theorem State.updatePass_runs {g a c : List Byte × AccEnd × State} (v : Verdict)
    (hg : g = h.2.2.load devUnit (leAt (s.desc e) 24 8) (4 * (shardOf h.1).n))
    (ha : a = if bitsOf (leAt (s.desc e) 36 1) 0 2 = 2 then g.2.2.load devUnit (leAt (s.desc e) 48 8) (4 * (shardOf h.1).n) else ([], .ok, g.2.2))
    (hc : c = a.2.2.load devUnit (sheetAt (leAt (s.desc e) 16 8) (shardOf h.1).n (shardOf h.1).bittern ((shardOf h.1).version % 2 == 1))
      (sheetSize (shardOf h.1).n (shardOf h.1).bittern)) (hgok : g.2.1 = .ok) (haok : a.2.1 = .ok) (hcok : c.2.1 = .ok)
    (hplace : c.2.2.placeErr (leAt (s.desc e) 37 1 % 64) = .none) : s.updatePass e y h v = c.2.2.runUpdate e h.1 y.1 g.1 a.1 v [] := by
  unfold State.updatePass
  dsimp only
  rw [← hg, ← ha, ← hc, hgok, haok, hcok, hplace]
  rfl

end

/-- Settles O23: an UPDATE that passes its checks does as its step's verdict has it, and what it reads and writes leaves groups and descriptor alone. -/
theorem updatesStage : Obligations.UpdatesStage := by
  intro s e y h x hfresh hbody hy hyok hh hhok hhyper hzero hsides hopen hplace hholds hearlier hmembers heffects hheld
  have hexec := exec_update_checked hfresh hbody hy hyok hh hhok hhyper hzero hsides hopen hplace hholds hearlier
  have hread : StoresOnly s h.2.2 := by
    rw [hh, hy]
    exact ((StoresOnly.refl s).load _ _ _).load _ _ _
  have hmem : h.2.2.mem = s.mem := by
    rw [hh, hy]
    exact (((Noted.refl s).load _ _ _).load _ _ _).mem
  refine ⟨fun hv => ?_, fun v hv hskip => ?_, fun v g a c hv h3 h4 hreader hg ha hc hgok haok hcok => ?_⟩
  · rw [hexec, State.updateJudged_waits hv]
  · rw [State.updateJudged_skipped hv hskip] at hexec
    obtain ⟨hgroup, -, hmem'⟩ := State.stage_open hread.groupsKept hfresh hopen (effects := []) hmembers (Nat.le_of_lt heffects) (Nat.le_of_lt hheld)
      ⟨e, [.skipped], 0, v.code⟩
    refine ⟨_, hexec, State.byte_congr (hmem'.trans hmem), hgroup.trans ?_⟩
    rw [Group.staged, List.append_nil]
  · have hpass : StoresOnly s c.2.2 := by
      have hgrad : StoresOnly s g.2.2 := hg ▸ hread.load _ _ _
      have hboth : StoresOnly s a.2.2 := by
        rw [ha]
        split
        · exact hgrad.load _ _ _
        · exact hgrad
      exact hc ▸ hboth.load _ _ _
    obtain ⟨u, f, hkept, hversion, hrun⟩ := State.runUpdate_stages hpass e h.1 y.1 g.1 a.1 v
    rw [State.updateJudged_passes hv (not_or_intro h3 h4) hreader,
      State.updatePass_runs v hg ha hc hgok haok hcok ((hpass.steady.placeErr _).trans hplace), hrun] at hexec
    obtain ⟨hgroup, hdoing, -⟩ := State.stage_open hkept hfresh hopen (effects := [.write (leAt (s.desc e) 16 8) f]) hmembers heffects hheld
      ⟨e, [.ok], (shardOf h.1).n, v.code⟩
    exact ⟨_, f, hexec, hdoing, hgroup, hversion⟩

end Sys2Proof.Machine
end

section
/-! SUPPORT. Families 10_update_engine.md and 12_job_mapping.md: gathers at the requester and the owner, and the sends and the end of RING_STEPs (O39). -/

namespace Sys2Proof.Machine

/-! ### Transfers over the web -/

/-- Without local transfers nothing passes over the region crossbar. -/
theorem State.drainLocal_of_remote {s : State} (h : ∀ x ∈ s.tx, x.loc = false) : s.drainLocal = s := by
  have hnone : s.tx.filter (fun x => x.loc) = [] := List.filter_eq_nil_iff.mpr fun x hx => by simp [h x hx]
  unfold State.drainLocal
  rw [hnone]
  rfl

/-- One more transfer over the web starts no local one. -/
theorem State.startTx_remote {s : State} (h : ∀ x ∈ s.tx, x.loc = false) {x : TxXfer} (hx : x.loc = false) :
    ∀ z ∈ (s.startTx x).tx, z.loc = false := by
  intro z hz
  rcases List.mem_append.mp hz with hz | hz
  · exact h z hz
  · rwa [List.mem_singleton.mp hz]

/-- A receive, no BROADCAST's, on a stream on which none is bound. -/
theorem State.bind_unbound {s : State} {stream : Nat} {b : RxBind} (hkind : b.kind ≠ .broadcast) (hnone : (s.rxOf stream).bound = none)
    (hremote : ∀ x ∈ s.tx, x.loc = false) : ∃ r, s.bind stream b = s.setRx stream r ∧ r.bound = some b := by
  have hbind : s.bind stream b = (s.setRx stream { s.rxOf stream with
      bound := some b
      marks := (s.rxOf stream).marks.filter (fun x => x.1 != b.tag && !(b.kind == RxKind.broadcast && laterStep b.tag x.1)) }).drainLocal := by
    unfold State.bind
    dsimp only
    rw [if_neg hkind, hnone]
  exact ⟨_, hbind.trans (State.drainLocal_of_remote hremote), rfl⟩

/-! ### GATHER_WIDEN at the requester (R318) -/

theorem gatherWiden_binds {s : State} {e : Nat} (hremote : ∀ x ∈ s.tx, x.loc = false) (hfresh : s.fresh e kindGather = true)
    (hbody : gatherOk (s.desc e) = true) (howner : gChip (leAt (s.desc e) 16 8) ≠ s.chip) (hnone : (s.rxOf (leAt (s.desc e) 40 2)).bound = none) :
    ∃ t, exec (.gatherWiden e) s = .next t ∧ t.doing e kindGather = true ∧ (t.rxOf (leAt (s.desc e) 40 2)).bound =
      some (RxBind.new e (if leAt (s.desc e) 42 1 = 0 then .widen else .plain) (dSeq (s.desc e)) (leAt (s.desc e) 32 8)
        (2 * leAt (s.desc e) 28 4) (leAt (s.desc e) 43 1)) ∧ t = { s with work := t.work, rx := t.rx } := by
  obtain ⟨w, hw, -, -⟩ := State.working_of_fresh hfresh
  have hbegun := State.begun_of_working hw 1
  have hkind : (if leAt (s.desc e) 42 1 = 0 then RxKind.widen else .plain) ≠ .broadcast := by split <;> decide
  generalize hb : RxBind.new e (if leAt (s.desc e) 42 1 = 0 then .widen else .plain) (dSeq (s.desc e)) (leAt (s.desc e) 32 8)
    (2 * leAt (s.desc e) 28 4) (leAt (s.desc e) 43 1) = b
  have hexec : exec (.gatherWiden e) s = .next ((s.begun e).bind (leAt (s.desc e) 40 2) b) := by
    show execGatherWiden e s = _
    unfold execGatherWiden
    dsimp only
    rw [if_pos hfresh, if_neg (by simp [hbody, howner]), if_neg (by simp [howner]), hb]
  obtain ⟨r, hbind, hbound⟩ := State.bind_unbound (s := s.begun e) (stream := leAt (s.desc e) 40 2) (b := b) (by rw [← hb]; exact hkind)
    (by rw [hbegun]; exact hnone) (by rw [hbegun]; exact hremote)
  rw [hbind] at hexec
  refine ⟨_, hexec, State.doing_begun hfresh rfl rfl, ?_, ?_⟩
  · rw [State.rxOf_setRx_same, hbound]
  · rw [hbegun]
    rfl

/-! ### A gather at the owner (R319, R320) -/

section
variable {s : State} {req : BitVec 16} {shard : BitVec 48} {first count : BitVec 32} {fmt8 : Bool} {stream : BitVec 16} {tag : BitVec 32}
  {dst : BitVec 48} {hold : Byte} {minv : BitVec 64}

theorem exec_gatherStart_waits (hversion : s.shardVersion shard.toNat < minv.toNat) :
    exec (.gatherStart req shard first count fmt8 stream tag dst hold minv) s = .next s :=
  congrArg Host.Outcome.next (if_neg (Nat.not_le.mpr hversion))

theorem gatherStart_starts (hremote : ∀ x ∈ s.tx, x.loc = false) (hversion : minv.toNat ≤ s.shardVersion shard.toNat) (hreq : req.toNat ≠ s.chip)
    (hread : (s.load (.unit (srcOther 1)) (sheetAt shard.toNat (s.shardN shard.toNat) (s.shardBittern shard.toNat)
      (s.shardVersion shard.toNat % 2 == 1) + 4096 + 2 * first.toNat) (2 * count.toNat)).2.1 = .ok) :
    ∃ t x, exec (.gatherStart req shard first count fmt8 stream tag dst hold minv) s = .next t ∧ t.tx = s.tx ++ [x] ∧
      x.stream = stream.toNat ∧ x.tag = tag.toNat ∧ x.owner = TxOwner.gather ∧ x.next = 0 ∧ x.dst = req.toNat ∧ (x.be = true ↔ stream = 0#16) ∧
      x.sheet = some (shard.toNat, s.shardVersion shard.toNat % 2 == 1) ∧ MemSame s t := by
  have hexec : exec (.gatherStart req shard first count fmt8 stream tag dst hold minv) s = .next
      (s.gatherStart req.toNat shard.toNat first.toNat count.toNat fmt8 stream.toNat tag.toNat dst.toNat hold.toNat) :=
    congrArg Host.Outcome.next (if_pos hversion)
  have hloc : (req.toNat == s.chip) = false := beq_false_of_ne hreq
  unfold State.gatherStart at hexec
  dsimp only at hexec
  rw [if_neg (not_not_intro hread), hloc] at hexec
  have hnoted := (Noted.refl s).load (.unit (srcOther 1)) (sheetAt shard.toNat (s.shardN shard.toNat) (s.shardBittern shard.toNat)
    (s.shardVersion shard.toNat % 2 == 1) + 4096 + 2 * first.toNat) (2 * count.toNat)
  generalize s.load (.unit (srcOther 1)) (sheetAt shard.toNat (s.shardN shard.toNat) (s.shardBittern shard.toNat)
    (s.shardVersion shard.toNat % 2 == 1) + 4096 + 2 * first.toNat) (2 * count.toNat) = z at hexec hnoted
  have hremote' : ∀ x ∈ z.2.2.tx, x.loc = false := by
    rw [hnoted.stored.tx]
    exact hremote
  rw [State.drainLocal_of_remote (State.startTx_remote hremote' (by rfl))] at hexec
  refine ⟨_, _, hexec, congrArg (· ++ [_]) hnoted.stored.tx, rfl, rfl, rfl, rfl, rfl, ?_, rfl, State.byte_congr hnoted.mem⟩
  rw [Bool.not_false, Bool.and_true, beq_iff_eq]
  exact ⟨fun h => BitVec.eq_of_toNat_eq h, fun h => congrArg BitVec.toNat h⟩

end

/-! ### RING_STEPs in execution (R403, R404, R415) -/

theorem State.setRingJob_keeps (s : State) (e : Nat) (j : RingJob) : (s.setRingJob e j).ringJobs = SMap.insert s.ringJobs e j ∧
    (s.setRingJob e j).tx = s.tx ∧ (s.setRingJob e j).mem = s.mem := by
  unfold State.setRingJob State.showRingJobs
  exact ⟨State.setFld_ringJobs _ _ _, State.setFld_tx _ _ _, State.setFld_mem _ _ _⟩

/-- The transfer of a RING_STEP. -/
def ringTransfer (d : List Byte) (e : Nat) (bs : List Byte) : TxXfer :=
  TxXfer.new (gSendStream d) (gTag d) (leAt d 28 1) (.entry e) (cellsOf bs) 0xFFFF false

theorem ringStep_sends {s : State} {e : Nat} (hfresh : s.fresh e kindRingStep = true) (hbody : ringStepOk (s.desc e) = true)
    (hroom : s.ringJobs.length < 511) (hsend : gSendStream (s.desc e) ≠ 0) (hrecv : gRecvStream (s.desc e) = 0)
    (hweb : s.isLocalStream (gSendStream (s.desc e)) = false) (hremote : ∀ x ∈ s.tx, x.loc = false)
    (hread : (s.load (.unit (srcRing (s.jget e).ring)) (leAt (s.desc e) 32 8) (gBytes (s.desc e))).2.1 = .ok) :
    ∃ t, exec (.ringStep e) s = .next t ∧ SMap.find t.ringJobs e = some ⟨false, true, 0, 0, false⟩ ∧
      (∃ x, t.tx = s.tx ++ [x] ∧ x.stream = gSendStream (s.desc e) ∧ x.tag = gTag (s.desc e) ∧ x.owner = TxOwner.entry e) := by
  obtain ⟨w, hw, -, -⟩ := State.working_of_fresh hfresh
  have hstored := ((Noted.refl s).load (.unit (srcRing (s.jget e).ring)) (leAt (s.desc e) 32 8) (gBytes (s.desc e))).stored
  generalize hx : s.load (.unit (srcRing (s.jget e).ring)) (leAt (s.desc e) 32 8) (gBytes (s.desc e)) = x at hread hstored
  have hexec : exec (.ringStep e) s = .next ((((x.2.2.begun e).setRingJob e ⟨false, true, 0, 0, false⟩).startTx
      (ringTransfer (s.desc e) e x.1)).drainLocal) := by
    show execRingStep e s = _
    unfold execRingStep
    dsimp only
    rw [if_pos hfresh, hbody, if_neg (by decide), if_neg (Nat.not_le.mpr hroom), if_neg hsend, hx, if_neg (not_not_intro hread), if_neg hsend,
      if_pos hrecv, hweb, hrecv, beq_false_of_ne hsend]
    rfl
  have hbegun := State.begun_of_working ((State.working_congr hstored.work e).trans hw) 1
  obtain ⟨hjobs, htx, -⟩ := (x.2.2.begun e).setRingJob_keeps e ⟨false, true, 0, 0, false⟩
  have htx' : ((x.2.2.begun e).setRingJob e ⟨false, true, 0, 0, false⟩).tx = s.tx := by
    rw [htx, hbegun, State.setWork_tx, hstored.tx]
  rw [State.drainLocal_of_remote (State.startTx_remote (by rw [htx']; exact hremote) (by rfl))] at hexec
  refine ⟨_, hexec, ?_, ringTransfer (s.desc e) e x.1, congrArg (· ++ [ringTransfer (s.desc e) e x.1]) htx', rfl, rfl, rfl⟩
  exact (congrArg (SMap.find · e) hjobs).trans (SMap.find_insert_same _ _ _)

theorem ringStepLandingOpen_opens {s : State} {e : Nat} {j : RingJob} (hjob : SMap.find s.ringJobs e = some j) (hclosed : j.isOpen = false)
    (hrecv : j.recvDone = false) (hwait : SMap.find s.waits e = none) (hremote : ∀ x ∈ s.tx, x.loc = false) :
    ∃ t, exec (.ringStepLandingOpen e) s = .next t ∧ SMap.find t.ringJobs e = some { j with isOpen := true } ∧ MemSame s t := by
  obtain ⟨hjobs, htx, hmem⟩ := s.setRingJob_keeps e { j with isOpen := true }
  have hnotice (l : List Nat) (n : Notice) : ∀ u, u = l.foldl (fun (t : State) (p : Nat) => (t.addCtlNext p n).count (cntPort p 9))
      (s.setRingJob e { j with isOpen := true }) → u.ringJobs = SMap.insert s.ringJobs e { j with isOpen := true } ∧ u.tx = s.tx ∧ u.mem = s.mem := by
    rintro u rfl
    refine foldl_keeps (fun y : State => y.ringJobs = SMap.insert s.ringJobs e { j with isOpen := true } ∧ y.tx = s.tx ∧ y.mem = s.mem) l _ _
      ⟨hjobs, htx, hmem⟩ fun y p hy => ?_
    obtain ⟨r, v, c, hcount⟩ := (y.addCtlNext p n).count_eq (cntPort p 9) 1
    rw [hcount]
    exact hy
  have hexec : exec (.ringStepLandingOpen e) s = execRingStepLandingOpen e s := rfl
  unfold execRingStepLandingOpen at hexec
  rw [hjob] at hexec
  dsimp only at hexec
  rw [if_neg (by simp [hclosed, hrecv, hwait])] at hexec
  obtain ⟨hjobs', htx', hmem'⟩ := hnotice _ _ _ rfl
  rw [State.drainLocal_of_remote (by rw [htx']; exact hremote)] at hexec
  exact ⟨_, hexec, by rw [hjobs']; exact SMap.find_insert_same _ _ _, State.byte_congr hmem'⟩

/-! ### A RING_STEP that its deadline ends (R401, R407) -/

theorem State.dropRingJob_keeps (s : State) (e : Nat) : (s.dropRingJob e).ringJobs = SMap.erase s.ringJobs e ∧ (s.dropRingJob e).tide = s.tide ∧
    (s.dropRingJob e).mem = s.mem := by
  have hshown (t : State) : t.showRingJobs.ringJobs = t.ringJobs ∧ t.showRingJobs.tide = t.tide ∧ t.showRingJobs.mem = t.mem :=
    ⟨State.setFld_ringJobs _ _ _, State.setFld_tide _ _ _, State.setFld_mem _ _ _⟩
  unfold State.dropRingJob
  obtain ⟨hjobs, htide, hmem⟩ := hshown _
  rw [hjobs, htide, hmem]
  split
  · split
    · split <;> exact ⟨rfl, rfl, rfl⟩
    · exact ⟨rfl, rfl, rfl⟩
  · exact ⟨rfl, rfl, rfl⟩

theorem State.setNorm_keeps (s : State) (n : Nat) (a : NormAcc) : (s.setNorm n a).ringJobs = s.ringJobs ∧ (s.setNorm n a).tide = s.tide ∧
    (s.setNorm n a).mem = s.mem ∧ (s.setNorm n a).regs = s.regs := ⟨rfl, rfl, rfl, rfl⟩

theorem State.poisonStep_keeps (s : State) (n : Nat) : (s.poisonStep n).ringJobs = s.ringJobs ∧ (s.poisonStep n).tide = s.tide ∧
    (s.poisonStep n).mem = s.mem ∧ (s.poisonStep n).fld HUB_RING_STATUS_late = s.fld HUB_RING_STATUS_late := by
  unfold State.poisonStep State.markNonfinite
  obtain ⟨hjobs, htide, hmem, hregs⟩ := s.setNorm_keeps n { s.normOf n with nonfinite := true }
  generalize s.setNorm n { s.normOf n with nonfinite := true } = t at hjobs htide hmem hregs
  have hcount := State.fld_bump_other t HUB_RING_COUNT_poisoned HUB_RING_STATUS_late (b2n (!(s.normOf n).poisoned)) (by decide) (.inl (by decide))
  have hcounted : (t.bump HUB_RING_COUNT_poisoned (b2n (!(s.normOf n).poisoned))).ringJobs = t.ringJobs ∧
      (t.bump HUB_RING_COUNT_poisoned (b2n (!(s.normOf n).poisoned))).tide = t.tide ∧
      (t.bump HUB_RING_COUNT_poisoned (b2n (!(s.normOf n).poisoned))).mem = t.mem :=
    ⟨State.bump_ringJobs _ _ _, State.bump_tide _ _ _, State.bump_mem _ _ _⟩
  generalize t.bump HUB_RING_COUNT_poisoned (b2n (!(s.normOf n).poisoned)) = u at hcount hcounted
  obtain ⟨hjobs', htide', hmem'⟩ := hcounted
  obtain ⟨hjobs'', htide'', hmem'', hregs''⟩ := u.setNorm_keeps n { u.normOf n with poisoned := true }
  exact ⟨hjobs''.trans (hjobs'.trans hjobs), htide''.trans (htide'.trans htide), hmem''.trans (hmem'.trans hmem),
    (State.fld_congr hregs'' _).trans (hcount.trans (State.fld_congr hregs _))⟩

theorem State.failRing_late (s : State) (e : Nat) : EndsAs (s.failRing e .late .none) e .late .none ∧
    SMap.find (s.failRing e .late .none).ringJobs e = none ∧ (s.failRing e .late .none).fld HUB_RING_STATUS_late = 1 ∧ (s.failRing e .late .none).tide = s.tide ∧ (s.failRing e .late .none).mem = s.mem := by
  have hfail : s.failRing e .late .none =
      (((s.dropRingJob e).setFlag HUB_RING_STATUS_late).poisonStep (gStep (s.desc e))).complete e [.late] .none := rfl
  obtain ⟨hjobs, htide, hmem⟩ := s.dropRingJob_keeps e
  obtain ⟨hjobs', htide', hmem', hfld⟩ := ((s.dropRingJob e).setFlag HUB_RING_STATUS_late).poisonStep_keeps (gStep (s.desc e))
  rw [hfail]
  refine ⟨State.complete_endsAs _ _ _ _ _, ?_, ?_, ?_, ?_⟩
  · rw [State.complete_ringJobs, hjobs', State.setFlag_ringJobs, hjobs, SMap.find_erase_same]
  · have hshown : (((s.dropRingJob e).setFlag HUB_RING_STATUS_late).poisonStep (gStep (s.desc e))).fld HUB_RING_STATUS_late = 1 :=
      hfld.trans (State.fld_setFlag_same _ _ rfl (by decide))
    unfold State.fld at hshown ⊢
    rw [State.reg_complete _ _ _ _ _ _ (by decide), hshown]
  · rw [State.complete_tide, htide', State.setFlag_tide, htide]
  · rw [State.complete_mem, hmem', State.setFlag_mem, hmem]

theorem State.cancel_keeps (s : State) (chip : Nat) (w : Watch) : (s.cancel chip w).tide = s.tide ∧ (s.cancel chip w).mem = s.mem := by
  unfold State.cancel State.setSync
  split
  · exact ⟨(State.setFld_tide _ _ _).trans (State.setFld_tide _ _ _), (State.setFld_mem _ _ _).trans (State.setFld_mem _ _ _)⟩
  · exact ⟨rfl, rfl⟩

/-- The deadline has come, and the free counter's home is to cancel the watch. -/
def State.ringExpired (s : State) (e : Nat) : State :=
  match SMap.find s.waits e with
  | some j => (s.atTide (dDeadline (s.desc e))).cancel j.chip j.watch
  | none => s.atTide (dDeadline (s.desc e))

theorem State.ringExpired_keeps (s : State) (e : Nat) : (s.ringExpired e).tide = (s.atTide (dDeadline (s.desc e))).tide ∧ (s.ringExpired e).mem = s.mem := by
  unfold State.ringExpired
  split
  · exact State.cancel_keeps _ _ _
  · exact ⟨rfl, rfl⟩

theorem exec_ringStepDeadline {s : State} {e : Nat}
    (h : SMap.find s.ringJobs e ≠ none ∨ s.fresh e kindRingStep = true ∧ dDeadlineValid (s.desc e) = true) :
    exec (.ringStepDeadline e) s = .next ((s.ringExpired e).failRing e .late .none) :=
  congrArg Host.Outcome.next (if_pos (h.imp_left Option.isSome_iff_ne_none.mpr))

/-- Settles O39: the transfers start over the web, and a RING_STEP that ends leaves execution before it completes. -/
theorem gathersAndRingSteps : Obligations.GathersAndRingSteps := by
  refine ⟨fun s hremote => ⟨fun e hfresh hbody howner hnone => gatherWiden_binds hremote hfresh hbody howner hnone,
      fun _ _ _ _ _ _ _ _ _ _ hversion hreq hread => gatherStart_starts hremote hversion hreq hread,
      fun _ _ _ _ _ _ _ _ _ _ hversion => exec_gatherStart_waits hversion⟩,
    fun s e => ⟨fun hfresh hbody hroom hsend hrecv hweb hremote hread => ringStep_sends hfresh hbody hroom hsend hrecv hweb hremote hread,
      fun j hjob hclosed hrecv hwait hremote => ringStepLandingOpen_opens hjob hclosed hrecv hwait hremote, fun h => ?_⟩⟩
  obtain ⟨hends, hjobs, hlate, htide, hmem⟩ := (s.ringExpired e).failRing_late e
  obtain ⟨htide', hmem'⟩ := s.ringExpired_keeps e
  exact ⟨_, exec_ringStepDeadline h, hends, hjobs, hlate, congrArg TideUnit.ns (htide.trans htide'), State.byte_congr (hmem.trans hmem')⟩

end Sys2Proof.Machine
end
